-- ==== Sys2Proof/Word.lean ====
section
/-! DEFINITION. Word.lean: the bit-vector widths the manual uses, and the sparse tables keyed by a number. -/

namespace Sys2Proof

/-- One byte of memory, of a payload or of a packet. -/
abbrev Byte := BitVec 8

/-- A u16, u32 or u64 field of the manual (little-endian in memory, R10). -/
abbrev U16 := BitVec 16
abbrev U32 := BitVec 32
abbrev U64 := BitVec 64

/-- A table keyed by a number. In canonical form its keys rise strictly. -/
abbrev KMap (α : Type) := List (Nat × α)

/-- A byte memory: (address, byte) pairs, addresses strictly rising, no entry equal to what an unlisted address reads as. -/
abbrev Memory := List (Nat × BitVec 8)

end Sys2Proof
end

