-- ==== Sys2Proof/Syntax.lean ====
section
/-! DEFINITION. Syntax.lean: the commands of the block, one constructor per row of spec/opcode_table.json, and their operands. -/

namespace Sys2Proof

/-- A 64-byte command written into a task register (03 R76-R85), by function `fn` into register `reg`.
The opcode is the constructor's. `crc` is the CRC field as written. -/
structure TaskCmd where
  fn      : Nat
  reg     : Nat
  flags   : U16
  tag     : U32
  target  : U64
  length  : U64
  haddr   : U64
  ops     : BitVec 128
  tx      : U32
  rsv     : U32
  seq     : U16
  polder  : U16
  crc     : U32
  deriving DecidableEq, Repr

/-- The management paths of R466: the PF mailbox, a VF mailbox, an MCTP endpoint, a fabric source module. -/
inductive OdPath where
  | pf
  | vf (n : Nat)
  | mctp (eid : Nat)
  | fabric (m : Nat)
  deriving DecidableEq, Repr

/-- The OD_READ / OD_WRITE payload of R435 less its data. `remote` is the Module field when REMOTE is set. -/
structure OdReq where
  path    : OdPath
  index   : Nat
  sub     : Nat
  remote  : Option Nat
  offset  : Nat
  length  : Nat
  deriving DecidableEq, Repr

/-- A context of a job: the JOB handle and the context index (R137). -/
structure CtxId where
  job : Nat
  idx : Nat
  deriving DecidableEq, Repr

/-- A fabric packet: the header of R402 and its payload. -/
structure Packet where
  type    : Nat
  order   : Bool
  dateline : Bool
  hops    : Nat
  dest    : Nat
  tclass  : Nat
  src     : Nat
  length  : Nat
  tag     : Nat
  streamSeq : Nat
  addr    : U64
  tx      : U32
  polder  : Nat
  group   : Nat
  status  : U16
  payload : List Byte
  deriving DecidableEq, Repr

/-- A 256-byte flit of R391 with its packets given whole, and whether it arrived undamaged (its CRC verifies and no
uncorrectable codeword holds part of it, R390). -/
structure Flit where
  seq     : Nat
  acked   : Nat
  nak     : Bool
  idle    : Bool
  creditVc : Nat
  credits : Nat
  packets : List Packet
  intact  : Bool
  corrected : Nat
  badWords : Nat
  deriving DecidableEq, Repr

/-- What a port learns from its peer during TRAINING (R389) and which lanes locked (R393). -/
structure PeerIdent where
  lanes    : BitVec 8
  fabricId : U64
  module   : Nat
  port     : Nat
  deriving DecidableEq, Repr

/-- One directory entry of a communication group as it travels between modules (R409): member module, index, pin. -/
structure GroupEntry where
  number  : Nat
  keeper  : Nat
  epoch   : Nat
  members : List (Nat × Nat × Option Nat)
  deriving DecidableEq, Repr

/-- How a NAND page read ended (R343): the step that decoded it, or failure after step 3. -/
inductive ReadOutcome where
  | hard
  | reread
  | soft
  | failed
  deriving DecidableEq, Repr

/-- The auxiliary sense pins as read at step 3 of R449 (R444). `true` is Ground for SENSE0/1 and Low for CARD_CBL_PRES#. -/
structure SensePins where
  sense0 : Bool
  sense1 : Bool
  present : Bool
  deriving DecidableEq, Repr

/-- The sensors the health monitor and the AON block sample, in degrees Celsius, and board power in 0.1 W (R441, R505). -/
structure Sensors where
  die   : Int
  dieMin : Int
  dieMean : Int
  nand  : Int
  inlet : Int
  power : Nat
  deriving DecidableEq, Repr

/-- A sharded query as it travels to a shard home (R330). -/
structure ShardQ where
  coord  : Nat
  tag    : Nat
  shard  : Nat
  index  : Nat
  polder : Nat
  group  : Nat
  query  : List Byte
  k      : Nat
  cap    : Nat
  lists  : Nat
  deriving DecidableEq, Repr

/-- A shard home's answer (R330). -/
structure ShardR where
  tag     : Nat
  shard   : Nat
  status  : Nat
  truncated : Bool
  epoch   : Nat
  scanned : Nat
  candidates : Nat
  dimension : Nat
  vformat : Nat
  metric  : Nat
  results : List (Nat × U32)
  deriving DecidableEq, Repr

/-- A row addition or marker on its way to a table's home (R294-R296). `row = none` is a marker. -/
structure RowAdd where
  table  : Nat
  row    : Option Nat
  step   : Nat
  src    : Nat
  pos    : Nat
  polder : Nat
  group  : Nat
  tx     : Nat
  values : List U32
  deriving DecidableEq, Repr

/-- A member's part of a collective operation (R415): group, number in the epoch, member index, and the record's fields. -/
structure CollPart where
  group  : Nat
  epoch  : Nat
  number : Nat
  member : Nat
  op     : Nat
  format : Nat
  root   : Nat
  bytes  : Nat
  k      : Nat
  data   : List Byte
  deriving DecidableEq, Repr

/-- A command carried whole to its home as a runtime message (R526): the home-side command, its opcode and its source. -/
structure Carried where
  src     : Nat
  opcode  : Nat
  tag     : Nat
  polder  : Nat
  group   : Nat
  target  : Nat
  offset  : Nat
  length  : Nat
  tx      : Nat
  ops     : BitVec 128
  payload : List Byte
  deriving DecidableEq, Repr

/-- A job forwarded to this module (R183). -/
structure FwdJob where
  src      : Nat
  tag      : Nat
  program  : Nat
  argument : Nat
  polder   : Nat
  group    : Nat
  priority : Nat
  seed     : U32
  deriving DecidableEq, Repr

/-- The commands: one constructor per row of the table. -/
inductive Instr where
  -- task-register commands (R84)
  | read (c : TaskCmd)
  | write (c : TaskCmd)
  | flush (c : TaskCmd)
  | trim (c : TaskCmd)
  | create (c : TaskCmd)
  | destroy (c : TaskCmd)
  | map (c : TaskCmd)
  | mapUnbind (c : TaskCmd)
  | pin (c : TaskCmd)
  | unpin (c : TaskCmd)
  | setPolicy (c : TaskCmd)
  | txBegin (c : TaskCmd)
  | txCommit (c : TaskCmd)
  | txAbort (c : TaskCmd)
  | job (c : TaskCmd)
  | jobCancel (c : TaskCmd)
  | search (c : TaskCmd)
  | insert (c : TaskCmd)
  | delete (c : TaskCmd)
  | lookup (c : TaskCmd)
  | updateRows (c : TaskCmd)
  | nsCreate (c : TaskCmd)
  | nsDelete (c : TaskCmd)
  | setPowerState (c : TaskCmd)
  | sanitize (c : TaskCmd)
  | fwStage (c : TaskCmd)
  | fwActivate (c : TaskCmd)
  | scrub (c : TaskCmd)
  -- task-register accesses
  | commandComplete (reg : Nat)
  | ack (fn reg : Nat)
  | overrunClear (fn reg : Nat) (withAck : Bool)
  | resultRead (fn reg offset length : Nat)
  | ringEnable (fn reg : Nat) (enable : Bool) (ring : Nat)
  | headWrite (fn reg ring head : Nat)
  | registerWrite (fn offset : Nat) (data : List Byte)
  -- mailbox and object dictionary
  | identify (fn : Nat)
  | getSupportedLogs (fn : Nat)
  | getLog (fn : Nat) (effectsLog : Bool) (offset length : Nat)
  | identifyMemoryDevice (fn : Nat)
  | setTimestamp (fn : Nat) (value : U64)
  | getTimestamp (fn : Nat)
  | odRead (r : OdReq)
  | odWrite (r : OdReq) (data : List Byte)
  | remoteOdTimeout (tag : Nat)
  | mctpOdRead (vendor : U16) (secured : Bool) (r : OdReq)
  | mctpOdWrite (vendor : U16) (secured : Bool) (r : OdReq) (data : List Byte)
  | mctpControl (eid : Nat) (code : Byte)
  | i3cAddressAssign (addr : BitVec 7)
  | fabricOdRead (port : Nat) (tag : Nat) (r : OdReq)
  | fabricOdWrite (port : Nat) (tag : Nat) (r : OdReq) (data : List Byte)
  | polderApply (path : OdPath) (p : Nat)
  | queuePageAssign (path : OdPath)
  | topologyApply (path : OdPath)
  | portEnableWrite (path : OdPath) (port : Nat) (value : Byte)
  | groupAdd (path : OdPath) (value : U32)
  | groupRemove (path : OdPath) (value : U16)
  | groupPin (path : OdPath) (value : U32)
  | inDoubtRollback (path : OdPath) (tx : U32)
  | nonceRead (path : OdPath)
  | maintenanceEntry (path : OdPath) (signature : List Byte)
  | maintenanceExit (path : OdPath)
  | restoreDefaults (path : OdPath)
  | counterSnapshot (path : OdPath) (value : Byte)
  | powerLossModeWrite (path : OdPath) (value : Byte)
  | ownerKeyWrite (path : OdPath) (sub : Nat) (key : List Byte)
  | rawDiagnosticRead (path : OdPath) (offset length : Nat) (outcome : ReadOutcome)
  | moduleResetRequest (path : OdPath)
  | runtimeRestartRequest (path : OdPath)
  | hostMarker (path : OdPath) (value : U64)
  | secureRequest (path : OdPath) (job : U64)
  | destroyReopenPassword (path : OdPath)
  -- transactions
  | txIdleTimeout (loc : Nat)
  | prepareTimeout (loc : Nat)
  | commitRepeat (loc : Nat)
  | inDoubtQuery (tx : Nat)
  | participantAckTimeout (loc : Nat)
  | branchIdleRollback (tx : Nat)
  | commitPoint (loc : Nat)
  | prepare (src tx : Nat)
  | prepareVote (src tx : Nat) (yes : Bool)
  | commitMessage (src tx : Nat)
  | abortMessage (src tx : Nat)
  | commitAck (src tx : Nat)
  | outcomeQuery (src tx : Nat)
  | branchAction (p : Packet)
  -- operation records (R133): the context that runs the record, and the record's 64 bytes
  | matmul (x : CtxId) (r : BitVec 512)
  | matmulT (x : CtxId) (r : BitVec 512)
  | matmulPair (x : CtxId) (r : BitVec 512)
  | gradpair (x : CtxId) (r : BitVec 512)
  | rowfn (x : CtxId) (r : BitVec 512)
  | elemwise (x : CtxId) (r : BitVec 512)
  | gather (x : CtxId) (r : BitVec 512)
  | scatterAdd (x : CtxId) (r : BitVec 512)
  | sketchScan (x : CtxId) (r : BitVec 512)
  | rerank (x : CtxId) (r : BitVec 512)
  | topkMerge (x : CtxId) (r : BitVec 512)
  | intersect (x : CtxId) (r : BitVec 512)
  | sort (x : CtxId) (r : BitVec 512)
  | neighbours (x : CtxId) (r : BitVec 512)
  | collective (x : CtxId) (r : BitVec 512)
  | txBeginRecord (x : CtxId) (r : BitVec 512)
  | txCommitRecord (x : CtxId) (r : BitVec 512)
  | fret (x : CtxId) (r : BitVec 512)
  | loop (x : CtxId) (r : BitVec 512)
  | waitEvent (x : CtxId) (r : BitVec 512)
  | secure (x : CtxId) (r : BitVec 512)
  -- sequencing, contexts and scheduling
  | insertedFret (x : CtxId)
  | fretSpacing (x : CtxId)
  | prefetchComplete (core id : Nat) (ok : Bool) (data : List Byte) (version : Nat)
  | retryBackoff (x : CtxId)
  | waitEventTimeout (x : CtxId)
  | waitEventWake (x : CtxId)
  | jobBarrierComplete (job value : Nat)
  | groupBarrierComplete (group value : Nat)
  | securing (job : Nat)
  | contextPlacement (polder : Nat)
  | contextEviction (polder : Nat)
  | timeSliceExpiry (core : Nat)
  | blockedResidentThreshold (core : Nat)
  -- tables and search
  | stepBarrier (table : Nat)
  | rowAdditionMessage (a : RowAdd)
  | rowMigration (table row : Nat)
  | slotReclamation (table slot : Nat)
  | passBatchWindow (pass : Nat)
  | listCompaction (index partition : Nat)
  | shardQuery (q : ShardQ)
  | shardReply (r : ShardR)
  -- health monitor, heat, migration and write-back
  | riskRecompute (t : Sensors)
  | riskRearmInterval (job : Nat)
  | heatDecay
  | parcelPromotion (parcel : Nat)
  | parcelDemotion
  | migrationComplete (parcel : Nat)
  | backgroundWriteBack (parcel : Nat)
  | stagedWriteBackDelay (parcel : Nat)
  -- flash
  | nandPageReadComplete (ppa : Nat) (outcome : ReadOutcome)
  | courseProgramComplete (course : Nat)
  | programFailure (course : Nat)
  | blockEraseComplete (block : Nat) (ok : Bool)
  | suspendRunTime (die : Nat)
  | dieResume (die : Nat)
  | closeTimer (course : Nat)
  | journalInterval
  | mapCheckpoint
  | gcStart (plane : Nat)
  | wearLevel (plane : Nat)
  | blockRefresh (block : Nat)
  | patrolRead (slow : List Nat)
  | bermBufferGrant (channel : Nat)
  -- CXL.mem, DRAM and host link
  | cxlMemRead (offset length : Nat)
  | cxlMemWrite (offset : Nat) (data : List Byte)
  | lineRepair (line : Nat)
  | mergeEntryAge (line : Nat)
  | frameRetirement (parcel : Nat)
  | dramRefresh (bank : Nat) (decay : List (Nat × Nat × Byte))
  | bisnpResponse (line : Nat)
  | atsInvalidation (fn addr length : Nat)
  | hdmDecoderCommit (base : U64)
  | cdatRead
  | spdmGetCertificate (onDoe : Bool) (slot offset length : Nat)
  | spdmChallenge (onDoe : Bool) (slot : Nat) (nonce : List Byte)
  | spdmGetMeasurements (onDoe : Bool) (index : Nat) (nonce : List Byte)
  | spdmKeyExchange (onDoe : Bool) (ideKm : Bool) (exchange : List Byte)
  -- resets and link
  | perstAssert
  | perstDeassert (cxl : Bool)
  | hotReset
  | moduleReset
  | flr (fn : Nat)
  | runtimeRestart
  | linkRetrain
  | ideIntegrityFailure
  | dmaCompletionTimeout (reg : Nat)
  | surpriseDown
  | l1IdleRequest
  | pd19RetentionTimer
  -- fabric link and routing
  | flitReceive (port : Nat) (f : Flit)
  | retryTimer (port : Nat)
  | failedRetrain (port : Nat)
  | trainingRetry (port : Nat)
  | portTrainingComplete (port : Nat) (peer : PeerIdent)
  | portSignalLoss (port : Nat)
  | laserDarkTimeout (port : Nat)
  | emitterFailover (emitter : Nat)
  | linkStateFlood (module port : Nat) (up : Bool) (number : Nat)
  | packetTransit (port : Nat) (p : Packet)
  | remoteRead (p : Packet)
  | remoteWrite (p : Packet)
  | rowAdd (p : Packet)
  | fetchAdd64 (p : Packet)
  | cas64 (p : Packet)
  | swap64 (p : Packet)
  | remoteResponse (p : Packet)
  | endToEndTimeout (tag : Nat)
  -- groups
  | groupClaim (src number : Nat)
  | groupRelease (src number : Nat)
  | directoryExchange (port : Nat) (entries : List GroupEntry)
  | groupHold (src number epoch : Nat)
  | groupDrain (src number upTo : Nat)
  | groupInstall (src : Nat) (e : GroupEntry)
  | groupResume (src number epoch : Nat)
  | groupChangeReply (src number highest : Nat)
  | membershipReplyTimeout (number module : Nat)
  | installRepeat (number : Nat)
  | groupFailureTimeout (number module : Nat)
  | collectivePacket (p : CollPart)
  | jobForwardRequest (j : FwdJob)
  -- power, boot and configuration flash
  | auxPowerGood
  | mainPowerGood (pins : SensePins)
  | railTimeout (rail : Nat)
  | powerUpRetry
  | holdupReady (health : Nat)
  | holdupMeasurement (health : Nat)
  | sensePinChange (pins : SensePins)
  | droopWarning
  | brownOut
  | auxLoss
  | coreUndervoltage
  | holdupExhausted
  | thermalTrip (sensor : Nat) (reading : Int)
  | thermalRestart (dieMax nandMax : Int)
  | throttleTick (t : Sensors)
  | throttleStepUp (t : Sensors)
  | uptimeHour (t : Sensors)
  | criticalWordVote
  | bootChain
  | runtimeReady
  | runtimeWatchdog
  | bootWatchdog
  | cfgFlashOpComplete
  | cfgSuspendHold
  | cfgEarlyWarningRefresh (sector corrected : Nat)
  | odStoreCompaction
  | maintenanceIdleTimeout
  | debugChallenge (tap : Bool)
  | debugUnlockResponse (tap : Bool) (scope : Byte) (signature : List Byte)
  | debugPassword (tap : Bool) (scope : Byte) (password : List Byte)
  | debugSetPassword (tap : Bool) (password : List Byte)
  | debugClose (tap : Bool)
  | tapInstruction (code : Byte)
  | portReceiveSignal (port : Nat)
  | carriedCommandAtHome (c : Carried)
  | peerUpLow (port : Nat)
  | ideKeyReestablish
  deriving DecidableEq, Repr

end Sys2Proof
end

