-- ==== Sys2Proof/Config.lean ====
section
/-! DEFINITION. Config.lean: what the manual leaves open. Each constant is opaque: nothing can evaluate it or prove a value of
it. A statement about the model holds whatever it is. -/

namespace Sys2Proof.Config

/-! ## Memory and placement -/

/-- DRAM taken by headers and runtime state, bytes (02, after R51: 720 GiB less the page map, headers and runtime state). -/
opaque runtimeDram : Nat

/-- DAS base, in parcels, that another module gave an object of its own (02 R40: the runtime assigns bases). -/
opaque remoteParcel : Nat → Nat

/-- DMC that holds a 4 KiB unit of a frame (02 R41: internal to the module). -/
opaque dmcOf : Nat → Bool

/-- Plane a new course of a write stream goes to, by allocation number (13 R345, R366 name no order among planes). -/
opaque planeFor : Nat → Nat

/-- Fewest good spare blocks of a plane at shipment, 40-56, differing per plane (13 R334). -/
opaque sparesShipped : Nat → Nat

/-- Whether the pages of an open course can be read back after a power loss (13 R346, R362): power loss number and PPA. -/
opaque pageSurvives : Nat → Nat → Bool

/-- Where the Valid bytes of a BLOB lie after a power loss between the bounds of 02 R529, by free-value number. -/
opaque validAfter : Nat → Nat

/-- Whether a block passes the block test that follows an unrecovered read (13 R368). -/
opaque blockTest : Nat → Bool

/-- Raw page and tag bytes read from a page the model places no data in (13 R344, OD 0x2500:02). -/
opaque rawByte : Nat → Nat → Byte

/-- ARR cycles a stall lasted (02 R57), time in ms a rebuild took (13 R370 type 0x0013), by free-value number. -/
opaque cycles : Nat → Nat

/-- Time a host CXL.mem read took, ns, by free-value number; its bound is applied where it is used (16 R430). -/
opaque readNs : Nat → Nat

opaque rebuildMs : Nat → Nat

/-- The unit that the log names for the commands a runtime restart cuts off (13 R370, 03 R100 give none). -/
opaque faultUnit : Nat

/-- Final status of a cancelled job (03 R94, 05 R152 name none). -/
opaque cancelStatus : Nat

/-- Whether the levee pages are written on a bank below the energy that the manual's example gives them (17 R454): loss number. -/
opaque leveeFits : Nat → Bool

/-- Bank capacitance measured, µF (17 R454). -/
opaque capacitance : Nat → Nat

/-- Group through which an object of another module is reached (15 R402 Group field): no rule tells a source its number. -/
opaque remoteGroup : Nat → Nat

/-- Whether another module accepts group joins and pins (15 R410, its OD 0x4400:03): module, free-value number. -/
opaque peerAccepts : Nat → Nat → Bool

/-- Format in which a chain reads a matrix that is no TENSOR (08 R216: its own format): handle and offset. -/
opaque slotFormat : Nat → Nat → Nat

/-- Epoch of a candidate list that no SKETCH_SCAN recorded (12 R327), by free-value number. -/
opaque candEpoch : Nat → Nat

/-- Element format of a ROW_ADD on an object whose header names none of its three (15 R403 gives the packet no format field). -/
opaque rowFormat : Nat → Nat

/-! ## Numbers the manual gives no formula for -/

/-- Row functions and vector-unit functions whose rounding is the implementation's (08, 10): function code, operand bits. -/
opaque func : Nat → U32 → U32
opaque func2 : Nat → U32 → U32 → U32

/-- Bubbles of a heavy record that wait for operands in the DAS, or lose a bank of the scratchpad (07 R206, R209), by free-value number. -/
opaque bubbles : Nat → Nat

/-- Codewords beyond the first that a read retried or soft-decoded (10 R269), by free-value number. -/
opaque codewords : Nat → Nat

/-- Result of an operation on operands for which the manual states none: operation code and operand bits. -/
opaque openValue : Nat → U32 → U32 → U32

/-! ## Security (19) -/

/-- Random bytes: the draw number and the byte's position (18 R462, 19 R488, R501). -/
opaque randomByte : Nat → Nat → Byte

/-- The 4 KiB of the PUF array as a boot reads them, noise included, by free-value number; the device secret that the fuzzy extractor yields at every
boot of this die (19 R487). -/
opaque pufByte : Nat → Nat → Byte
opaque secretByte : Nat → Byte

/-- HKDF with SHA-256: a key from a secret under a label (19 R487); AES-256 key wrap of a key under another (19 R488). -/
opaque hkdf : List Byte → List Byte → List Byte
opaque keyWrap : List Byte → List Byte → Nat → Byte

/-- Which data bit of a word of the configuration flash takes which column of its code (19 R477). -/
opaque codeOrder : Equiv.Perm (Fin 32)

/-- Words of the configuration flash as shipped: identity, keys, and the shipped image (19 R481, R486), by word number. -/
opaque shippedWord : Nat → BitVec 32

/-- A word of the configuration flash, data and check bits, whose operation a loss of 3.3Vaux cut off (19 R499), by free-value number and word. -/
opaque cutWord : Nat → Nat → BitVec 40

/-- SHA-256 of a byte list. -/
opaque sha256 : List Byte → List Byte

/-- RSA-3072 verification of a signature over a message under a public key (19 R486, R491). -/
opaque rsaVerify : List Byte → List Byte → List Byte → Bool

/-- RSA signature by the module's device key over a message (19 R500), and its certificate chains by slot. -/
opaque deviceSign : List Byte → List Byte
opaque certChain : Nat → List Byte

/-- Key material of the identity region and of shipment (19 R481, R486): 0 the root key hash, 1 the Oddex service key, 2 the debug
authority key. -/
opaque oddexKey : Nat → List Byte

/-- Instruction codes of the debug TAP, which the manual names and does not number (17 R447). -/
opaque tapIdcode : Nat
opaque tapBypass : Nat

/-- What a configuration-flash sector holds after 3.3Vaux was lost during its program or erase (19 R499): loss number, field, position. -/
opaque cutByte : Nat → Nat → Nat → Byte

/-- SPDM session secrets (19 R500). -/
opaque exchangeReply : List Byte → List Byte

/-- Packet type 0x80-0xFF of each runtime message (15 R402 gives the range only). -/
opaque messageLow : Nat → Nat
def messageCode (n : Nat) : Nat := 128 + messageLow n % 128

/-! ## Identification -/

/-- Bytes of constant strings and serial numbers the manual gives no value for: OD key and position (18 R474). -/
opaque constByte : Nat → Nat → Byte

/-- Constant scalars the manual gives no value for, by OD key. -/
opaque constValue : Nat → Nat

/-- Payload byte of a mailbox or bus answer whose content another standard defines: command, position. -/
opaque standardByte : Nat → Nat → Byte

/-- A reading of a sensor that the manual gives no value for: OD key and reading number. -/
opaque measured : Nat → Nat → Nat

/-! ## Records of programs (05 R133) -/

/-- The opcode byte of each operation record, by its row number in the table of records: the manual gives none, only that a record's
opcode names its table, so that no two kinds share a byte. A permutation of the byte values, of which the first rows' numbers count. -/
opaque recordCode : Equiv.Perm (Fin 256)

/-! ## Programs of other modules (06 R183, 03 R524): what their home serves of an object -/

/-- Whether the home admits the program's use, and whether its READ_ONLY flag is set. -/
opaque remoteGrants : Nat → Bool
opaque remoteReadOnly : Nat → Bool

/-- Payload length, type-specific header area and payload bytes, by handle and offset. -/
opaque remoteLength : Nat → Nat
opaque remoteHeader : Nat → Nat → Byte
/-- Records of an open journal course that read back complete after a loss of power (04 R125): loss number. -/
opaque recordsRead : Nat → Nat
/-- Stored width of a row of a TABLE homed at another module, which its home alone knows (04 R104): handle and row. -/
opaque remoteRowBytes : Nat → Nat → Nat
opaque remotePayload : Nat → Nat → Byte

end Sys2Proof.Config
end

