-- ==== Sys2Proof/Machine/Maps.lean ====
section
/-! DEFINITION. Machine/Maps.lean: sparse tables and byte memories in canonical form, little-endian conversions, CRC-32. -/

namespace Sys2Proof.Machine

/-- The value at key `k`, keys rising. -/
def kget {α : Type} : KMap α → Nat → Option α
  | [], _ => none
  | (k, v) :: r, i => if i = k then some v else if i < k then none else kget r i

/-- Set the value at a key, keeping the keys rising. -/
def kset {α : Type} : KMap α → Nat → α → KMap α
  | [], i, x => [(i, x)]
  | (k, v) :: r, i, x => if i = k then (i, x) :: r else if i < k then (i, x) :: (k, v) :: r else (k, v) :: kset r i x

/-- Remove a key. -/
def kdel {α : Type} : KMap α → Nat → KMap α
  | [], _ => []
  | (k, v) :: r, i => if i = k then r else if i < k then (k, v) :: r else (k, v) :: kdel r i

/-- Change the value at a key, if it is listed. -/
def kmod {α : Type} (m : KMap α) (i : Nat) (f : α → α) : KMap α :=
  match kget m i with
  | some v => kset m i (f v)
  | none => m

/-- Change every value. -/
def kmap {α : Type} (m : KMap α) (f : Nat → α → α) : KMap α := m.map fun p => (p.1, f p.1 p.2)

/-- Keep the entries a test admits. -/
def kfilter {α : Type} (m : KMap α) (f : Nat → α → Bool) : KMap α := m.filter fun p => f p.1 p.2

/-- Count at a key that reads 0 while unlisted. -/
def kcount (m : KMap Nat) (i : Nat) : Nat := (kget m i).getD 0

/-- The keys rise strictly. -/
def keysRise {α : Type} : KMap α → Bool
  | [] => true
  | [_] => true
  | a :: b :: r => decide (a.1 < b.1) && keysRise (b :: r)

/-- A byte of a memory: an unlisted address reads zero (log entry 4). -/
def mget (m : Memory) (a : Nat) : Byte := (kget m a).getD 0

/-- Store a byte; storing zero removes the entry. -/
def mset (m : Memory) (a : Nat) (b : Byte) : Memory := if b = 0 then kdel m a else kset m a b

/-- Read `n` bytes from address `a`. -/
def mread (m : Memory) (a : Nat) : Nat → List Byte
  | 0 => []
  | n + 1 => mget m a :: mread m (a + 1) n

/-- Store bytes from address `a` upward. -/
def mwrite (m : Memory) (a : Nat) : List Byte → Memory
  | [] => m
  | b :: r => mwrite (mset m a b) (a + 1) r

/-- Make the bytes `[a, a + n)` read zero. -/
def mclear (m : Memory) (a n : Nat) : Memory := m.filter fun p => decide (p.1 < a) || decide (a + n ≤ p.1)

/-- The canonical form of a memory: addresses rise strictly, and no entry is zero. -/
def Memory.wf (m : Memory) : Bool := keysRise m && m.all fun p => p.2 != 0

/-- The number that bytes spell, lowest first (R10). -/
def leNat : List Byte → Nat
  | [] => 0
  | b :: r => b.toNat + 256 * leNat r

/-- `n` as `k` bytes, lowest first, modulo `256 ^ k`. -/
def toLE : Nat → Nat → List Byte
  | 0, _ => []
  | k + 1, n => BitVec.ofNat 8 n :: toLE k (n / 256)

/-- A field of `k` bytes at offset `o` of a byte list; missing bytes read zero. -/
def fieldAt (b : List Byte) (o k : Nat) : Nat := leNat ((b.drop o).take k)

/-- A field read from a memory. -/
def mfield (m : Memory) (a k : Nat) : Nat := leNat (mread m a k)

/-- One bit of a number. -/
def bitAt (n i : Nat) : Bool := n.testBit i

/-- Bits `[lo + len - 1 : lo]` of a number. -/
def bitsAt (n lo len : Nat) : Nat := (n >>> lo) % 2 ^ len

/-- Pad or cut a byte list to `n` bytes. -/
def padTo (n : Nat) (b : List Byte) : List Byte := (b ++ List.replicate n 0).take n

/-- Round up to a multiple of `m`. -/
def roundUp (n m : Nat) : Nat := (n + m - 1) / m * m

/-- Ceiling of a division. -/
def ceilDiv (n m : Nat) : Nat := (n + m - 1) / m

/-- One bit of the reflected CRC-32 of IEEE 802.3 (R76). -/
def crcBit (c : U32) : U32 := if c.getLsbD 0 then (c >>> 1) ^^^ 0xEDB88320#32 else c >>> 1

def crcByte (c : U32) (b : Byte) : U32 :=
  crcBit (crcBit (crcBit (crcBit (crcBit (crcBit (crcBit (crcBit (c ^^^ b.setWidth 32))))))))

/-- CRC-32 (R76): reflected, initial value and final XOR all ones. -/
def crc32 (b : List Byte) : U32 := b.foldl crcByte 0xFFFFFFFF#32 ^^^ 0xFFFFFFFF#32

/-- The first element that a test admits, in list order. -/
def findFirst {α : Type} (f : α → Bool) : List α → Option α
  | [] => none
  | a :: r => if f a then some a else findFirst f r

/-- The best element under a strict order, the first of equals. -/
def bestBy {α : Type} (lt : α → α → Bool) : List α → Option α
  | [] => none
  | a :: r =>
    match bestBy lt r with
    | none => some a
    | some b => if lt b a then some b else some a

/-- Insert into an ordered list, after its equals. -/
def insertBy {α : Type} (lt : α → α → Bool) (x : α) : List α → List α
  | [] => [x]
  | a :: r => if lt x a then x :: a :: r else a :: insertBy lt x r

/-- Stable insertion sort. -/
def sortBy {α : Type} (lt : α → α → Bool) (l : List α) : List α := l.foldl (fun acc x => insertBy lt x acc) []

/-- Remove repeats, keeping the first of each. -/
def nubList {α : Type} [DecidableEq α] (l : List α) : List α :=
  l.foldl (fun acc x => if acc.contains x then acc else acc ++ [x]) []

/-- Consecutive groups of `n` elements (the last may be shorter), at most `fuel` groups. -/
def groupsOf {α : Type} (n : Nat) : Nat → List α → List (List α)
  | 0, _ => []
  | _ + 1, [] => []
  | fuel + 1, l => l.take n :: groupsOf n fuel (l.drop n)

/-- Insert or replace in a list of pairs with any comparable key. -/
def aset {α β : Type} [DecidableEq α] (l : List (α × β)) (k : α) (v : β) : List (α × β) :=
  (k, v) :: l.filter fun p => p.1 ≠ k

/-- Look up in a list of pairs. -/
def aget {α β : Type} [DecidableEq α] (l : List (α × β)) (k : α) : Option β :=
  match l with
  | [] => none
  | p :: r => if p.1 = k then some p.2 else aget r k

end Sys2Proof.Machine
end

