-- ==== Sys2Proof/Machine/Float.lean ====
section
/-! DEFINITION. Machine/Float.lean: the element formats (09 R234-R237) and FP32 arithmetic rounded to nearest even (08 R216). -/

namespace Sys2Proof.Machine

/-- An exact value: a dyadic number with its sign, an infinity, or a NaN. -/
inductive Val where
  | fin (neg : Bool) (m : Nat) (e : Int)
  | inf (neg : Bool)
  | nan
  deriving DecidableEq, Repr

/-- A float format (R235): exponent bits, fraction bits, bias, and whether its top exponent is kept for infinities and NaN
(`ieee`), for one NaN code only (`nanTop`), or for nothing. -/
structure Fmt where
  eb : Nat
  mb : Nat
  bias : Nat
  ieee : Bool
  nanTop : Bool
  deriving DecidableEq, Repr

def fp32 : Fmt := ⟨8, 23, 127, true, false⟩
def bf16 : Fmt := ⟨8, 7, 127, true, false⟩
def fp16 : Fmt := ⟨5, 10, 15, true, false⟩
def e5m2 : Fmt := ⟨5, 2, 15, true, false⟩
def e4m3 : Fmt := ⟨4, 3, 7, false, true⟩
def e2m1 : Fmt := ⟨2, 1, 1, false, false⟩

/-- The float format of an element code, none for the integers (R234). -/
def fmtOf (code : Nat) : Option Fmt :=
  match code with
  | 5 => some e2m1 | 6 => some e4m3 | 7 => some e5m2 | 8 => some bf16 | 9 => some fp16 | 10 => some fp32 | _ => none

/-- Bits of an element (R234). -/
def elemBits (code : Nat) : Nat :=
  match code with
  | 1 | 2 | 5 => 4
  | 3 | 4 | 6 | 7 => 8
  | 8 | 9 => 16
  | 10 | 11 => 32
  | _ => 0

/-- The value of a float code (R235). -/
def unpack (f : Fmt) (c : Nat) : Val :=
  let neg := c.testBit (f.eb + f.mb)
  let x := bitsAt c f.mb f.eb
  let m := bitsAt c 0 f.mb
  let top := 2 ^ f.eb - 1
  if f.ieee && x == top then (if m = 0 then .inf neg else .nan)
  else if f.nanTop && x == top && m == 2 ^ f.mb - 1 then .nan
  else if x = 0 then .fin neg m (1 - (f.bias : Int) - f.mb)
  else .fin neg (2 ^ f.mb + m) ((x : Int) - f.bias - f.mb)

/-- The largest finite code without its sign. -/
def maxCode (f : Fmt) : Nat :=
  if f.ieee then (2 ^ f.eb - 1) * 2 ^ f.mb - 1
  else if f.nanTop then 2 ^ (f.eb + f.mb) - 2
  else 2 ^ (f.eb + f.mb) - 1

/-- The quiet NaN with a zero payload, or E4M3's NaN (R235); formats without NaN have zero (R237). -/
def nanCode (f : Fmt) : Nat :=
  if f.ieee then (2 ^ f.eb - 1) * 2 ^ f.mb + 2 ^ (f.mb - 1)
  else if f.nanTop then 2 ^ (f.eb + f.mb) - 1
  else 0

/-- `m × 2^-s` rounded to an integer, ties to even. -/
def rne (m s : Nat) : Nat :=
  let q := m / 2 ^ s
  let r := m % 2 ^ s
  if 2 * r > 2 ^ s ∨ (2 * r = 2 ^ s ∧ q % 2 = 1) then q + 1 else q

/-- Code, without sign, of a magnitude rounded to nearest even; none when it rounds beyond the largest finite code. -/
def magCode (f : Fmt) (m : Nat) (e : Int) : Option Nat :=
  if m = 0 then some 0
  else
    let emin : Int := 1 - (f.bias : Int) - f.mb
    let q : Int := max (e + (Nat.log2 m : Int) - f.mb) emin
    let k := if q ≤ e then m * 2 ^ (e - q).toNat else rne m (q - e).toNat
    -- a carry out of the significand raises the exponent: the code of 2^(mb+1) at q is that of 2^mb at q + 1
    let code := if k < 2 ^ f.mb then k else (q - emin).toNat * 2 ^ f.mb + k
    if code ≤ maxCode f then some code else none

/-- Events of a conversion: a finite value saturated, a non-finite value converted (R237). -/
inductive Event where
  | none
  | ovf
  | nonfin
  deriving DecidableEq, Repr

/-- Convert a value to a float format (R237). BF16, FP16 and FP32 overflow to infinity; E5M2 saturates finite values; E4M3 and
FP4 saturate infinities too. -/
def pack (f : Fmt) (v : Val) : Nat × Event :=
  let sgn := fun (neg : Bool) => if neg then 2 ^ (f.eb + f.mb) else 0
  match v with
  | .nan => (nanCode f, .nonfin)
  | .inf neg => if f.ieee then (sgn neg + (2 ^ f.eb - 1) * 2 ^ f.mb, .none)
      else (sgn neg + maxCode f, .nonfin)
  | .fin neg m e =>
    match magCode f m e with
    | some c => (sgn neg + c, .none)
    | none => if f.ieee && f.mb != 2 then (sgn neg + (2 ^ f.eb - 1) * 2 ^ f.mb, .none) else (sgn neg + maxCode f, .ovf)

/-! ## FP32 arithmetic -/

/-- Round an exact value to FP32. -/
def toF32 (v : Val) : U32 := BitVec.ofNat 32 (pack fp32 v).1

/-- The exact value of an FP32. -/
def ofF32 (x : U32) : Val := unpack fp32 x.toNat

/-- Signed mantissa. -/
def sm (neg : Bool) (m : Nat) : Int := if neg then -(m : Int) else m

/-- Exact product. -/
def Val.mul : Val → Val → Val
  | .nan, _ | _, .nan => .nan
  | .inf a, .inf b => .inf (a != b)
  | .inf a, .fin b m _ | .fin b m _, .inf a => if m = 0 then .nan else .inf (a != b)
  | .fin a m e, .fin b k f => .fin (a != b) (m * k) (e + f)

/-- Exact sum; an exact zero of opposite signs is +0. -/
def Val.add : Val → Val → Val
  | .nan, _ | _, .nan => .nan
  | .inf a, .inf b => if a = b then .inf a else .nan
  | .inf a, _ | _, .inf a => .inf a
  | .fin a m e, .fin b k f =>
    let g := min e f
    let s := sm a (m * 2 ^ (e - g).toNat) + sm b (k * 2 ^ (f - g).toNat)
    .fin (if s = 0 then a && b else decide (s < 0)) s.natAbs g

def Val.neg : Val → Val
  | .nan => .nan
  | .inf a => .inf !a
  | .fin a m e => .fin (!a) m e

/-- Quotient with 60 bits beyond the divisor and a sticky bit, so that one rounding to any format here is exact. -/
def Val.div : Val → Val → Val
  | .nan, _ | _, .nan => .nan
  | .inf _, .inf _ => .nan
  | .inf a, .fin b _ _ => .inf (a != b)
  | .fin a _ _, .inf b => .fin (a != b) 0 0
  | .fin a m e, .fin b k f =>
    if k = 0 then (if m = 0 then .nan else .inf (a != b))
    else
      let n := m * 2 ^ (Nat.log2 k + 64)
      .fin (a != b) (2 * (n / k) + (if n % k = 0 then 0 else 1)) (e - f - (Nat.log2 k + 64 : Nat) - 1)

def fadd (a b : U32) : U32 := toF32 ((ofF32 a).add (ofF32 b))
def fsub (a b : U32) : U32 := toF32 ((ofF32 a).add (ofF32 b).neg)
def fmul (a b : U32) : U32 := toF32 ((ofF32 a).mul (ofF32 b))
def fdiv (a b : U32) : U32 := toF32 ((ofF32 a).div (ofF32 b))

/-- a × b + c with one rounding. -/
def ffma (a b c : U32) : U32 := toF32 (((ofF32 a).mul (ofF32 b)).add (ofF32 c))

def fneg (a : U32) : U32 := a ^^^ 0x80000000#32
def fabs (a : U32) : U32 := a &&& 0x7FFFFFFF#32
def fIsNan (a : U32) : Bool := decide ((fabs a).toNat > 0x7F800000)
def fIsInf (a : U32) : Bool := fabs a == 0x7F800000#32
def f32Nan : U32 := 0x7FC00000#32
def f32Inf : U32 := 0x7F800000#32
def f32Max : U32 := 0x7F7FFFFF#32
def f32One : U32 := 0x3F800000#32

/-- The IEEE 754 total order as a number: negative codes below positive ones (05 R161). -/
def totalKey (w : Nat) (code : Nat) : Int :=
  if code.testBit (w - 1) then -(code % 2 ^ (w - 1) : Nat) - 1 else code

/-- a < b for FP32 that are not NaN, -0 equal to +0. -/
def flt (a b : U32) : Bool :=
  if fIsNan a || fIsNan b then false
  else if fabs a = 0 ∧ fabs b = 0 then false
  else decide (totalKey 32 a.toNat < totalKey 32 b.toNat)

def fle (a b : U32) : Bool := !(fIsNan a || fIsNan b) && !flt b a

/-- Maximum with NaN propagating and max(+0, -0) = +0 (08 R223). -/
def fmax (a b : U32) : U32 :=
  if fIsNan a || fIsNan b then f32Nan
  else if fabs a = 0 ∧ fabs b = 0 then (a &&& b) else if flt a b then b else a

def fmin (a b : U32) : U32 :=
  if fIsNan a || fIsNan b then f32Nan
  else if fabs a = 0 ∧ fabs b = 0 then (a ||| b) else if flt b a then b else a

/-- FP32 of an integer. -/
def f32OfInt (n : Int) : U32 := toF32 (.fin (decide (n < 0)) n.natAbs 0)

/-- Rounded toward +∞ (09 R243, round_up_f32): the nearest if it is not below, else the next code up. -/
def f32Up (v : Val) : U32 :=
  let c := toF32 v
  match (ofF32 c).add v.neg with
  | .fin true m _ =>
    if m = 0 then c else if c.toNat = 0x80000000 ∨ c.toNat = 0 then 1#32
      else if c.getLsbD 31 then c - 1#32 else c + 1#32
  | _ => c

/-- FP32 rounded to an integer, ties to even. None for NaN and infinities. -/
def f32ToInt (x : U32) : Option Int :=
  match ofF32 x with
  | .fin neg m e => some (sm neg (if 0 ≤ e then m * 2 ^ e.toNat else rne m (-e).toNat))
  | _ => none

/-- 2^n as FP32. -/
def f32Pow2 (n : Int) : U32 := toF32 (.fin false 1 n)

/-! ## Elements -/

/-- The integer of an integer code, two's complement for codes 1, 3 and 11 (R235). -/
def intOf (elem c : Nat) : Int :=
  let w := elemBits elem
  if elem = 2 ∨ elem = 4 then c else if c.testBit (w - 1) then (c : Int) - 2 ^ w else c

def isInt (elem : Nat) : Bool := elem == 1 || elem == 2 || elem == 3 || elem == 4 || elem == 11

/-- Exact value of an unscaled element code. -/
def elemVal (elem c : Nat) : Val :=
  match fmtOf elem with
  | some f => unpack f c
  | none => let n := intOf elem c; .fin (decide (n < 0)) n.natAbs 0

/-- Convert an FP32 to an element code without scale, with zero point `z` for the unsigned integers (R237). -/
def toElem (elem : Nat) (z : Int) (x : Val) : Nat × Event :=
  match fmtOf elem with
  | some f => pack f x
  | none =>
    let w := elemBits elem
    let lo : Int := if elem = 2 ∨ elem = 4 then 0 else -(2 ^ (w - 1) : Nat)
    let hi : Int := if elem = 2 ∨ elem = 4 then (2 ^ w : Nat) - 1 else (2 ^ (w - 1) : Nat) - 1
    let code := fun (n : Int) => (n % (2 ^ w : Nat)).toNat
    match x with
    | .nan => (code z, .nonfin)
    | .inf neg => (code (if neg then lo else hi), .nonfin)
    | .fin .. =>
      -- the zero point is added before the one rounding
      let n := match x.add (.fin (decide (z < 0)) z.natAbs 0) with
        | .fin neg m e => sm neg (if 0 ≤ e then m * 2 ^ e.toNat else rne m (-e).toNat)
        | _ => 0
      if n < lo then (code lo, .ovf) else if hi < n then (code hi, .ovf) else (code n, .none)

/-- Convert with stochastic rounding (10 R267) by 24 random bits `u`: the code, its event, and whether the value was rounded so. An
exact value, one beyond the largest finite value and one that is not finite convert as by `toElem`. -/
def toElemR (elem : Nat) (z : Int) (u : Nat) (x : Val) : Nat × Event × Bool :=
  let near := toElem elem z x
  let keep := (near.1, near.2, false)
  -- the magnitude's part toward zero, what lies beyond it in 24 fraction bits, and whether anything does
  let split := fun (m : Nat) (s : Nat) => (m / 2 ^ s, m % 2 ^ s * 16777216 / 2 ^ s, m % 2 ^ s != 0)
  match x with
  | .fin neg m e =>
    (match fmtOf elem with
    | some f =>
      let emin : Int := 1 - (f.bias : Int) - f.mb
      let q : Int := max (e + (Nat.log2 m : Int) - f.mb) emin
      let (k, part, more) := split m (q - e).toNat
      let codeOf := fun (k : Nat) => if k < 2 ^ f.mb then k else (q - emin).toNat * 2 ^ f.mb + k
      if m = 0 ∨ q ≤ e ∨ !more ∨ maxCode f ≤ codeOf k then keep
      else ((if neg then 2 ^ (f.eb + f.mb) else 0) + codeOf (if u < part then k + 1 else k), .none, true)
    | none =>
      let (k, part, more) := split m (-e).toNat
      if 0 ≤ e ∨ !more then keep
      else
        let y := toElem elem z (.fin neg (if u < part then k + 1 else k) 0)
        (y.1, y.2, true))
  | _ => keep

/-! ## Sums in the fixed tree order (08 R223) -/

/-- Combine pairs, pairs of pairs, and so on: at most `fuel` levels. A missing lane is left out. -/
def treeLevels {α : Type} (f : α → α → α) : Nat → List α → List α
  | 0, l => l
  | fuel + 1, l => treeLevels f fuel (pairUp f l)
where
  pairUp {α : Type} (f : α → α → α) : List α → List α
    | a :: b :: r => f a b :: pairUp f r
    | l => l

/-- One group of at most 64 lanes through the six levels of the tree. -/
def treeSum (l : List U32) : U32 := ((treeLevels fadd 6 l).head?).getD 0
def treeMax (l : List U32) : U32 := ((treeLevels fmax 6 l).head?).getD 0xFF800000#32

/-- Groups of 64 lanes combined in the tree, then in ascending order. -/
def rowSum (l : List U32) : U32 :=
  match (groupsOf 64 (l.length + 1) l).map treeSum with
  | [] => 0
  | g :: r => r.foldl fadd g

end Sys2Proof.Machine
end

