-- ==== Sys2Proof/Machine/Functions.lean ====
section
/-! DEFINITION. Machine/Functions.lean: the functions whose error the manual bounds but whose bits it does not fix (08 R216, R224, R226, 10
R268): a free choice among the FP32 values within the stated distance of the exact result. -/

namespace Sys2Proof.Machine

/-! ## Real functions to some 380 bits

A real is held as a dyadic of at most `fracBits` significant bits, or in units of 2^-fracBits. -/

def fracBits : Nat := 400

/-- Keep the leading bits of a dyadic. -/
def Val.trim : Val → Val
  | .fin n m e =>
    let drop := Nat.log2 m - fracBits
    .fin n (m / 2 ^ drop) (e + (drop : Nat))
  | v => v

def Val.times (a b : Val) : Val := (a.mul b).trim
def Val.plus (a b : Val) : Val := (a.add b).trim
def Val.minus (a b : Val) : Val := (a.add b.neg).trim
def valOne : Val := .fin false 1 0

/-- Quotient of finite values, the divisor not zero. -/
def Val.over' : Val → Val → Val
  | .fin a m e, .fin b k f =>
    let up := fracBits + Nat.log2 k + 1
    Val.trim (.fin (a != b) (m * 2 ^ up / k) (e - f - (up : Nat)))
  | a, b => a.div b

/-- A finite value in units of 2^-fracBits, rounded down. -/
def Val.fixed : Val → Int
  | .fin n m e =>
    let q := e + (fracBits : Nat)
    if 0 ≤ q then sm n (m * 2 ^ q.toNat) else sm n m / (2 ^ (-q).toNat : Nat)
  | _ => 0

def ofFixed (n : Int) : Val := .fin (decide (n < 0)) n.natAbs (-(fracBits : Int))

/-- Floor of the root of `n`, which lies below 2^bits. -/
def rootBits : Nat → Nat → Nat → Nat
  | 0, _, r => r
  | b + 1, n, r => rootBits b n (if (r + 2 ^ b) * (r + 2 ^ b) ≤ n then r + 2 ^ b else r)

/-- Root of a finite value that is not negative. -/
def Val.root : Val → Val
  | .fin _ m e =>
    let up := 2 * fracBits + (if e % 2 = 0 then 0 else 1)
    let n := m * 2 ^ up
    .fin false (rootBits (Nat.log2 n / 2 + 1) n 0) ((e - (up : Nat)) / 2)
  | v => v

/-- Sum of a series by the ratio of its terms: the i-th term is the one before it times `ratio i`, in units of 2^-fracBits. -/
def series (ratio : Nat → Int → Int) : Nat → Nat → Int → Int → Int
  | 0, _, _, acc => acc
  | n + 1, i, t, acc => if t = 0 then acc else let t := ratio i t; series ratio n (i + 1) t (acc + t)

def unitFixed : Int := 2 ^ fracBits

/-- The natural logarithm of (1 + z)/(1 − z), for |z| ≤ 1/3. -/
def atanhTwice (z : Int) : Int :=
  let zz := z * z / unitFixed
  -- z^(2i+1) runs on; each term takes its divisor
  (((List.range 140).foldl (fun (acc : Int × Int) i => (acc.1 * zz / unitFixed, acc.2 + acc.1 / (2 * i + 1 : Nat))) (z, 0)).2) * 2

def ln2Fixed : Int := atanhTwice (unitFixed / 3)

/-- The exponential of a finite value of magnitude below 256. -/
def Val.exp (v : Val) : Val :=
  let x := v.fixed
  let k := x / ln2Fixed
  let r := x - k * ln2Fixed
  let s := series (fun i t => t * r / unitFixed / (i : Nat)) 110 1 unitFixed unitFixed
  match ofFixed s with
  | .fin n m e => .fin n m (e + k)
  | a => a

/-- The natural logarithm of a positive finite value. -/
def Val.ln : Val → Val
  | .fin _ m e =>
    let up := Nat.log2 m
    let x := (Val.fin false m (-(up : Int))).fixed
    ofFixed ((e + (up : Nat)) * ln2Fixed + atanhTwice ((x - unitFixed) * unitFixed / (x + unitFixed)))
  | v => v

/-- π by Machin's formula. -/
def arctanOf (n : Nat) : Int :=
  ((List.range 200).foldl (fun (acc : Int × Int) i => (-(acc.1 / (n * n : Nat)), acc.2 + acc.1 / (2 * i + 1 : Nat))) (unitFixed / (n : Nat), 0)).2
def piVal : Val := ofFixed (16 * arctanOf 5 - 4 * arctanOf 239)

/-- The standard normal density and distribution, for magnitudes up to 16. -/
def normalDensity (x : Val) : Val := ((x.times x).times (.fin true 1 (-1))).exp |>.over' ((piVal.mul (.fin false 1 1)).root)
def normalBelow (x : Val) : Val :=
  let z := x.fixed
  let zz := z * z / unitFixed
  -- Φ(x) = 1/2 + φ(x) Σ x^(2i+1) / (2i+1)!!
  let sum := series (fun i t => t * zz / unitFixed / (2 * i + 1 : Nat)) 1200 1 z z
  (Val.fin false 1 (-1)).plus ((normalDensity x).times (ofFixed sum))

/-- A value too small for FP32, below or above zero. -/
def tiny (neg : Bool) : Val := .fin neg 1 (-200)

/-- a < b for finite values. -/
def Val.less (a b : Val) : Bool := match a.add b.neg with | .fin neg m _ => neg && m != 0 | _ => false
def valInt (n : Int) : Val := .fin (decide (n < 0)) n.natAbs 0

/-- 1 / (1 + e^-x). -/
def sigmoidVal (x : Val) : Val :=
  if x.less (valInt (-200)) then tiny false
  else if (valInt 200).less x then valOne.add (tiny true)
  else valOne.over' (valOne.plus x.neg.exp)

def expVal (x : Val) : Val :=
  if x.less (valInt (-200)) then tiny false else if (valInt 200).less x then .inf false else x.exp

/-- The exact results of the `ACT` functions on a finite value, by mode (R216). -/
def actVal (mode : Nat) (x : Val) : Val :=
  let small := x.less (valInt (-16))
  let large := (valInt 16).less x
  match mode with
  | 2 => if small then tiny true else if large then x.add (tiny true) else x.times (normalBelow x)
  | 3 =>
    if small then tiny true else if large then x.add (tiny true)
    else
      -- x/2 (1 + tanh u) = x / (1 + e^-2u), u = √(2/π) (x + 0.044715 x³)
      let u := ((Val.fin false 1 1).over' piVal).root.times (x.plus (((x.times x).times x).times ((valInt 44715).over' (valInt 1000000))))
      x.times (sigmoidVal (u.mul (.fin false 1 1)))
  | 4 => x.times (sigmoidVal x)
  | 5 => sigmoidVal x
  | 6 => ((sigmoidVal (x.mul (.fin false 1 1))).mul (.fin false 1 1)).minus valOne
  | 7 => expVal x
  | 8 => if x.less (valInt (-200)) then tiny false else if (valInt 200).less x then x.add (tiny false) else (valOne.plus x.exp).ln
  | 9 => x.mul (valOne.add x.neg)
  | 10 => valOne.add (x.mul x).neg
  | 12 =>
    if small then tiny true else if large then valOne.add (tiny false)
    else (normalBelow x).plus (x.times (normalDensity x))
  | _ =>
    if x.less (valInt (-200)) then tiny true else if (valInt 200).less x then valOne.add (tiny false)
    else let s := sigmoidVal x; s.times (valOne.plus (x.times (valOne.minus s)))

/-- Largest error of an `ACT` function in units in the last place (R216). -/
def actUlp (mode : Nat) : Nat := ([0, 0, 4, 4, 3, 2, 2, 2, 3, 1, 1, 0, 4, 3][mode]?).getD 0

/-! ## Choice within a bound -/

/-- The FP32 code `d` places above a code; both zeros are one place. -/
def stepCode (c : U32) (d : Int) : U32 :=
  let mag : Int := ((fabs c).toNat : Nat)
  let at' : Int := (if c.getLsbD 31 then -mag else mag) + d
  if d = 0 then c else if at' < 0 then 0x80000000#32 ||| BitVec.ofNat 32 at'.natAbs else BitVec.ofNat 32 at'.natAbs

/-- One unit in the last place of an FP32. -/
def ulpOf (c : U32) : Val := .fin false 1 (max 1 ((fabs c).toNat / 8388608 : Nat) - 150)

/-- |y − f| is at most k units in the last place of the correctly rounded result c. -/
def nearEnough (k : Nat) (f : Val) (c y : U32) : Bool :=
  match (ofF32 y).add f.neg, ulpOf c with
  | .fin _ m e, .fin _ _ u => !(Val.fin false k u).less (.fin false m e)
  | _, _ => false

/-- The FP32 values within k units in the last place of an exact result, counted in that of the correctly rounded one; that one alone where it is not
finite. -/
def withinUlp (k : Nat) (f : Val) : List U32 :=
  let c := toF32 f
  if fIsNan c || fIsInf c then [c]
  else ((List.range (4 * k + 1)).map fun i => stepCode c ((i : Int) - 2 * k)).filter fun y => y == c || nearEnough k f c y

/-- A free choice among the values a bound allows. -/
def chooseUlp (k : Nat) (f : Val) (pick : U32) : U32 :=
  let l := withinUlp k f
  (l[pick.toNat % l.length]?).getD (toF32 f)

/-- The `ACT` functions by mode (R216): exact ones as they are, the others a free value within their bound, the same on every core. `slope` is the
stage's immediate. What a bounded function gives for an infinity or a NaN is free (DESIGN CHOICE, log entry 145). -/
def fact (mode : Nat) (slope x : U32) : U32 :=
  match mode with
  | 0 => if fIsNan x then f32Nan else fmax x 0
  | 1 => if fle 0 x then x else fmul slope x
  | 11 => if flt 0 x then f32One else 0
  | n => match ofF32 x with
    | .fin a m e => chooseUlp (actUlp n) (actVal n (.fin a m e)) (Config.func (16 + n) x)
    | _ => Config.func (16 + n) x

/-- The exponential of a row statistic (R226, R227): that of `ACT` 7, with e^0 = 1 and e^-∞ = 0 exact (DEDUCED, log entry 145). -/
def fexp (x : U32) : U32 :=
  if x = 0 ∨ x = 0x80000000#32 then f32One else if x = 0xFF800000#32 then 0 else if fIsNan x then f32Nan else fact 7 0 x

/-- m + log l with at most 2 ulp of error (R226 mode 2); −∞ for an empty row, NaN where m is NaN or +∞. -/
def logSum (m l : U32) : U32 :=
  if m = 0xFF800000#32 then m
  else match ofF32 m, ofF32 l with
    | .fin a k e, .fin false j f =>
      if j = 0 then 0xFF800000#32 else chooseUlp 2 ((Val.fin a k e).add (Val.fin false j f).ln) (Config.func2 2 m l)
    | _, .inf false => if fIsNan m || fIsInf m then f32Nan else f32Inf
    | _, _ => f32Nan

/-- 1/√x with at most 1 ulp of error, the same on every core (R224). Where x is not positive and finite the value is free (log entry 145). -/
def frsqrt (x : U32) : U32 :=
  match ofF32 x with
  | .fin false m e => if m = 0 then Config.func 2 x else chooseUlp 1 (valOne.over' (Val.fin false m e).root) (Config.func 2 x)
  | _ => Config.func 2 x

/-- √x with at most 1 ulp of error (10 R268); √0 = 0. -/
def fsqrt (x : U32) : U32 :=
  match ofF32 x with
  | .fin false m e => if m = 0 then 0 else chooseUlp 1 (Val.fin false m e).root (Config.func 3 x)
  | _ => Config.func 3 x

end Sys2Proof.Machine
end

