-- ==== Sys2Proof/Machine/OdTable.lean ====
section
/-! DEFINITION. Machine/OdTable.lean: the entries of the object dictionary, from the entry tables of the chapters (18 R474, R475). -/

namespace Sys2Proof.Machine

/-- Access codes (18 R460). -/
inductive OdAccess where
  | ro
  | rw
  | wo
  | rws
  | const
  deriving DecidableEq, Repr

/-- A scalar entry, or a string, bytes or record entry (18 R458). -/
inductive OdKind where
  | scalar
  | raw
  deriving DecidableEq, Repr

/-- One entry: first index, number of indices of that form, subindex, size in bytes, kind, access, default, persistence,
and the range of its value (the whole type where the manual states none). -/
structure OdEntry where
  base : Nat
  count : Nat
  sub : Nat
  size : Nat
  kind : OdKind
  access : OdAccess
  dflt : Nat
  persistent : Bool
  lo : Nat
  hi : Nat
  deriving DecidableEq, Repr

/-- Entries of 0x1000-0x1FFF. -/
def odRows1a : List OdEntry := [
  ⟨0x1000, 1, 0x01, 32, .raw, .const, 0, false, 0, 0⟩,
  ⟨0x1000, 1, 0x02, 2, .scalar, .const, 0, false, 0, 65535⟩,
  ⟨0x1001, 1, 0x00, 16, .raw, .const, 0, false, 0, 0⟩,
  ⟨0x1002, 1, 0x00, 16, .raw, .const, 0, false, 0, 0⟩,
  ⟨0x1003, 1, 0x00, 1, .scalar, .const, 0, false, 0, 255⟩,
  ⟨0x1004, 1, 0x01, 1, .scalar, .ro, 0, true, 0, 255⟩,
  ⟨0x1004, 1, 0x02, 4, .scalar, .ro, 0, true, 0, 4294967295⟩,
  ⟨0x1004, 1, 0x03, 4, .scalar, .ro, 0, true, 0, 4294967295⟩,
  ⟨0x1005, 1, 0x00, 32, .raw, .const, 0, false, 0, 0⟩,
  ⟨0x1006, 1, 0x00, 2, .scalar, .const, 512, false, 0, 65535⟩,
  ⟨0x1100, 1, 0x01, 8, .scalar, .ro, 0, false, 0, 18446744073709551615⟩,
  ⟨0x1100, 1, 0x02, 4, .scalar, .ro, 0, true, 0, 4294967295⟩,
  ⟨0x1101, 1, 0x01, 4, .scalar, .ro, 0, true, 0, 4294967295⟩,
  ⟨0x1101, 1, 0x02, 4, .scalar, .ro, 0, true, 0, 4294967295⟩,
  ⟨0x1101, 1, 0x03, 4, .scalar, .ro, 0, true, 0, 4294967295⟩,
  ⟨0x1101, 1, 0x04, 4, .scalar, .ro, 0, true, 0, 4294967295⟩]

/-- Entries of 0x2000-0x2FFF. -/
def odRows2a : List OdEntry := [
  ⟨0x2000, 1, 0x01, 1, .scalar, .const, 0, false, 0, 255⟩,
  ⟨0x2000, 1, 0x02, 2, .scalar, .const, 1080, false, 0, 65535⟩,
  ⟨0x2000, 1, 0x03, 8, .scalar, .rws, 0, true, 0, 18446744073709551615⟩,
  ⟨0x2100, 1, 0x01, 2, .scalar, .rw, 1536, true, 0, 65535⟩,
  ⟨0x2100, 1, 0x02, 2, .scalar, .rw, 1536, true, 0, 65535⟩,
  ⟨0x2100, 1, 0x03, 2, .scalar, .rw, 1024, true, 0, 65535⟩,
  ⟨0x2100, 1, 0x04, 2, .scalar, .rw, 512, true, 0, 65535⟩,
  ⟨0x2100, 1, 0x05, 2, .scalar, .rw, 256, true, 0, 65535⟩,
  ⟨0x2100, 1, 0x06, 2, .scalar, .rw, 512, true, 0, 65535⟩,
  ⟨0x2100, 1, 0x07, 2, .scalar, .ro, 0, false, 0, 65535⟩,
  ⟨0x2200, 1, 0x01, 1, .scalar, .ro, 0, true, 0, 255⟩,
  ⟨0x2200, 1, 0x02, 2, .scalar, .ro, 0, false, 0, 65535⟩,
  ⟨0x2200, 1, 0x03, 2, .scalar, .rw, 8, true, 0, 65535⟩,
  ⟨0x2200, 1, 0x04, 2, .scalar, .ro, 0, false, 0, 65535⟩,
  ⟨0x2200, 1, 0x05, 2, .scalar, .ro, 0, false, 0, 65535⟩,
  ⟨0x2200, 1, 0x06, 1, .scalar, .ro, 0, false, 0, 255⟩,
  ⟨0x2200, 1, 0x07, 2, .scalar, .rw, 150, true, 0, 65535⟩,
  ⟨0x2210, 1, 0x00, 4, .scalar, .rw, 2000, true, 0, 4294967295⟩,
  ⟨0x2211, 1, 0x00, 4, .scalar, .rw, 4096, true, 0, 4294967295⟩,
  ⟨0x2230, 1, 0x00, 1, .scalar, .rw, 0, true, 0, 1⟩,
  ⟨0x2231, 1, 0x00, 4, .scalar, .rw, 100, true, 0, 4294967295⟩,
  ⟨0x2240, 1, 0x01, 1, .scalar, .rw, 8, true, 0, 255⟩,
  ⟨0x2240, 1, 0x02, 1, .scalar, .rw, 24, true, 0, 255⟩,
  ⟨0x2250, 1, 0x01, 2, .scalar, .const, 500, false, 0, 65535⟩,
  ⟨0x2250, 1, 0x02, 1, .scalar, .rw, 8, true, 0, 16⟩,
  ⟨0x2250, 1, 0x03, 1, .scalar, .rw, 4, true, 0, 8⟩,
  ⟨0x2300, 1, 0x01, 4, .scalar, .ro, 0, true, 0, 4294967295⟩,
  ⟨0x2300, 1, 0x02, 4, .scalar, .ro, 0, true, 0, 4294967295⟩,
  ⟨0x2300, 1, 0x03, 4, .scalar, .ro, 0, true, 0, 4294967295⟩,
  ⟨0x2300, 1, 0x04, 4, .scalar, .rw, 0, false, 0, 4294967295⟩,
  ⟨0x2300, 1, 0x05, 64, .raw, .ro, 0, false, 0, 0⟩,
  ⟨0x2310, 1, 0x01, 2, .scalar, .ro, 0, true, 0, 65535⟩,
  ⟨0x2310, 1, 0x02, 2, .scalar, .rw, 0, false, 0, 65535⟩,
  ⟨0x2310, 1, 0x03, 16, .raw, .ro, 0, false, 0, 0⟩,
  ⟨0x2310, 1, 0x04, 1, .scalar, .ro, 0, true, 0, 255⟩,
  ⟨0x2400, 1, 0x01, 2, .scalar, .rw, 200, true, 0, 65535⟩,
  ⟨0x2400, 1, 0x02, 1, .scalar, .rw, 3, true, 0, 255⟩,
  ⟨0x2400, 1, 0x03, 2, .scalar, .ro, 0, true, 0, 65535⟩,
  ⟨0x2400, 1, 0x04, 2, .scalar, .const, 4096, false, 0, 65535⟩,
  ⟨0x2400, 1, 0x05, 1, .scalar, .ro, 0, false, 0, 255⟩]

/-- Entries of 0x2000-0x2FFF. -/
def odRows2b : List OdEntry := [
  ⟨0x2400, 1, 0x06, 8, .scalar, .ro, 0, false, 0, 18446744073709551615⟩,
  ⟨0x2500, 1, 0x01, 8, .scalar, .rws, 0, false, 0, 18446744073709551615⟩,
  ⟨0x2500, 1, 0x02, 16416, .raw, .ro, 0, false, 0, 0⟩,
  ⟨0x2500, 1, 0x03, 2, .scalar, .ro, 0, false, 0, 65535⟩]

/-- Entries of 0x3000-0x3FFF. -/
def odRows3a : List OdEntry := [
  ⟨0x3000, 32, 0x01, 4, .scalar, .rw, 0, true, 0, 4294967295⟩,
  ⟨0x3000, 32, 0x02, 1, .scalar, .ro, 0, false, 0, 255⟩,
  ⟨0x3000, 32, 0x03, 4, .scalar, .rw, 0, true, 0, 4294967295⟩,
  ⟨0x3000, 32, 0x04, 2, .scalar, .rw, 0, true, 0, 65535⟩,
  ⟨0x3000, 32, 0x05, 2, .scalar, .rw, 0, true, 0, 65535⟩,
  ⟨0x3000, 32, 0x06, 2, .scalar, .rw, 0, true, 0, 65535⟩,
  ⟨0x3000, 32, 0x07, 2, .scalar, .rw, 0, true, 0, 65535⟩,
  ⟨0x3000, 32, 0x08, 1, .scalar, .rw, 1, true, 0, 3⟩,
  ⟨0x3000, 32, 0x09, 1, .scalar, .rw, 4, true, 1, 4⟩,
  ⟨0x3000, 32, 0x0A, 1, .scalar, .rw, 0, true, 0, 7⟩,
  ⟨0x3000, 32, 0x0B, 1, .scalar, .rw, 0, true, 0, 255⟩,
  ⟨0x3000, 32, 0x0C, 1, .scalar, .wo, 0, false, 0, 255⟩,
  ⟨0x3000, 32, 0x0D, 8, .scalar, .ro, 0, false, 0, 18446744073709551615⟩,
  ⟨0x3100, 1, 0x01, 4, .scalar, .rw, 500, true, 0, 4294967295⟩,
  ⟨0x3100, 1, 0x02, 1, .scalar, .rw, 75, true, 0, 255⟩,
  ⟨0x3104, 1, 0x00, 4, .scalar, .rw, 20, true, 0, 4294967295⟩,
  ⟨0x3110, 1, 0x01, 2, .scalar, .rw, 0, false, 0, 32767⟩,
  ⟨0x3110, 1, 0x02, 1, .scalar, .rw, 0, true, 0, 63⟩,
  ⟨0x3110, 1, 0x03, 1, .scalar, .rw, 0, true, 0, 255⟩,
  ⟨0x3110, 1, 0x04, 1, .scalar, .wo, 0, false, 0, 255⟩,
  ⟨0x3112, 1, 0x01, 1, .scalar, .rw, 255, true, 0, 255⟩,
  ⟨0x3112, 1, 0x02, 1, .scalar, .rw, 255, true, 0, 255⟩,
  ⟨0x3112, 1, 0x03, 1, .scalar, .rw, 255, true, 0, 255⟩,
  ⟨0x3112, 1, 0x04, 1, .scalar, .rw, 255, true, 0, 255⟩,
  ⟨0x3112, 1, 0x05, 1, .scalar, .rw, 255, true, 0, 255⟩,
  ⟨0x3112, 1, 0x06, 1, .scalar, .rw, 255, true, 0, 255⟩,
  ⟨0x3112, 1, 0x07, 1, .scalar, .rw, 255, true, 0, 255⟩,
  ⟨0x3112, 1, 0x08, 1, .scalar, .rw, 255, true, 0, 255⟩,
  ⟨0x3112, 1, 0x09, 1, .scalar, .rw, 255, true, 0, 255⟩,
  ⟨0x3112, 1, 0x0A, 1, .scalar, .rw, 255, true, 0, 255⟩,
  ⟨0x3112, 1, 0x0B, 1, .scalar, .rw, 255, true, 0, 255⟩,
  ⟨0x3112, 1, 0x0C, 1, .scalar, .rw, 255, true, 0, 255⟩,
  ⟨0x3112, 1, 0x0D, 1, .scalar, .rw, 255, true, 0, 255⟩,
  ⟨0x3112, 1, 0x0E, 1, .scalar, .rw, 255, true, 0, 255⟩,
  ⟨0x3112, 1, 0x0F, 1, .scalar, .rw, 255, true, 0, 255⟩,
  ⟨0x3112, 1, 0x10, 1, .scalar, .rw, 255, true, 0, 255⟩,
  ⟨0x3112, 1, 0x11, 1, .scalar, .rw, 255, true, 0, 255⟩,
  ⟨0x3112, 1, 0x12, 1, .scalar, .rw, 255, true, 0, 255⟩,
  ⟨0x3112, 1, 0x13, 1, .scalar, .rw, 255, true, 0, 255⟩,
  ⟨0x3112, 1, 0x14, 1, .scalar, .rw, 255, true, 0, 255⟩]

/-- Entries of 0x3000-0x3FFF. -/
def odRows3b : List OdEntry := [
  ⟨0x3112, 1, 0x15, 1, .scalar, .rw, 255, true, 0, 255⟩,
  ⟨0x3112, 1, 0x16, 1, .scalar, .rw, 255, true, 0, 255⟩,
  ⟨0x3112, 1, 0x17, 1, .scalar, .rw, 255, true, 0, 255⟩,
  ⟨0x3112, 1, 0x18, 1, .scalar, .rw, 255, true, 0, 255⟩,
  ⟨0x3112, 1, 0x19, 1, .scalar, .rw, 255, true, 0, 255⟩,
  ⟨0x3112, 1, 0x1A, 1, .scalar, .rw, 255, true, 0, 255⟩,
  ⟨0x3112, 1, 0x1B, 1, .scalar, .rw, 255, true, 0, 255⟩,
  ⟨0x3112, 1, 0x1C, 1, .scalar, .rw, 255, true, 0, 255⟩,
  ⟨0x3112, 1, 0x1D, 1, .scalar, .rw, 255, true, 0, 255⟩,
  ⟨0x3112, 1, 0x1E, 1, .scalar, .rw, 255, true, 0, 255⟩,
  ⟨0x3112, 1, 0x1F, 1, .scalar, .rw, 255, true, 0, 255⟩,
  ⟨0x3112, 1, 0x20, 1, .scalar, .rw, 255, true, 0, 255⟩,
  ⟨0x3112, 1, 0x21, 1, .scalar, .rw, 255, true, 0, 255⟩,
  ⟨0x3112, 1, 0x22, 1, .scalar, .rw, 255, true, 0, 255⟩,
  ⟨0x3112, 1, 0x23, 1, .scalar, .rw, 255, true, 0, 255⟩,
  ⟨0x3112, 1, 0x24, 1, .scalar, .rw, 255, true, 0, 255⟩,
  ⟨0x3112, 1, 0x25, 1, .scalar, .rw, 255, true, 0, 255⟩,
  ⟨0x3112, 1, 0x26, 1, .scalar, .rw, 255, true, 0, 255⟩,
  ⟨0x3112, 1, 0x27, 1, .scalar, .rw, 255, true, 0, 255⟩,
  ⟨0x3112, 1, 0x28, 1, .scalar, .rw, 255, true, 0, 255⟩,
  ⟨0x3112, 1, 0x29, 1, .scalar, .rw, 255, true, 0, 255⟩,
  ⟨0x3112, 1, 0x2A, 1, .scalar, .rw, 255, true, 0, 255⟩,
  ⟨0x3112, 1, 0x2B, 1, .scalar, .rw, 255, true, 0, 255⟩,
  ⟨0x3112, 1, 0x2C, 1, .scalar, .rw, 255, true, 0, 255⟩,
  ⟨0x3112, 1, 0x2D, 1, .scalar, .rw, 255, true, 0, 255⟩,
  ⟨0x3112, 1, 0x2E, 1, .scalar, .rw, 255, true, 0, 255⟩,
  ⟨0x3112, 1, 0x2F, 1, .scalar, .rw, 255, true, 0, 255⟩,
  ⟨0x3112, 1, 0x30, 1, .scalar, .rw, 255, true, 0, 255⟩,
  ⟨0x3112, 1, 0x31, 1, .scalar, .rw, 255, true, 0, 255⟩,
  ⟨0x3112, 1, 0x32, 1, .scalar, .rw, 255, true, 0, 255⟩,
  ⟨0x3112, 1, 0x33, 1, .scalar, .rw, 255, true, 0, 255⟩,
  ⟨0x3112, 1, 0x34, 1, .scalar, .rw, 255, true, 0, 255⟩,
  ⟨0x3112, 1, 0x35, 1, .scalar, .rw, 255, true, 0, 255⟩,
  ⟨0x3112, 1, 0x36, 1, .scalar, .rw, 255, true, 0, 255⟩,
  ⟨0x3112, 1, 0x37, 1, .scalar, .rw, 255, true, 0, 255⟩,
  ⟨0x3112, 1, 0x38, 1, .scalar, .rw, 255, true, 0, 255⟩,
  ⟨0x3112, 1, 0x39, 1, .scalar, .rw, 255, true, 0, 255⟩,
  ⟨0x3112, 1, 0x3A, 1, .scalar, .rw, 255, true, 0, 255⟩,
  ⟨0x3112, 1, 0x3B, 1, .scalar, .rw, 255, true, 0, 255⟩,
  ⟨0x3112, 1, 0x3C, 1, .scalar, .rw, 255, true, 0, 255⟩]

/-- Entries of 0x3000-0x3FFF. -/
def odRows3c : List OdEntry := [
  ⟨0x3112, 1, 0x3D, 1, .scalar, .rw, 255, true, 0, 255⟩,
  ⟨0x3112, 1, 0x3E, 1, .scalar, .rw, 255, true, 0, 255⟩,
  ⟨0x3112, 1, 0x3F, 1, .scalar, .rw, 255, true, 0, 255⟩,
  ⟨0x3200, 1, 0x01, 1, .scalar, .rw, 3, true, 1, 4⟩,
  ⟨0x3200, 1, 0x02, 1, .scalar, .rw, 8, true, 0, 255⟩,
  ⟨0x3200, 1, 0x03, 1, .scalar, .rw, 1, true, 0, 255⟩,
  ⟨0x3200, 1, 0x04, 4, .scalar, .rw, 1000, true, 0, 4294967295⟩,
  ⟨0x3200, 1, 0x05, 1, .scalar, .rw, 90, true, 0, 255⟩,
  ⟨0x3200, 1, 0x06, 1, .scalar, .rw, 85, true, 0, 255⟩,
  ⟨0x3200, 1, 0x07, 1, .scalar, .rw, 16, true, 0, 255⟩,
  ⟨0x3200, 1, 0x08, 2, .scalar, .rw, 200, true, 0, 65535⟩,
  ⟨0x3200, 1, 0x09, 4, .scalar, .rw, 1000, true, 0, 4294967295⟩,
  ⟨0x3200, 1, 0x0A, 4, .scalar, .rw, 5000, true, 0, 4294967295⟩,
  ⟨0x3201, 1, 0x01, 8, .scalar, .ro, 0, false, 0, 18446744073709551615⟩,
  ⟨0x3201, 1, 0x02, 8, .scalar, .ro, 0, false, 0, 18446744073709551615⟩,
  ⟨0x3201, 1, 0x03, 8, .scalar, .ro, 0, false, 0, 18446744073709551615⟩,
  ⟨0x3201, 1, 0x04, 8, .scalar, .ro, 0, false, 0, 18446744073709551615⟩,
  ⟨0x3201, 1, 0x05, 8, .scalar, .ro, 0, false, 0, 18446744073709551615⟩,
  ⟨0x3300, 1, 0x01, 4, .scalar, .rw, 60000, true, 0, 4294967295⟩,
  ⟨0x3300, 1, 0x02, 2, .scalar, .const, 4096, false, 0, 65535⟩,
  ⟨0x3301, 1, 0x01, 2, .scalar, .ro, 0, false, 0, 65535⟩,
  ⟨0x3301, 1, 0x02, 2, .scalar, .ro, 0, false, 0, 65535⟩,
  ⟨0x3400, 1, 0x01, 2, .scalar, .rw, 8, true, 0, 65535⟩,
  ⟨0x3400, 1, 0x02, 2, .scalar, .rw, 256, true, 0, 65535⟩,
  ⟨0x3400, 1, 0x03, 2, .scalar, .rw, 64, true, 0, 65535⟩,
  ⟨0x3400, 1, 0x04, 4, .scalar, .rw, 20, true, 0, 4294967295⟩,
  ⟨0x3500, 1, 0x01, 1, .scalar, .rw, 1, true, 0, 1⟩,
  ⟨0x3600, 1, 0x01, 1, .scalar, .rw, 0, true, 0, 1⟩,
  ⟨0x3700, 1, 0x01, 1, .scalar, .rw, 4, true, 1, 16⟩,
  ⟨0x3700, 1, 0x02, 4, .scalar, .rw, 1065353216, true, 1065353216, 1098907648⟩,
  ⟨0x3800, 1024, 0x01, 8, .scalar, .rw, 0, false, 0, 18446744073709551615⟩,
  ⟨0x3800, 1024, 0x02, 4, .scalar, .rw, 1024, false, 64, 65536⟩,
  ⟨0x3800, 1024, 0x03, 1, .scalar, .rw, 0, false, 0, 63⟩,
  ⟨0x3800, 1024, 0x04, 2, .scalar, .rw, 65535, false, 0, 65535⟩,
  ⟨0x3800, 1024, 0x05, 4, .scalar, .ro, 0, false, 0, 4294967295⟩,
  ⟨0x3800, 1024, 0x06, 4, .scalar, .ro, 0, false, 0, 4294967295⟩,
  ⟨0x3800, 1024, 0x07, 8, .scalar, .ro, 0, false, 0, 18446744073709551615⟩,
  ⟨0x3C00, 1, 0x01, 4, .scalar, .rw, 1008981770, true, 0, 4294967295⟩,
  ⟨0x3C00, 1, 0x02, 1, .scalar, .const, 64, false, 0, 255⟩,
  ⟨0x3D00, 1, 0x01, 4, .scalar, .rw, 4096, true, 0, 4294967295⟩]

/-- Entries of 0x3000-0x3FFF. -/
def odRows3d : List OdEntry := [
  ⟨0x3D00, 1, 0x02, 1, .scalar, .rw, 4, true, 1, 16⟩,
  ⟨0x3E00, 1, 0x01, 4, .scalar, .rw, 20, true, 0, 4294967295⟩,
  ⟨0x3E00, 1, 0x02, 1, .scalar, .rw, 16, true, 1, 16⟩,
  ⟨0x3E00, 1, 0x03, 1, .scalar, .rw, 6, true, 0, 7⟩,
  ⟨0x3E00, 1, 0x04, 1, .scalar, .rw, 2, true, 1, 16⟩,
  ⟨0x3E00, 1, 0x05, 1, .scalar, .rw, 25, true, 0, 255⟩,
  ⟨0x3E00, 1, 0x06, 4, .scalar, .rw, 1000000, true, 0, 4294967295⟩]

/-- Entries of 0x4000-0x4FFF. -/
def odRows4a : List OdEntry := [
  ⟨0x4000, 1, 0x01, 2, .scalar, .rw, 0, true, 0, 1023⟩,
  ⟨0x4000, 1, 0x02, 8, .scalar, .rw, 0, true, 0, 18446744073709551615⟩,
  ⟨0x4000, 1, 0x03, 1, .scalar, .rw, 0, true, 0, 5⟩,
  ⟨0x4000, 1, 0x04, 1, .scalar, .rw, 0, true, 0, 255⟩,
  ⟨0x4000, 1, 0x05, 1, .scalar, .rw, 0, true, 0, 255⟩,
  ⟨0x4000, 1, 0x06, 1, .scalar, .rw, 32, true, 1, 63⟩,
  ⟨0x4000, 1, 0x07, 1, .scalar, .wo, 0, false, 0, 255⟩,
  ⟨0x4000, 1, 0x08, 4, .scalar, .ro, 0, false, 0, 4294967295⟩,
  ⟨0x4010, 4, 0x01, 1, .scalar, .ro, 0, false, 0, 255⟩,
  ⟨0x4010, 4, 0x02, 2, .scalar, .ro, 65535, false, 0, 65535⟩,
  ⟨0x4010, 4, 0x03, 1, .scalar, .ro, 255, false, 0, 255⟩,
  ⟨0x4010, 4, 0x04, 2, .scalar, .ro, 0, false, 0, 65535⟩,
  ⟨0x4010, 4, 0x05, 1, .scalar, .rw, 1, true, 0, 1⟩,
  ⟨0x4010, 4, 0x06, 1, .scalar, .ro, 0, false, 0, 255⟩,
  ⟨0x4100, 1, 0x01, 2, .scalar, .rw, 64, true, 0, 65535⟩,
  ⟨0x4100, 1, 0x02, 2, .scalar, .rw, 64, true, 0, 65535⟩,
  ⟨0x4100, 1, 0x03, 2, .scalar, .rw, 64, true, 0, 65535⟩,
  ⟨0x4100, 1, 0x04, 2, .scalar, .rw, 64, true, 0, 65535⟩,
  ⟨0x4100, 1, 0x05, 2, .scalar, .ro, 3072, false, 0, 65535⟩,
  ⟨0x4200, 1, 0x01, 2, .scalar, .rw, 0, false, 0, 1023⟩,
  ⟨0x4200, 1, 0x02, 1, .scalar, .rw, 255, true, 0, 255⟩,
  ⟨0x4200, 1, 0x03, 1, .scalar, .rw, 0, true, 0, 1⟩,
  ⟨0x4300, 1, 0x01, 1, .scalar, .rw, 0, false, 0, 255⟩,
  ⟨0x4300, 1, 0x02, 2, .scalar, .ro, 65535, false, 0, 65535⟩,
  ⟨0x4300, 1, 0x03, 4, .scalar, .ro, 0, false, 0, 4294967295⟩,
  ⟨0x4300, 1, 0x04, 4, .scalar, .wo, 0, false, 0, 4294967295⟩,
  ⟨0x4300, 1, 0x05, 2, .scalar, .wo, 0, false, 0, 65535⟩,
  ⟨0x4300, 1, 0x06, 4, .scalar, .wo, 0, false, 0, 4294967295⟩,
  ⟨0x4300, 1, 0x07, 128, .raw, .ro, 0, false, 0, 0⟩,
  ⟨0x4300, 1, 0x08, 2, .scalar, .ro, 0, false, 0, 65535⟩,
  ⟨0x4400, 1, 0x01, 4, .scalar, .rw, 2000, true, 0, 4294967295⟩,
  ⟨0x4400, 1, 0x02, 4, .scalar, .const, 10, false, 0, 4294967295⟩,
  ⟨0x4400, 1, 0x03, 1, .scalar, .rw, 1, true, 0, 1⟩,
  ⟨0x4400, 1, 0x04, 128, .raw, .rw, 0, true, 0, 0⟩,
  ⟨0x4600, 1, 0x01, 4, .scalar, .rw, 2000, true, 0, 4294967295⟩,
  ⟨0x4600, 1, 0x02, 4, .scalar, .rw, 1000, true, 0, 4294967295⟩,
  ⟨0x4600, 1, 0x03, 4, .scalar, .rw, 60000, true, 0, 4294967295⟩,
  ⟨0x4601, 1, 0x01, 2, .scalar, .ro, 0, false, 0, 65535⟩,
  ⟨0x4601, 1, 0x02, 4, .scalar, .rws, 0, false, 0, 4294967295⟩]

/-- Entries of 0x5000-0x5FFF. -/
def odRows5a : List OdEntry := [
  ⟨0x5001, 1, 0x01, 1, .scalar, .rw, 0, false, 0, 0⟩,
  ⟨0x5001, 1, 0x02, 384, .raw, .wo, 0, false, 0, 0⟩,
  ⟨0x5001, 1, 0x03, 32, .raw, .ro, 0, false, 0, 0⟩,
  ⟨0x5001, 1, 0x04, 4, .scalar, .rw, 600000, true, 10000, 3600000⟩,
  ⟨0x5001, 1, 0x05, 1, .scalar, .ro, 0, false, 0, 255⟩,
  ⟨0x5001, 1, 0x06, 1, .scalar, .rw, 0, true, 0, 1⟩,
  ⟨0x5002, 1, 0x01, 1, .scalar, .rws, 0, false, 0, 255⟩,
  ⟨0x5010, 1, 0x01, 388, .raw, .rws, 0, true, 0, 0⟩,
  ⟨0x5010, 1, 0x02, 388, .raw, .rws, 0, true, 0, 0⟩,
  ⟨0x5010, 1, 0x03, 32, .raw, .ro, 0, true, 0, 0⟩,
  ⟨0x5010, 1, 0x04, 32, .raw, .ro, 0, true, 0, 0⟩,
  ⟨0x5100, 1, 0x01, 4, .scalar, .rw, 2000, true, 1000, 60000⟩,
  ⟨0x5100, 1, 0x02, 4, .scalar, .rw, 30000, true, 10000, 120000⟩,
  ⟨0x5100, 1, 0x03, 4, .scalar, .ro, 0, true, 0, 4294967295⟩,
  ⟨0x5100, 1, 0x04, 4, .scalar, .ro, 0, true, 0, 4294967295⟩,
  ⟨0x5200, 1, 0x01, 1, .scalar, .ro, 0, false, 0, 255⟩,
  ⟨0x5200, 1, 0x02, 2, .scalar, .ro, 0, true, 0, 65535⟩,
  ⟨0x5200, 1, 0x03, 2, .scalar, .ro, 0, true, 0, 65535⟩,
  ⟨0x5200, 1, 0x04, 2, .scalar, .ro, 0, true, 0, 65535⟩,
  ⟨0x5200, 1, 0x05, 1, .scalar, .ro, 255, true, 0, 255⟩,
  ⟨0x5200, 1, 0x06, 1, .scalar, .const, 2, false, 0, 255⟩,
  ⟨0x5300, 1, 0x01, 8, .scalar, .ro, 0, false, 0, 18446744073709551615⟩,
  ⟨0x5300, 1, 0x02, 8, .scalar, .ro, 0, true, 0, 18446744073709551615⟩,
  ⟨0x5300, 1, 0x03, 8, .scalar, .ro, 0, true, 0, 18446744073709551615⟩,
  ⟨0x5300, 1, 0x04, 8, .scalar, .ro, 0, false, 0, 18446744073709551615⟩,
  ⟨0x5300, 1, 0x05, 8, .scalar, .ro, 0, false, 0, 18446744073709551615⟩,
  ⟨0x5300, 1, 0x06, 8, .scalar, .ro, 0, false, 0, 18446744073709551615⟩,
  ⟨0x5312, 1, 0x00, 2, .scalar, .rw, 4, true, 1, 1024⟩,
  ⟨0x5400, 1, 0x01, 1, .scalar, .ro, 0, false, 0, 255⟩,
  ⟨0x5400, 1, 0x02, 1, .scalar, .ro, 0, false, 0, 255⟩,
  ⟨0x5400, 1, 0x03, 1, .scalar, .ro, 0, true, 0, 255⟩,
  ⟨0x5400, 1, 0x04, 4, .scalar, .ro, 0, true, 0, 4294967295⟩,
  ⟨0x5400, 1, 0x05, 1, .scalar, .rws, 0, false, 0, 255⟩,
  ⟨0x5500, 1, 0x01, 4, .scalar, .ro, 1, true, 0, 4294967295⟩,
  ⟨0x5500, 1, 0x02, 2, .scalar, .ro, 1, true, 0, 65535⟩]

/-- Entries of 0x6000-0x6FFF. -/
def odRows6a : List OdEntry := [
  ⟨0x6000, 1, 0x01, 1, .scalar, .rw, 0, true, 0, 5⟩,
  ⟨0x6000, 1, 0x02, 1, .scalar, .rw, 15, true, 0, 255⟩,
  ⟨0x6000, 1, 0x03, 1, .scalar, .ro, 0, false, 0, 255⟩,
  ⟨0x6000, 1, 0x04, 1, .scalar, .ro, 255, false, 0, 255⟩,
  ⟨0x6001, 1, 0x01, 1, .scalar, .rw, 100, true, 70, 110⟩,
  ⟨0x6001, 1, 0x02, 1, .scalar, .rw, 5, true, 1, 20⟩,
  ⟨0x6002, 1, 0x01, 2, .scalar, .ro, 1000, false, 0, 65535⟩,
  ⟨0x6002, 1, 0x02, 1, .scalar, .ro, 0, false, 0, 255⟩,
  ⟨0x6003, 1, 0x01, 8, .scalar, .ro, 0, false, 0, 18446744073709551615⟩,
  ⟨0x6003, 1, 0x02, 8, .scalar, .ro, 0, false, 0, 18446744073709551615⟩,
  ⟨0x6003, 1, 0x03, 8, .scalar, .ro, 0, false, 0, 18446744073709551615⟩,
  ⟨0x6003, 1, 0x04, 8, .scalar, .ro, 0, false, 0, 18446744073709551615⟩,
  ⟨0x6003, 1, 0x05, 8, .scalar, .ro, 0, false, 0, 18446744073709551615⟩,
  ⟨0x6003, 1, 0x06, 8, .scalar, .ro, 0, false, 0, 18446744073709551615⟩,
  ⟨0x6004, 1, 0x01, 8, .scalar, .ro, 0, false, 0, 18446744073709551615⟩,
  ⟨0x6004, 1, 0x02, 8, .scalar, .ro, 0, false, 0, 18446744073709551615⟩,
  ⟨0x6004, 1, 0x03, 8, .scalar, .ro, 0, false, 0, 18446744073709551615⟩,
  ⟨0x6010, 1, 0x01, 1, .scalar, .rws, 0, false, 0, 255⟩,
  ⟨0x6010, 1, 0x02, 1, .scalar, .ro, 0, true, 0, 255⟩,
  ⟨0x6010, 1, 0x03, 1, .scalar, .rws, 0, false, 0, 255⟩,
  ⟨0x6020, 1, 0x01, 8, .scalar, .wo, 0, false, 0, 18446744073709551615⟩,
  ⟨0x6030, 1, 0x01, 1, .scalar, .ro, 0, true, 0, 255⟩,
  ⟨0x6030, 1, 0x02, 8, .scalar, .ro, 0, true, 0, 18446744073709551615⟩,
  ⟨0x6030, 1, 0x03, 8, .scalar, .ro, 0, true, 0, 18446744073709551615⟩,
  ⟨0x6100, 1, 0x01, 2, .scalar, .ro, 0, false, 0, 65535⟩,
  ⟨0x6100, 1, 0x02, 1, .scalar, .ro, 0, false, 0, 255⟩,
  ⟨0x6101, 1, 0x01, 2, .scalar, .ro, 0, false, 0, 65535⟩,
  ⟨0x6101, 1, 0x02, 2, .scalar, .ro, 0, false, 0, 65535⟩,
  ⟨0x6101, 1, 0x03, 2, .scalar, .ro, 0, false, 0, 65535⟩,
  ⟨0x6102, 1, 0x01, 1, .scalar, .ro, 0, false, 0, 255⟩,
  ⟨0x6102, 1, 0x02, 1, .scalar, .ro, 0, false, 0, 255⟩,
  ⟨0x6102, 1, 0x03, 1, .scalar, .ro, 0, false, 0, 255⟩,
  ⟨0x6103, 1, 0x01, 4, .scalar, .ro, 0, true, 0, 4294967295⟩,
  ⟨0x6103, 1, 0x02, 8, .scalar, .ro, 0, false, 0, 18446744073709551615⟩,
  ⟨0x6103, 1, 0x03, 4, .scalar, .ro, 0, true, 0, 4294967295⟩,
  ⟨0x6104, 1, 0x01, 1, .scalar, .rw, 0, false, 0, 1⟩,
  ⟨0x6105, 1, 0x01, 1, .scalar, .ro, 0, false, 0, 255⟩,
  ⟨0x6105, 1, 0x02, 2, .scalar, .ro, 0, false, 0, 65535⟩,
  ⟨0x6105, 1, 0x03, 1, .scalar, .rw, 20, true, 0, 255⟩]

/-- Entries of 0x7000-0x7FFF. -/
def odRows7a : List OdEntry := [
  ⟨0x7000, 1, 0x01, 2, .scalar, .ro, 0, false, 0, 65535⟩,
  ⟨0x7000, 1, 0x02, 2, .scalar, .ro, 0, false, 0, 65535⟩,
  ⟨0x7000, 1, 0x03, 2, .scalar, .ro, 0, false, 0, 65535⟩,
  ⟨0x7000, 1, 0x04, 2, .scalar, .ro, 0, false, 0, 65535⟩,
  ⟨0x7000, 1, 0x05, 2, .scalar, .ro, 0, false, 0, 65535⟩,
  ⟨0x7000, 1, 0x06, 2, .scalar, .ro, 0, false, 0, 65535⟩,
  ⟨0x7000, 1, 0x07, 2, .scalar, .ro, 0, false, 0, 65535⟩,
  ⟨0x7000, 1, 0x08, 2, .scalar, .ro, 0, false, 0, 65535⟩,
  ⟨0x7001, 1, 0x01, 1, .scalar, .rw, 16, true, 0, 255⟩,
  ⟨0x7001, 1, 0x02, 1, .scalar, .rw, 16, true, 0, 255⟩,
  ⟨0x7001, 1, 0x03, 1, .scalar, .rw, 16, true, 0, 255⟩,
  ⟨0x7001, 1, 0x04, 1, .scalar, .rw, 16, true, 0, 255⟩,
  ⟨0x7001, 1, 0x05, 1, .scalar, .rw, 16, true, 0, 255⟩,
  ⟨0x7001, 1, 0x06, 1, .scalar, .rw, 16, true, 0, 255⟩,
  ⟨0x7002, 1, 0x01, 2, .scalar, .rw, 16384, true, 0, 65535⟩,
  ⟨0x7002, 1, 0x02, 2, .scalar, .rw, 8192, true, 0, 65535⟩,
  ⟨0x7002, 1, 0x03, 4, .scalar, .rw, 60000, true, 0, 4294967295⟩,
  ⟨0x7003, 1, 0x01, 1, .scalar, .rw, 90, true, 0, 255⟩,
  ⟨0x7003, 1, 0x02, 1, .scalar, .ro, 0, false, 0, 255⟩,
  ⟨0x7010, 1, 0x01, 8, .scalar, .wo, 0, false, 0, 18446744073709551615⟩]

/-- Entries of 0x8000-0x8FFF. -/
def odRows8a : List OdEntry := [
  ⟨0x8000, 1025, 0x01, 8, .scalar, .ro, 0, false, 0, 18446744073709551615⟩,
  ⟨0x8000, 1025, 0x02, 4, .scalar, .ro, 0, false, 0, 4294967295⟩,
  ⟨0x8000, 1025, 0x03, 8, .scalar, .ro, 0, false, 0, 18446744073709551615⟩,
  ⟨0x8000, 1025, 0x04, 8, .scalar, .ro, 0, false, 0, 18446744073709551615⟩,
  ⟨0x8000, 1025, 0x05, 8, .scalar, .ro, 0, false, 0, 18446744073709551615⟩,
  ⟨0x8000, 1025, 0x06, 8, .scalar, .ro, 0, false, 0, 18446744073709551615⟩,
  ⟨0x8000, 1025, 0x07, 8, .scalar, .ro, 0, false, 0, 18446744073709551615⟩,
  ⟨0x8000, 1025, 0x08, 8, .scalar, .ro, 0, false, 0, 18446744073709551615⟩]

/-- Entries of 0x9000-0x9FFF. -/
def odRows9a : List OdEntry := [
  ⟨0x9000, 1, 0x01, 1, .scalar, .rw, 0, false, 0, 1⟩,
  ⟨0x9050, 1, 0x01, 8, .scalar, .ro, 0, false, 0, 18446744073709551615⟩,
  ⟨0x9050, 1, 0x02, 8, .scalar, .ro, 0, false, 0, 18446744073709551615⟩,
  ⟨0x9050, 1, 0x03, 8, .scalar, .ro, 0, false, 0, 18446744073709551615⟩,
  ⟨0x9050, 1, 0x04, 8, .scalar, .ro, 0, false, 0, 18446744073709551615⟩,
  ⟨0x9050, 1, 0x05, 8, .scalar, .ro, 0, false, 0, 18446744073709551615⟩,
  ⟨0x9050, 1, 0x06, 8, .scalar, .ro, 0, false, 0, 18446744073709551615⟩,
  ⟨0x9050, 1, 0x07, 8, .scalar, .ro, 0, false, 0, 18446744073709551615⟩,
  ⟨0x9050, 1, 0x08, 8, .scalar, .ro, 0, false, 0, 18446744073709551615⟩,
  ⟨0x9050, 1, 0x09, 8, .scalar, .ro, 0, false, 0, 18446744073709551615⟩,
  ⟨0x9050, 1, 0x0A, 8, .scalar, .ro, 0, false, 0, 18446744073709551615⟩,
  ⟨0x9050, 1, 0x0B, 8, .scalar, .ro, 0, false, 0, 18446744073709551615⟩,
  ⟨0x9050, 1, 0x0C, 8, .scalar, .ro, 0, false, 0, 18446744073709551615⟩,
  ⟨0x9050, 1, 0x0D, 8, .scalar, .ro, 0, false, 0, 18446744073709551615⟩,
  ⟨0x9050, 1, 0x0E, 8, .scalar, .ro, 0, true, 0, 18446744073709551615⟩,
  ⟨0x9060, 1, 0x01, 8, .scalar, .ro, 0, false, 0, 18446744073709551615⟩,
  ⟨0x9060, 1, 0x02, 8, .scalar, .ro, 0, false, 0, 18446744073709551615⟩,
  ⟨0x9060, 1, 0x03, 8, .scalar, .ro, 0, false, 0, 18446744073709551615⟩,
  ⟨0x9060, 1, 0x04, 8, .scalar, .ro, 0, false, 0, 18446744073709551615⟩,
  ⟨0x9060, 1, 0x05, 8, .scalar, .ro, 0, false, 0, 18446744073709551615⟩,
  ⟨0x9060, 1, 0x06, 8, .scalar, .ro, 0, false, 0, 18446744073709551615⟩,
  ⟨0x9060, 1, 0x07, 8, .scalar, .ro, 0, false, 0, 18446744073709551615⟩,
  ⟨0x9060, 1, 0x08, 8, .scalar, .ro, 0, false, 0, 18446744073709551615⟩,
  ⟨0x9060, 1, 0x09, 8, .scalar, .ro, 0, false, 0, 18446744073709551615⟩,
  ⟨0x9060, 1, 0x0A, 8, .scalar, .ro, 0, false, 0, 18446744073709551615⟩,
  ⟨0x9070, 4, 0x01, 8, .scalar, .ro, 0, false, 0, 18446744073709551615⟩,
  ⟨0x9070, 4, 0x02, 8, .scalar, .ro, 0, false, 0, 18446744073709551615⟩,
  ⟨0x9070, 4, 0x03, 8, .scalar, .ro, 0, false, 0, 18446744073709551615⟩,
  ⟨0x9070, 4, 0x04, 8, .scalar, .ro, 0, false, 0, 18446744073709551615⟩,
  ⟨0x9070, 4, 0x05, 8, .scalar, .ro, 0, false, 0, 18446744073709551615⟩,
  ⟨0x9070, 4, 0x06, 8, .scalar, .ro, 0, false, 0, 18446744073709551615⟩,
  ⟨0x9070, 4, 0x07, 8, .scalar, .ro, 0, false, 0, 18446744073709551615⟩,
  ⟨0x9070, 4, 0x08, 8, .scalar, .ro, 0, false, 0, 18446744073709551615⟩,
  ⟨0x9074, 1, 0x01, 8, .scalar, .ro, 0, false, 0, 18446744073709551615⟩,
  ⟨0x9074, 1, 0x02, 8, .scalar, .ro, 0, false, 0, 18446744073709551615⟩,
  ⟨0x9074, 1, 0x03, 8, .scalar, .ro, 0, false, 0, 18446744073709551615⟩,
  ⟨0x9074, 1, 0x04, 8, .scalar, .ro, 0, false, 0, 18446744073709551615⟩,
  ⟨0x9074, 1, 0x05, 8, .scalar, .ro, 0, false, 0, 18446744073709551615⟩,
  ⟨0x9074, 1, 0x06, 8, .scalar, .ro, 0, false, 0, 18446744073709551615⟩,
  ⟨0x9074, 1, 0x07, 8, .scalar, .ro, 0, false, 0, 18446744073709551615⟩]

/-- Entries of 0x9000-0x9FFF. -/
def odRows9b : List OdEntry := [
  ⟨0x9074, 1, 0x08, 8, .scalar, .ro, 0, false, 0, 18446744073709551615⟩,
  ⟨0x9074, 1, 0x09, 8, .scalar, .ro, 0, false, 0, 18446744073709551615⟩,
  ⟨0x9100, 1, 0x01, 8, .scalar, .ro, 0, false, 0, 18446744073709551615⟩,
  ⟨0x9100, 1, 0x02, 8, .scalar, .ro, 0, false, 0, 18446744073709551615⟩,
  ⟨0x9100, 1, 0x03, 8, .scalar, .ro, 0, false, 0, 18446744073709551615⟩,
  ⟨0x9100, 1, 0x04, 8, .scalar, .ro, 0, false, 0, 18446744073709551615⟩,
  ⟨0x9100, 1, 0x05, 8, .scalar, .ro, 0, false, 0, 18446744073709551615⟩,
  ⟨0x9100, 1, 0x06, 8, .scalar, .ro, 0, false, 0, 18446744073709551615⟩,
  ⟨0x9100, 1, 0x07, 8, .scalar, .ro, 0, false, 0, 18446744073709551615⟩,
  ⟨0x9100, 1, 0x08, 8, .scalar, .ro, 0, false, 0, 18446744073709551615⟩,
  ⟨0x9100, 1, 0x11, 8, .scalar, .ro, 0, false, 0, 18446744073709551615⟩,
  ⟨0x9100, 1, 0x12, 8, .scalar, .ro, 0, false, 0, 18446744073709551615⟩,
  ⟨0x9100, 1, 0x13, 8, .scalar, .ro, 0, false, 0, 18446744073709551615⟩,
  ⟨0x9100, 1, 0x14, 8, .scalar, .ro, 0, false, 0, 18446744073709551615⟩,
  ⟨0x9100, 1, 0x15, 8, .scalar, .ro, 0, false, 0, 18446744073709551615⟩,
  ⟨0x9100, 1, 0x16, 8, .scalar, .ro, 0, false, 0, 18446744073709551615⟩,
  ⟨0x9100, 1, 0x17, 8, .scalar, .ro, 0, false, 0, 18446744073709551615⟩,
  ⟨0x9100, 1, 0x18, 8, .scalar, .ro, 0, false, 0, 18446744073709551615⟩,
  ⟨0x9101, 32, 0x01, 8, .scalar, .ro, 0, false, 0, 18446744073709551615⟩,
  ⟨0x9101, 32, 0x02, 8, .scalar, .ro, 0, false, 0, 18446744073709551615⟩,
  ⟨0x9101, 32, 0x03, 8, .scalar, .ro, 0, false, 0, 18446744073709551615⟩,
  ⟨0x9101, 32, 0x04, 8, .scalar, .ro, 0, false, 0, 18446744073709551615⟩,
  ⟨0x9101, 32, 0x05, 8, .scalar, .ro, 0, false, 0, 18446744073709551615⟩,
  ⟨0x9101, 32, 0x06, 8, .scalar, .ro, 0, false, 0, 18446744073709551615⟩,
  ⟨0x9101, 32, 0x07, 8, .scalar, .ro, 0, false, 0, 18446744073709551615⟩,
  ⟨0x9101, 32, 0x08, 8, .scalar, .ro, 0, false, 0, 18446744073709551615⟩,
  ⟨0x9101, 32, 0x11, 8, .scalar, .ro, 0, false, 0, 18446744073709551615⟩,
  ⟨0x9101, 32, 0x12, 8, .scalar, .ro, 0, false, 0, 18446744073709551615⟩,
  ⟨0x9101, 32, 0x13, 8, .scalar, .ro, 0, false, 0, 18446744073709551615⟩,
  ⟨0x9101, 32, 0x14, 8, .scalar, .ro, 0, false, 0, 18446744073709551615⟩,
  ⟨0x9101, 32, 0x15, 8, .scalar, .ro, 0, false, 0, 18446744073709551615⟩,
  ⟨0x9101, 32, 0x16, 8, .scalar, .ro, 0, false, 0, 18446744073709551615⟩,
  ⟨0x9101, 32, 0x17, 8, .scalar, .ro, 0, false, 0, 18446744073709551615⟩,
  ⟨0x9101, 32, 0x18, 8, .scalar, .ro, 0, false, 0, 18446744073709551615⟩,
  ⟨0x9200, 1, 0x01, 8, .scalar, .ro, 0, false, 0, 18446744073709551615⟩,
  ⟨0x9200, 1, 0x02, 8, .scalar, .ro, 0, false, 0, 18446744073709551615⟩,
  ⟨0x9200, 1, 0x03, 8, .scalar, .ro, 0, false, 0, 18446744073709551615⟩,
  ⟨0x9200, 1, 0x04, 8, .scalar, .ro, 0, false, 0, 18446744073709551615⟩,
  ⟨0x9200, 1, 0x05, 8, .scalar, .ro, 0, false, 0, 18446744073709551615⟩,
  ⟨0x9200, 1, 0x06, 8, .scalar, .ro, 0, false, 0, 18446744073709551615⟩]

/-- Entries of 0x9000-0x9FFF. -/
def odRows9c : List OdEntry := [
  ⟨0x9300, 1, 0x01, 8, .scalar, .ro, 0, false, 0, 18446744073709551615⟩,
  ⟨0x9300, 1, 0x02, 8, .scalar, .ro, 0, false, 0, 18446744073709551615⟩,
  ⟨0x9300, 1, 0x03, 8, .scalar, .ro, 0, false, 0, 18446744073709551615⟩,
  ⟨0x9300, 1, 0x04, 8, .scalar, .ro, 0, false, 0, 18446744073709551615⟩,
  ⟨0x9300, 1, 0x05, 4, .scalar, .ro, 0, false, 0, 4294967295⟩,
  ⟨0x9300, 1, 0x06, 8, .scalar, .ro, 0, false, 0, 18446744073709551615⟩,
  ⟨0x9300, 1, 0x07, 8, .scalar, .ro, 0, false, 0, 18446744073709551615⟩,
  ⟨0x9300, 1, 0x08, 8, .scalar, .ro, 0, false, 0, 18446744073709551615⟩,
  ⟨0x9300, 1, 0x09, 8, .scalar, .ro, 0, false, 0, 18446744073709551615⟩,
  ⟨0x9300, 1, 0x0A, 8, .scalar, .ro, 0, false, 0, 18446744073709551615⟩,
  ⟨0x9300, 1, 0x0B, 8, .scalar, .ro, 0, false, 0, 18446744073709551615⟩,
  ⟨0x9400, 1, 0x01, 8, .scalar, .const, 0, false, 0, 18446744073709551615⟩,
  ⟨0x9400, 1, 0x02, 8, .scalar, .ro, 0, false, 0, 18446744073709551615⟩,
  ⟨0x9400, 1, 0x03, 8, .scalar, .ro, 0, false, 0, 18446744073709551615⟩,
  ⟨0x9400, 1, 0x04, 8, .scalar, .ro, 0, false, 0, 18446744073709551615⟩,
  ⟨0x9400, 1, 0x05, 8, .scalar, .ro, 0, false, 0, 18446744073709551615⟩,
  ⟨0x9400, 1, 0x06, 8, .scalar, .ro, 0, false, 0, 18446744073709551615⟩,
  ⟨0x9500, 1, 0x01, 8, .scalar, .ro, 0, false, 0, 18446744073709551615⟩,
  ⟨0x9500, 1, 0x02, 8, .scalar, .ro, 0, false, 0, 18446744073709551615⟩,
  ⟨0x9500, 1, 0x03, 8, .scalar, .ro, 0, false, 0, 18446744073709551615⟩,
  ⟨0x9500, 1, 0x04, 8, .scalar, .ro, 0, false, 0, 18446744073709551615⟩,
  ⟨0x9500, 1, 0x05, 8, .scalar, .ro, 0, false, 0, 18446744073709551615⟩,
  ⟨0x9500, 1, 0x06, 8, .scalar, .ro, 0, false, 0, 18446744073709551615⟩,
  ⟨0x9600, 1, 0x01, 8, .scalar, .ro, 0, false, 0, 18446744073709551615⟩,
  ⟨0x9600, 1, 0x02, 8, .scalar, .ro, 0, false, 0, 18446744073709551615⟩,
  ⟨0x9600, 1, 0x03, 8, .scalar, .ro, 0, false, 0, 18446744073709551615⟩,
  ⟨0x9600, 1, 0x04, 8, .scalar, .ro, 0, false, 0, 18446744073709551615⟩,
  ⟨0x9600, 1, 0x05, 8, .scalar, .ro, 0, false, 0, 18446744073709551615⟩,
  ⟨0x9600, 1, 0x06, 8, .scalar, .ro, 0, false, 0, 18446744073709551615⟩,
  ⟨0x9600, 1, 0x07, 8, .scalar, .ro, 0, false, 0, 18446744073709551615⟩,
  ⟨0x9600, 1, 0x08, 8, .scalar, .ro, 0, false, 0, 18446744073709551615⟩,
  ⟨0x9600, 1, 0x09, 8, .scalar, .ro, 0, false, 0, 18446744073709551615⟩,
  ⟨0x9600, 1, 0x0A, 8, .scalar, .ro, 0, false, 0, 18446744073709551615⟩,
  ⟨0x9600, 1, 0x0B, 8, .scalar, .ro, 0, false, 0, 18446744073709551615⟩,
  ⟨0x9700, 1, 0x01, 8, .scalar, .ro, 0, false, 0, 18446744073709551615⟩,
  ⟨0x9700, 1, 0x02, 8, .scalar, .ro, 0, false, 0, 18446744073709551615⟩,
  ⟨0x9700, 1, 0x03, 8, .scalar, .ro, 0, false, 0, 18446744073709551615⟩,
  ⟨0x9700, 1, 0x04, 8, .scalar, .ro, 0, false, 0, 18446744073709551615⟩,
  ⟨0x9700, 1, 0x05, 8, .scalar, .ro, 0, false, 0, 18446744073709551615⟩,
  ⟨0x9700, 1, 0x06, 8, .scalar, .ro, 0, false, 0, 18446744073709551615⟩]

/-- Entries of 0x9000-0x9FFF. -/
def odRows9d : List OdEntry := [
  ⟨0x9700, 1, 0x07, 8, .scalar, .ro, 0, false, 0, 18446744073709551615⟩,
  ⟨0x9800, 1, 0x01, 8, .scalar, .ro, 0, false, 0, 18446744073709551615⟩,
  ⟨0x9801, 32, 0x01, 8, .scalar, .ro, 0, false, 0, 18446744073709551615⟩,
  ⟨0x9800, 1, 0x02, 8, .scalar, .ro, 0, false, 0, 18446744073709551615⟩,
  ⟨0x9800, 1, 0x03, 8, .scalar, .ro, 0, false, 0, 18446744073709551615⟩,
  ⟨0x9800, 1, 0x04, 8, .scalar, .ro, 0, false, 0, 18446744073709551615⟩,
  ⟨0x9800, 1, 0x05, 8, .scalar, .ro, 0, false, 0, 18446744073709551615⟩,
  ⟨0x9800, 1, 0x06, 8, .scalar, .ro, 0, false, 0, 18446744073709551615⟩,
  ⟨0x9800, 1, 0x07, 8, .scalar, .ro, 0, false, 0, 18446744073709551615⟩,
  ⟨0x9800, 1, 0x08, 8, .scalar, .ro, 0, false, 0, 18446744073709551615⟩,
  ⟨0x9800, 1, 0x09, 8, .scalar, .ro, 0, false, 0, 18446744073709551615⟩,
  ⟨0x9800, 1, 0x0A, 8, .scalar, .ro, 0, false, 0, 18446744073709551615⟩,
  ⟨0x9801, 32, 0x02, 8, .scalar, .ro, 0, false, 0, 18446744073709551615⟩,
  ⟨0x9801, 32, 0x03, 8, .scalar, .ro, 0, false, 0, 18446744073709551615⟩,
  ⟨0x9801, 32, 0x04, 8, .scalar, .ro, 0, false, 0, 18446744073709551615⟩,
  ⟨0x9801, 32, 0x05, 8, .scalar, .ro, 0, false, 0, 18446744073709551615⟩,
  ⟨0x9801, 32, 0x06, 8, .scalar, .ro, 0, false, 0, 18446744073709551615⟩,
  ⟨0x9801, 32, 0x07, 8, .scalar, .ro, 0, false, 0, 18446744073709551615⟩,
  ⟨0x9801, 32, 0x08, 8, .scalar, .ro, 0, false, 0, 18446744073709551615⟩,
  ⟨0x9801, 32, 0x09, 8, .scalar, .ro, 0, false, 0, 18446744073709551615⟩,
  ⟨0x9801, 32, 0x0A, 8, .scalar, .ro, 0, false, 0, 18446744073709551615⟩,
  ⟨0x9A00, 1, 0x01, 8, .scalar, .ro, 0, false, 0, 18446744073709551615⟩,
  ⟨0x9A00, 1, 0x02, 8, .scalar, .ro, 0, false, 0, 18446744073709551615⟩,
  ⟨0x9A00, 1, 0x03, 8, .scalar, .ro, 0, false, 0, 18446744073709551615⟩,
  ⟨0x9A00, 1, 0x04, 8, .scalar, .ro, 0, false, 0, 18446744073709551615⟩,
  ⟨0x9A00, 1, 0x05, 8, .scalar, .ro, 0, false, 0, 18446744073709551615⟩,
  ⟨0x9A00, 1, 0x06, 8, .scalar, .ro, 0, false, 0, 18446744073709551615⟩,
  ⟨0x9A00, 1, 0x07, 8, .scalar, .ro, 0, false, 0, 18446744073709551615⟩,
  ⟨0x9A00, 1, 0x08, 8, .scalar, .ro, 0, false, 0, 18446744073709551615⟩,
  ⟨0x9A00, 1, 0x09, 8, .scalar, .ro, 0, false, 0, 18446744073709551615⟩,
  ⟨0x9A00, 1, 0x0A, 8, .scalar, .ro, 0, false, 0, 18446744073709551615⟩,
  ⟨0x9A00, 1, 0x0B, 8, .scalar, .ro, 0, false, 0, 18446744073709551615⟩,
  ⟨0x9A00, 1, 0x0C, 8, .scalar, .ro, 0, false, 0, 18446744073709551615⟩,
  ⟨0x9A01, 32, 0x01, 8, .scalar, .ro, 0, false, 0, 18446744073709551615⟩,
  ⟨0x9A01, 32, 0x02, 8, .scalar, .ro, 0, false, 0, 18446744073709551615⟩,
  ⟨0x9A01, 32, 0x03, 8, .scalar, .ro, 0, false, 0, 18446744073709551615⟩,
  ⟨0x9A01, 32, 0x04, 8, .scalar, .ro, 0, false, 0, 18446744073709551615⟩,
  ⟨0x9A01, 32, 0x05, 8, .scalar, .ro, 0, false, 0, 18446744073709551615⟩,
  ⟨0x9A01, 32, 0x06, 8, .scalar, .ro, 0, false, 0, 18446744073709551615⟩,
  ⟨0x9A01, 32, 0x07, 8, .scalar, .ro, 0, false, 0, 18446744073709551615⟩,
  ⟨0x9A01, 32, 0x08, 8, .scalar, .ro, 0, false, 0, 18446744073709551615⟩,
  ⟨0x9A01, 32, 0x09, 8, .scalar, .ro, 0, false, 0, 18446744073709551615⟩,
  ⟨0x9A01, 32, 0x0A, 8, .scalar, .ro, 0, false, 0, 18446744073709551615⟩,
  ⟨0x9A01, 32, 0x0B, 8, .scalar, .ro, 0, false, 0, 18446744073709551615⟩,
  ⟨0x9A01, 32, 0x0C, 8, .scalar, .ro, 0, false, 0, 18446744073709551615⟩,
  ⟨0x9B00, 1, 0x01, 8, .scalar, .ro, 0, false, 0, 18446744073709551615⟩,
  ⟨0x9B00, 1, 0x02, 8, .scalar, .ro, 0, false, 0, 18446744073709551615⟩,
  ⟨0x9B00, 1, 0x03, 8, .scalar, .ro, 0, false, 0, 18446744073709551615⟩,
  ⟨0x9B00, 1, 0x04, 8, .scalar, .ro, 0, false, 0, 18446744073709551615⟩,
  ⟨0x9B00, 1, 0x05, 8, .scalar, .ro, 0, false, 0, 18446744073709551615⟩,
  ⟨0x9B00, 1, 0x06, 8, .scalar, .ro, 0, false, 0, 18446744073709551615⟩,
  ⟨0x9C00, 1, 0x01, 8, .scalar, .ro, 0, false, 0, 18446744073709551615⟩,
  ⟨0x9C00, 1, 0x02, 8, .scalar, .ro, 0, false, 0, 18446744073709551615⟩,
  ⟨0x9C00, 1, 0x03, 8, .scalar, .ro, 0, false, 0, 18446744073709551615⟩,
  ⟨0x9C00, 1, 0x04, 8, .scalar, .ro, 0, false, 0, 18446744073709551615⟩,
  ⟨0x9C00, 1, 0x05, 8, .scalar, .ro, 0, false, 0, 18446744073709551615⟩,
  ⟨0x9C00, 1, 0x06, 8, .scalar, .ro, 0, false, 0, 18446744073709551615⟩,
  ⟨0x9C00, 1, 0x07, 8, .scalar, .ro, 0, false, 0, 18446744073709551615⟩]

/-- Entries of 0x9000-0x9FFF. -/
def odRows9e : List OdEntry := [
  ⟨0x9D00, 1, 0x01, 8, .scalar, .ro, 0, false, 0, 18446744073709551615⟩,
  ⟨0x9D00, 1, 0x02, 8, .scalar, .ro, 0, false, 0, 18446744073709551615⟩,
  ⟨0x9D00, 1, 0x03, 8, .scalar, .ro, 0, false, 0, 18446744073709551615⟩,
  ⟨0x9D00, 1, 0x04, 8, .scalar, .ro, 0, false, 0, 18446744073709551615⟩,
  ⟨0x9D00, 1, 0x05, 8, .scalar, .ro, 0, false, 0, 18446744073709551615⟩,
  ⟨0x9D00, 1, 0x06, 8, .scalar, .ro, 0, false, 0, 18446744073709551615⟩,
  ⟨0x9D00, 1, 0x07, 8, .scalar, .ro, 0, false, 0, 18446744073709551615⟩,
  ⟨0x9D00, 1, 0x08, 8, .scalar, .ro, 0, false, 0, 18446744073709551615⟩,
  ⟨0x9E00, 1, 0x01, 8, .scalar, .ro, 0, false, 0, 18446744073709551615⟩,
  ⟨0x9E00, 1, 0x02, 8, .scalar, .ro, 0, false, 0, 18446744073709551615⟩,
  ⟨0x9E00, 1, 0x03, 8, .scalar, .ro, 0, false, 0, 18446744073709551615⟩,
  ⟨0x9E00, 1, 0x04, 8, .scalar, .ro, 0, false, 0, 18446744073709551615⟩,
  ⟨0x9E00, 1, 0x05, 8, .scalar, .ro, 0, false, 0, 18446744073709551615⟩,
  ⟨0x9E00, 1, 0x06, 8, .scalar, .ro, 0, false, 0, 18446744073709551615⟩,
  ⟨0x9E00, 1, 0x07, 8, .scalar, .ro, 0, false, 0, 18446744073709551615⟩,
  ⟨0x9E00, 1, 0x08, 8, .scalar, .ro, 0, false, 0, 18446744073709551615⟩,
  ⟨0x9E00, 1, 0x09, 8, .scalar, .ro, 0, false, 0, 18446744073709551615⟩,
  ⟨0x9E00, 1, 0x0A, 8, .scalar, .ro, 0, false, 0, 18446744073709551615⟩,
  ⟨0x9E00, 1, 0x0B, 8, .scalar, .ro, 0, false, 0, 18446744073709551615⟩,
  ⟨0x9F00, 1, 0x01, 8, .scalar, .ro, 0, false, 0, 18446744073709551615⟩,
  ⟨0x9F00, 1, 0x02, 8, .scalar, .ro, 0, false, 0, 18446744073709551615⟩,
  ⟨0x9F00, 1, 0x03, 8, .scalar, .ro, 0, false, 0, 18446744073709551615⟩,
  ⟨0x9F00, 1, 0x04, 8, .scalar, .ro, 0, false, 0, 18446744073709551615⟩,
  ⟨0x9F00, 1, 0x05, 8, .scalar, .ro, 0, false, 0, 18446744073709551615⟩,
  ⟨0x9F00, 1, 0x06, 8, .scalar, .ro, 0, false, 0, 18446744073709551615⟩,
  ⟨0x9F00, 1, 0x07, 8, .scalar, .ro, 0, false, 0, 18446744073709551615⟩,
  ⟨0x9F00, 1, 0x08, 8, .scalar, .ro, 0, false, 0, 18446744073709551615⟩,
  ⟨0x9F00, 1, 0x09, 8, .scalar, .ro, 0, false, 0, 18446744073709551615⟩,
  ⟨0x9F00, 1, 0x0A, 8, .scalar, .ro, 0, false, 0, 18446744073709551615⟩,
  ⟨0x9F00, 1, 0x0B, 8, .scalar, .ro, 0, false, 0, 18446744073709551615⟩,
  ⟨0x9F00, 1, 0x0C, 8, .scalar, .ro, 0, false, 0, 18446744073709551615⟩,
  ⟨0x9F00, 1, 0x0D, 8, .scalar, .ro, 0, false, 0, 18446744073709551615⟩]

/-- The key of an entry: index × 256 + subindex. -/
def odKey (index sub : Nat) : Nat := index * 256 + sub

/-- The part of the table that holds an index, by its top digit. -/
def odPart (index : Nat) : List OdEntry :=
  match index / 0x1000 with
  | 1 => odRows1a
  | 2 => odRows2a ++ odRows2b
  | 3 => odRows3a ++ odRows3b ++ odRows3c ++ odRows3d
  | 4 => odRows4a
  | 5 => odRows5a
  | 6 => odRows6a
  | 7 => odRows7a
  | 8 => odRows8a
  | 9 => odRows9a ++ odRows9b ++ odRows9c ++ odRows9d ++ odRows9e
  | _ => []

/-- The rows of an index; index 0x8000 itself does not exist (18 R474). -/
def odAt (index : Nat) : List OdEntry :=
  if index = 0x8000 then []
  else (odPart index).filter fun e => decide (e.base ≤ index) && decide (index < e.base + e.count)

/-- The entry at an index and subindex. -/
def odEntry (index sub : Nat) : Option OdEntry := findFirst (fun e => e.sub == sub) (odAt index)

/-- The highest subindex of an index that holds several values (18 R457); none when the index does not exist or holds one value. -/
def odHighest (index : Nat) : Option Nat :=
  match (odAt index).map (·.sub) with
  | [] => none
  | l => if l = [0] then none else some (l.foldl Nat.max 0)

end Sys2Proof.Machine
end

