-- ==== Sys2Proof/Machine/State.lean ====
section
/-! DEFINITION. Machine/State.lean: everything the spec gives the module to hold, as plain data, and its value after reset.
A field's docstring gives its width, the file and rule that name it, and its reset value ("DC n" and "PR n" name a log entry). -/

namespace Sys2Proof.Machine

/-! ## Task registers (03) -/

/-- The states of a task register (R81). -/
inductive RegState where
  | idle
  | pending
  | executing
  | done
  deriving DecidableEq, Repr

/-- One task register (03 R69-R74). -/
structure TaskReg where
  /-- 64 bytes, the command slot; 03 R69, R77; zero -/
  slot : Memory := []
  /-- 64 bits, result value; 03 R69; zero -/
  value : U64 := 0
  /-- 32 bits, result tag; 03 R69; zero -/
  tag : U32 := 0
  /-- 16 bits, result status; 03 R69; zero -/
  status : U16 := 0
  /-- 1 bit, VALID; 03 R69; 0 -/
  valid : Bool := false
  /-- 2 bits, READ_COUNT, saturating; 03 R71; 0 -/
  readCount : BitVec 2 := 0
  /-- 32 bits, LAST_DROPPED_TAG; 03 R79; 0 -/
  lastDropped : U32 := 0
  /-- 1 bit, OVERRUN; 03 R79; 0 -/
  overrun : Bool := false
  /-- 2 bits, STATE; 03 R81; IDLE -/
  state : RegState := .idle
  /-- 16 bits, NEXT_SEQ; 03 R72; 0 -/
  nextSeq : U16 := 0
  /-- 1 bit, ENABLE; 03 R74; 0 -/
  enable : Bool := false
  /-- 10 bits, RING; 03 R74; 0 -/
  ring : BitVec 10 := 0
  deriving DecidableEq, Repr

/-- The condition of an assigned queue page (R67): its function, and polder 0-31 or 0xFF for an admin page. -/
structure PageCond where
  fn : Nat
  polder : Nat
  deriving DecidableEq, Repr

/-- A completion ring (R74, R75). -/
structure Ring where
  /-- 64 bits, base; 03 R74; 0 -/
  base : Nat := 0
  /-- 32 bits, entries; 03 R74; 1,024 -/
  entries : Nat := 1024
  /-- 8 bits, function; 03 R74; 0 -/
  fn : Nat := 0
  /-- 16 bits, MSI-X vector; 03 R74; 0xFFFF -/
  vector : Nat := 0xFFFF
  /-- 32 bits, tail; 03 R74; 0 -/
  tail : Nat := 0
  /-- 32 bits, head; 03 R74; 0 -/
  head : Nat := 0
  /-- 64 bits, records not written; 03 R74; 0 -/
  dropped : Nat := 0
  /-- 1 bit, phase of the present pass; 03 R75; 1 on the first pass -/
  phase : Bool := true
  deriving DecidableEq, Repr

/-- What an executing command still waits for before it ends (R81). `ready` holds its status and value. -/
inductive Wait where
  /-- nothing: the command ends with this status and value -/
  | ready (status value : Nat)
  /-- reads of these pages (R343); then the command's effect -/
  | reads (ppas : List Nat)
  /-- the pages named lie in closed courses (R348); then as given -/
  | pages (ppas : List Nat) (status value : Nat)
  /-- the journal holds the record of this sequence number (R38); then as given -/
  | journal (seq : Nat) (status value : Nat)
  /-- every other command that names the object, and its migrations, have ended (R39, R96) -/
  | destroy (handle : Nat)
  /-- the host has answered every back-invalidate of the window range (R58, R429) -/
  | snoop (lo hi : Nat) (status value : Nat)
  /-- the transaction's outcome (R92) -/
  | txOutcome (loc : Nat)
  /-- the job's end (R94) -/
  | jobEnd (job : Nat)
  /-- the job's cancellation (R94) -/
  | jobCancel (job : Nat)
  /-- the search pass (R323) or the shards' replies (R330) -/
  | pass (id : Nat)
  | shards (tag : Nat)
  /-- responses of the fabric requests with these tags, lowest piece first, with the bytes each covers (R526) -/
  | remote (tags : List (Nat × Nat)) (done : Nat)
  /-- a store or read that the state does not yet allow; its effect is tried again (R53, R112, R171, R295, R381) -/
  | retry
  /-- a group claim awaiting acknowledgements (R409) -/
  | claim (number : Nat) (handle : Nat)
  /-- the steps of a power-state transition (R507), of SANITIZE (R517), of a runtime restart (R497) -/
  | power (target : Nat)
  | sanitize
  | restart
  /-- another scrub is running (R384) -/
  | scrub
  deriving DecidableEq, Repr

/-- A command in execution: it holds one of the 16,384 execution slots (R78, R81). -/
structure Exec where
  fn : Nat
  opcode : Nat
  cmd : TaskCmd
  /-- order of acceptance -/
  order : Nat
  /-- polder of the issuing page, 0xFF for an admin page -/
  polder : Nat
  wait : Wait
  /-- 48 bits, work completed while VALID is 0; 03 R70; 0 -/
  work : Nat := 0
  /-- past its point of effect (R514) -/
  effect : Bool := false
  /-- result dropped by a reset (R514): it runs to its end inside the module only -/
  silent : Bool := false
  /-- its wait for the step window has been counted; 11 R295 -/
  waited : Bool := false
  /-- it has begun: its acceptance into its transaction is past, and running it again does not test it a second time; 03 R92 -/
  begun : Bool := false
  /-- a command carried here from another module (R526): it is keyed above the task registers and answers with these bytes -/
  carried : Option Carried := none
  answer : List Byte := []
  deriving DecidableEq, Repr

/-! ## Objects and the device address space (02) -/

structure TensorArea where
  format : Nat
  rank : Nat
  scaleMode : Nat
  outliers : Nat
  dims : List Nat
  stride : Nat
  scaleOffset : Nat
  outlierOffset : Nat
  deriving DecidableEq, Repr

structure GraphArea where
  vertices : Nat
  edges : Nat
  rowPtr : Nat
  column : Nat
  weight : Nat
  idWidth : Nat
  weightFormat : Nat
  deriving DecidableEq, Repr

/-- TABLE header area (11 R279). -/
structure TableArea where
  rows : Nat
  dim : Nat
  updateFormat : Nat
  groupContrib : Bool
  fixed : Bool
  narrowest : Nat
  widest : Nat
  t1 : Nat
  t2 : Nat
  t3 : Nat
  hysteresis : Nat
  heatOffset : Nat
  slotOffset : Nat
  reserve : Nat
  decay : Nat
  initClass : Nat
  applied : Nat
  deriving DecidableEq, Repr

/-- INDEX header area (12 R301). -/
structure IndexArea where
  dim : Nat
  format : Nat
  metric : Nat
  sharded : Bool
  partitions : Nat
  shards : Nat
  capacity : Nat
  centroids : Nat
  projection : Nat
  thresholds : Nat
  epoch : Nat
  live : Nat
  deriving DecidableEq, Repr

/-- PROGRAM header area (05 R128). -/
structure ProgramArea where
  format : Nat
  flags : Nat
  records : Nat
  entry : Nat
  contexts : Nat
  share : Nat
  sump : Nat
  fretSpacing : Nat
  handleOffset : Nat
  handleCount : Nat
  chainCount : Nat
  chainOffset : Nat
  stride : Nat
  dataEnd : Nat
  crc : Nat
  deriving DecidableEq, Repr

/-- JOB header area (06 R184). -/
structure JobArea where
  program : Nat
  argument : Nat
  state : Nat
  priority : Nat
  polder : Nat
  resident : Nat
  seed : Nat
  finalStatus : Nat
  faultCause : Nat
  faultContext : Nat
  faultRecord : Nat
  faultOffset : Nat
  frets : Nat
  evictions : Nat
  preemptions : Nat
  /-- kept in µs here; the header gives ms -/
  queueMs : Nat
  issueMs : Nat
  deriving DecidableEq, Repr

/-- GROUP header area (15 R408). -/
structure GroupArea where
  number : Nat
  auto : Bool
  explicit : Bool
  members : Nat
  epoch : Nat
  failTimeout : Nat
  keeper : Nat
  deriving DecidableEq, Repr

/-- The type-specific header area (R35 and the chapters it names). -/
inductive Area where
  | nspace (nsid blockSize blocks units : Nat)
  | blob (valid : Nat)
  | tensor (t : TensorArea)
  | table (t : TableArea)
  | index (i : IndexArea)
  | program (p : ProgramArea)
  | job (j : JobArea)
  | group (g : GroupArea)
  | log (recordSize head tail appended : Nat)
  | graph (g : GraphArea)
  | set (count capacity : Nat)
  | model (members offset : Nat)
  deriving DecidableEq, Repr

/-- An object: its header (R34) and what the runtime keeps beside it. -/
structure Obj where
  /-- 64 bits, local DAS base; 02 R34; set by CREATE -/
  base : Nat
  /-- 64 bits, payload length; 02 R34 -/
  length : Nat
  /-- 48 bits, creation sequence; 02 R34 -/
  created : Nat
  /-- 8 bits, owner polder or 0xFF; 02 R34 -/
  owner : Nat
  /-- 8 bits, placement policy 1-4; 02 R46 -/
  policy : Nat
  /-- pins of PIN commands, part of the 8-bit pin count; 02 R47 -/
  pins : Nat := 0
  /-- pins of window bindings, part of the 8-bit pin count; MAPPED when not 0; 02 R47, R58 -/
  maps : Nat := 0
  /-- flag bits of +0x23: VOLATILE, EXPORTED, READ_ONLY, SPILLED; 02 R34 -/
  volatile : Bool := false
  exported : Bool := false
  readOnly : Bool := false
  spilled : Bool := false
  /-- 32 bits each, read and write masks; 02 R34 -/
  readMask : U32 := 0
  writeMask : U32 := 0
  /-- 8 bits, export group; 02 R34 -/
  exportGroup : Nat := 0
  /-- 64 bits, header version; 02 R527; 1 at creation -/
  version : Nat := 1
  /-- 48 bits, change stamp; 04 R113 -/
  changeStamp : Nat := 0
  /-- check 8 treats the object as absent from now on (R39 step 1, R96) -/
  leaving : Bool := false
  area : Area
  deriving DecidableEq, Repr

/-- The parcel states of R41. -/
inductive ParcelState where
  | unbacked
  | flash
  | dramClean
  | dramDirty
  | migUp
  | migDown
  deriving DecidableEq, Repr

/-- A 64 KiB parcel, keyed by its local DAS address divided by 65,536 (R41). -/
structure Parcel where
  state : ParcelState := .unbacked
  /-- handle of its object -/
  obj : Nat
  /-- 8-bit saturating heat; 02 R48; 0 -/
  heat : Nat := 0
  /-- uptime of the last access counted, and the requesters counted within the last 1 µs with their uptimes; 02 R48 -/
  lastAccess : Nat := 0
  seen : List (Nat × Nat) := []
  /-- uptime of the last store; 02 R528 -/
  lastStore : Nat := 0
  /-- queued for up-migration; 02 R48 -/
  queued : Bool := false
  /-- its flash copy is current (write-back done and no store since); 02 R42 -/
  hasFlash : Bool := false
  /-- frame number that holds it while in the DRAM tier; 14 R382 -/
  frame : Nat := 0
  /-- flash pages a write-back or demotion in progress waits on; 02 R52 -/
  writing : List Nat := []
  /-- it holds non-transactional stores that no write-back has begun to carry; 02 R527; no -/
  plain : Bool := false
  /-- one past the highest payload byte that a non-transactional store changed in it; 02 R529; 0 -/
  high : Nat := 0
  /-- contexts whose stores no write-back has begun to carry, by requester number; 02 R46; none -/
  storedBy : List Nat := []
  deriving DecidableEq, Repr

/-- A binding of an object range into the host-mapped window, keyed by its window offset (R58). -/
structure Binding where
  handle : Nat
  objOffset : Nat
  length : Nat
  polder : Nat
  deriving DecidableEq, Repr

/-! ## Transactions (04) -/

/-- An item: the unit at which reads and writes are tracked (R104). A unit is a logical unit number; a line is its local DAS
address divided by 64; a row and a record name their object; a header names its handle; an object entry is R106's. -/
inductive Item where
  | unit (lu : Nat)
  | line (n : Nat)
  | row (table row : Nat)
  | record (index id : Nat)
  | header (handle : Nat)
  | object (handle : Nat)
  deriving DecidableEq, Repr

/-- Who owns a transaction (R102). -/
inductive TxOwner where
  | page (fn polder : Nat)
  | context (job idx polder : Nat)
  | coordinator (module polder : Nat)
  deriving DecidableEq, Repr

/-- Coordinator states (R114) and the branch states of a participant (R117, R119). FREE transactions are not listed. -/
inductive TxState where
  | open
  | committing
  | committed
  | aborted
  | prepared
  deriving DecidableEq, Repr

/-- A staged index change: an insert of a record, or a delete of an id (R104, R308). -/
inductive IdxChange where
  | insert (id partition : Nat) (attrs : List U32) (vector : List Byte)
  | delete (id : Nat)
  deriving DecidableEq, Repr

/-- A participant of a transaction at its coordinator (R117). -/
structure Participant where
  module : Nat
  vote : Option Bool := none
  acked : Bool := false
  deriving DecidableEq, Repr

/-- A transaction at its coordinator, or a branch at a participant. -/
structure Tx where
  owner : TxOwner
  state : TxState := .open
  /-- read set: item and version (R104), and objects read beyond 65,536 entries (R106) -/
  reads : List (Item × Nat) := []
  coarse : Bool := false
  /-- write set -/
  writes : List Item := []
  /-- distinct action blocks counted, object handle and 4 KiB block, for the DRAM-line source; NAMESPACE handle and storage unit for a unit
  whose written bytes are counted (R104) -/
  blocks : List (Nat × Nat) := []
  /-- actions and write-set bytes (R105) -/
  actions : Nat := 0
  bytes : Nat := 0
  /-- staged storage units: logical unit and its staged page, none for a trimmed unit (R104) -/
  units : List (Nat × Option Nat) := []
  /-- undo copies of lines (R104): line number and its 64 committed bytes -/
  undo : List (Nat × List Byte) := []
  /-- parcels that become UNBACKED when the commit is applied (R89) -/
  trims : List Nat := []
  /-- highest payload offset stored plus one, per BLOB, raised at the commit (R529) -/
  validTo : List (Nat × Nat) := []
  /-- objects changed (R527) -/
  objs : List Nat := []
  /-- staged index changes, per index (R104) -/
  idx : List (Nat × IdxChange) := []
  /-- Count of the SETs its stores changed, set at the commit (05 R132, R141) -/
  counts : List (Nat × Nat) := []
  /-- Head, Tail and Appended of the LOGs its stores appended to, set at the commit (05 R141, 10 R268) -/
  logs : List (Nat × Nat × Nat × Nat) := []
  /-- snapshot epochs at which it has read an index (12 R311) -/
  snaps : List (Nat × Nat) := []
  /-- abort status (R114), 0 if none -/
  abort : Nat := 0
  /-- uptime at which a command or message last named it (R114, R123) -/
  lastNamed : Nat := 0
  participants : List Participant := []
  /-- PREPARE has been sent, at this uptime (R117 step 2) -/
  preparedAt : Option Nat := none
  /-- uptime of the commit point (R115, R120) -/
  commitAt : Nat := 0
  /-- commit or PREPARED record is being made durable: its journal sequence number -/
  recordSeq : Option Nat := none
  /-- uptime of the last COMMIT repeat or outcome query (R117, R119) -/
  repeatAt : Nat := 0
  /-- sequence number drawn with the validation that came before PREPARE (R113) -/
  commitSeq : Option Nat := none
  deriving DecidableEq, Repr

/-- An outcome record kept after its slot was freed (R120). -/
structure Outcome where
  loc : Nat
  unacked : List Nat
  repeatAt : Nat
  deriving DecidableEq, Repr

/-! ## Flash (13) -/

/-- The page kinds of R357. -/
inductive PageKind where
  | data
  | journal
  | checkpoint
  | padding
  | metadata
  | levee
  deriving DecidableEq, Repr

/-- A programmed or placed physical page with its tag (R357). Its data are the bytes that are not zero. -/
structure Page where
  lu : Nat
  kind : PageKind
  seq : Nat
  tx : Nat := 0
  copy : Bool := false
  keyGen : Nat
  data : Memory := []
  /-- its course has closed (R345) -/
  closed : Bool := false
  /-- it could not be decoded after step 3 of R343 -/
  bad : Bool := false
  /-- it was written by a demotion whose copy is not whole yet, so that no map state refers to it; 02 R53; no -/
  partCopy : Bool := false
  /-- lines whose undo copies it carries, each with the transaction whose store it leaves out; 02 R43; none -/
  undone : List (Nat × Nat) := []
  /-- one past the highest payload byte of the non-transactional stores in its parcel when it was written; 02 R529; 0 -/
  top : Nat := 0
  deriving DecidableEq, Repr

/-- A write-back under way that carries non-transactional stores: the object, whose version advances once when it completes (02 R527),
and its pages. -/
structure WriteBack where
  obj : Nat
  pages : List Nat
  deriving DecidableEq, Repr

inductive BlockState where
  | free
  | openHost
  | openGc
  | openMeta
  | openSlc
  | full
  | erasing
  | retired
  deriving DecidableEq, Repr

/-- A block (R334, R366), keyed by its PPA divided by 4,096. -/
structure Block where
  state : BlockState := .free
  eraseCount : Nat := 0
  readsSince : Nat := 0
  nextPage : Nat := 0
  /-- module sequence number when its last course closed; 13 R364; 0 -/
  closedAt : Nat := 0
  hot : Bool := false
  deriving DecidableEq, Repr

/-- A course being filled or programmed (R345), keyed by the PPA of its position 0 divided by 4. -/
structure Course where
  stream : BlockState
  filled : Nat := 0
  /-- uptime since which a durable event waits on it (R349) -/
  waitedSince : Option Nat := none
  /-- positions whose pages have been transferred to the die (R342, R352) -/
  sent : Nat := 0
  /-- shared-buffer user class of each filled position, none for padding (R341, R342) -/
  users : List (Option Nat) := []
  deriving DecidableEq, Repr

/-- The array operation a die performs (R337, R350). -/
structure DieOp where
  erase : Bool
  target : Nat
  startedAt : Nat
  suspended : Bool := false
  suspends : Nat := 0
  reads : Nat := 0
  /-- a suspend request is held by the minimum run time (R350) -/
  held : Bool := false
  deriving DecidableEq, Repr

/-- Who needs a page read: a command that waits for it, a context's record (02 R55), a fabric request of a peer, a tier migration (02 R52),
the copy of a block's valid page (R365), read-ahead (02 R50) or a run-ahead prefetch (05 R153). -/
inductive ReadUse where
  | command
  | context (x : CtxId)
  | peer (m : Nat)
  | tier
  | copy (gc : Bool)
  | ahead
  | prefetch
  deriving DecidableEq, Repr

/-- A queued page read and its issue class (R338). -/
structure PageRead where
  ppa : Nat
  cls : Nat
  polder : Nat
  use : ReadUse
  deriving DecidableEq, Repr

/-- The shared-buffer user classes of R341, and a waiting request. -/
structure BermWait where
  channel : Nat
  user : Nat
  cls : Nat
  /-- the course whose program waits for it, none for a read -/
  course : Option Nat := none
  deriving DecidableEq, Repr

/-- A shared buffer held: channel, user class and the quadrant pool it came from (R339). -/
structure BermHeld where
  channel : Nat
  user : Nat
  quadrant : Nat
  deriving DecidableEq, Repr

/-- Journal records (R358), holding what a rebuild needs. -/
inductive JRec where
  | map (lu ppa : Nat)
  | unmap (lu : Nat)
  | commit (tx seq : Nat) (units : List (Nat × Option Nat)) (lines : List (Nat × List Byte)) (participants : List Nat)
      (rows : List RowAdd) (idx : List (Nat × IdxChange)) (trims : List Nat)
  | prepared (tx : Nat) (branch : Tx) (lines : List (Nat × List Byte)) (rows : List RowAdd)
  | outcome (tx : Nat) (released : Bool)
  | object (handle : Nat) (o : Option Obj)
  | block (block : Nat) (b : Block)
  | stream
  | checkpoint (segment : Nat) (ppas : List Nat)
  | highMark (number tx seq health : Nat)
  | health (number : Nat)
  | sanitize (step progress : Nat)
  | mode (value : Nat)
  deriving DecidableEq, Repr

/-- A levee page (R354): the courses whose program was cut, and the map deltas of closed courses not yet journaled. -/
structure Levee where
  quadrant : Nat
  cut : List Nat
  deltas : List JRec
  deriving DecidableEq, Repr

/-- A health-log record (R370). `detail` is the type's detail, in the order of its table. -/
structure Health where
  number : Nat
  type : Nat
  adminOnly : Bool
  uptime : Nat
  cycle : Nat
  detail : List Int
  deriving DecidableEq, Repr

/-- An hourly temperature entry (R371). -/
structure TempHour where
  hour : Nat
  min : Int
  max : Int
  mean : Int
  nand : Int
  throttled : Nat
  hotPages : Nat
  deriving DecidableEq, Repr

/-- The flash tier (13). -/
structure Flash where
  /-- physical pages placed or programmed; 13 R335, R357; none (RAM and media contents: DC 4) -/
  pages : KMap Page := []
  /-- page map, 40-bit entries, logical unit to PPA; 13 R356; nothing mapped -/
  map : KMap Nat := []
  /-- the page map as the durable journal and checkpoints give it; 13 R359-R361; nothing mapped -/
  durMap : KMap Nat := []
  /-- blocks; 13 R334, R366; all free, erase count 0 (DC 4) -/
  blocks : KMap Block := []
  /-- courses not closed; 13 R345; none -/
  courses : KMap Course := []
  /-- die operations in progress; 13 R337, R350; none -/
  dies : KMap DieOp := []
  /-- queued page reads; 13 R338; none -/
  reads : List PageRead := []
  /-- pages read in place for a requester that has not used them yet; 02 R55; none -/
  arrived : List (ReadUse × Nat) := []
  /-- pages that read-ahead holds in berm buffers; 02 R50; none -/
  ahead : List Nat := []
  /-- write-backs that carry non-transactional stores; 02 R527; none -/
  wbs : List WriteBack := []
  /-- spare blocks left per plane; 13 R334, R369; 40-56 per module, named 40 (DC 4) for an unlisted plane -/
  spares : KMap Nat := []
  /-- retirements in the life of a plane; 13 R370; 0 -/
  retirements : KMap Nat := []
  /-- blocks queued for refresh, and for an early patrol read; 13 R367, R371; none -/
  refreshQ : List Nat := []
  patrolQ : List Nat := []
  /-- reserved berm buffers in use per channel; 13 R339; 0 -/
  reservedUsed : KMap Nat := []
  /-- shared berm buffers held; 13 R339, R341; none -/
  shared : List BermHeld := []
  /-- requests waiting for a berm buffer; 13 R339; none -/
  bermWait : List BermWait := []
  /-- journal records not yet in a programmed journal page, oldest first, each with its sequence number; 13 R358, R359; none -/
  jpend : List (Nat × JRec) := []
  /-- uptime at which the oldest unjournaled record was made; 13 R359; none -/
  jsince : Option Nat := none
  /-- records of the live journal, oldest first; 13 R358, R360; none -/
  journal : List (Nat × JRec) := []
  /-- highest journal sequence number that is durable; 13 R359; 0 -/
  jdone : Nat := 0
  /-- next map segment to checkpoint; 13 R360; 0 -/
  ckptNext : Nat := 0
  /-- levee pages found on the media; 13 R354; none -/
  levees : List Levee := []
  /-- read-only state; 13 R369, OD 0x2200:01; 0 -/
  readOnly : Bool := false
  /-- status of the last raw read; 13 R344, OD 0x2500:03; 0 -/
  rawStatus : Nat := 0
  /-- new program and erase pulses are blocked; 13 R354, 17 R452; no -/
  blocked : Bool := false
  /-- channels parked; 20 R507; no -/
  parked : Bool := false
  /-- erases of every block by SANITIZE: the erase count of an unlisted block; 20 R517; 0 -/
  baseErases : Nat := 0
  /-- pages in courses not closed that the tag scan of the next rebuild finds usable; 13 R361, R362; none -/
  scan : List Nat := []
  /-- a rebuild is due: after a power loss (else a reset), and by the fallback of R362; 13 R361, R362; none -/
  rebuild : Option (Bool × Bool) := none
  deriving DecidableEq, Repr

/-- A party of a yielded guarantee (01 R28). An internal unit is named by its power domain of R22. -/
inductive Party where
  | polder (p : Nat)
  | object (handle : Nat)
  | link (port : Nat)
  | unit (domain : Nat)
  deriving DecidableEq, Repr

/-! ## DRAM (14) -/

/-- A merge-buffer entry: a line's new bytes by offset, and the uptime of its allocation (R376). -/
structure MergeEntry where
  line : Nat
  bytes : List (Nat × Byte)
  since : Nat
  deriving DecidableEq, Repr

/-- The DRAM tier and its protection (14). -/
structure Dram where
  /-- payload bytes held in the DRAM tier, by local DAS address; 02 R41; nothing (an unwritten byte reads 0, R41) -/
  mem : Memory := []
  /-- latent damage: line number to (symbol 0-67, xor byte); 14 R373; none -/
  damage : KMap (List (Nat × Byte)) := []
  /-- poisoned lines; 14 R379; none -/
  poison : List Nat := []
  /-- lines poisoned once and rewritten whole since; 14 R382; none -/
  rewritten : List Nat := []
  /-- uptimes of the corrections of a line in the last 24 hours; 14 R382; none -/
  corrections : KMap (List Nat) := []
  /-- merge buffer entries, oldest first; 14 R376; none -/
  merge : List MergeEntry := []
  /-- retired frames; 14 R382; none -/
  retired : List Nat := []
  /-- next frame never used, and frames returned; 14 R382; 0, none -/
  nextFrame : Nat := 0
  freeFrames : List Nat := []
  /-- register whose SCRUB runs; 14 R384; none -/
  scrubbing : Option Nat := none
  /-- parcels whose frames are due for retirement; 14 R382; none -/
  retireQ : List Nat := []
  /-- the tier is overcommitted and its log record written; 14 R383; no -/
  overcommitted : Bool := false
  deriving DecidableEq, Repr

/-! ## Jobs, contexts and cores (05, 06) -/

/-- What a context waits for (R140, R147, R264 and the records that wait). -/
inductive CtxWait where
  | none
  | jobBarrier (value : Nat)
  | objVersion (handle value : Nat)
  | logCount (handle value : Nat)
  | groupBarrier (group value : Nat)
  | secureBarrier (step : Nat) (committed : Bool)
  | secureCommit (loc step : Nat)
  | backoff (until_ : Nat)
  | commit (loc : Nat)
  | pass (id : Nat) (fret : Bool)
  | collective (group number : Nat) (fret : Bool)
  | stall (cause : Nat)
  deriving DecidableEq, Repr

/-- Tile flags (07 R203). -/
structure TileFlags where
  desync : Bool := false
  nonfinite : Bool := false
  satTotal : Bool := false
  satAcc : Bool := false
  deriving DecidableEq, Repr

/-- A context of a job (R137) and its residency (R174). -/
structure Ctx where
  /-- current record index; 05 R137 -/
  recIdx : Nat
  /-- X1-X15, 64 bits each; 05 R137 -/
  x : List U64
  /-- open transaction's local number; 05 R137 -/
  tx : Option Nat := none
  /-- On abort and retry limit of the open transaction's TX_BEGIN record; 05 R147 -/
  onAbort : Nat := 0
  retryLimit : Nat := 0
  retries : Nat := 0
  /-- restart point: record index, X1-X15, and the sequence number that set it; 05 R137, 06 R180 -/
  rpRec : Nat
  rpX : List U64
  rpSeq : Nat := 0
  /-- core, first share unit and first sump unit while resident; 06 R173 -/
  resident : Option (Nat × Nat × Nat) := none
  lastCore : Option Nat := none
  wait : CtxWait := .none
  /-- uptime since which it waits, timeout in µs (0 none) and its target; 05 R140 -/
  waitSince : Nat := 0
  timeout : Nat := 0
  timeoutTarget : Nat := 0
  held : Bool := false
  ended : Bool := false
  /-- at a fret; 05 R142 -/
  atFret : Bool := true
  /-- records completed since the last fret; 05 R142 -/
  sinceFret : Nat := 0
  /-- uptime of the last fret; 05 R143; 0 -/
  fretAt : Nat := 0
  /-- a fault or desync of its job holds it at its next fret; 05 R150 -/
  holdAtFret : Bool := false
  /-- chosen for eviction at its next fret: the counter of OD 0x9800 that the eviction adds to; 06 R180; none -/
  evictWhy : Option Nat := none
  /-- uptime at which it was queued; 06 R186 -/
  queuedAt : Nat := 0
  /-- µs that it has issued in its present turn, and those that the JOB header does not show yet; 06 R175, R184; 0 -/
  turn : Nat := 0
  issued : Nat := 0
  /-- remote operand bytes that arrived for the present record: DAS address and bytes; 02 R56 cause 5, 15 R403; none -/
  staged : List (Nat × List Byte) := []
  /-- remote requests of the present record still outstanding; 05 R138; 0 -/
  awaiting : Nat := 0
  /-- causes that have applied during the present stall; 02 R56; none -/
  causes : List Nat := []
  /-- ARR cycles of the drain that a heavy record leaves due, and the ranges of the outputs it wrote (space, base, offset, bytes); 07 R192; 0, none -/
  drain : Nat := 0
  lastOut : List (Nat × Nat × Nat × Nat) := []
  /-- flags of the tile of the last step, kept with the running total; 07 R203; all clear -/
  tile : TileFlags := {}
  deriving DecidableEq, Repr

/-- A job: the run state beside its JOB header. -/
structure Job where
  ctxs : List Ctx
  /-- every context has been placed once; 06 R179 -/
  started : Bool := false
  /-- step counter S and S at the newest image or job start; 10 R264, R272 -/
  step : Nat := 0
  step0 : Nat := 0
  /-- securing number of the newest image, its offset; 10 R274 -/
  secNumber : Nat := 0
  lastImage : Option Nat := none
  /-- step bound, restore list address and destination LOG, 0 when the program has no SECURE; 10 R262 -/
  stepBound : Nat := 0
  restoreList : Nat := 0
  destination : Nat := 0
  /-- risk trigger armed; risk and uptime of the last risk-triggered securing; 10 R271 -/
  armed : Bool := false
  riskAt : Nat := 0
  riskTime : Option Nat := none
  /-- a host request is pending; 10 R272 -/
  requested : Bool := false
  /-- securing runs with this trigger; 10 R272, R273; none -/
  securing : Option Nat := none
  /-- its staging offset, bytes and risk once staged, and the sequence number of its commit record; 10 R273; none -/
  secStaged : Option (Nat × Nat × Nat) := none
  secRecord : Option Nat := none
  /-- cancel accepted; 03 R94 -/
  cancelled : Bool := false
  /-- status with which the job ends once its contexts are held; 05 R150, R151 -/
  ending : Option Nat := none
  /-- bit-match mode; 08 R230, OD 0x3600:01 -/
  bitMatch : Bool := false
  /-- handle table as admitted; 05 R129 -/
  handles : List Nat := []
  /-- objects that the job's restore list names; 10 R263 -/
  named : List Nat := []
  /-- restore list entries: operand reference, bytes, kind, format; 10 R262 -/
  entries : List (Nat × Nat × Nat × Nat) := []
  /-- the program as admitted: its header and payload, READ_ONLY since (05 R135 check 1) -/
  area : ProgramArea := ⟨0, 0, 0, 0, 1, 1, 0, 0, 0, 2, 0, 0, 0, 0, 0⟩
  payload : Memory := []
  deriving DecidableEq, Repr

/-- A prefetch in flight or held by a core (R153, R155): its unit or remote row, the mapping or version seen, and its data. -/
structure Prefetch where
  id : Nat
  job : Nat
  idx : Nat
  remote : Option Nat
  key : Nat
  stamp : Nat
  arrived : Bool := false
  data : List Byte := []
  /-- made for the next GATHER of its context, for the one under way otherwise; 05 R153, R155 -/
  forNext : Bool := true
  /-- it reads the index list, not a row; 05 R153 -/
  list : Bool := false
  /-- bytes it takes in the polder's staging area; 05 R153; 0 for a page -/
  bytes : Nat := 0
  deriving DecidableEq, Repr

/-- What the run-ahead of a GATHER has still to prefetch (05 R153): the record and X1-X15 as they were, and the next index list (none) or
a row that it names. -/
structure PrefAsk where
  job : Nat
  idx : Nat
  record : BitVec 512
  x : List U64
  row : Option Nat := none
  deriving DecidableEq, Repr

/-- The registers of a core's array (07 R187). A grid is its rows; what a grid does not list is zero. -/
structure ArrayRegs where
  /-- the weight registers W0 and W1, 16 bits for each of 64 rows of 64 cells; R187, R193; zero -/
  w0 : List (List (BitVec 16)) := []
  w1 : List (List (BitVec 16)) := []
  /-- whether the next weight tile goes to W1; R193; W0 -/
  buffer : Bool := false
  /-- the chunk accumulator file, 64 entries of 128 lanes of 32 bits; R187; zero -/
  chunks : List (List U32) := []
  /-- the transpose buffer, 64 rows of 64 elements of up to 16 bits; R187; zero -/
  transpose : List (List (BitVec 16)) := []
  deriving DecidableEq, Repr

/-- A matrix core (06 R173-R177). -/
structure Core where
  /-- the registers of its array; 07 R187; zero -/
  regs : ArrayRegs := {}
  /-- resident contexts -/
  residents : List CtxId := []
  /-- the issuing context -/
  issuing : Option CtxId := none
  /-- uptime up to which the time of the issuing context is counted, none while it waits; 06 R184, R186; none -/
  runSince : Option Nat := none
  /-- uptime since which every resident has been blocked; 06 R181 -/
  blockedSince : Option Nat := none
  prefetches : List Prefetch := []
  /-- prefetches that wait for room; 05 R153; none -/
  asks : List PrefAsk := []
  deriving DecidableEq, Repr

/-! ## Tables and search (11, 12) -/

/-- An addition received for a row and step (R295), its order of arrival, and whether it is committed. -/
structure Addition where
  row : Nat
  step : Nat
  src : Nat
  pos : Nat
  arrival : Nat
  tx : Nat
  values : List U32
  deriving DecidableEq, Repr

/-- A migration between steps 1 and 3 of R288: the row, the entry e0, the new slot and its class. -/
structure RowMig where
  row : Nat
  entry : Nat
  slot : Nat
  cls : Nat
  deriving DecidableEq, Repr

/-- What the runtime keeps for a TABLE beside its header and payload (11). -/
structure TableSt where
  /-- reclamation epoch, 64 bits; 11 R288; 0 -/
  rho : Nat := 0
  /-- registered readers: reader id and the epoch at its start; 11 R288; none -/
  readers : List (Nat × Nat) := []
  /-- released slots: payload offset, class, tag; 11 R288; none -/
  released : List (Nat × Nat × Nat) := []
  /-- free slots: payload offset and class, 4 a whole free parcel; 11 R289; none -/
  freeSlots : List (Nat × Nat) := []
  /-- first payload offset of the slot area never carved, in bytes from its start; 11 R289; 0 -/
  carved : Nat := 0
  /-- pending additions; 11 R295; none -/
  pend : List Addition := []
  /-- highest step an addition or marker of a contributor named; 11 R296; none -/
  closed : KMap Nat := []
  /-- migrations in progress and queued rows; 11 R289, R291; none -/
  migs : List RowMig := []
  migQ : List Nat := []
  /-- ms of uptime of the last migration and how many started in it; 11 R291; 0 -/
  migMs : Nat := 0
  migCount : Nat := 0
  /-- the wait of the next barrier on transactions, and of an application on reclamation, has been counted; 11 R289, R297; no -/
  waited : Bool := false
  stuck : Option Nat := none
  /-- additions of other modules that wait for the step window; 11 R295; none -/
  held : List RowAdd := []
  deriving DecidableEq, Repr

/-- A record of an index: sketch record, vector and version entry (12 R302, R303). -/
structure IRec where
  id : Nat
  slot : Nat
  insEpoch : Nat
  delEpoch : Nat := 0
  partition : Nat
  attrs : List U32
  sketch : BitVec 512
  vector : List Byte
  deriving DecidableEq, Repr

/-- What the runtime keeps for an INDEX (12). -/
structure IndexSt where
  /-- records in list order; 12 R302, R310; none -/
  recs : List IRec := []
  /-- next vector slot; 12 R302; 0 -/
  nextSlot : Nat := 0
  /-- records in the intake page of each partition; 12 R310; 0 -/
  intake : KMap Nat := []
  /-- epochs held by running queries; 12 R311, R313; none -/
  snapshots : List Nat := []
  deriving DecidableEq, Repr

/-- Who asked a query of a pass. -/
inductive QOwner where
  | register (reg : Nat)
  | context (job idx : Nat) (candidates cap position : Nat)
  | shard (coord tag shard : Nat)
  /-- a SKETCH_SCAN at another module, by the key it runs under here and the query's position; 12 R326 -/
  | record (key position : Nat)
  deriving DecidableEq, Repr

/-- A query of a pass (R323) and, once scanned, its answer. -/
structure Query where
  owner : QOwner
  entry : List Byte
  k : Nat
  cap : Nat
  lists : Nat
  result : Nat
  polder : Nat
  deriving DecidableEq, Repr

/-- A search pass (R323). -/
structure Pass where
  index : Nat
  epoch : Nat
  openedAt : Nat
  queries : List Query
  deriving DecidableEq, Repr

/-- A sharded query at its coordinator (R330). -/
structure ShardWait where
  reg : Nat
  index : Nat
  k : Nat
  result : Nat
  homes : List Nat
  replies : List ShardR := []
  failures : List (Nat × Nat) := []
  deriving DecidableEq, Repr

/-! ## Fabric (15) -/

inductive PortState where
  | down
  | training
  | up
  | upNarrow
  | miswired
  | failed
  | upLow
  deriving DecidableEq, Repr

/-- A fabric port (R387-R395). -/
structure Port where
  /-- state; 15 R389, OD 0x4010+n:01; DOWN -/
  state : PortState := .down
  /-- receive signal present; 15 R388, R389; no -/
  signal : Bool := false
  /-- uptime since which there is no receive signal; 15 R388; 0 -/
  dark0 : Nat := 0
  /-- lanes emit light; 15 R388; no -/
  lit : Bool := false
  /-- active lanes; 15 R389; none -/
  lanes : BitVec 8 := 0
  /-- FBP domain runs from the recovered clock; 01 R21; local PLL -/
  recovered : Bool := false
  /-- the training under way was commanded by a power-state transition; 15 R389, R420; no -/
  commanded : Bool := false
  /-- peer module id and port; 15 R421; 0xFFFF, 0xFF -/
  peer : Nat := 0xFFFF
  peerPort : Nat := 0xFF
  /-- emitter feeding the port; 15 R388, OD 0x4010+n:06; emitter n (DC 2) -/
  emitter : Nat := 0
  /-- next flit sequence to send, 16 bits; 15 R391, R392; 0 -/
  txSeq : Nat := 0
  /-- the port's last answer was a NAK; 15 R391, R392; no -/
  nak : Bool := false
  /-- replay buffer: sequence, first transmission uptime, packets; 15 R392; none -/
  replay : List (Nat × Nat × List Packet) := []
  /-- next flit sequence expected, 16 bits; 15 R392; 0 -/
  rxSeq : Nat := 0
  /-- packets waiting in the egress queues, per virtual channel; 15 R394, R395; none -/
  egress : List (Nat × Packet) := []
  /-- credits used of the peer's ingress buffer, per virtual channel, in flits; 15 R394; 0 -/
  used : KMap Nat := []
  /-- uptime of entry into FAILED, and of the last training try; 15 R389; 0 -/
  failedAt : Nat := 0
  trainAt : Nat := 0
  deriving DecidableEq, Repr

/-- What asked for a remote request. -/
inductive ReqOwner where
  | register (reg piece : Nat)
  | context (job idx : Nat)
  | shard (tag shard : Nat)
  | mailbox (path : OdPath) (write : Bool)
  | claim (number : Nat)
  | runtime
  deriving DecidableEq, Repr

/-- A request this module has outstanding at another module (R405, R406). -/
structure RemoteReq where
  owner : ReqOwner
  dest : Nat
  type : Nat
  sentAt : Nat
  haddr : Nat := 0
  length : Nat := 0
  /-- transaction it acts in, 0 for none; 04 R117 -/
  tx : Nat := 0
  /-- effective offset of the access it is part of; 05 R150 -/
  off : Nat := 0
  deriving DecidableEq, Repr

/-- A directory entry of a communication group (R409), with the group state of this module. -/
structure Group where
  /-- keeper module id; 15 R409 -/
  keeper : Nat
  /-- installed epoch; 15 R409 -/
  epoch : Nat
  /-- members of the epoch: module, index, pin; 15 R409, R410 -/
  members : List (Nat × Nat × Option Nat)
  /-- former members: for 0x6003 of R404 -/
  former : List Nat := []
  /-- held by a HOLD; highest collective started; highest that a DRAIN allows, and whether it has been answered; 15 R411 -/
  held : Bool := false
  started : Nat := 0
  drainTo : Option Nat := none
  drained : Bool := false
  /-- members that AUTO removed, with their index; 15 R412; none -/
  autoOut : List (Nat × Nat) := []
  deriving DecidableEq, Repr

inductive ChangeStep where
  | hold
  | drain
  | install
  deriving DecidableEq, Repr

/-- A write to OD 0x4300:04-06 (R410). -/
inductive MemberReq where
  | add (m idx : Nat)
  | remove (m : Nat)
  | pin (m port : Nat)
  deriving DecidableEq, Repr

/-- A membership change at the keeper, running or waiting its turn (R411), and who asked for it: a path, and the tag of a fabric
request. -/
structure GroupChange where
  number : Nat
  req : MemberReq
  path : Option OdPath
  tag : Nat := 0
  running : Bool := false
  step : ChangeStep := .hold
  newMembers : List (Nat × Nat × Option Nat) := []
  waiting : List Nat := []
  highest : Nat := 0
  since : Nat := 0
  deriving DecidableEq, Repr

/-- A collective operation in progress on this module (R415). -/
structure Coll where
  group : Nat
  epoch : Nat
  number : Nat
  parts : List CollPart
  /-- the local context and its record -/
  ctx : Option (CtxId × BitVec 512)
  deriving DecidableEq, Repr

/-- A claim for a group number pending at this module (R409). -/
structure Claim where
  number : Nat
  handle : Nat
  reg : Nat
  waiting : List Nat
  deriving DecidableEq, Repr

/-- The fabric state of the module (15). -/
structure Fabric where
  /-- ports 0-3; 15 R387; DOWN -/
  ports : List Port := [ { emitter := 0 }, { emitter := 1 }, { emitter := 2 }, { emitter := 3 } ]
  /-- link state known, keyed module × 4 + port: up, number; 15 R399; none -/
  links : KMap (Bool × Nat) := []
  /-- state-change number of each own port; 15 R399; 0 -/
  ownNumber : KMap Nat := []
  /-- routing table, kind 5: destination to port and dateline; 15 R400; no entry (port 0xFF, flag 0) -/
  routes : KMap (Nat × Nat) := []
  /-- applied topology: kind, X, Y, hop limit; 15 R396; 0, 0, 0, 32 -/
  kind : Nat := 0
  sizeX : Nat := 0
  sizeY : Nat := 0
  /-- OD writes accepted from these modules, 1,024 bits; 15 R419, OD 0x4400:04; all ones -/
  allow : BitVec 1024 := BitVec.allOnes 1024
  /-- emitters below their limit; 15 R388; none -/
  badEmitters : List Nat := []
  /-- outstanding requests by tag, and the next tag; 15 R405; none, 1 -/
  reqs : KMap RemoteReq := []
  nextTag : Nat := 1
  /-- stream sequences sent, keyed dest × 4 + class, and next expected, keyed src; 15 R405; 0 -/
  sentSeq : KMap Nat := []
  recvSeq : KMap Nat := []
  /-- requests held after a gap; 15 R405; none -/
  heldReqs : List Packet := []
  /-- order bit of the route last used to each destination, and packets that wait for its requests to end; 15 R398, R405; none -/
  lastRoute : KMap Bool := []
  waiting : List Packet := []
  /-- packets this module has sent, oldest first (the peers' side of the fabric); 15 R402; none -/
  out : List Packet := []
  /-- group directory by number; 15 R409; empty -/
  groups : KMap Group := []
  /-- membership changes, claims, collectives; 15 R409, R411, R415; none -/
  changes : List GroupChange := []
  claims : List Claim := []
  colls : List Coll := []
  /-- uptime since which a member of a kept group has had no route, keyed number × 1,024 + module; 15 R412; none -/
  lost : KMap Nat := []
  /-- next request ids of shard queries; 12 R330; none, 1 -/
  shardWaits : KMap ShardWait := []
  nextShard : Nat := 1
  /-- group messages that arrived while the runtime restarts, oldest first; 20 R516 -/
  heldMsgs : List Instr := []
  deriving DecidableEq, Repr

/-! ## Host link and mailbox (16) -/

/-- A mailbox (16 R434). -/
structure Mailbox where
  /-- 37 bits, command register; 16 R434; 0 -/
  opcode : Nat := 0
  length : Nat := 0
  /-- 3 bits, control; 16 R434; 0 (DC 2) -/
  control : BitVec 3 := 0
  /-- status register: return code, extended status, BG_OP; 16 R434; 0 -/
  returnCode : Nat := 0
  extStatus : Nat := 0
  bgOp : Bool := false
  /-- background status: opcode, percent, return code, extended status; 16 R434; 0 -/
  bgOpcode : Nat := 0
  bgPercent : Nat := 0
  bgReturn : Nat := 0
  bgExt : Nat := 0
  /-- payload, 32 KiB; 16 R434; zero (DC 2) -/
  payload : List Byte := []
  deriving DecidableEq, Repr

inductive LinkState where
  | down
  | pcie
  | l0
  | l1
  deriving DecidableEq, Repr

/-- The last answer the module gave on a bus: bytes, poison, no answer (dropped or not ready), a status. -/
inductive BusOut where
  | none
  | bytes (b : List Byte)
  | poison
  | notReady
  | status (s : Nat) (b : List Byte)
  deriving DecidableEq, Repr

/-- A window-map entry of R428, keyed by 2 MiB chunk. -/
inductive WinEntry where
  | run
  | submap (n : Nat)
  deriving DecidableEq, Repr

/-- The host side (16). -/
structure HostIf where
  /-- host memory as the module reaches it, keyed function × 2^64 + DMA address; 03 R87; nothing (DC 4) -/
  mem : Memory := []
  /-- host address ranges the host does not serve: function, from, to; 03 R87; none -/
  faults : List (Nat × Nat × Nat) := []
  /-- link; 16 R422; trained, CXL (DC 1) -/
  link : LinkState := .l0
  /-- PERST# asserted; 17 R442; no (DC 1) -/
  perst : Bool := false
  /-- ASPM L1 enabled by host software; 20 R510; no (DC 2) -/
  aspmL1 : Bool := false
  /-- HDM decoder base, when committed; 16 R427; uncommitted -/
  hdm : Option Nat := none
  /-- CXL.cachemem IDE stream whole; 16 R437; yes (DC 2) -/
  ide : Bool := true
  /-- the host negotiates CXL, not PCIe alone; 16 R423; yes (DC 1) -/
  cxlMode : Bool := true
  /-- CXL RAS uncorrectable status set; 16 R437; no -/
  rasUncorrectable : Bool := false
  /-- window bindings by window offset; 02 R58; none -/
  bindings : KMap Binding := []
  /-- window map, by 2 MiB chunk; 16 R428; unbound -/
  winMap : KMap WinEntry := []
  /-- non-resident parcels of the window, by window offset / 64 KiB; 16 R428; none -/
  nonResident : List Nat := []
  /-- snoop filter: window lines the host may hold, oldest first; 16 R429; empty -/
  snoop : List Nat := []
  /-- lines back-invalidated and not yet answered; 16 R429; none -/
  snooping : List Nat := []
  /-- CXL.mem writes that a transaction holding their line, or a demotion, makes wait, oldest first: window offset and bytes; 04 R112;
  none -/
  heldWrites : List (Nat × List Byte) := []
  /-- ATS translations cached: function, page; 16 R426; none -/
  ats : List (Nat × Nat) := []
  /-- mailboxes by function; 16 R434; reset values -/
  mailboxes : KMap Mailbox := []
  /-- MSI-X messages sent per vector, keyed function × 2,048 + vector; 03 R75, 16 R424; none -/
  msix : KMap Nat := []
  /-- the last bus answer; the model's own record of what a read returned (DC 3) -/
  bus : BusOut := .none
  /-- longest CXL.mem read, ns; 16 R437, OD 0x9300:05; 0 -/
  longest : Nat := 0
  deriving DecidableEq, Repr

/-! ## Object dictionary (18) -/

/-- The path state of R467. -/
structure PathSt where
  selHealth : Nat := 0
  selTemp : Nat := 0
  selPage : Nat := 0
  selDest : Nat := 0
  selGroup : Nat := 0
  /-- staged values by index × 256 + subindex -/
  staged : KMap Nat := []
  nonce : Option (List Byte) := none
  /-- counter snapshot by index × 256 + subindex -/
  snapshot : Option (KMap Nat) := none
  deriving DecidableEq, Repr

/-- A power-loss mode write (13 R353, 16 R436): its value, the open courses it closes first, the journal record of the switch, and who
asked. -/
structure ModeChange where
  value : Nat
  courses : List Nat
  record : Option Nat := none
  path : OdPath
  tag : Nat
  deriving DecidableEq, Repr

/-- The object dictionary: settings, counters and paths (18). -/
structure Od where
  /-- scalar rw and rws entries that differ from their default, by index × 256 + subindex; 18 R457-R475; defaults -/
  vals : KMap Nat := []
  /-- counters (0x9000-0x9FFF and the ro counts of 0x1100-0x6FFF), by index × 256 + subindex; 18 R471, R475; 0 -/
  cnt : KMap Nat := []
  /-- counters scoped to a polder, by polder × 2^24 + index × 256 + subindex; 18 R472; 0 -/
  pcnt : KMap Nat := []
  /-- path states; 18 R467; none -/
  paths : List (OdPath × PathSt) := []
  /-- maintenance mode holder and uptime of its last write; 18 R462, R463; none -/
  maint : Option OdPath := none
  maintAt : Nat := 0
  /-- remote OD requests outstanding: tag, path, write; 18 R468; none -/
  remote : List (Nat × OdPath × Bool) := []
  /-- power-loss mode writes under way, oldest first; 13 R353; none -/
  modes : List ModeChange := []
  /-- polder applies that took cores away and are answered once those hold no resident: core mask, path, tag; 06 R168; none -/
  applies : List (Nat × OdPath × Nat) := []
  deriving DecidableEq, Repr

/-! ## Security and configuration flash (19) -/

/-- A firmware slot: status words 0-6 and the image (19 R490, R492). -/
structure Slot where
  /-- the slot is usable (its status words are clear or as they should be); 19 R492 -/
  usable : Bool := true
  staged : Bool := false
  verified : Bool := false
  activation : Nat := 0
  attempts : Nat := 0
  ran : Bool := false
  rejected : Bool := false
  /-- image bytes, 48 MiB, by offset; 19 R490; DC 2 -/
  image : Memory := []
  /-- it holds the image the module was shipped with, whose bytes the manual does not give; 19 R486; slot A (DC 2) -/
  shipped : Bool := false
  /-- 4 KiB sectors written in this staging session; 19 R496 -/
  written : List Nat := []
  /-- Version and Security version of its image; 19 R490, OD 0x1004:02-03, 0x5200:03-04 -/
  version : Nat := 0
  security : Nat := 0
  deriving DecidableEq, Repr

/-- A reopen password record (19 R502). -/
structure Reopen where
  salt : List Byte
  hash : List Byte
  scope : Nat
  uses : Nat
  deriving DecidableEq, Repr

/-- A write of persistent entries that waits to be programmed (18 R464, 19 R485): keys and values, and the path to answer then, with
the tag of a fabric request. -/
structure StoreWrite where
  items : List (Nat × Nat)
  path : Option OdPath
  tag : Nat
  /-- cores that must hold no resident before the answer (06 R168) -/
  cores : Nat := 0
  deriving DecidableEq, Repr

/-- An operation of the configuration flash in progress (19 R478, R479). -/
structure CfgOp where
  erase : Bool
  sector : Nat
  startedAt : Nat
  suspended : Bool := false
  suspends : Nat := 0
  served : Nat := 0
  heldReq : Bool := false
  /-- requests waiting: rank of R479, sector, and whether it is an erase -/
  queue : List (Nat × Nat × Bool) := []
  /-- words programmed again after the erase of a refresh (19 R480); none -/
  words : List (BitVec 32) := []
  deriving DecidableEq, Repr

/-- The debug lock (19 R501, R502). -/
structure Debug where
  /-- open scope, 0 when CLOSED, whether opened by signature, and the interface; 19 R501; CLOSED -/
  scope : Nat := 0
  bySignature : Bool := false
  onTap : Bool := false
  /-- outstanding challenge: interface and its 48 bytes; 19 R501; none -/
  challenge : Option (Bool × List Byte) := none
  /-- failures in a row; 19 R502; 0 -/
  failures : Nat := 0
  reopen : Option Reopen := none
  /-- IR of the TAP last answered; 17 R447; IDCODE (DC 2) -/
  tapAnswer : Nat := 0
  deriving DecidableEq, Repr

inductive BootState where
  | off
  | booting
  | ready
  | recovery
  /-- the PUF's check value did not match (19 R487) -/
  | stopped
  deriving DecidableEq, Repr

/-- The device secret, of 256 bits (19 R487). -/
def deviceSecret : List Byte := (List.range 32).map Config.secretByte

/-- The labels "wrap", "flash password" and "puf check" (19 R487), in ASCII. -/
def labelWrap : List Byte := [0x77, 0x72, 0x61, 0x70]
def labelPassword : List Byte := [0x66, 0x6c, 0x61, 0x73, 0x68, 0x20, 0x70, 0x61, 0x73, 0x73, 0x77, 0x6f, 0x72, 0x64]
def labelCheck : List Byte := [0x70, 0x75, 0x66, 0x20, 0x63, 0x68, 0x65, 0x63, 0x6b]

/-- The secret of the PUF and the keys derived from it, in registers of the security block that no path reads (19 R487). -/
structure PufKeys where
  /-- free-value number of the array as this boot read it; 0 -/
  array : Nat := 0
  secret : List Byte := deviceSecret
  wrap : List Byte := Config.hkdf deviceSecret labelWrap
  password : List Byte := Config.hkdf deviceSecret labelPassword
  check : List Byte := Config.hkdf deviceSecret labelCheck
  deriving DecidableEq, Repr

/-- Security block, boot and configuration flash (19). -/
structure Sec where
  slotA : Slot := { verified := true, ran := true, version := 1, shipped := true }
  slotB : Slot := {}
  /-- slot booted: false A, true B; 19 R494, OD 0x1004:01; A (DC 2) -/
  active : Bool := false
  /-- 0 normal boot, 1 fallback, 2 recovery; 19 R493, OD 0x5200:01; 0 -/
  bootKind : Nat := 0
  boot : BootState := .ready
  /-- uptime of the last watchdog refresh or of the start of boot step 4; 19 R498; 0 -/
  dogAt : Nat := 0
  /-- staging session open; 19 R496; no -/
  session : Bool := false
  /-- anti-rollback floor; 19 R484, OD 0x5200:02; 0 (DC 2) -/
  floor : Nat := 0
  /-- key-store generations holding a key, and the current one; 19 R488, R489, OD 0x5500; 1, 1 -/
  keys : List Nat := [1]
  keyGen : Nat := 1
  /-- maintenance and owner debug public keys, 388 bytes; 19 R486, OD 0x5010; Oddex service key (a free value), zeros -/
  maintKey : Option (List Byte) := none
  ownerKey : Option (List Byte) := none
  /-- owner certificate chain (slot 1); 19 R500; none -/
  ownerChain : List Byte := []
  /-- committed OD store values by index × 256 + subindex; 19 R485; nothing stored -/
  store : KMap Nat := []
  /-- records in the OD store ring, and its free sectors; 19 R485; 0, 1,024 -/
  storeRecs : List (Nat × Nat) := []
  storeFree : Nat := 1024
  op : Option CfgOp := none
  /-- writes of persistent entries not programmed yet, oldest first; 18 R464; none -/
  storeQ : List StoreWrite := []
  lock : Debug := {}
  /-- secured SPDM sessions open: on DOE, IDE_KM; 19 R500; none -/
  sessions : List (Bool × Bool) := []
  /-- reads of fresh random values so far: the index into the free values (DC 5) -/
  draws : Nat := 0
  /-- words of the configuration flash, data and check bits, that differ from the shipped content; 19 R476, R477; none -/
  cells : KMap (BitVec 40) := []
  /-- records written to the OD store so far, the last one's sequence word; 19 R485; 0 -/
  storeSeq : Nat := 0
  /-- the sector being filled takes no more records, after a program in it was cut off; 19 R499; no -/
  storeFull : Bool := false
  /-- the PUF's secret and keys, none while the security block is not powered; 19 R487; as every boot derives them -/
  puf : Option PufKeys := some {}
  /-- the check value of the identity region, none for the one stored at manufacture, which the die's secret derives; 19 R487; none (DC 148) -/
  pufCheck : Option (List Byte) := none
  /-- a watchdog's reset waits on the flash operation: watchdog 0 runtime, 1 boot; operation 0 none, 1 program, 2 erase; uptime of the
  expiry; 19 R498; none -/
  heldReset : Option (Nat × Nat × Nat) := none
  deriving DecidableEq, Repr

/-! ## Power and time (17, 20) -/

inductive PdState where
  | on
  | off
  | ret
  | lp
  deriving DecidableEq, Repr

/-- Power-up phase (17 R449). -/
inductive Phase where
  | off
  | aux
  | rails
  | retryWait
  | failed
  | tripped
  | undervolt
  | brownout
  | running
  deriving DecidableEq, Repr

/-- The SANITIZE progress (20 R517). -/
structure Sanitize where
  pending : Bool := false
  step : Nat := 0
  erased : Nat := 0
  total : Nat := 0
  deriving DecidableEq, Repr

/-- Power, resets and elapsed time (17, 20). -/
structure Power where
  phase : Phase := .running
  /-- 3V3_AUX in tolerance; 17 R449; yes (DC 1) -/
  aux : Bool := true
  /-- rails raised, of the ten steps of R449; all (DC 1) -/
  rails : Nat := 10
  /-- rails back off after a failure: retries used; 17 R449; 0 -/
  retries : Nat := 0
  /-- CARD_PWR_STABLE; 17 R445; asserted (DC 1) -/
  stable : Bool := true
  /-- sense pins read at power-up, and as they are now; 17 R444; 600 W cable (DC 2) -/
  pins : SensePins := ⟨true, true, true⟩
  pinsNow : SensePins := ⟨true, true, true⟩
  /-- current power state 0-5 and the target of a transition; 20 R507, OD 0x6000:03-04; power-up state, none -/
  ps : Nat := 0
  target : Option Nat := none
  /-- clusters powered; 20 R506; all eight -/
  clusters : BitVec 8 := 0xFF
  /-- the 20 power domains PD0-PD19; 01 R22, R23; on -/
  pd : List PdState := List.replicate 20 .on
  /-- hold-up ready; 17 R450, OD 0x6105:01; 0 -/
  holdup : Bool := false
  /-- hold-up health h, %, and whether h counts as 0 for risk c6; 17 R450, OD 0x7003:02; measured at hold-up ready, 100 (DC 2) -/
  health : Nat := 100
  healthZero : Bool := false
  /-- uptime of the last hold-up measurement; 17 R450; 0 -/
  measuredAt : Nat := 0
  /-- uptime at which a failed power-up sequence had lowered its rails; 17 R449; 0 -/
  failedAt : Nat := 0
  /-- cause of the next power-up: 1, 2 after a brown-out, 3 after a trip, 9 after a core undervoltage; 20 R512; 1 -/
  nextCause : Nat := 1
  /-- uptime at the last reset or power loss, where the module knows it; 20 R512, type 0x0053; 0 -/
  resetAt : Nat := 0
  /-- hold-up discharges: a brown-out of open-course mode runs until it is exhausted, and the module was tripped; 17 R441, R452; no -/
  tripping : Bool := false
  /-- ARR frequency in units of 62.5 MHz; 01 R20, OD 0x6002:01; 16 (1.000 GHz) -/
  arr : Nat := 16
  /-- throttling now for temperature, for power; 20 R511, OD 0x6002:02; no -/
  thrTemp : Bool := false
  thrPower : Bool := false
  /-- throttling episode: since, lowest frequency, for power; 20 R511; none -/
  episode : Option (Nat × Nat × Bool) := none
  /-- uptime of the last step up or down; 20 R511; 0 -/
  stepAt : Nat := 0
  /-- dies allowed in program or erase per quadrant in PS3; 20 R505; no limit -/
  dieLimit : Option Nat := none
  /-- uptime, µs; 20 R520, OD 0x1100:01; 0 -/
  uptime : Nat := 0
  /-- uptime at which the current power state was entered; 20 R523; 0 -/
  psSince : Nat := 0
  /-- sensors and board power as last sampled; 17 R441, R456; 25 °C, 0 W (DC 2) -/
  sensors : Sensors := ⟨25, 25, 25, 25, 25, 0⟩
  /-- highest die temperature in the module's life; 13 R372, OD 0x2310:04; 25 (DC 2) -/
  highest : Int := 25
  /-- cause of the last power-up or module reset; 20 R512, OD 0x6010:02; 1 -/
  cause : Nat := 1
  /-- a module reset has been requested and quiesce runs: cause; 20 R513; none -/
  resetReq : Option Nat := none
  /-- the runtime is restarting; 20 R515; no -/
  restarting : Bool := false
  /-- critical registers of PD0 held as three copies, by word number; 14 R385; power-cycle count 0 -/
  critical : KMap (U32 × U32 × U32) := [(0, 0, 0, 0)]
  sanitize : Sanitize := {}
  /-- temperature history, newest first; 13 R371; none -/
  temps : List TempHour := []
  /-- µs throttled for temperature in episodes that ended in this hour, and pages programmed hot in it; 13 R371; 0 -/
  thrMinutes : Nat := 0
  hotPages : Nat := 0
  /-- uptime of the last OD access in PS5; 20 R510; 0 -/
  odAt : Nat := 0
  /-- I3C dynamic address, none while an SMBus target at 0x5A; 17 R443; none -/
  i3c : Option (BitVec 7) := none
  deriving DecidableEq, Repr

/-- The health monitor (10). -/
structure Risk where
  /-- current and highest risk; 10 R270, OD 0x7000:01-02; 0 -/
  risk : Nat := 0
  highest : Nat := 0
  /-- components c1-c6; 10 R269, OD 0x7000:03-08; 0 -/
  comps : List Nat := [0, 0, 0, 0, 0, 0]
  /-- uptimes of counted events: corrected lines and retried codewords, uncorrectable events, droops, retrains; 10 R269; none -/
  corrected : List Nat := []
  uncorrectable : List Nat := []
  droops : List Nat := []
  retrains : List Nat := []
  deriving DecidableEq, Repr

/-- Which of the two steppings and ordering codes the module is (00 R1, R3, R4). -/
structure Ident where
  /-- stepping A0 (else B0); 00 R4; B0 -/
  a0 : Bool := false
  /-- ordering code OXP2-128T-A (else OXP2-256T-A); 00 R1; OXP2-256T-A (DC 2) -/
  small : Bool := false
  deriving DecidableEq, Repr

/-- The whole module. -/
structure State where
  /-- commands waiting, first in, first out; empty -/
  pending : List Instr := []
  ident : Ident := {}
  /-- task registers by index; 03 R66; reset values -/
  regs : KMap TaskReg := []
  /-- assigned queue pages, page 0 the PF's admin page; 03 R67, 06 R170; page 0 only -/
  pages : KMap PageCond := [(0, ⟨0, 0xFF⟩)]
  /-- completion rings 0-1,023; 03 R74; reset values -/
  rings : KMap Ring := []
  /-- commands in execution by register; 03 R78; none -/
  execs : KMap Exec := []
  /-- order of the next accepted command; 03 R78; 0 -/
  nextOrder : Nat := 0
  /-- live objects by handle; 02 R30, R34; none -/
  objs : KMap Obj := []
  /-- highest object number issued; 02 R31; 0 -/
  numHigh : Nat := 0
  /-- bytes reserved in the exported capacity pool; 02 R36; 0 -/
  reserved : Nat := 0
  /-- next DAS base tried, in 64 KiB parcels; 02 R40; 0x1_0000 -/
  dasNext : Nat := 0x10000
  /-- parcels by local address / 64 KiB; 02 R41; UNBACKED -/
  parcels : KMap Parcel := []
  /-- module sequence number, 48 bits; 04 R110; 0 -/
  seq : Nat := 0
  /-- version stamps of items whose version is tracked; 04 R110; none -/
  versions : List (Item × Nat) := []
  /-- transactions coordinated here, by local number; 04 R101, R114; none -/
  txs : KMap Tx := []
  /-- highest local number issued; 04 R101; 0 -/
  txHigh : Nat := 0
  /-- branches held as participant, by transaction id; 04 R103, R117; none -/
  branches : KMap Tx := []
  /-- outcome records kept; 04 R120; none -/
  outcomes : List Outcome := []
  /-- objects, and lines of commit records, each with its record's sequence number and transaction, as the durable journal gives them; 13
  R358-R361; none -/
  durObjs : KMap Obj := []
  durLines : KMap (Nat × Nat × List Byte) := []
  /-- Valid bytes of the BLOBs as they stood before the last loss, for the next rebuild; 02 R529; none -/
  heldValid : KMap Nat := []
  /-- parcel that each requester last touched in an object under AUTO, keyed handle: requester and parcel; 02 R50; none -/
  walks : List (Nat × Nat × Nat) := []
  /-- health log, oldest first; 13 R370; empty -/
  health : List Health := []
  /-- highest health number issued, and the recorded high mark; 13 R370; 0 -/
  healthHigh : Nat := 0
  healthMark : Nat := 0
  flash : Flash := {}
  dram : Dram := {}
  /-- scratchpads, by core × 2^22 + byte offset; 07 R205; zero (DC 2) -/
  spad : Memory := []
  /-- sumps, by core × 2^18 + byte offset; 07 R207; zero (DC 2) -/
  sump : Memory := []
  /-- jobs by JOB handle; 05 R137, 06 R184; none -/
  jobs : KMap Job := []
  /-- matrix cores 0-31; 06 R173; nothing resident -/
  cores : KMap Core := []
  /-- tables and indexes by handle; 11, 12; none -/
  tables : KMap TableSt := []
  indexes : KMap IndexSt := []
  /-- open search passes, the next pass id; 12 R323; none, 1 -/
  passes : KMap Pass := []
  nextPass : Nat := 1
  /-- epoch recorded with each candidate list: handle (0 a scratchpad) and offset; 12 R327; none -/
  candEpochs : List ((Nat × Nat) × Nat) := []
  /-- arrivals counted: orders additions and readers; 11 R298; 0 -/
  arrivals : Nat := 0
  fabric : Fabric := {}
  host : HostIf := {}
  od : Od := {}
  sec : Sec := {}
  power : Power := {}
  risk : Risk := {}
  /-- THE MODEL'S OWN field: the next free value's number (free values are Config constants applied to it); 0 (DC 5) -/
  fresh : Nat := 0
  deriving DecidableEq, Repr

/-- How a step could stop with a fault. No command of the spec stops the module: every failure is a status, a context fault
or a logged event of a next state. -/
inductive Fault where
  /-- Raised by no command. Safe: no claim can rest on it. -/
  | none
  deriving DecidableEq, Repr

/-- Why a command has no meaning here. -/
inductive Refusal where
  /-- Answered by an arm of exec whose command has no meaning yet. Safe: the model stops. -/
  | notModelled (mnemonic : String)
  deriving DecidableEq, Repr

/-- The module at the end of its first power-up, the runtime ready and hold-up not yet ready (log entry 1). -/
def State.reset : State := {}

end Sys2Proof.Machine
end

