-- ==== Sys2Proof/Machine/Ops.lean ====
section
/-! DEFINITION. Machine/Ops.lean: the operations that every family shares: settings and counters of the object dictionary,
sequence numbers, the health log, the journal's queue, handles, rights and DRAM charges. -/

namespace Sys2Proof.Machine

/-! ## Updates of one part of the state -/

def State.modFlash (s : State) (f : Flash → Flash) : State := { s with flash := f s.flash }
def State.modDram (s : State) (f : Dram → Dram) : State := { s with dram := f s.dram }
def State.modFab (s : State) (f : Fabric → Fabric) : State := { s with fabric := f s.fabric }
def State.modHost (s : State) (f : HostIf → HostIf) : State := { s with host := f s.host }
def State.modOd (s : State) (f : Od → Od) : State := { s with od := f s.od }
def State.modSec (s : State) (f : Sec → Sec) : State := { s with sec := f s.sec }
def State.modPower (s : State) (f : Power → Power) : State := { s with power := f s.power }
def State.modRisk (s : State) (f : Risk → Risk) : State := { s with risk := f s.risk }
def State.modObj (s : State) (h : Nat) (f : Obj → Obj) : State := { s with objs := kmod s.objs h f }
def State.modReg (s : State) (r : Nat) (f : TaskReg → TaskReg) : State :=
  { s with regs := kset s.regs r (f ((kget s.regs r).getD {})) }
def State.modJob (s : State) (h : Nat) (f : Job → Job) : State := { s with jobs := kmod s.jobs h f }
def State.modPort (s : State) (n : Nat) (f : Port → Port) : State :=
  s.modFab fun b => { b with ports := b.ports.modify n f }
def State.modParcel (s : State) (n : Nat) (f : Parcel → Parcel) : State := { s with parcels := kmod s.parcels n f }
def State.modTx (s : State) (l : Nat) (f : Tx → Tx) : State := { s with txs := kmod s.txs l f }

/-- What every meaning answers: a next state. A command is taken from the queue by the step, so its meaning leaves the queue
as it finds it, and no command changes which module this is (00 R1, R4). -/
def done (s t : State) : Host.Outcome State Fault Refusal :=
  .next { t with pending := s.pending, ident := s.ident }

/-- Phases in which the uptime counter runs: it does not while only 3.3Vaux is present (20 R520). -/
def Phase.counts : Phase → Bool
  | .rails | .retryWait | .running | .brownout => true
  | _ => false

/-- Uptime advances by one microsecond (20 R520; log entry 1). -/
def tick (s : State) : State :=
  s.modPower fun p => { p with uptime := if p.phase.counts then p.uptime + 1 else p.uptime }

/-- The statuses with which a command can end (03 R100). -/
def statusTable : List Nat := [
  0x0000, 0x1001, 0x1002, 0x1003, 0x1004, 0x1005, 0x1006, 0x1007, 0x1008, 0x1009, 0x100B, 0x100C, 0x100D, 0x100E, 0x1011, 0x1012,
  0x2001, 0x2002, 0x2003, 0x2004, 0x2006, 0x3001, 0x3002, 0x3003, 0x3004, 0x3005, 0x3006, 0x4001, 0x4002, 0x4003, 0x4004, 0x4005,
  0x4006, 0x4007, 0x4008, 0x5001, 0x5002, 0x5003, 0x5004, 0x5005, 0x6001, 0x6002, 0x6003, 0x6004, 0x7001, 0x7002, 0x8001, 0x8002]

/-- Final status of a cancelled job: one of the table's, which none of the rules names (03 R94). -/
def cancelledStatus : Nat := (statusTable[Config.cancelStatus % 48]?).getD 0

/-- A register's contents. -/
def State.reg (s : State) (r : Nat) : TaskReg := (kget s.regs r).getD {}

/-- A port's state. -/
def State.port (s : State) (n : Nat) : Port := (s.fabric.ports[n]?).getD {}

/-- Draw the next free value's number. -/
def State.draw (s : State) : Nat × State := (s.fresh, { s with fresh := s.fresh + 1 })

/-! ## Capacities (13 R334, 14 R382) -/

def gib : Nat := 1073741824
def tib : Nat := 1099511627776

/-- Exported capacity by ordering code (13 R334). -/
def exportedDefault (s : State) : Nat := if s.ident.small then 115 * tib else 230 * tib

/-- DRAM for parcels: 720 GiB less the page map, headers, runtime state and retired frames (02, OD 0x3201:01). -/
def dramCapacity (s : State) : Nat :=
  720 * gib - (if s.ident.small then 38587596800 else 77175193600) - Config.runtimeDram - 65536 * s.dram.retired.length

/-! ## Object dictionary: settings and counters -/

/-- Default of a setting, those that depend on the index or the module among them (06 R166, 13 R336, 15 R387). -/
def odDefault (s : State) (index sub : Nat) : Nat :=
  if index = 0x3000 ∧ sub = 1 then 0xFFFFFFFF
  else if index = 0x3000 ∧ sub = 3 then dramCapacity s / gib
  else if index = 0x2000 ∧ sub = 3 then exportedDefault s
  else match odEntry index sub with
    | some e => e.dflt
    | none => 0

/-- Present value of a setting. -/
def od (s : State) (index sub : Nat) : Nat :=
  match kget s.od.vals (odKey index sub) with
  | some v => v
  | none => odDefault s index sub

/-- Set a setting; one at its default is not listed. -/
def odSet (s : State) (index sub v : Nat) : State :=
  s.modOd fun o => { o with vals := if v = odDefault s index sub then kdel o.vals (odKey index sub)
                                    else kset o.vals (odKey index sub) v }

/-- Add to a module-wide counter (18 R471). -/
def bump (s : State) (index sub n : Nat) : State :=
  if n = 0 then s else s.modOd fun o => { o with cnt := kset o.cnt (odKey index sub) (kcount o.cnt (odKey index sub) + n) }

/-- Set a module-wide count. -/
def setCnt (s : State) (index sub v : Nat) : State :=
  s.modOd fun o => { o with cnt := kset o.cnt (odKey index sub) v }

def cnt (s : State) (index sub : Nat) : Nat := kcount s.od.cnt (odKey index sub)

/-- Add to a counter in a polder's view only (18 R472). -/
def bumpP (s : State) (p index sub n : Nat) : State :=
  if n = 0 ∨ 32 ≤ p then s
  else s.modOd fun o => { o with pcnt := kset o.pcnt (p * 16777216 + odKey index sub)
                                          (kcount o.pcnt (p * 16777216 + odKey index sub) + n) }

/-- Add to a counter module-wide and in a polder's view. -/
def bumpB (s : State) (p index sub n : Nat) : State := bumpP (bump s index sub n) p index sub n

/-- Elapsed uptime in µs and ms. -/
def now (s : State) : Nat := s.power.uptime

/-- This module's id (15 R387, OD 0x4000:01). -/
def moduleId (s : State) : Nat := od s 0x4000 1

/-! ## Sequence numbers, the journal's queue, the health log -/

/-- The next number of the module's 48-bit sequence (04 R110). -/
def nextSeq (s : State) : Nat × State := (s.seq + 1, { s with seq := s.seq + 1 })

/-- Queue a journal record; answers its sequence number (13 R358, R359). -/
def jadd (s : State) (r : JRec) : Nat × State :=
  let (n, s) := nextSeq s
  (n, s.modFlash fun f => { f with jpend := f.jpend ++ [(n, r)],
                                   jsince := match f.jsince with | none => some s.power.uptime | some t => some t })

/-- Write a health-log record: newest 8,192 held, numbers never reissued, the high mark recorded 256 ahead (13 R370). -/
def logHealth (s : State) (type : Nat) (admin : Bool) (detail : List Int) : State :=
  let n := s.healthHigh + 1
  let rec' : Health := ⟨n, type, admin, s.power.uptime,
    (match kget s.power.critical 0 with | some (a, b, c) => ((a &&& b) ||| (a &&& c) ||| (b &&& c)).toNat | none => 0), detail⟩
  let s := { s with healthHigh := n, health := ((rec' :: s.health.reverse).take 8192).reverse }
  let s := if s.healthMark < n
    then { (jadd s (.highMark s.numHigh s.txHigh s.seq (n + 255))).2 with healthMark := n + 255 } else s
  (jadd s (.health n)).2

/-- Kind and number by which a record names a party; DESIGN CHOICE (log entry 137). -/
def Party.code : Party → Nat × Nat
  | .polder p => (0, p)
  | .object h => (1, h)
  | .link n => (2, n)
  | .unit d => (3, d)

/-- Whether two parties belong to two different polders (01 R28): a module-owned object belongs to none. -/
def twoPolders (s : State) (a b : Party) : Bool :=
  let owner := fun (x : Party) => match x with
    | .polder p => some p
    | .object h => (match kget s.objs h with | some o => if o.owner = 0xFF then none else some o.owner | none => none)
    | _ => none
  match owner a, owner b with
  | some p, some q => p != q
  | _, _ => false

/-- A guarantee yielded (01 R28): logged with both levels and both parties, and counted by the level that yields. The detail's first number
holds the levels and the kinds of the parties in its four lowest bytes; DESIGN CHOICE (log entry 137). -/
def yielded (s : State) (prevails yields : Nat) (a b : Party) : State :=
  bump (logHealth s 0x0001 (twoPolders s a b)
    [(prevails + 256 * yields + 65536 * a.code.1 + 16777216 * b.code.1 : Nat), a.code.2, b.code.2]) 0x9400 yields 1

/-! ## Handles (02) -/

def homeOf (h : Nat) : Nat := h / 18014398509481984
def typeOf (h : Nat) : Nat := h / 281474976710656 % 64
def numberOf (h : Nat) : Nat := h % 281474976710656
def mkHandle (s : State) (type number : Nat) : Nat :=
  moduleId s * 18014398509481984 + type * 281474976710656 + number

/-- Type codes (02 R30). -/
def okType (t : Nat) : Bool := decide (1 ≤ t) && decide (t ≤ 12)

/-- Types whose payload lies in the DAS (02 R30). -/
def hasPayload (t : Nat) : Bool := okType t && !(t == 1 || t == 7 || t == 8)

/-- The area's type code. -/
def Area.code : Area → Nat
  | .nspace .. => 1
  | .blob _ => 2
  | .tensor _ => 3
  | .table _ => 4
  | .index _ => 5
  | .program _ => 6
  | .job _ => 7
  | .group _ => 8
  | .log .. => 9
  | .graph _ => 10
  | .set .. => 11
  | .model .. => 12

/-- DAS extent of an object: its length rounded up to parcels (02 R37). -/
def Obj.extent (o : Obj) : Nat := if hasPayload o.area.code then roundUp o.length 65536 else 0

/-- Pin count of the header: pins of PIN and of bindings (02 R34, R47). -/
def Obj.pinCount (o : Obj) : Nat := o.pins + o.maps

/-- The live object a handle names; one being destroyed counts as absent (02 R39 step 1). -/
def liveObj (s : State) (h : Nat) : Option Obj :=
  match kget s.objs h with
  | some o => if o.leaving then none else some o
  | none => none

/-! ## Rights (02 R62-R65) -/

/-- A polder's bit in a mask. -/
def maskBit (m : U32) (p : Nat) : Bool := decide (p < 32) && m.getLsbD p

/-- Whether polder `p` (0xFF: an admin page or the runtime) is the owner, or acts as the owner (R63). -/
def isOwner (o : Obj) (p : Nat) : Bool := o.owner == p

/-- A module-owned object other than a NAMESPACE is reachable only from admin pages and the runtime (R63). -/
def reachable (o : Obj) (p : Nat) : Bool := o.owner != 0xFF || p == 0xFF || o.area.code == 1

def canRead (o : Obj) (p : Nat) : Bool := isOwner o p || (reachable o p && maskBit o.readMask p)

/-- The write right without regard to READ_ONLY (03 R88). -/
def mayWrite (o : Obj) (p : Nat) : Bool := isOwner o p || (reachable o p && maskBit o.writeMask p)

def canStore (o : Obj) (p : Nat) : Bool := mayWrite o p && !o.readOnly

/-- A failed dike check is counted module-wide and in the requester's view, and leaves no other record (R65). -/
def dikeFail (s : State) (p : Nat) : State := bumpP (bump s 0x9500 1 1) p 0x9500 2 1

/-- A fabric request refused by dike at this home is counted too (R64, OD 0x9500:04). -/
def peerFail (s : State) (p : Nat) : State := bump (dikeFail s p) 0x9500 4 1

/-! ## DRAM charges (02 R36, R47, 06 R171, 14 R383) -/

def ParcelState.inDram : ParcelState → Bool
  | .dramClean | .dramDirty | .migUp | .migDown => true
  | _ => false

/-- Parcels of an object that take DRAM. -/
def dramParcels (s : State) (h : Nat) : Nat :=
  (s.parcels.filter fun p => p.2.obj == h && p.2.state.inDram).length

/-- Bytes from payload offset 0 that stay in DRAM whatever the policy: a TABLE's directory and heat array (11 R280), an INDEX's
partition table (12 R302). -/
def Area.kept : Area → Nat
  | .table t => roundUp (t.heatOffset + t.rows) 65536
  | .index i => roundUp (32 * i.partitions) 65536
  | _ => 0

/-- DRAM an object charges to its owner: the whole extent while pinned, mapped or VOLATILE, else what is kept in DRAM whatever the
policy and its other parcels in DRAM. -/
def objCharge (s : State) (h : Nat) (o : Obj) : Nat :=
  if o.volatile || decide (0 < o.pinCount) then o.extent
  else if o.area.kept = 0 then 65536 * dramParcels s h
  else o.area.kept + 65536 * (s.parcels.filter fun p =>
    p.2.obj == h && p.2.state.inDram && decide (o.base + o.area.kept ≤ p.1 * 65536)).length

/-- DRAM charged to a polder, its run-ahead staging area included (06 R171, OD 0x3400:03, OD 0x3000+p:0D). -/
def charged (s : State) (p : Nat) : Nat :=
  (if od s (0x3000 + p) 1 = 0 then 0 else od s 0x3400 3 * 1048576) +
  (s.objs.map fun e => if e.2.owner == p then objCharge s e.1 e.2 else 0).foldl (· + ·) 0

/-- DRAM charged to all polders, their run-ahead staging areas included. -/
def chargedAll (s : State) : Nat :=
  ((List.range 32).filter fun p => od s (0x3000 + p) 1 ≠ 0).length * (od s 0x3400 3 * 1048576) +
  (s.objs.map fun e => if e.2.owner == 0xFF then 0 else objCharge s e.1 e.2).foldl (· + ·) 0

/-- DRAM quota of a polder in bytes (06 R166); polder 0's default is the whole tier. -/
def quota (s : State) (p : Nat) : Nat :=
  match kget s.od.vals (odKey (0x3000 + p) 3) with
  | some g => g * gib
  | none => if p = 0 then dramCapacity s else 0

/-- Sum of the quotas of the defined polders (06 R167). -/
def quotaSum (s : State) : Nat :=
  ((List.range 32).map fun p => if od s (0x3000 + p) 1 = 0 then 0 else quota s p).foldl (· + ·) 0

/-- Bytes by which the DRAM tier is overcommitted (14 R383). -/
def overcommit (s : State) : Nat := quotaSum s - dramCapacity s

/-- Whether a polder can take `n` more bytes of charge (06 R171, 14 R383). The module's own objects charge nothing. -/
def quotaAllows (s : State) (p n : Nat) : Bool :=
  n == 0 || p == 0xFF ||
  (decide (charged s p + n ≤ quota s p) &&
   (decide (overcommit s = 0) || decide (chargedAll s + n ≤ dramCapacity s)))

/-- Polder that is defined (06 R164). -/
def polderDefined (s : State) (p : Nat) : Bool := decide (p < 32) && decide (od s (0x3000 + p) 1 ≠ 0)

/-! ## The exported capacity pool (02 R36) -/

/-- Bytes of the unreserved part that parcels of VOLATILE objects take while a copy of them is on flash (02 R36, R45). -/
def spillBytes (s : State) : Nat :=
  65536 * (s.parcels.filter fun e =>
    (e.2.state == .flash || e.2.state == .migUp || e.2.state == .migDown || e.2.state == .dramClean) &&
    (match kget s.objs e.2.obj with | some o => o.volatile | none => false)).length

def poolAllows (s : State) (n : Nat) : Bool := decide (s.reserved + spillBytes s + n ≤ od s 0x2000 3)

/-! ## Versions (04 R110, R113, 02 R527) -/

/-- Version stamp of an item; an untracked item takes the present sequence number and is tracked from then on. -/
def versionOf (s : State) (i : Item) : Nat × State :=
  match aget s.versions i with
  | some v => (v, s)
  | none => (s.seq, { s with versions := aset s.versions i s.seq })

/-- A change of items of an object at sequence number `n`: tracked items take it, and so does the object's change stamp. -/
def stamp (s : State) (h : Nat) (items : List Item) (n : Nat) : State :=
  let s := s.modObj h fun o => { o with changeStamp := n }
  { s with versions := s.versions.map fun p => if items.contains p.1 then (p.1, n) else p }

/-- The header version advances by 1 (02 R527). -/
def bumpVersion (s : State) (h : Nat) : State := s.modObj h fun o => { o with version := o.version + 1 }

/-- The object record that carries a header to the journal (13 R358). -/
def journalObj (s : State) (h : Nat) : Nat × State := jadd s (.object h (kget s.objs h))

end Sys2Proof.Machine
end

