-- ==== Sys2Proof/Machine/Dram.lean ====
section
/-! DEFINITION. Machine/Dram.lean: the line code, the merge buffer, correction, poison and frames of the DRAM tier (14). -/

namespace Sys2Proof.Machine

/-! ## The line code (R373, R374): GF(2^8) with x^8 + x^4 + x^3 + x^2 + 1 -/

/-- Multiply by α = 2. -/
def gfDouble (a : Byte) : Byte := if a.getLsbD 7 then (a <<< 1) ^^^ 0x1D#8 else a <<< 1

/-- Product in the field, over the bits of `b` from the highest. -/
def gfMul (a b : Byte) : Byte :=
  (List.range 8).foldl (fun acc i => if b.getLsbD (7 - i) then gfDouble acc ^^^ a else gfDouble acc) 0

/-- α to a power. -/
def gfPow : Nat → Byte
  | 0 => 1
  | n + 1 => gfDouble (gfPow n)

/-- The 68 symbol locations and their field elements. -/
def gfPoints : List (Nat × Byte) := (List.range 68).map fun i => (i, gfPow i)

/-- Inverse, a^254. -/
def gfInv (a : Byte) : Byte :=
  let a2 := gfMul a a
  let a4 := gfMul a2 a2
  let a8 := gfMul a4 a4
  let a16 := gfMul a8 a8
  let a32 := gfMul a16 a16
  let a64 := gfMul a32 a32
  let a128 := gfMul a64 a64
  gfMul a128 (gfMul a64 (gfMul a32 (gfMul a16 (gfMul a8 (gfMul a4 a2)))))

/-- Symbol i of a line: data byte i is the coefficient of x^(67-i), check byte i that of x^(3-i) (R373). -/
def symbolPower (i : Nat) : Nat := 67 - i

/-- Syndrome j of an error pattern: the code is linear, so the data drop out. -/
def syndrome (e : List (Nat × Byte)) (j : Nat) : Byte :=
  e.foldl (fun acc p => acc ^^^ gfMul p.2 (gfPow (symbolPower p.1 * j))) 0

/-- What the decoder does with an error pattern: nothing seen, a correction (power, value), or uncorrectable (R373, R374). -/
inductive Decoded where
  | clean
  | corrects (fix : List (Nat × Byte))
  | uncorrectable
  deriving DecidableEq, Repr

/-- Decoding within two symbols. -/
def rsDecode (e : List (Nat × Byte)) : Decoded :=
  let s0 := syndrome e 0
  let s1 := syndrome e 1
  let s2 := syndrome e 2
  let s3 := syndrome e 3
  if s0 = 0 ∧ s1 = 0 ∧ s2 = 0 ∧ s3 = 0 then .clean
  else
    match findFirst (fun p => gfMul s0 p.2 == s1 && gfMul s1 p.2 == s2 && gfMul s2 p.2 == s3 && s0 != 0) gfPoints with
    | some p => .corrects [(p.1, s0)]
    | none =>
      let d := gfMul s0 s2 ^^^ gfMul s1 s1
      if d = 0 then .uncorrectable
      else
        let a := gfMul (gfMul s0 s3 ^^^ gfMul s1 s2) (gfInv d)
        let b := gfMul (gfMul s1 s3 ^^^ gfMul s2 s2) (gfInv d)
        match gfPoints.filter fun p => (gfMul p.2 p.2 ^^^ gfMul a p.2 ^^^ b) == 0 with
        | [p, q] =>
          let v := gfMul (s1 ^^^ gfMul s0 q.2) (gfInv (p.2 ^^^ q.2))
          if v = 0 ∨ s0 ^^^ v = 0 then .uncorrectable else .corrects [(p.1, v), (q.1, s0 ^^^ v)]
        | _ => .uncorrectable

/-- What stays wrong in a line's data bytes after a correction: the damage XOR the fix, by data byte (a miscorrection, R374). -/
def residue (e fix : List (Nat × Byte)) : List (Nat × Byte) :=
  ((List.range 64).map fun i =>
    (i, (e.filter (·.1 == i)).foldl (fun a p => a ^^^ p.2) 0 ^^^
        (fix.filter fun p => p.1 == symbolPower i).foldl (fun a p => a ^^^ p.2) (0 : Byte))).filter fun p => p.2 != 0

/-! ## Lines -/

/-- The line of a local DAS address. -/
def lineOf (a : Nat) : Nat := a / 64

/-- The stored bytes of a line overlaid with its merge entry (R376). -/
def lineBytes (s : State) (n : Nat) : List Byte :=
  let stored := mread s.dram.mem (n * 64) 64
  match findFirst (fun m => m.line == n) s.dram.merge with
  | none => stored
  | some m => m.bytes.foldl (fun acc p => acc.set p.1 p.2) stored

/-- The object whose extent holds a local address. -/
def ownerOfAddr (s : State) (a : Nat) : Option (Nat × Obj) :=
  findFirst (fun e => hasPayload e.2.area.code && decide (e.2.base ≤ a) && decide (a < e.2.base + e.2.extent)) s.objs

/-- The handle that a DRAM report names, 0 if none. -/
def handleAt (s : State) (a : Nat) : Nat := match ownerOfAddr s a with | some e => e.1 | none => 0

/-- Frame of the parcel a line lies in. -/
def frameOf (s : State) (n : Nat) : Nat := match kget s.parcels (n / 1024) with | some p => p.frame | none => 0

/-- Allocate a frame: a returned one, else the next never used, skipping retired frames (R382). -/
def allocFrame (s : State) : Nat × State :=
  match s.dram.freeFrames with
  | f :: r => (f, s.modDram fun d => { d with freeFrames := r })
  | [] => (s.dram.nextFrame, s.modDram fun d => { d with nextFrame := d.nextFrame + 1 })

/-- A parcel's frame is due for retirement (R382). -/
def dueRetire (s : State) (parcel : Nat) : State :=
  s.modDram fun d => { d with retireQ := if d.retireQ.contains parcel then d.retireQ else d.retireQ ++ [parcel] }

/-- After an apply or a demotion the tier may no longer be overcommitted (R383). -/
def overcommitEnded (s : State) : State :=
  if s.dram.overcommitted ∧ overcommit s = 0 then
    (logHealth s 0x0041 false [0, s.dram.retired.length, 0]).modDram fun d => { d with overcommitted := false }
  else s

/-- Uptimes within the last `µs` of uptime. -/
def within (s : State) (us : Nat) (l : List Nat) : List Nat := l.filter fun t => decide (s.power.uptime < t + us)

def day : Nat := 86400000000

/-- A line was corrected: counted by symbols, fed to c1, and its frame retired at the limit (R378, R382). -/
def corrected (s : State) (n symbols : Nat) : State :=
  let s := bump s 0x9060 (if symbols = 1 then 1 else 2) 1
  let s := s.modRisk fun r => { r with corrected := r.corrected ++ [s.power.uptime] }
  let times := within s day (((kget s.dram.corrections n).getD []) ++ [s.power.uptime])
  let s := s.modDram fun d => { d with damage := kdel d.damage n, corrections := kset d.corrections n times }
  if decide (od s 0x2400 2 ≤ times.length) && decide (od s 0x2400 2 ≠ 0) then dueRetire s (n / 1024) else s

/-- An uncorrectable read of a line (R379): counted, fed to c2, logged with the address, the handle and the controller. -/
def uncorrectableRead (s : State) (n : Nat) : State :=
  let s := bump s 0x9060 3 1
  let s := s.modRisk fun r => { r with uncorrectable := r.uncorrectable ++ [s.power.uptime] }
  logHealth s 0x0042 false [n * 64, handleAt s (n * 64), if Config.dmcOf (frameOf s n * 16 + n % 1024 / 64) then 1 else 0]

/-- Poison a line before any other access to it; a second time after a whole rewrite retires its frame (R379, R382). -/
def poisonLine (s : State) (n : Nat) : State :=
  if s.dram.poison.contains n then s
  else
    let again := s.dram.rewritten.contains n
    let s := s.modDram fun d => { d with poison := d.poison ++ [n], damage := kdel d.damage n }
    if again then dueRetire s (n / 1024) else s

/-- Read one line at its controller: its bytes, or none if it is or is found uncorrectable (R376-R379, R381). -/
def readLine (s : State) (n : Nat) : Option (List Byte) × State :=
  if s.dram.poison.contains n then (none, uncorrectableRead s n)
  else
    match kget s.dram.damage n with
    | none => (some (lineBytes s n), s)
    | some e =>
      match rsDecode e with
      | .clean => (some ((residue e []).foldl (fun acc p => acc.set p.1 ((acc[p.1]?).getD 0 ^^^ p.2)) (lineBytes s n)), s)
      | .uncorrectable => (none, uncorrectableRead (poisonLine s n) n)
      | .corrects fix =>
        -- corrected and written back at once; a miscorrected pattern writes back what the decoder made of it
        let s := s.modDram fun d => { d with
          mem := (residue e fix).foldl (fun m p => mset m (n * 64 + p.1) (mget m (n * 64 + p.1) ^^^ p.2)) d.mem }
        let s := corrected s n fix.length
        (some (lineBytes s n), s)

/-- Retire the frame of a parcel (R382, R383): copied to a free frame line by line, corrected on the way, and switched at once. -/
def retireFrame (s : State) (parcel : Nat) : State :=
  match kget s.parcels parcel with
  | none => s
  | some p =>
    let s := s.modDram fun d => { d with retireQ := d.retireQ.filter (· != parcel) }
    if !p.state.inDram then s
    else if decide (4096 ≤ s.dram.retired.length) then logHealth s 0x0043 false [p.frame, s.dram.retired.length]
    else
      let s := ((s.dram.damage.map (·.1)).filter fun n => n / 1024 == parcel).foldl (fun s n => (readLine s n).2) s
      let (f, s) := allocFrame s
      let was := overcommit s
      let s := s.modParcel parcel fun q => { q with frame := f }
      let s := s.modDram fun d => { d with
        retired := d.retired ++ [p.frame]
        retireQ := d.retireQ.filter (· != parcel)
        corrections := kfilter d.corrections fun n _ => n / 1024 != parcel
        rewritten := d.rewritten.filter fun n => n / 1024 != parcel }
      if was = 0 ∧ overcommit s ≠ 0 then
        (logHealth s 0x0041 false [overcommit s, s.dram.retired.length, 1]).modDram fun d => { d with overcommitted := true }
      else s

/-- Write a whole line: it bypasses the merge buffer, discards the line's entry and ends its poison (R376, R379). -/
def writeLine (s : State) (n : Nat) (b : List Byte) : State :=
  let was := s.dram.poison.contains n
  let s := s.modDram fun d => { d with
    mem := mwrite d.mem (n * 64) (padTo 64 b)
    merge := d.merge.filter fun m => m.line != n
    damage := kdel d.damage n
    poison := d.poison.filter (· != n)
    rewritten := if was then d.rewritten ++ [n] else d.rewritten }
  if was then bump s 0x9060 5 1 else s

/-- Drain one entry of the merge buffer (R377): without a read when its mask is full, else by read-modify-write,
whose read of a poisoned line is uncorrectable like any other (R379). -/
def drainEntry (s : State) (m : MergeEntry) : State :=
  let rest := s.modDram fun d => { d with merge := d.merge.filter fun k => k.line != m.line }
  if decide (64 ≤ m.bytes.length) then writeLine rest m.line (m.bytes.foldl (fun acc p => acc.set p.1 p.2) (List.replicate 64 0))
  else
    let s := bump rest 0x9060 8 1
    let merged := fun (b : List Byte) => m.bytes.foldl (fun acc p => acc.set p.1 p.2) b
    let (b, s) := readLine s m.line
    match b with
    | some b => s.modDram fun d => { d with mem := mwrite d.mem (m.line * 64) (merged b) }
    | none => bump (s.modDram fun d => { d with mem := mwrite d.mem (m.line * 64) (merged (mread d.mem (m.line * 64) 64)) })
                0x9060 6 1

/-- Drain the oldest entries of a merge buffer that holds 224 or more (R377); each controller has its own of 256. -/
def drainFull (s : State) : State :=
  if decide (s.dram.merge.length < 224) then s
  else
    let mine := fun (d : Bool) => s.dram.merge.filter fun m => Config.dmcOf (frameOf s m.line * 16 + m.line % 1024 / 64) == d
    let beyond := fun (l : List MergeEntry) => l.take (l.length - 223)
    (beyond (mine false) ++ beyond (mine true)).foldl drainEntry s

/-- Write part of a line: merged into the line's entry, one allocated if none exists (R376). -/
def mergeWrite (s : State) (n off : Nat) (b : List Byte) : State :=
  let new := (List.range b.length).zip b |>.map fun p => (off + p.1, p.2)
  let old := match findFirst (fun m => m.line == n) s.dram.merge with | some m => m.bytes | none => []
  let bytes := old.filter (fun p => !(new.any fun q => q.1 == p.1)) ++ new
  let s := match findFirst (fun m => m.line == n) s.dram.merge with
    | some _ => s.modDram fun d => { d with merge := d.merge.map fun m => if m.line == n then { m with bytes := bytes } else m }
    | none => drainFull (s.modDram fun d => { d with merge := d.merge ++ [⟨n, bytes, s.power.uptime⟩] })
  if decide (64 ≤ bytes.length) then drainEntry s ⟨n, bytes, s.power.uptime⟩ else s

/-- Store bytes that lie within one line. -/
def storeLine (s : State) (n off : Nat) (b : List Byte) : State :=
  if off = 0 ∧ 64 ≤ b.length then writeLine s n b else mergeWrite s n off b

/-- Drain every entry, before any reset that keeps DRAM completes (R377). -/
def drainAll (s : State) : State := s.dram.merge.foldl drainEntry s

/-- Split an address range into (line, offset in the line, bytes in it); at most `fuel` pieces. -/
def linePieces : Nat → Nat → Nat → List (Nat × Nat × Nat)
  | 0, _, _ => []
  | fuel + 1, a, n =>
    if n = 0 then []
    else
      let k := min n (64 - a % 64)
      (a / 64, a % 64, k) :: linePieces fuel (a + k) (n - k)

/-- The lines of a range. -/
def linesOf (a n : Nat) : List (Nat × Nat × Nat) := linePieces (n / 64 + 2) a n

/-- Give bytes to the pieces of a range in order. -/
def pieceBytes (b : List Byte) : List (Nat × Nat × Nat) → List (Nat × Nat × List Byte)
  | [] => []
  | (n, off, k) :: r => (n, off, b.take k) :: pieceBytes (b.drop k) r

end Sys2Proof.Machine
end

