-- ==== Sys2Proof/Machine/Ftl.lean ====
section
/-! DEFINITION. Machine/Ftl.lean: logical units, placement of pages in courses, berm buffers and queued page reads (13). -/

namespace Sys2Proof.Machine

/-! ## Logical units (R356): the runtime numbers namespace units even and parcel quarters odd -/

def unitLu (nsid unit : Nat) : Nat := (nsid * 1099511627776 + unit) * 2
def parcelLu (parcel q : Nat) : Nat := (parcel * 4 + q) * 2 + 1

/-- Page size: 16,384 data bytes (R334). -/
def pageBytes : Nat := 16384

/-- The flash quadrants run: PD11-PD14 are on and their channels are not parked (01 R22, R23). -/
def flashOn (s : State) : Bool := !s.flash.parked && (List.range 4).all fun q => s.power.pd[11 + q]? == some .on

/-- Whether a new program or erase may be started: the quadrants run, hold-up is ready, pulses are not blocked, and no reset quiesces the
media (01 R23, 17 R450, R452, 20 R513). -/
def canProgram (s : State) : Bool := flashOn s && s.power.holdup && !s.flash.blocked && s.power.resetReq.isNone

/-- Part of a memory, moved to start at another address: bytes `[a, a + n)` of `src` at `[b, b + n)` of `dst`. -/
def mcopy (src : Memory) (a n : Nat) (dst : Memory) (b : Nat) : Memory :=
  ((src.filter fun p => decide (a ≤ p.1) && decide (p.1 < a + n)).foldl
    (fun m p => mset m (p.1 - a + b) p.2) (mclear dst b n))

/-- A byte list as a memory from address 0. -/
def ofBytes (b : List Byte) : Memory := mwrite [] 0 b

/-- Fields of a PPA (R335). -/
def ppaPlane (ppa : Nat) : Nat := ppa / 8388608
def ppaDie (ppa : Nat) : Nat := ppa / 33554432
def ppaChannel (ppa : Nat) : Nat := ppa / 536870912
def ppaBlock (ppa : Nat) : Nat := ppa / 4096

/-- Number of planes: 16 or 8 dies per channel (R334). A plane index counts present planes; its PPA bits skip absent dies. -/
def planeCount (s : State) : Nat := if s.ident.small then 2048 else 4096
def planeBits (s : State) (k : Nat) : Nat :=
  if s.ident.small then k / 32 * 64 + k % 32 else k

/-- A block's record: an unlisted block is free and was never erased. -/
def blockOf (s : State) (b : Nat) : Block := (kget s.flash.blocks b).getD { eraseCount := s.flash.baseErases }

/-- Spares left in a plane: the shipment's less the retirements (R334, R368). -/
def sparesLeft (s : State) (plane : Nat) : Nat :=
  match kget s.flash.spares plane with
  | some n => n
  | none => min 56 (max 40 (Config.sparesShipped plane))

/-- Blocks of a plane in service for QLC data: 1,022 nominal and the spares taken, retired ones left out (R334, R368). -/
def planeBlocks (s : State) (plane : Nat) : List Nat :=
  ((List.range 1022 ++ (List.range (kcount s.flash.retirements plane)).map (· + 1024)).map (plane * 2048 + ·)).filter
    fun b => (blockOf s b).state != BlockState.retired

/-- Free blocks of a plane. -/
def freeBlocks (s : State) (plane : Nat) : List Nat := (planeBlocks s plane).filter fun b => (blockOf s b).state == BlockState.free

/-- The block new courses of a stream go to in a plane: the open one, else the free block erased least often (R345, R366). -/
def streamBlock (s : State) (plane : Nat) (stream : BlockState) : Option Nat :=
  match findFirst (fun e => e.1 / 2048 == plane && e.2.state == stream && decide (e.2.nextPage < 4096)) s.flash.blocks with
  | some e => some e.1
  | none => bestBy (fun a b => decide ((blockOf s a).eraseCount < (blockOf s b).eraseCount)) (freeBlocks s plane)

/-- Pages of each list of an index, in partition order (12 R302). -/
def listPages (s : State) (h : Nat) (a : IndexArea) : List Nat :=
  let l := match kget s.indexes h with | some st => st.recs | none => []
  (List.range a.partitions).map fun p => ceilDiv (l.filter fun r => r.partition == p).length 128

/-- List and number of the `i`-th sketch page of an index, lists in order from `p`. -/
def listOfPage : List Nat → Nat → Nat → Option (Nat × Nat)
  | [], _, _ => none
  | n :: r, p, i => if i < n then some (p, i) else listOfPage r (p + 1) (i - n)

/-- Where the sketch pages of an index begin in its payload, after the partition table and the page tables. -/
def sketchBase (a : IndexArea) (pages : List Nat) : Nat := roundUp (32 * a.partitions + 8 * pages.foldl (· + ·) 0) 16384

/-- The channel that page j of a partition list is placed on, (p + j) mod 64 (12 R304); none for any other unit. -/
def sketchChannel (s : State) (lu : Nat) : Option Nat :=
  if lu % 2 = 0 then none
  else match kget s.parcels (lu / 8) with
    | none => none
    | some k => match kget s.objs k.obj with
      | some o => (match o.area with
        | .index a =>
          let pages := listPages s k.obj a
          let off := lu / 2 * pageBytes - o.base
          if a.sharded ∨ off < sketchBase a pages then none
          else (listOfPage pages 0 ((off - sketchBase a pages) / pageBytes)).map fun e => (e.1 + e.2) % 64
        | _ => none)
      | none => none

/-- The course of a stream that takes the next page, opened if none is (R345), on a channel if one is given. -/
def openCourse (s : State) (stream : BlockState) (channel : Option Nat) : Option Nat × State :=
  let there := fun (c : Nat) => match channel with | some n => ppaChannel (c * 4) == n | none => true
  match findFirst (fun e => e.2.stream == stream && decide (e.2.filled < 4) && there e.1) s.flash.courses with
  | some e => (some e.1, s)
  | none =>
    let plane := planeBits s (match channel with
      | some n => n * (planeCount s / 64) + Config.planeFor s.seq % (planeCount s / 64)
      | none => Config.planeFor s.seq % planeCount s)
    match streamBlock s plane stream with
    | none => (none, s)
    | some b =>
      let k := blockOf s b
      let first := if k.state = stream then k.nextPage else 0
      let k : Block := { k with
        state := if 4096 ≤ first + 4 then .full else stream, nextPage := first + 4, closedAt := s.seq }
      let c := (b * 4096 + first) / 4
      (some c, s.modFlash fun f => { f with blocks := kset f.blocks b k, courses := kset f.courses c { stream := stream } })

/-- Media key generation that new pages are stored under (R357, 19 R488). -/
def keyGeneration (s : State) : Nat := s.sec.keyGen

/-! ## Berm buffers (R339-R342) -/

/-- User classes of R341; 0 is journal and levee pages. -/
def userCeiling (s : State) (user : Nat) : Nat := if user = 0 then 2560 else od s 0x2100 user

/-- Draw a buffer for a channel: reserved ones first, the last two only for classes 1 and 2; then its quadrant's pool and the
other pools in rising order, under the user class's ceiling (R339-R341). -/
def bermDraw (s : State) (channel user cls : Nat) : Option State :=
  let used := kcount s.flash.reservedUsed channel
  if decide (used < 6) || (decide (used < 8) && decide (cls ≤ 2)) then
    some (s.modFlash fun f => { f with reservedUsed := kset f.reservedUsed channel (used + 1) })
  else if decide (userCeiling s user ≤ (s.flash.shared.filter fun b => b.user == user).length) then none
  else
    let q0 := channel / 16
    match findFirst (fun q => decide ((s.flash.shared.filter fun b => b.quadrant == q).length < 640))
        ((List.range 4).map fun i => (q0 + i) % 4) with
    | none => none
    | some q => some (s.modFlash fun f => { f with shared := f.shared ++ [⟨channel, user, q⟩] })

/-- Remove the first element that a test admits. -/
def dropFirst {α : Type} (f : α → Bool) : List α → List α
  | [] => []
  | a :: r => if f a then r else a :: dropFirst f r

/-- Return a buffer of a channel and user to the pool it came from (R339, R342). -/
def bermReturn (s : State) (channel user : Nat) : State :=
  if s.flash.shared.any (fun b => b.channel == channel && b.user == user) then
    s.modFlash fun f => { f with shared := dropFirst (fun b => b.channel == channel && b.user == user) f.shared }
  else
    let k := kcount s.flash.reservedUsed channel
    let m := if k ≤ 1 then kdel s.flash.reservedUsed channel else kset s.flash.reservedUsed channel (k - 1)
    s.modFlash fun f => { f with reservedUsed := m }

/-- The buffer of a page that was prefetched or read ahead is released at the first demand for it from any other user of the pool (R342, 05
R153): the page is dropped. -/
def takeRunAhead (s : State) : Option State :=
  let held := fun (p : Prefetch) => p.remote.isNone && p.arrived
  match findFirst (fun e => e.2.prefetches.any held) s.cores with
  | some (k, q) =>
    (match findFirst held q.prefetches with
    | some p => some { bermReturn s (ppaChannel p.stamp) 6 with
        cores := kset s.cores k { q with prefetches := dropFirst held q.prefetches } }
    | none => none)
  | none => match s.flash.ahead with
    | x :: r => some ((bermReturn s (ppaChannel x) 6).modFlash fun f => { f with ahead := r })
    | [] => none

/-- Ask for a buffer; a channel that can draw none, run-ahead having given way, is berm-exhausted and the request waits (R339, R342). A
program's request names its course. -/
def bermAsk (s : State) (channel user cls : Nat) (course : Option Nat := none) : State :=
  let full := decide (user ≠ 0) && decide (userCeiling s user ≤ (s.flash.shared.filter fun b => b.user == user).length)
  let drawn : Option State := match bermDraw s channel user cls with
    | some s => some s
    | none => if user = 6 ∨ full then none
        else (takeRunAhead s).bind fun s => bermDraw s channel user cls
  match drawn with
  | some s => s
  | none => bump (s.modFlash fun f => { f with bermWait := f.bermWait ++ [⟨channel, user, cls, course⟩] }) 0x9050 0xD 1

/-- A request no longer needs its buffer: it leaves the waiting list, or its buffer returns (R339, R342). -/
def bermDone (s : State) (channel user cls : Nat) (course : Option Nat := none) : State :=
  let w : BermWait := ⟨channel, user, cls, course⟩
  if s.flash.bermWait.contains w then s.modFlash fun f => { f with bermWait := f.bermWait.erase w }
  else bermReturn s channel user

/-- The filled pages of a course are transferred to the die: their buffers return; padding took none (R342). -/
def courseSent (s : State) (c : Nat) : State :=
  match kget s.flash.courses c with
  | none => s
  | some k =>
    let s := (k.users.drop k.sent).foldl (fun s u => match u with
      | some user => bermDone s (ppaChannel (c * 4)) user 5 (some c)
      | none => s) s
    s.modFlash fun f => { f with courses := kmod f.courses c fun k => { k with sent := k.filled } }

/-! ## Page reads and the dies (R337, R338, R350) -/

/-- A die starts an operation if it performs none; it performs one at a time (R337), and in PS3 a quadrant may be limited to a number
of dies in program or erase (20 R505). -/
def dieStart (s : State) (die : Nat) (erase : Bool) (target : Nat) : State :=
  let busy := (s.flash.dies.filter fun e => e.1 / 256 == die / 256).length
  if !flashOn s || (kget s.flash.dies die).isSome || (match s.power.dieLimit with | some n => decide (n ≤ busy) | none => false) then s
  else
    let s := s.modFlash fun f => { f with dies := kset f.dies die { erase := erase, target := target, startedAt := s.power.uptime } }
    if erase then s else courseSent s target

/-- A class 2 or 3 read that finds its die busy requests a suspend: issued when the operation has run 500 µs and its limit
allows, held when it has not yet run so long (R350). -/
def askSuspend (s : State) (die : Nat) : State :=
  match kget s.flash.dies die with
  | none => s
  | some d =>
    if d.suspended || s.power.resetReq.isSome || decide ((if d.erase then od s 0x2250 2 else od s 0x2250 3) ≤ d.suspends) then s
    else if d.startedAt + od s 0x2250 1 ≤ s.power.uptime then
      bump (s.modFlash fun f => { f with
        dies := kset f.dies die { d with suspended := true, suspends := d.suspends + 1, reads := 0, held := false } }) 0x9050 0xB 1
    else if d.held then s
    else bump (s.modFlash fun f => { f with dies := kset f.dies die { d with held := true } }) 0x9050 0xC 1

/-- Buffer user of a page read (R341): run-ahead and read-ahead, GC copies, tier migration, scanning, demand reads. -/
def readUser (cls : Nat) (use : ReadUse) : Nat :=
  match use with
  | .ahead | .prefetch => 6
  | .copy gc => if gc then 4 else 5
  | .tier => 5
  | _ => if cls = 3 then 3 else 2

/-- Queue a page read in an issue class; demand and scanner reads may suspend the die (R338, R350). -/
def askRead (s : State) (ppa cls polder : Nat) (use : ReadUse) : State :=
  let s := s.modFlash fun f => { f with reads := f.reads ++ [⟨ppa, cls, polder, use⟩] }
  let s := bermAsk s (ppaChannel ppa) (readUser cls use) cls
  if cls = 2 ∨ cls = 3 then askSuspend s (ppaDie ppa) else s

/-- Count a page read, its block's reads, and the refresh its count calls for (R367). -/
def countRead (s : State) (ppa : Nat) : State :=
  let s := bump s 0x9050 1 1
  let b := ppaBlock ppa
  let k := blockOf s b
  s.modFlash fun f => { f with
    blocks := kset f.blocks b { k with readsSince := k.readsSince + 1 }
    refreshQ := if k.readsSince + 1 > 100000 ∧ ¬ f.refreshQ.contains b then f.refreshQ ++ [b] else f.refreshQ }

/-- The codewords of a page that a read retried or soft-decoded feed c1 (10 R269): at least one of its four, how many is a free value. -/
def retriedPage (s : State) : State :=
  let (k, s) := s.draw
  s.modRisk fun r => { r with corrected := r.corrected ++ List.replicate (1 + Config.codewords k % 4) s.power.uptime }

/-! ## Placing pages (R345, R348, R356, R357) -/

/-- Pages hot enough for the temperature history (R371). -/
def hotPage (s : State) : State :=
  if s.power.sensors.nand > 70 then s.modPower fun p => { p with hotPages := min 65535 (p.hotPages + 1) } else s

/-- A die runs, unsuspended, the operation named. -/
def dieRuns (s : State) (die : Nat) (erase : Bool) (target : Nat) : Bool :=
  match kget s.flash.dies die with
  | some d => d.erase == erase && d.target == target && !d.suspended
  | none => false

/-- A course is programmed once its pages are in buffers: in levee mode all four in one operation, in open-course mode each in a pass as
soon as it arrives (R352). -/
def courseGo (s : State) (c : Nat) : State :=
  match kget s.flash.courses c with
  | none => s
  | some k =>
    let ready := decide (k.sent < k.filled) && (decide (k.filled = 4) || od s 0x2230 0 == 1) &&
      !s.flash.bermWait.any fun w => w.course == some c
    if !canProgram s || !ready then s
    else if dieRuns s (ppaDie (c * 4)) false c then courseSent s c
    else dieStart s (ppaDie (c * 4)) false c

/-- Put a page into the next position of a stream's course, its buffer drawn in a user class of R341. Answers its PPA, or none when no
block is free. -/
def placePage (s : State) (stream : BlockState) (lu : Nat) (kind : PageKind) (tx : Nat) (copy : Bool) (user : Nat) (data : Memory) :
    Option Nat × State :=
  let (c, s) := openCourse s stream (sketchChannel s lu)
  match c with
  | none => (none, s)
  | some c =>
    let k := (kget s.flash.courses c).getD { stream := stream }
    let ppa := c * 4 + k.filled
    let (n, s) := nextSeq s
    let page : Page := { lu := lu, kind := kind, seq := n, tx := tx, copy := copy, keyGen := keyGeneration s, data := data }
    let s := s.modFlash fun f => { f with
      pages := kset f.pages ppa page
      courses := kset f.courses c { k with filled := k.filled + 1, users := k.users ++ [if kind = .padding then none else some user] } }
    let b := ppaBlock ppa
    let s := if decide (70 < s.power.sensors.nand) || decide (s.power.sensors.nand < 0)
      then s.modFlash fun f => { f with patrolQ := if f.patrolQ.contains b then f.patrolQ else f.patrolQ ++ [b] } else s
    let s := match kind with
      | .padding => bump s 0x9050 4 1
      | .checkpoint | .journal | .levee | .metadata => s
      | .data => if copy then bump s 0x9050 3 1 else bump s 0x9050 2 1
    let s := hotPage (if kind = .padding then s else bermAsk s (ppaChannel ppa) user 5 (some c))
    (some ppa, courseGo s c)

/-- Fill a course's remaining positions with padding pages (R349); at most `fuel` of them. -/
def padCourse : Nat → State → Nat → State
  | 0, s, _ => s
  | fuel + 1, s, c =>
    match kget s.flash.courses c with
    | none => s
    | some k =>
      if 4 ≤ k.filled then s
      else
        let ppa := c * 4 + k.filled
        let (n, s) := nextSeq s
        let page : Page := { lu := 0xFFFFFFFFFF, kind := .padding, seq := n, keyGen := keyGeneration s }
        let s := bump (s.modFlash fun f => { f with
          pages := kset f.pages ppa page
          courses := kset f.courses c { k with filled := k.filled + 1, users := k.users ++ [none] } }) 0x9050 4 1
        padCourse fuel (courseGo s c) c

/-- Whether a page lies in a closed course (R348). -/
def pageClosed (s : State) (ppa : Nat) : Bool :=
  match kget s.flash.pages ppa with
  | some p => p.closed
  | none => true

/-- A durable event waits on pages: their courses start the close timer, and are padded at once when it is 0 (R349). -/
def awaitPages (s : State) (ppas : List Nat) : State :=
  ppas.foldl (fun s ppa =>
    let c := ppa / 4
    match kget s.flash.courses c with
    | none => s
    | some k =>
      if 4 ≤ k.filled then s
      else
        let since := match k.waitedSince with | none => some s.power.uptime | some t => some t
        let s := s.modFlash fun f => { f with courses := kset f.courses c { k with waitedSince := since } }
        if od s 0x2231 0 = 0 then padCourse 4 s c else s) s

/-- Close every open course by padding: all that are not full (R353, R369, 01 R25). -/
def padAll (s : State) : State :=
  (s.flash.courses.filter fun e => decide (e.2.filled < 4)).foldl (fun s e => padCourse 4 s e.1) s

/-! ## Reading and mapping units -/

/-- Current page of a unit, none while unmapped. -/
def pageOf (s : State) (lu : Nat) : Option Nat := kget s.flash.map lu

/-- The page of a unit as a transaction sees it: its own staged page first (04 R107). `some none` is a staged trim. -/
def stagedPage (units : List (Nat × Option Nat)) (lu : Nat) : Option (Option Nat) := aget units lu

/-- A page's data, none when it cannot be decoded (R343). -/
def pageData (s : State) (ppa : Nat) : Option Memory :=
  match kget s.flash.pages ppa with
  | none => some []
  | some p => if p.bad then none else some p.data

/-- Map a unit to a page; its delta is journaled when the page's course closes (R359). -/
def mapUnit (s : State) (lu ppa : Nat) : State := s.modFlash fun f => { f with map := kset f.map lu ppa }

/-- Logical unit of the parcel quarter that holds a line. -/
def lineLu (n : Nat) : Nat := parcelLu (n / 1024) (n % 1024 / 256)

/-- Unmap units, by one journal record each (R358 kind 0x02), which ends the lines of commit records in them too. -/
def unmapUnits (s : State) (lus : List Nat) : State :=
  lus.foldl (fun s lu =>
    if (kget s.flash.map lu).isNone && !(s.durLines.any fun e => lineLu e.1 == lu) then s
    else (jadd (s.modFlash fun f => { f with map := kdel f.map lu }) (.unmap lu)).2) s

/-- Units of a namespace that are mapped (02 R35, Units in use). -/
def unitsInUse (s : State) (nsid : Nat) : Nat :=
  (s.flash.map.filter fun e => e.1 % 2 == 0 && e.1 / 2 / 1099511627776 == nsid).length

/-- A read failed at step 4 of R343: logged, counted, and fed to c2. Where the page holds committed data, durability yields to data
integrity (01 R29): the parties are the object and the flash quadrant, an internal unit. -/
def unrecovered (s : State) (ppa : Nat) : State :=
  let lu := match kget s.flash.pages ppa with | some p => p.lu | none => 0xFFFFFFFFFF
  let h : Nat := if lu % 2 = 1 then (match kget s.parcels (lu / 8) with | some p => p.obj | none => 0)
    else match findFirst (fun e => match e.2.area with | .nspace n _ _ _ => n == lu / 2 / 1099511627776 | _ => false) s.objs with
      | some e => e.1
      | none => 0
  let s := bump (logHealth s 0x0010 false [ppa, lu, h]) 0x9050 8 1
  let s := if kget s.flash.map lu = some ppa then yielded s 2 3 (.object h) (.unit (11 + ppaChannel ppa / 16)) else s
  s.modRisk fun r => { r with uncorrectable := r.uncorrectable ++ [s.power.uptime] }

/-- The module is read-only (R369). -/
def readOnlyState (s : State) : Bool := s.flash.readOnly

end Sys2Proof.Machine
end

