-- ==== Sys2Proof/Machine/Net.lean ====
section
/-! DEFINITION. Machine/Net.lean: topologies, routes, sluices and the sending of packets (15). -/

namespace Sys2Proof.Machine

/-- Port states that carry every class (R389). -/
def PortState.carries : PortState → Bool
  | .up | .upNarrow | .upLow => true
  | _ => false

/-- Coordinate of a module id in the applied topology (R396). -/
def coordX (s : State) (m : Nat) : Nat := if s.fabric.kind = 3 ∨ s.fabric.kind = 4 then m % max 1 s.fabric.sizeX else m
def coordY (s : State) (m : Nat) : Nat := if s.fabric.kind = 3 ∨ s.fabric.kind = 4 then m / max 1 s.fabric.sizeX else 0

/-- The direction in one dimension: none when it matches, else whether it is the + direction (R398). A mesh has no wrap. -/
def dirOf (wraps : Bool) (size a b : Nat) : Option Bool :=
  if a = b then none
  else if wraps then some (decide (2 * ((b + size - a) % size) ≤ size))
  else some (decide (a < b))

/-- One hop from a module toward a destination: the egress port, and whether it crosses a wrap link (R396, R398). -/
def hopOf (s : State) (order : Bool) (m dest : Nat) : Option (Nat × Bool) :=
  let wraps := s.fabric.kind != 4
  let x := coordX s m
  let y := coordY s m
  let sx := max 1 s.fabric.sizeX
  let sy := max 1 s.fabric.sizeY
  let hx := (dirOf wraps sx x (coordX s dest)).map fun plus =>
    (if plus then 0 else 1, wraps && (if plus then x + 1 == sx else x == 0))
  let hy := (dirOf wraps sy y (coordY s dest)).map fun plus =>
    (if plus then 2 else 3, wraps && (if plus then y + 1 == sy else y == 0))
  match s.fabric.kind with
  | 1 => hx
  | 2 => hx.map fun h => (if (dest % 2 == 1) != order then h.1 + 2 else h.1, h.2)
  | 3 | 4 => if order then (match hy with | some h => some h | none => hx) else (match hx with | some h => some h | none => hy)
  | _ => none

/-- The neighbour a port is expected to meet (R396, R397), none where the topology leaves the port DOWN. -/
def neighbour (s : State) (m port : Nat) : Option Nat :=
  let x := coordX s m
  let y := coordY s m
  let sx := max 1 s.fabric.sizeX
  let sy := max 1 s.fabric.sizeY
  let step := fun (size c : Nat) (plus wraps : Bool) =>
    if plus then (if c + 1 < size then some (c + 1) else if wraps then some 0 else none)
    else (if 0 < c then some (c - 1) else if wraps then some (size - 1) else none)
  match s.fabric.kind, port with
  | 1, 0 | 2, 0 | 2, 2 => step sx x true true
  | 1, 1 | 2, 1 | 2, 3 => step sx x false true
  | 3, 0 => (step sx x true true).map (y * sx + ·)
  | 3, 1 => (step sx x false true).map (y * sx + ·)
  | 3, 2 => (step sy y true true).map (· * sx + x)
  | 3, 3 => (step sy y false true).map (· * sx + x)
  | 4, 0 => (step sx x true false).map (y * sx + ·)
  | 4, 1 => (step sx x false false).map (y * sx + ·)
  | 4, 2 => (step sy y true false).map (· * sx + x)
  | 4, 3 => (step sy y false false).map (· * sx + x)
  | _, _ => none

/-- The port of the neighbour that a port is expected to meet (R397): 0 meets 1, 2 meets 3. -/
def meets (port : Nat) : Nat := if port % 2 = 0 then port + 1 else port - 1

/-- Whether a link is known to be down: own ports by their state, others by the floods received (R399). -/
def linkDown (s : State) (m port : Nat) : Bool :=
  if m = moduleId s then !(s.port port).state.carries
  else match kget s.fabric.links (m * 4 + port) with
    | some (up, _) => !up
    | none => false

/-- Whether the route of an order from a module to a destination has no link known to be down; at most `fuel` hops. -/
def routeWhole (s : State) (order : Bool) (dest : Nat) : Nat → Nat → Bool
  | 0, _ => false
  | fuel + 1, m =>
    if m = dest then true
    else match hopOf s order m dest with
      | none => false
      | some (port, _) =>
        !linkDown s m port && (match neighbour s m port with | some n => routeWhole s order dest fuel n | none => false)

/-- The port that a group's entry pins a member's traffic to at its source (R410). -/
def pinOf (s : State) (dest : Nat) : Option Nat :=
  if dest = moduleId s then none
  else findFirst (fun n => decide (n < 4)) (s.fabric.groups.flatMap fun e => e.2.members.filterMap fun m =>
    if m.1 = dest then m.2.2 else none)

/-- The order bit of the route a source picks, none when it has no route (R399, R400, R410). -/
def pickRoute (s : State) (dest : Nat) : Option Bool :=
  match pinOf s dest with
  | some n =>
    if linkDown s (moduleId s) n then none
    else if s.fabric.kind = 5 then some false
    else (match neighbour s (moduleId s) n with
      | none => none
      | some m =>
        if routeWhole s false dest 130 m then some false
        else if s.fabric.kind ≠ 1 ∧ routeWhole s true dest 130 m then some true else none)
  | none =>
  if s.fabric.kind = 5 then
    (match kget s.fabric.routes dest with | some (p, _) => if p < 4 then some false else none | none => none)
  else if routeWhole s false dest 130 (moduleId s) then some false
  else if s.fabric.kind ≠ 1 ∧ routeWhole s true dest 130 (moduleId s) then some true
  else none

/-- Egress port and dateline bit of a packet that leaves this module, having come in through a port or started here (R398, R400). The bit
is cleared on a change of dimension. -/
def egressOf (s : State) (p : Packet) (ingress : Option Nat) : Option (Nat × Bool) :=
  match (if p.src = moduleId s then pinOf s p.dest else none) with
  | some n =>
    let flat := s.fabric.kind == 1 || s.fabric.kind == 2
    let c := if flat || n < 2 then coordX s (moduleId s) else coordY s (moduleId s)
    let size := if flat || n < 2 then s.fabric.sizeX else s.fabric.sizeY
    some (n, s.fabric.kind != 4 && s.fabric.kind != 5 && (if n % 2 = 0 then c + 1 == size else c == 0))
  | none =>
  if s.fabric.kind = 5 then
    (match kget s.fabric.routes p.dest with
     | some (port, d) => if port < 4 then some (port, p.dateline || d == 1) else none
     | none => none)
  else match hopOf s p.order (moduleId s) p.dest with
    | none => none
    | some (port, wrap) =>
      let turned := (s.fabric.kind == 3 || s.fabric.kind == 4) && ingress.any fun n => n / 2 != port / 2
      some (port, wrap || (p.dateline && !turned))

/-- Flits a packet needs: its 32-byte header and payload in 244-byte flit payloads (R391). -/
def flitsOf (p : Packet) : Nat := ceilDiv (32 + p.payload.length) 244

/-- Virtual channel of a packet: 4 × traffic class + 2 × order + dateline (R394). -/
def vcOf (p : Packet) : Nat := 4 * p.tclass + (if p.order then 2 else 0) + (if p.dateline then 1 else 0)

/-- Dedicated credits of a virtual channel (R394, OD 0x4100:01-04). -/
def dedicated (s : State) (vc : Nat) : Nat := od s 0x4100 (vc / 4 + 1)

/-- Whether a port's peer has credits for `n` more flits on a virtual channel: its dedicated ones and the shared pool (R394). -/
def creditsAllow (s : State) (port : Port) (vc n : Nat) : Bool :=
  let total := ((List.range 16).map fun v => dedicated s v).foldl (· + ·) 0
  let pooled := fun (v extra : Nat) => (kcount port.used v + extra) - dedicated s v
  let pool := ((List.range 16).map fun v => pooled v (if v = vc then n else 0)).foldl (· + ·) 0
  decide (pool ≤ 4096 - total)

/-- Put one packet on the wire of a port: its flits enter the replay buffer (R391, R392). -/
def transmit (s : State) (n : Nat) (p : Packet) : State :=
  (bump s (0x9070 + n) 6 (flitsOf p)).modPort n fun t =>
    let k := flitsOf p
    let flits := (List.range k).map fun i => ((t.txSeq + i) % 65536, s.power.uptime, if i = 0 then [p] else [])
    { t with txSeq := (t.txSeq + k) % 65536, replay := t.replay ++ flits, used := kset t.used (vcOf p) (kcount t.used (vcOf p) + k) }

/-- Rank of a class at an egress port: MGT, then RSP, then REQ and COLL (R395). -/
def egressRank (p : Packet) : Nat := if p.tclass = 3 then 0 else if p.tclass = 1 then 1 else 2

/-- Serve the egress queues of a port while packets have credits and the replay buffer has room; at most `fuel` packets. -/
def serveEgress : Nat → State → Nat → State
  | 0, s, _ => s
  | fuel + 1, s, n =>
    let t := s.port n
    let can := fun (e : Nat × Packet) =>
      creditsAllow s t e.1 (flitsOf e.2) && decide (t.replay.length + flitsOf e.2 ≤ 8192) &&
      (t.state.carries || (t.state == .miswired && e.2.tclass == 3))
    match bestBy (fun a b => decide (egressRank a.2 < egressRank b.2)) (t.egress.filter can) with
    | none => s
    | some e =>
      serveEgress fuel (transmit (s.modPort n fun t => { t with egress := t.egress.erase e }) n e.2) n

/-- Queue a packet at its egress port and serve the port (R394, R395). -/
def enqueue (s : State) (n : Nat) (p : Packet) : State :=
  let s := s.modPort n fun t => { t with egress := t.egress ++ [(vcOf p, p)] }
  serveEgress 64 s n

/-- Whether a route that was picked can be left by: in kind 5 the egress port of the table must carry traffic (R400). -/
def egressUp (s : State) (dest : Nat) : Bool :=
  if s.fabric.kind = 5 ∧ pinOf s dest = none then
    (match kget s.fabric.routes dest with | some (n, _) => (s.port n).state.carries | none => false)
  else true

/-- How a request fails that cannot leave this module: no route, or in kind 5 a port that is not up (R399, R400, R406). -/
def sendStatus (s : State) (dest : Nat) : Nat := if (pickRoute s dest).isSome && !egressUp s dest then 0x6004 else 0x6001

/-- Send a packet of this module: numbered per destination and class (R405), its route picked (R399). False: no route, or in kind 5 no
port that carries it (R400). -/
def sendPacket (s : State) (p : Packet) : Bool × State :=
  match pickRoute s p.dest with
  | none => (false, s)
  | some order =>
    if !egressUp s p.dest then (false, s) else
    let busy := p.tclass == 0 && (kget s.fabric.lastRoute p.dest).any (fun o => o != order) &&
      s.fabric.reqs.any (fun e => e.2.dest == p.dest)
    if busy then (true, s.modFab fun f => { f with waiting := f.waiting ++ [p] })
    else
      let key := p.dest * 4 + p.tclass
      let n := kcount s.fabric.sentSeq key
      let p : Packet := { p with
        order := order, src := moduleId s, streamSeq := n % 4294967296, length := if p.type = 1 then p.length else p.payload.length }
      let s := s.modFab fun f => { f with sentSeq := kset f.sentSeq key (n + 1), lastRoute := kset f.lastRoute p.dest order }
      match egressOf s p none with
      | none => (false, s)
      | some (port, d) =>
        let p : Packet := { p with dateline := d, hops := p.hops + 1 }
        (true, enqueue (s.modFab fun f => { f with out := f.out ++ [p] }) port p)

/-- Packets that waited for the requests on an old route to end are sent (R405); at most as many as wait now. -/
def sendWaiting (s : State) (dest : Nat) : State :=
  let w := s.fabric.waiting.filter fun p => p.dest == dest
  let s := s.modFab fun f => { f with waiting := f.waiting.filter fun p => p.dest != dest }
  w.foldl (fun s p => (sendPacket s p).2) s

/-- An empty packet to fill in. -/
def blankPacket : Packet :=
  { type := 0, order := false, dateline := false, hops := 0, dest := 0, tclass := 0, src := 0, length := 0, tag := 0,
    streamSeq := 0, addr := 0, tx := 0, polder := 0xFF, group := 0, status := 0, payload := [] }

/-- Messages between runtimes (R402), numbered in this model's order: the codes 0x80-0xFF are free values. -/
inductive Msg where
  | prepare | vote | commit | abort | ack | query | outcome | action | rowAddition | shardQuery | shardReply | jobForward
  | jobAnswer | claim | claimAnswer | release | hold | drain | install | resume | changeReply | collective | carried
  | carriedAnswer | linkState | odRequest | odAnswer | barrier | directory | directoryAsk
  deriving DecidableEq, Repr

def Msg.num : Msg → Nat
  | .prepare => 0 | .vote => 1 | .commit => 2 | .abort => 3 | .ack => 4 | .query => 5 | .outcome => 6 | .action => 7
  | .rowAddition => 8 | .shardQuery => 9 | .shardReply => 10 | .jobForward => 11 | .jobAnswer => 12 | .claim => 13
  | .claimAnswer => 14 | .release => 15 | .hold => 16 | .drain => 17 | .install => 18 | .resume => 19 | .changeReply => 20
  | .collective => 21 | .carried => 22 | .carriedAnswer => 23 | .linkState => 24 | .odRequest => 25 | .odAnswer => 26
  | .barrier => 27 | .directory => 28 | .directoryAsk => 29

/-- Send a runtime message. Link states and what concerns a group go in the MGT class (R399, R409, R411, R419), answers in RSP, parts of
collectives in COLL (R394; log entry 36). Its fields travel as 8-byte numbers in the order the caller gives them (log entry 9). -/
def sendMsg (s : State) (dest : Nat) (m : Msg) (tx status : Nat) (fields : List Nat) (body : List Byte) : State :=
  let cls := match m with
    | .linkState | .odRequest | .odAnswer | .claim | .claimAnswer | .release | .hold | .drain | .install | .resume | .changeReply
    | .barrier | .directory | .directoryAsk => 3
    | .collective => 2
    | .vote | .ack | .outcome | .jobAnswer | .carriedAnswer | .shardReply => 1
    | _ => 0
  (sendPacket s { blankPacket with
    type := Config.messageCode m.num, dest := dest, tclass := cls, tx := BitVec.ofNat 32 tx, status := BitVec.ofNat 16 status
    payload := fields.flatMap (toLE 8) ++ body }).2

/-- Whether this module has a route to a module. -/
def reaches (s : State) (m : Nat) : Bool := m == moduleId s || (pickRoute s m).isSome

/-- Open a remote request (R403, R405): a tag, and the packet. None: it cannot leave (`sendStatus`). -/
def sendRequest (s : State) (owner : ReqOwner) (dest type addr length haddr tx polder group : Nat) (payload : List Byte)
    (off : Nat := 0) : Option Nat × State :=
  let tag := s.fabric.nextTag
  let (ok, t) := sendPacket s { blankPacket with
    type := type, dest := dest, tclass := (match owner with | .claim _ => 3 | _ => 0), tag := tag, addr := BitVec.ofNat 64 addr, tx := BitVec.ofNat 32 tx, polder := polder
    group := group, length := length, payload := payload }
  if ok then
    (some tag, t.modFab fun f => { f with
      nextTag := tag + 1
      reqs := kset f.reqs tag { owner := owner, dest := dest, type := type, sentAt := s.power.uptime, haddr := haddr, length := length, tx := if tx % 4194304 = 0 then 0 else tx, off := off } })
  else (none, s)

end Sys2Proof.Machine
end

