-- ==== Sys2Proof/Machine/Store.lean ====
section
/-! DEFINITION. Machine/Store.lean: reads and stores of payloads and units: conflicts and undo (04), parcels and quotas (02),
and the rollback of a transaction. -/

namespace Sys2Proof.Machine

/-! ## Transactions by id (04 R101): those coordinated here by local number, branches by id -/

def coordOf (id : Nat) : Nat := id / 4194304
def localOf (id : Nat) : Nat := id % 4194304
def txIdOf (s : State) (loc : Nat) : Nat := moduleId s * 4194304 + loc

def getTx (s : State) (id : Nat) : Option Tx :=
  if coordOf id = moduleId s then kget s.txs (localOf id) else kget s.branches id

def setTx (s : State) (id : Nat) (t : Tx) : State :=
  if coordOf id = moduleId s then { s with txs := kset s.txs (localOf id) t } else { s with branches := kset s.branches id t }

def delTx (s : State) (id : Nat) : State :=
  if coordOf id = moduleId s then { s with txs := kdel s.txs (localOf id) } else { s with branches := kdel s.branches id }

/-- Every transaction and branch held here, by id. -/
def allTxs (s : State) : List (Nat × Tx) := (s.txs.map fun e => (txIdOf s e.1, e.2)) ++ s.branches

/-- The transaction other than `me` that holds an item in its write set. -/
def holder (s : State) (i : Item) (me : Nat) : Option (Nat × Tx) :=
  findFirst (fun e => e.1 != me && e.2.writes.contains i) (allTxs s)

/-- The polder a transaction belongs to (04 R102, R127). -/
def Tx.polder (t : Tx) : Nat :=
  match t.owner with
  | .page _ p => p
  | .context _ _ p => p
  | .coordinator _ p => p

/-- Counter of an abort by its status (04 R126). -/
def abortCounter (status : Nat) : Nat :=
  match status with
  | 0x3001 => 2 | 0x3002 => 3 | 0x3003 => 4 | 0x3004 => 5 | 0x3005 => 6 | 0x3006 => 7 | _ => 0

/-- Put committed values back into the lines of an undo list (04 R104, R114). -/
def restoreLines (s : State) (undo : List (Nat × List Byte)) : State :=
  undo.foldl (fun s u => s.modDram fun d => { d with
    mem := mwrite d.mem (u.1 * 64) (padTo 64 u.2), merge := d.merge.filter fun m => m.line != u.1 }) s

/-- Undo what a transaction staged on this module: lines restored, staged pages left to GC, row additions dropped. -/
def undoTx (s : State) (id : Nat) (t : Tx) : State :=
  let s := restoreLines s t.undo
  { s with tables := kmap s.tables fun _ b => { b with pend := b.pend.filter fun a => a.tx != id } }

/-- Whether a transaction carries changes to undo or apply. -/
def clearTx (t : Tx) : Tx :=
  { t with reads := [], writes := [], blocks := [], actions := 0, bytes := 0, units := [], undo := [], trims := [], validTo := [],
           objs := [], idx := [], counts := [], logs := [], coarse := false }

/-- An OPEN transaction aborts (04 R114): undone, its status recorded, its participants told. At a participant the branch is
rolled back and answers NO when asked to prepare. -/
def abortTx (s : State) (id status : Nat) : State :=
  match getTx s id with
  | none => s
  | some t =>
    -- a COMMITTING one still waits for its earlier commands, and one of them may abort it (R92)
    if !(t.state == .open || (t.state == .committing && t.recordSeq.isNone && t.preparedAt.isNone)) then s
    else
      let s := bumpB (undoTx s id t) t.polder 0x9600 (abortCounter status) (if abortCounter status = 0 then 0 else 1)
      let s := setTx s id { clearTx t with state := .aborted, abort := status }
      t.participants.foldl (fun s p => sendMsg s p.module .abort id status [] []) s

/-- End a transaction without a commit: undone when OPEN, its slot freed, its participants told (04 R114). -/
def freeTx (s : State) (id : Nat) : State :=
  match getTx s id with
  | none => s
  | some t =>
    let s := if t.state = .open ∨ t.state = .committing ∨ t.state = .prepared then undoTx s id t else s
    let s := if t.state = .aborted then s
      else t.participants.foldl (fun s p => sendMsg s p.module .abort id 0 [] []) s
    delTx s id

/-- What a non-transactional store of an item meets (04 R112). -/
inductive Meet where
  | free
  | waits
  deriving DecidableEq, Repr

/-- A non-transactional store aborts an OPEN holder at once and waits for a COMMITTING or PREPARED one (04 R112). -/
def storeMeets (s : State) (i : Item) : Meet × State :=
  match holder s i 0 with
  | none => (.free, s)
  | some (id, t) =>
    if t.state = .open then (.free, bumpB (abortTx s id 0x3001) t.polder 0x9600 0xA 1)
    else if t.state = .committing ∨ t.state = .prepared then (.waits, s)
    else (.free, s)

/-! ## Reading payload -/

/-- The bytes other requesters see in a line that a transaction other than `me` has stored to: its undo copy (04 R107). -/
def undoCopy (s : State) (n me : Nat) : Option (List Byte) :=
  findFirst (fun _ => true) (((allTxs s).filter fun e => e.1 != me).filterMap fun e => aget e.2.undo n)

/-- The flash copy of a parcel: its four units, or none if a page cannot be decoded (R41, R55). -/
def parcelFlash (s : State) (parcel : Nat) : Option Memory :=
  (List.range 4).foldl (fun acc q =>
    match acc, pageOf s (parcelLu parcel q) with
    | none, _ => none
    | some m, none => some m
    | some m, some ppa =>
      match pageData s ppa with
      | none => none
      | some d => some (mcopy d 0 pageBytes m (q * pageBytes))) (some [])

/-- The state of a parcel; an unlisted one is UNBACKED (R41). -/
def parcelState (s : State) (n : Nat) : ParcelState :=
  match kget s.parcels n with
  | some p => p.state
  | none => .unbacked

/-- Whether a parcel's current copy is read from flash (R41). -/
def readsFlash : ParcelState → Bool
  | .flash | .migUp => true
  | _ => false

/-- How a read of payload ended. -/
inductive ReadEnd where
  | ok (m : Memory)
  | memory
  | media
  deriving DecidableEq, Repr

/-- Pages that a read of local addresses `[a, a + n)` must fetch from flash (R55). -/
def flashPages (s : State) (a n : Nat) : List Nat :=
  ((List.range (ceilDiv n pageBytes + 1)).map fun i => a / pageBytes + i).filterMap fun u =>
    if u * pageBytes < a + n ∧ readsFlash (parcelState s (u / 4)) then pageOf s (parcelLu (u / 4) (u % 4)) else none

/-- Lines of a range that need the decoder: damaged or poisoned (R378, R379). -/
def troubled (s : State) (a n : Nat) : List Nat :=
  sortBy (fun x y => decide (x < y))
    ((nubList (s.dram.poison ++ s.dram.damage.map (·.1))).filter fun l =>
      decide (a < l * 64 + 64) && decide (l * 64 < a + n) && !readsFlash (parcelState s (l / 1024)) &&
      parcelState s (l / 1024) != .unbacked)

/-- A poisoned line that its parcel's flash copy repairs (R380). -/
def repairable (s : State) (n : Nat) : Bool :=
  match kget s.parcels (n / 1024) with
  | some p => p.state == .dramClean && (match kget s.objs p.obj with | some o => !o.volatile | none => false)
  | none => false

/-- Repair a line from its parcel's flash copy (R380). -/
def repairLine (s : State) (n : Nat) : State :=
  if !s.dram.poison.contains n || !repairable s n then s
  else match parcelFlash s (n / 1024) with
    | none => s
    | some m =>
      bump (s.modDram fun d => { d with
        mem := mwrite d.mem (n * 64) (mread m (n % 1024 * 64) 64)
        poison := d.poison.filter (· != n), rewritten := d.rewritten ++ [n] }) 0x9060 4 1

/-- Read a line for a command or an engine: a poisoned line that can be repaired is repaired first (R381). -/
def demandLine (s : State) (n : Nat) : Bool × State :=
  let (b, s) := readLine s n
  match b with
  | some _ => (true, s)
  | none =>
    if repairable s n then
      let s := repairLine s n
      (!s.dram.poison.contains n, s)
    else (false, s)

/-- The present bytes of local addresses `[a, a + n)` as transaction `me` (0: none) sees them, moved to start at 0. Lines that
need the decoder are read through it; a line that stays uncorrectable fails the read (R381), a page that cannot be decoded too. -/
def readPayload (s : State) (a n me : Nat) : ReadEnd × State :=
  let (good, s) := (troubled s a n).foldl (fun acc l =>
    if acc.1 then demandLine acc.2 l else acc) (true, s)
  if !good then (.memory, s)
  else
    let parcels := (List.range (ceilDiv n 65536 + 1)).map fun i => a / 65536 + i
    let base := parcels.foldl (fun acc k =>
      let lo := max a (k * 65536)
      let hi := min (a + n) (k * 65536 + 65536)
      if hi ≤ lo then acc
      else match acc with
        | none => none
        | some m =>
          if readsFlash (parcelState s k) then
            (parcelFlash s k).map fun f => mcopy f (lo - k * 65536) (hi - lo) m (lo - a)
          else if parcelState s k = .unbacked then some m
          else some (mcopy s.dram.mem lo (hi - lo) m (lo - a))) (some ([] : Memory))
    match base with
    | none => (.media, s)
    | some m =>
      let put := fun (m : Memory) (x : Nat) (b : Byte) => if a ≤ x ∧ x < a + n then mset m (x - a) b else m
      let m := s.dram.merge.foldl (fun m e => e.bytes.foldl (fun m p => put m (e.line * 64 + p.1) p.2) m) m
      let m := ((allTxs s).filter fun e => e.1 != me).foldl (fun m e =>
        e.2.undo.foldl (fun m u => ((List.range 64).zip u.2).foldl (fun m p => put m (u.1 * 64 + p.1) p.2) m) m) m
      (.ok m, s)

/-- Bytes of a successful read. -/
def ReadEnd.mem : ReadEnd → Memory
  | .ok m => m
  | _ => []

/-- Count one access to each parcel of a range in its heat (R48): saturating at 255, accesses of one requester within 1 µs once.
Under AUTO a FLASH parcel at the promotion threshold is queued for up-migration; a pinned object's are brought up whatever the
policy (R47). -/
def countHeat (s : State) (h : Nat) (a n who : Nat) : State :=
  match kget s.objs h with
  | none => s
  | some o =>
    if n = 0 then s
    else ((List.range (ceilDiv n 65536 + 1)).map fun i => a / 65536 + i).foldl (fun s k =>
      if a + n ≤ k * 65536 then s
      else
        let p := (kget s.parcels k).getD { obj := h }
        let seen := p.seen.filter fun e => decide (s.power.uptime < e.2 + 1)
        if seen.any (fun e => e.1 == who) then s
        else
          let heat := min 255 (p.heat + 1)
          let up := p.state == .flash && ((o.policy == 3 && decide (od s 0x3200 2 ≤ heat)) || decide (0 < o.pinCount) || o.policy == 1)
          { s with parcels := kset s.parcels k { p with
              heat := heat, lastAccess := s.power.uptime, seen := seen ++ [(who, s.power.uptime)], queued := p.queued || up } }) s

/-- Read ahead one page: into a shared berm buffer, where one can be drawn (R50, 13 R338 class 6, R341). -/
def aheadPage (s : State) (polder ppa : Nat) : State :=
  if !pageClosed s ppa || s.flash.ahead.contains ppa || s.flash.reads.any (fun r => r.ppa == ppa && r.use == .ahead) then s
  else match bermDraw s (ppaChannel ppa) 6 6 with
    | none => s
    | some s => s.modFlash fun f => { f with reads := f.reads ++ [⟨ppa, 6, polder, .ahead⟩] }

/-- Read ahead up to OD 0x3200:07 parcels of an object beyond parcel `k` (R50): those whose copy is on flash. -/
def readAhead (s : State) (o : Obj) (k : Nat) : State :=
  if !flashOn s then s
  else ((List.range (od s 0x3200 7)).map (k + 1 + ·)).foldl (fun s j =>
    if o.base + o.extent ≤ j * 65536 ∨ parcelState s j ≠ .flash then s
    else ((List.range 4).filterMap fun q => pageOf s (parcelLu j q)).foldl (fun s x => aheadPage s o.owner x) s) s

/-- An access under STREAMING reads ahead, and so does one under AUTO that goes on with a sequential walk: the same requester's last
access to the object ended in the parcel before; DESIGN CHOICE (log entry 138). -/
def noteWalk (s : State) (h : Nat) (a n who : Nat) : State :=
  match kget s.objs h with
  | none => s
  | some o =>
    let last := (a + n - 1) / 65536
    if n = 0 then s
    else if o.policy = 4 then readAhead s o last
    else if o.policy ≠ 3 then s
    else
      let mine := fun (e : Nat × Nat × Nat) => e.1 == h && e.2.1 == who
      let on := s.walks.any fun e => mine e && (e.2.2 + 1 == a / 65536 || (e.2.2 == a / 65536 && e.2.2 < last))
      let s : State := { s with walks := (s.walks.filter fun e => !mine e) ++ [(h, who, last)] }
      if on then readAhead s o last else s

/-- One access to a range of an object: its heat, and what it reads ahead (R48, R50). -/
def touchHeat (s : State) (h : Nat) (a n who : Nat) : State := noteWalk (countHeat s h a n who) h a n who

/-- Pages that must be read from the media: those of closed courses; the others are still in the module's buffers. -/
def onMedia (s : State) (pages : List Nat) : List Nat := nubList (pages.filter (pageClosed s))

/-- Pages that a requester needs and that no berm buffer holds for it: neither read for it nor read ahead (R50, R55). -/
def missingPages (s : State) (use : ReadUse) (pages : List Nat) : List Nat :=
  (onMedia s pages).filter fun x => !s.flash.ahead.contains x && !s.flash.arrived.contains (use, x)

/-- Ask once for each page that a requester misses: a demand read of class 2 through a berm buffer (R55, 13 R338, R341). -/
def askMissing (s : State) (use : ReadUse) (polder : Nat) (pages : List Nat) : State :=
  pages.foldl (fun s x => if s.flash.reads.any fun r => r.ppa == x && r.use == use then s else askRead s x 2 polder use) s

/-- What delays the read of a page now, in the codes of R56: no buffer to draw (4), garbage collection on its die (2), any other operation
of the die (1). -/
def pageCauses (s : State) (use : ReadUse) (ppa : Nat) : List Nat :=
  let die := ppaDie ppa
  let gcProgram := fun (d : DieOp) => d.erase || (match kget s.flash.courses d.target with | some c => c.stream == .openGc | none => false)
  let others := s.flash.reads.filter fun r => ppaDie r.ppa == die && r.use != use
  (if s.flash.bermWait.any fun w => w.channel == ppaChannel ppa then [4] else []) ++
  (if (match kget s.flash.dies die with | some d => gcProgram d | none => false) || others.any (fun r => r.use == .copy true) then [2] else []) ++
  (if (kget s.flash.dies die).isSome || !others.isEmpty then [1] else [])

/-- Whether page reads of a requester are still queued. -/
def readsQueued (s : State) (use : ReadUse) : Bool := s.flash.reads.any fun r => r.use == use

/-- A requester takes pages that were read ahead: their buffers return, and it holds them until its record ends (R50, R55). -/
def takeAhead (s : State) (use : ReadUse) (pages : List Nat) : State :=
  let mine := s.flash.ahead.filter pages.contains
  let s := mine.foldl (fun s x => bermDone s (ppaChannel x) 6 6) s
  s.modFlash fun f => { f with
    ahead := f.ahead.filter fun x => !pages.contains x, arrived := f.arrived ++ mine.map fun x => (use, x) }

/-- A requester has used its pages: they leave it, and the buffers of pages read ahead return (R50, 13 R342). -/
def usedPages (s : State) (use : ReadUse) (pages : List Nat) : State :=
  let s := (s.flash.ahead.filter pages.contains).foldl (fun s x => bermDone s (ppaChannel x) 6 6) s
  s.modFlash fun f => { f with
    ahead := f.ahead.filter fun x => !pages.contains x, arrived := f.arrived.filter fun e => e.1 != use }

/-! ## Preparing a parcel for a store (R41, R53, R171) -/

/-- Whether a store can go ahead, must wait, or fails with a status. -/
inductive Ready where
  | ok
  | waits
  | fails (status : Nat)
  deriving DecidableEq, Repr

/-- Parcels of a polder that can be demoted: in DRAM, of an unpinned object, with no stores of a live transaction (R44, R60). -/
def demotable (s : State) (p : Nat) : List (Nat × Parcel) :=
  s.parcels.filter fun e =>
    (e.2.state == .dramClean || e.2.state == .dramDirty) &&
    (match kget s.objs e.2.obj with
      | some o => o.owner == p && o.pinCount == 0 && o.policy != 1 && !o.volatile && decide (o.base + o.area.kept ≤ e.1 * 65536)
      | none => false) &&
    !((allTxs s).any fun t => t.2.undo.any fun u => u.1 / 1024 == e.1) &&
    !(s.dram.poison.any fun n => n / 1024 == e.1)

/-- Colder: lower heat, then less recently accessed (R48). -/
def colder (a b : Nat × Parcel) : Bool :=
  decide (a.2.heat < b.2.heat) || (a.2.heat == b.2.heat && decide (a.2.lastAccess < b.2.lastAccess))

/-- Drop a parcel's DRAM copy and return its frame. -/
def dropDram (s : State) (k : Nat) (st : ParcelState) : State :=
  match kget s.parcels k with
  | none => s
  | some p =>
    let s := s.modDram fun d => { d with
      mem := mclear d.mem (k * 65536) 65536
      merge := d.merge.filter fun m => m.line / 1024 != k
      damage := kfilter d.damage fun n _ => n / 1024 != k
      poison := d.poison.filter fun n => n / 1024 != k
      freeFrames := if p.state.inDram then d.freeFrames ++ [p.frame] else d.freeFrames }
    s.modParcel k fun p => { p with state := st, queued := false, writing := [], plain := false, storedBy := [] }

/-- A parcel that has a binding in the host-mapped window: its window offsets (R58). -/
def windowOf (s : State) (h off : Nat) : Option Nat :=
  match findFirst (fun e => e.2.handle == h && decide (e.2.objOffset ≤ off) && decide (off < e.2.objOffset + e.2.length)) s.host.bindings with
  | some e => some (e.1 + (off - e.2.objOffset))
  | none => none

/-- A frame switch or demotion inside a run of the window map turns its entry into one of the 64 sub-maps held back (16 R428). -/
def splitRun (s : State) (w : Nat) : State :=
  match kget s.host.winMap (w / 2097152) with
  | some .run =>
    let used := s.host.winMap.filterMap fun e => match e.2 with | .submap k => some k | .run => none
    (match findFirst (fun k => !used.contains k) ((List.range 64).map (· + 1984)) with
    | some k => s.modHost fun h => { h with winMap := kset h.winMap (w / 2097152) (.submap k) }
    | none => s)
  | _ => s

/-- Back-invalidate the lines of a window range that the host may hold (16 R429). -/
def backInvalidate (s : State) (lo hi : Nat) : State :=
  let lines := s.host.snoop.filter fun n => decide (lo ≤ n * 64) && decide (n * 64 < hi)
  bump (s.modHost fun h => { h with
    snoop := h.snoop.filter fun n => !(decide (lo ≤ n * 64) && decide (n * 64 < hi))
    snooping := h.snooping ++ lines }) 0x9300 6 lines.length

/-- Window ranges that a payload range is bound to. -/
def boundRanges (s : State) (h off n : Nat) : List (Nat × Nat) :=
  s.host.bindings.filterMap fun e =>
    let lo := max off e.2.objOffset
    let hi := min (off + n) (e.2.objOffset + e.2.length)
    if e.2.handle = h ∧ lo < hi then some (e.1 + (lo - e.2.objOffset), e.1 + (hi - e.2.objOffset)) else none

/-- A module-side store to bound lines that the host may hold first back-invalidates them and waits for the answers (16 R429).
True while it must wait. -/
def snoopStore (s : State) (h off n : Nat) : Bool × State :=
  let s := (boundRanges s h off n).foldl (fun s r =>
    if s.host.snoop.any (fun l => decide (r.1 < l * 64 + 64) && decide (l * 64 < r.2))
    then backInvalidate s (r.1 / 64 * 64) r.2 else s) s
  ((boundRanges s h off n).any fun r => s.host.snooping.any fun l => decide (r.1 < l * 64 + 64) && decide (l * 64 < r.2), s)

/-- Lines of a parcel that live transactions have stored to, each with its transaction (R43). -/
def openLines (s : State) (k : Nat) : List (Nat × Nat) :=
  (allTxs s).flatMap fun t => (t.2.undo.filter fun u => u.1 / 1024 == k).map fun u => (u.1, t.1)

/-- A page of a parcel as its write-back marks it: the lines it carries undo copies of, the highest byte stored, and whether no map
state may refer to it before the demotion's copy is whole (R43, R53, R529). -/
def markPage (s : State) (down : Bool) (top : Nat) (lines : List (Nat × Nat)) (ppa : Nat) : State :=
  s.modFlash fun f => { f with pages := kmod f.pages ppa fun p => { p with
    partCopy := down, top := top, undone := lines.filter fun l => lineLu l.1 == p.lu } }

/-- Start to write a parcel back (R43, R52 step 5): its pages go through the FTL with undo copies in the place of uncommitted
lines. None when no page can be placed or a line of it is poisoned (R380). The pages of a demotion are mapped only once all of them are
durable (R53). -/
def writeParcel (s : State) (k : Nat) (down : Bool) : Option State :=
  if s.dram.poison.any (fun n => n / 1024 == k) then none
  else
    match readPayload s (k * 65536) 65536 0xFFFFFFFF with
    | (.ok m, s) =>
      let (ppas, s) := (List.range 4).foldl (fun acc q =>
        let (ppa, s) := placePage acc.2 .openHost (parcelLu k q) .data 0 false 5 (mcopy m (q * pageBytes) pageBytes [] 0)
        match ppa with
        | none => acc
        | some x => (acc.1 ++ [x], s)) (([] : List Nat), s)
      if ppas.length < 4 then none
      else
        let s := if down then s else ((List.range 4).zip ppas).foldl (fun s e => mapUnit s (parcelLu k e.1) e.2) s
        let p := (kget s.parcels k).getD { obj := 0 }
        let lines := openLines s k
        let s := ppas.foldl (fun s x => markPage s down p.high lines x) s
        let s := if p.plain then s.modFlash fun f => { f with wbs := f.wbs ++ [⟨p.obj, ppas⟩] } else s
        some (s.modParcel k fun p => { p with writing := ppas, plain := false, storedBy := if lines.isEmpty then [] else p.storedBy })
    | _ => none

/-- Demote one parcel (R52): a clean one with a flash copy switches at once, an UNBACKED copy of a clean parcel cannot arise; a
dirty one becomes MIG_DOWN and switches when its pages are durable. Bound lines are back-invalidated first (R60). -/
def demote (s : State) (k : Nat) : State :=
  match kget s.parcels k with
  | none => s
  | some p =>
    let s := match kget s.objs p.obj with
      | some o => (match windowOf s p.obj (k * 65536 - o.base) with
        | some w => (backInvalidate (splitRun s w) w (w + 65536)).modHost fun h => { h with
            nonResident := if h.nonResident.contains (w / 65536) then h.nonResident else h.nonResident ++ [w / 65536] }
        | none => s)
      | none => s
    match p.state with
    | .dramClean => overcommitEnded (bump (dropDram s k .flash) 0x3201 4 1)
    | .dramDirty =>
      if s.flash.readOnly then s
      else (match writeParcel s k true with
      | some s => s.modParcel k fun p => { p with state := .migDown }
      | none => s)
    | _ => s

/-- A polder has a demotion under way, whose charge ends when it lands (R52, R171). -/
def goingDown (s : State) (p : Nat) : Bool :=
  s.parcels.any fun e => e.2.state == .migDown &&
    (match kget s.objs e.2.obj with | some o => o.owner == p && o.pinCount == 0 && !o.volatile | none => false)

/-- Whether a store to a parcel of an object may go ahead now, after what it must do first (R41, R53, R171). A store to a FLASH parcel goes
to DRAM after an up-migration, whose page reads it waits for. -/
def prepParcel (s : State) (h : Nat) (o : Obj) (k : Nat) : Ready × State :=
  let p := (kget s.parcels k).getD { obj := h }
  let pinned := o.volatile || decide (0 < o.pinCount)
  let charge : Ready × State :=
    if pinned || quotaAllows s o.owner 65536 then (.ok, s)
    -- a demotion under way frees its parcel when it lands (R171)
    else if goingDown s o.owner then (.waits, s)
    else match bestBy colder (demotable s o.owner) with
      | none => (.fails 0x4003, s)
      | some e =>
        let s := demote s e.1
        (if quotaAllows s o.owner 65536 then .ok else .waits, s)
  match p.state with
  | .dramDirty => (.ok, s)
  | .dramClean => (.ok, { s with parcels := kset s.parcels k { p with state := .dramDirty } })
  | .migDown =>
    (.ok, bump { s with parcels := kset s.parcels k { p with state := .dramDirty, writing := [] } } 0x3201 5 1)
  | .migUp => (.waits, s)
  | .unbacked =>
    (match charge with
    | (.ok, s) =>
      let (f, s) := allocFrame s
      (.ok, { s with parcels := kset s.parcels k { p with state := .dramDirty, frame := f } })
    | r => r)
  | .flash =>
    (match charge with
    | (.ok, s) =>
      (match parcelFlash s k with
      | none => (.fails 0x2001, s)
      | some m =>
        let (f, s) := allocFrame s
        let pages := onMedia s ((List.range 4).filterMap fun q => pageOf s (parcelLu k q))
        if !pages.isEmpty then
          (.waits, pages.foldl (fun s x => askRead s x 5 o.owner .tier)
            { s with parcels := kset s.parcels k { p with state := .migUp, frame := f, queued := false } })
        else
          let s := s.modDram fun d => { d with mem := mcopy m 0 65536 d.mem (k * 65536) }
          (.ok, { s with parcels := kset s.parcels k { p with state := .dramDirty, frame := f, hasFlash := true, queued := false } }))
    | r => r)

/-- Prepare every parcel of a range, stopping at the first that waits or fails. -/
def prepRange (s : State) (h : Nat) (o : Obj) (a n : Nat) : Ready × State :=
  if n = 0 then (.ok, s)
  else ((List.range (ceilDiv n 65536 + 1)).map fun i => a / 65536 + i).foldl (fun acc k =>
    if a + n ≤ k * 65536 then acc
    else match acc with
      | (.ok, s) => prepParcel s h o k
      | r => r) (.ok, s)

/-- Valid bytes of a BLOB are raised, never lowered, to one past the highest byte stored (02 R529). -/
def raiseValid (s : State) (h top : Nat) : State :=
  s.modObj h fun o => match o.area with
    | .blob v => { o with area := .blob (max v top) }
    | _ => o

/-- Put bytes into the lines of a range, in ascending order. -/
def putLines (s : State) (a : Nat) (b : List Byte) : State :=
  (pieceBytes b (linesOf a b.length)).foldl (fun s p => storeLine s p.1 p.2.1 p.2.2) s

/-- Note a store on the parcels of a range: its uptime, the requester that waits for a fret to write it back, and, outside a transaction,
that it is not durable yet and how far into the payload at `base` it reaches (R46, R527-R529). -/
def noteStore (s : State) (base a n who : Nat) (plain : Bool) : State :=
  ((List.range (ceilDiv n 65536 + 1)).map fun i => a / 65536 + i).foldl (fun s k =>
    if a + n ≤ k * 65536 then s
    else s.modParcel k fun p => { p with
      lastStore := s.power.uptime, hasFlash := false, writing := []
      storedBy := if p.storedBy.contains who then p.storedBy else p.storedBy ++ [who]
      plain := p.plain || plain, high := if plain then max p.high (min (a + n) (k * 65536 + 65536) - base) else p.high }) s

/-- Whether a transaction's write set holds an item that a test admits; its holders meet the store in turn (R112). -/
def meetItems (s : State) (test : Item → Bool) : Meet × State :=
  ((allTxs s).filter fun e => e.2.writes.any test).foldl (fun acc e =>
    match acc with
    | (.waits, s) => (.waits, s)
    | (.free, s) =>
      match getTx s e.1 with
      | none => (.free, s)
      | some t =>
        if t.state = .open then (.free, bumpB (abortTx s e.1 0x3001) t.polder 0x9600 0xA 1)
        else if t.state = .committing ∨ t.state = .prepared then (.waits, s)
        else (.free, s)) (.free, s)

/-- A line of a range of local addresses. -/
def lineIn (a n : Nat) : Item → Bool
  | .line l => decide (0 < n) && decide (a < l * 64 + 64) && decide (l * 64 < a + n)
  | _ => false

/-- Whether every line of a range may be stored without a transaction: OPEN holders are aborted, others make it wait (R112). -/
def meetLines (s : State) (a n : Nat) : Meet × State := meetItems s (lineIn a n)

/-- Tracked items that a test admits take the version of a change. -/
def stampIf (s : State) (h : Nat) (test : Item → Bool) (n : Nat) : State :=
  let s := s.modObj h fun o => { o with changeStamp := n }
  { s with versions := s.versions.map fun p => if test p.1 then (p.1, n) else p }

/-- A non-transactional store of bytes at a payload offset (04 R110, R112, 02 R41, R48, R529). -/
def storeRaw (s : State) (h : Nat) (off : Nat) (b : List Byte) (who : Nat) : Ready × State :=
  match kget s.objs h with
  | none => (.fails 0x5001, s)
  | some o =>
    let a := o.base + off
    match meetLines s a b.length with
    | (.waits, s) => (.waits, s)
    | (.free, s) =>
      match prepRange s h o a b.length with
      | (.ok, s) =>
        let (n, s) := nextSeq (putLines s a b)
        let s := stampIf s h (lineIn a b.length) n
        (.ok, touchHeat (raiseValid (noteStore s o.base a b.length who true) h (off + b.length)) h a b.length who)
      | r => r

/-- A module-side store outside a transaction. -/
def storePlain (s : State) (h off : Nat) (b : List Byte) (who : Nat) : Ready × State :=
  match snoopStore s h off b.length with
  | (true, s) => (.waits, s)
  | (false, s) => storeRaw s h off b who

/-! ## Transactional stores (04 R104-R111) -/

/-- Counted once per distinct action block; answers how many are new. -/
def newBlocks (t : Tx) (h off n : Nat) : List (Nat × Nat) :=
  if n = 0 then []
  else (((List.range (n / 4096 + 2)).map fun i => off / 4096 + i).filter fun k => decide (k * 4096 < off + n)).filterMap fun k =>
    if t.blocks.contains (h, k) then none else some (h, k)

/-- Add actions, bytes and items to a transaction, or abort it with 0x3002 when a limit would be exceeded (R105). -/
def addAction (s : State) (id : Nat) (items : List Item) (acts bytes : Nat) (f : Tx → Tx) : Option State :=
  match getTx s id with
  | none => none
  | some t =>
    if t.actions + acts > 65536 ∨ t.bytes + bytes > 16777216 then none
    else some (setTx s id (f { t with
      writes := t.writes ++ items, actions := t.actions + acts, bytes := t.bytes + bytes, lastNamed := s.power.uptime }))

/-- The later requester of an item in another write set (R111). -/
def conflicts (s : State) (id : Nat) (items : List Item) : Bool := items.any fun i => (holder s i id).isSome

/-- A store of bytes at a payload offset within a transaction: lines stored in place with undo copies (R104). Answers the status
of a failure: a range bound into the window 0x1007 (R108), a conflict 0x3001, a limit 0x3002, both of which abort it. -/
def storeTx (s : State) (id h off : Nat) (b : List Byte) (who : Nat) : Ready × State :=
  match kget s.objs h, getTx s id with
  | some o, some t =>
    let a := o.base + off
    let bound := s.host.bindings.any fun e =>
      e.2.handle == h && decide (e.2.objOffset < off + b.length) && decide (off < e.2.objOffset + e.2.length)
    if bound then (.fails 0x1007, s)
    else
      let lines := (linesOf a b.length).map (·.1)
      if conflicts s id (lines.map .line) then (.fails 0x3001, abortTx s id 0x3001)
      else
        match prepRange s h o a b.length with
        | (.ok, s) =>
          let fresh := lines.filter fun n => !(t.writes.contains (.line n))
          let blocks := newBlocks t h off b.length
          let undo := fresh.map fun n => (n, lineBytes s n)
          (match addAction s id (fresh.map .line) blocks.length (64 * fresh.length) fun t =>
              { t with blocks := t.blocks ++ blocks, undo := t.undo ++ undo
                       -- a parcel stored to after its TRIM keeps what was stored (03 R89)
                       trims := t.trims.filter fun k => !(lines.any fun n => n / 1024 == k)
                       objs := if t.objs.contains h then t.objs else t.objs ++ [h]
                       validTo := aset t.validTo h (max ((aget t.validTo h).getD 0) (off + b.length)) } with
          | none => (.fails 0x3002, abortTx s id 0x3002)
          | some s => (.ok, touchHeat (noteStore (putLines s a b) o.base a b.length who false) h a b.length who))
        | r => r
  | _, _ => (.fails 0x100D, s)

/-- Enter a read in a transaction's read set, coarsened to the object beyond 65,536 exact entries (R104, R106). -/
def trackRead (s : State) (id h : Nat) (i : Item) : State :=
  match getTx s id with
  | none => s
  | some t =>
    if t.reads.any (fun e => e.1 == i) then s
    else if t.reads.length < 65536 then
      let (v, s) := (match i with
        | .header h => ((match kget s.objs h with | some o => o.version | none => 0), s)
        | _ => versionOf s i)
      setTx s id { t with reads := t.reads ++ [(i, v)], lastNamed := s.power.uptime }
    else if t.reads.any (fun e => e.1 == .object h) then s
    else
      let v := match kget s.objs h with | some o => o.changeStamp | none => 0
      let s := if t.coarse then s else bumpB s t.polder 0x9600 9 1
      setTx s id { t with reads := t.reads ++ [(.object h, v)], coarse := true, lastNamed := s.power.uptime }

/-- Track every line of a range. -/
def trackLines (s : State) (id h a n : Nat) : State :=
  (linesOf a n).foldl (fun s p => trackRead s id h (.line p.1)) s

/-- Count of a SET, kept in its header (05 R132). -/
def setCount (s : State) (h n : Nat) : State :=
  s.modObj h fun o => match o.area with
    | .set _ k => { o with area := .set n k }
    | _ => o

/-- A record sets the Count of a SET of this module: at once, or with its transaction's commit (05 R132, R141). -/
def storeCount (s : State) (id h n : Nat) : State :=
  if id = 0 then
    let (k, s) := nextSeq s
    (setCount s h n).modObj h fun o => { o with changeStamp := k }
  else match getTx s id with
    | some t => setTx s id { t with counts := aset t.counts h n, objs := if t.objs.contains h then t.objs else t.objs ++ [h] }
    | none => s

/-- Set the positions of a LOG. -/
def setLog (s : State) (h head tail n : Nat) : State :=
  s.modObj h fun o => match o.area with
    | .log rs _ _ _ => { o with area := .log rs head tail n }
    | _ => o

/-- A record appends to a LOG of this module: at once, or with its transaction's commit (05 R141, 10 R268). -/
def storeLog (s : State) (id h head tail n : Nat) : State :=
  if id = 0 then
    let (k, s) := nextSeq s
    (setLog s h head tail n).modObj h fun o => { o with changeStamp := k }
  else match getTx s id with
    | some t => setTx s id { t with logs := aset t.logs h (head, tail, n), objs := if t.objs.contains h then t.objs else t.objs ++ [h] }
    | none => s

/-- A store in a transaction (`id ≠ 0`) or outside one. -/
def storeAt (s : State) (id h off : Nat) (b : List Byte) (who : Nat) : Ready × State :=
  if id = 0 then storePlain s h off b who else storeTx s id h off b who

end Sys2Proof.Machine
end

