-- ==== Sys2Proof/Machine/Operands.lean ====
section
/-! DEFINITION. Machine/Operands.lean: operand references of records, loads and stores of an engine, matrix operands with their
scale streams, and lists (05 R130-R132, 09 R236-R241). -/

namespace Sys2Proof.Machine

/-! ## The engine: a record runs on the state and may stop -/

/-- Why a record stops before it completes: a context fault with its cause and offset (R150), a scale desync (R151), a wait, pages that
must be read first, with the causes that hold already (02 R55, R56), or the end of the context's transaction with its abort status (R147). -/
inductive Stop where
  | fault (code off : Nat)
  | desync
  | waits (cause : Nat)
  | reads (pages causes : List Nat)
  | aborted (status : Nat)
  deriving DecidableEq, Repr

/-- A computation of a record. -/
abbrev Eng (α : Type) := ExceptT Stop (StateM State) α

/-- Stop a record. -/
def stop {α : Type} (e : Stop) : Eng α := throw e

def faultIf (b : Bool) (code off : Nat) : Eng Unit := if b then stop (.fault code off) else pure ()

/-- Change the state. -/
def mutate (f : State → State) : Eng Unit := modifyThe State f

def look {α : Type} (f : State → α) : Eng α := do return f (← getThe State)

/-- Run an operation of the model that answers a value and a state. -/
def runs {α : Type} (f : State → α × State) : Eng α := do
  let s ← getThe State
  let (a, t) := f s
  set t
  return a

/-- The job and the context that run a record. -/
def getCtx (s : State) (x : CtxId) : Option (Job × Ctx) :=
  match kget s.jobs x.job with
  | none => none
  | some j => (j.ctxs[x.idx]?).map fun c => (j, c)

def setCtx (s : State) (x : CtxId) (c : Ctx) : State :=
  s.modJob x.job fun j => { j with ctxs := j.ctxs.set x.idx c }

def modCtx (s : State) (x : CtxId) (f : Ctx → Ctx) : State :=
  s.modJob x.job fun j => { j with ctxs := j.ctxs.modify x.idx f }

/-- The program header of a job, as admitted. -/
def jobProgram (s : State) (h : Nat) : ProgramArea :=
  match kget s.jobs h with
  | some j => j.area
  | none => ⟨0, 0, 0, 0, 1, 1, 0, 0, 0, 2, 0, 0, 0, 0, 0⟩

/-- The JOB area of a job. -/
def jobArea (s : State) (h : Nat) : JobArea :=
  match kget s.objs h with
  | some o => (match o.area with | .job a => a | _ => ⟨0, 0, 0, 0, 0, 0, 0, 0, 0, 0, 0, 0, 0, 0, 0, 0, 0⟩)
  | none => ⟨0, 0, 0, 0, 0, 0, 0, 0, 0, 0, 0, 0, 0, 0, 0, 0, 0⟩

/-- Polder a job runs on. -/
def jobPolder (s : State) (h : Nat) : Nat := (jobArea s h).polder

/-- Id of the context's open transaction, 0 if none. -/
def ctxTx (s : State) (x : CtxId) : Nat :=
  match getCtx s x with
  | some (_, c) => (match c.tx with | some l => txIdOf s l | none => 0)
  | none => 0

/-- A requester number for the heat rule (R48): contexts, commands, the host link and peers are distinct. -/
def whoCtx (x : CtxId) : Nat := (x.job * 32 + x.idx) * 4 + 1
def whoReg (reg : Nat) : Nat := reg * 4 + 2
def whoHost : Nat := 3
def whoPeer (m : Nat) : Nat := m * 4 + 4

/-! ## Operand references (R130) -/

/-- Where an operand lies: an object's payload, or a run of the scratchpad or sump from a base, of a size. -/
inductive Space where
  | none
  | obj (h : Nat)
  | share (base size : Nat)
  | sumps (base size : Nat)
  deriving DecidableEq, Repr

/-- A resolved operand: its space and effective byte offset. -/
structure Ref where
  space : Space
  off : Nat
  deriving DecidableEq, Repr

/-- Base and size of the context's share and sump rows (06 R173, 07 R205, R207). -/
def shareOf (s : State) (x : CtxId) : Nat × Nat :=
  match getCtx s x with
  | some (_, c) => (match c.resident with
    | some (core, u, _) => (core * 4194304 + u * 262144, (jobProgram s x.job).share * 262144)
    | none => (0, 0))
  | none => (0, 0)

def sumpOf (s : State) (x : CtxId) : Nat × Nat :=
  match getCtx s x with
  | some (_, c) => (match c.resident with
    | some (core, _, u) => (core * 262144 + u * 16384, (jobProgram s x.job).sump * 16384)
    | none => (0, 0))
  | none => (0, 0)

/-- Index register n of a context; 0 reads as zero. -/
def xreg (s : State) (x : CtxId) (n : Nat) : Nat :=
  if n = 0 then 0
  else match getCtx s x with
    | some (_, c) => ((c.x[n - 1]?).getD 0).toNat
    | none => 0

/-- Resolve an operand reference (R130). -/
def oref (s : State) (x : CtxId) (w : Nat) : Ref :=
  let slot := bitsAt w 52 12
  let off := (bitsAt w 0 48 + xreg s x (bitsAt w 48 4)) % 18446744073709551616
  let j := kget s.jobs x.job
  if w = 0 ∨ slot = 0 then ⟨.none, off⟩
  else if slot = 1 then ⟨.obj (jobArea s x.job).argument, off⟩
  else if slot = 0xFFE then let (b, n) := sumpOf s x; ⟨.sumps b n, off⟩
  else if slot = 0xFFF then let (b, n) := shareOf s x; ⟨.share b n, off⟩
  else match j with
    | some j => ⟨.obj ((j.handles[slot]?).getD 0), off⟩
    | none => ⟨.none, off⟩

/-! ## Headers of objects that records name (02 R35, R131) -/

/-- Type-specific header areas from their 64 bytes, their reset fields at their reset values. -/
def tensorArea (b : List Byte) : TensorArea :=
  let f := fieldAt b
  ⟨f 0 1, f 1 1, f 2 1, f 3 1, [f 4 4, f 8 4, f 12 4, f 16 4], f 20 4, f 24 8, f 32 8⟩

def tableAreaOf (b : List Byte) : TableArea :=
  let f := fieldAt b
  let pol := f 11 1
  ⟨f 0 8, f 8 2, f 10 1, pol.testBit 5, pol.testBit 4, bitsAt pol 2 2, bitsAt pol 0 2, f 12 1, f 13 1, f 14 1,
    f 15 1, f 16 8, f 24 8, f 32 8, f 40 2, f 42 1, 0⟩

def indexAreaOf (b : List Byte) : IndexArea :=
  let f := fieldAt b
  ⟨f 0 4, f 4 1, f 5 1, (f 6 2).testBit 0, f 8 4, f 12 4, f 16 8, f 24 8, f 32 8, f 40 8, 0, 0⟩

def graphArea (b : List Byte) : GraphArea :=
  let f := fieldAt b
  ⟨f 0 8, f 8 8, f 16 8, f 24 8, f 32 8, f 40 1, f 41 1⟩

/-- A program header from its 64 bytes (05 R128). -/
def programArea (b : List Byte) : ProgramArea :=
  let f := fieldAt b
  ⟨f 0 2, f 2 2, f 4 4, f 8 4, f 12 2, f 14 1, f 15 1, f 16 4, f 20 4, f 24 2, f 26 2, f 28 4, f 32 8, f 40 4, f 44 4⟩

/-- The header area that the home of an object on another module serves: fixed at its creation, free bytes here (log entry 10); a
SET's Count, which changes, is asked for. -/
def remoteArea (h : Nat) : Option Area :=
  let b := (List.range 64).map (Config.remoteHeader h)
  match typeOf h with
  | 3 => some (.tensor (tensorArea b))
  | 4 => some (.table (tableAreaOf b))
  | 5 => some (.index (indexAreaOf b))
  | 6 => some (.program (programArea b))
  | 10 => some (.graph (graphArea b))
  | 11 => some (.set 0 (fieldAt b 8 8))
  | _ => none

/-- The type-specific header area of an object: of its header here, or as its home serves it. -/
def headerArea (s : State) (h : Nat) : Option Area :=
  match kget s.objs h with
  | some o => some o.area
  | none => if homeOf h = moduleId s then none else remoteArea h

/-- Length of an object: of its header here, or as its home serves it; 0 of a dead handle of this module. -/
def objLength (s : State) (h : Nat) : Nat :=
  match kget s.objs h with
  | some o => o.length
  | none => if homeOf h = moduleId s then 0 else Config.remoteLength h % 70368744177665

/-- The header area of the object that an operand lies in. -/
def refArea (s : State) (r : Ref) : Option Area :=
  match r.space with
  | .obj h => headerArea s h
  | _ => none

/-- Extent an operand is checked against (R130). -/
def refLength (s : State) (r : Ref) : Nat :=
  match r.space with
  | .none => 0
  | .obj h => objLength s h
  | .share _ n | .sumps _ n => n

/-- Operand of 8 bytes at an offset of a record. -/
def recField (r : BitVec 512) (o k : Nat) : Nat := bitsAt r.toNat (8 * o) (8 * k)

/-- Two ranges of bytes overlap (R150 code 7). -/
def rangesOverlap (a : Ref) (n : Nat) (b : Ref) (m : Nat) : Bool :=
  a.space == b.space && a.space != .none && decide (a.off < b.off + m) && decide (b.off < a.off + n)

/-! ## Engine loads and stores (R130, R138, R141) -/

/-- Bytes of a remote object that have arrived for this record, none while some are missing. -/
def stagedBytes (c : Ctx) (a n : Nat) : Option Memory :=
  let got := c.staged.filter fun e => decide (e.1 < a + n) && decide (a < e.1 + e.2.length)
  if (got.map fun e => min (a + n) (e.1 + e.2.length) - max a e.1).foldl (· + ·) 0 < n then none
  else some (got.foldl (fun m e => ((List.range e.2.length).zip e.2).foldl (fun m p =>
    if a ≤ e.1 + p.1 ∧ e.1 + p.1 < a + n then mset m (e.1 + p.1 - a) p.2 else m) m) [])

/-- Split a range at every 4 KiB boundary (15 R404, 03 R526); at most `fuel` pieces. -/
def pieces4k : Nat → Nat → Nat → List (Nat × Nat)
  | 0, _, _ => []
  | fuel + 1, a, n =>
    if n = 0 then [] else let k := min n (4096 - a % 4096); (a, k) :: pieces4k fuel (a + k) (n - k)

/-- DAS address of a byte of a remote object: its home's module field, and the base that its home gave it, a free value (log
entry 10). -/
def remoteAddr (h off : Nat) : Nat :=
  homeOf h * 18014398509481984 + (Config.remoteParcel h * 65536 + off) % 18014398509481984

/-- The pieces of a remote range, split at every 4 KiB boundary: DAS address and bytes. Bases are 64 KiB aligned, so the split of
the payload offsets is the split of the DAS range (03 R526). -/
def remotePieces (h off n : Nat) : List (Nat × Nat) :=
  (pieces4k (n / 4096 + 2) off n).map fun q => (remoteAddr h q.1, q.2)

/-- Enter a participant of a transaction (04 R117). -/
def addPart (s : State) (id m : Nat) : State :=
  match getTx s id with
  | some t => if t.participants.any (fun p => p.module == m) then s
      else setTx s id { t with participants := t.participants ++ [{ module := m }] }
  | none => s

/-- Count a remote store of a payload range at the coordinator (04 R104). -/
def remoteActions (s : State) (id h off n : Nat) : Option State :=
  match getTx s id with
  | none => some s
  | some t =>
    let lines := (linesOf (remoteAddr h off) n).map fun p => Item.line p.1
    let fresh := lines.filter fun i => !t.writes.contains i
    let blocks := newBlocks t h off n
    addAction s id fresh blocks.length (64 * fresh.length) fun t => { t with blocks := t.blocks ++ blocks }

/-- Pages that a load of local addresses must have read: those of its flash parcels, and those of the flash copies from which poisoned
lines of it are repaired first (02 R55, 14 R380). -/
def pagesFor (s : State) (a n : Nat) : List Nat :=
  flashPages s a n ++ (((troubled s a n).filter fun l => s.dram.poison.contains l && repairable s l).flatMap fun l =>
    (List.range 4).filterMap fun q => pageOf s (parcelLu (l / 1024) q))

/-- Causes that hold for a load from its start: a migration of its parcel (7), the repair of a line (8) (02 R56). -/
def loadCauses (s : State) (a n : Nat) : List Nat :=
  (if ((List.range (n / 65536 + 2)).map fun i => a / 65536 + i).any fun k =>
    decide (k * 65536 < a + n) && parcelState s k == .migUp then [7] else []) ++
  (if (troubled s a n).any fun l => s.dram.poison.contains l && repairable s l then [8] else [])

/-- A context's loads of local ranges wait until every page that they need lies in a berm buffer (02 R55, R56); `held` are pages
that the context has otherwise. -/
def readFirst (x : CtxId) (ranges : List (Nat × Nat)) (held : List Nat) : Eng Unit := do
  let s ← getThe State
  let miss := (missingPages s (.context x) (ranges.flatMap fun e => pagesFor s e.1 e.2)).filter fun q => !held.contains q
  if !miss.isEmpty then stop (.reads miss (ranges.flatMap fun e => loadCauses s e.1 e.2))

/-- A range of an object of this module whose pages are at hand, read in place: the read set, heat, media and memory errors. -/
def inPlace (x : CtxId) (track : Bool) (h : Nat) (o : Obj) (off n : Nat) : Eng Memory := do
  let a := o.base + off
  let id := ctxTx (← getThe State) x
  if track && id != 0 then mutate fun s => trackLines s id h a n
  mutate fun s => takeAhead (touchHeat s h a n (whoCtx x)) (.context x) (flashPages s a n)
  match ← runs (readPayload · a n id) with
  | .ok m => return m
  | .memory => stop (.fault 3 off)
  | .media => stop (.fault 4 off)

/-- Load bytes of an object for a context: rights, extent, remote homes, tracked reads, media and memory errors. -/
def loadObj (x : CtxId) (track : Bool) (h off n : Nat) : Eng Memory := do
  let s ← getThe State
  let p := jobPolder s x.job
  if homeOf h ≠ moduleId s then
    match getCtx s x with
    | none => stop (.waits 5)
    | some (_, c) =>
      match stagedBytes c (remoteAddr h off) n with
      | some m => return m
      | none =>
        let ps := remotePieces h off n
        let (ok, s) := ps.foldl (fun acc q =>
          if !acc.1 then acc
          else match sendRequest acc.2 (.context x.job x.idx) (homeOf h) 1 q.1 q.2 q.1 (if track then ctxTx s x else 0) p (Config.remoteGroup h) [] off with
            | (some _, s) => (true, s)
            | (none, s) => (false, s)) (true, s)
        if !ok then stop (.fault 11 off)
        set (modCtx (if track then addPart s (ctxTx s x) (homeOf h) else s) x fun c => { c with awaiting := c.awaiting + ps.length })
        stop (.waits 5)
  else
    match liveObj s h with
    | none => do mutate (dikeFail · p); stop (.fault 2 off)
    | some o =>
      if !canRead o p then do mutate (dikeFail · p); stop (.fault 2 off)
      else if off + n > o.length then stop (.fault 1 off)
      else
        readFirst x [(o.base + off, n)] []
        inPlace x track h o off n

/-- Key under which what a home answered a record is staged, apart from every DAS address. -/
def askKey (h what : Nat) : Nat := (what + 1) * 18446744073709551616 + h

/-- Ask the home of an object for what a record needs of it beside plain accesses (R64, R138): an opcode as a command carried there has
it, operands and a payload. The answer, a value and data, is staged and found there when the record goes on. -/
def askHome (x : CtxId) (track : Bool) (h what op length ops : Nat) (payload : List Byte) : Eng (List Byte) := do
  let s ← getThe State
  match getCtx s x with
  | none => stop (.waits 5)
  | some (_, c) =>
    match findFirst (fun e => e.1 == askKey h what) c.staged with
    | some e => return e.2
    | none =>
      let id := if track then ctxTx s x else 0
      let fields := [op, h, 0, length].flatMap (toLE 8) ++ toLE 16 ops
      match sendRequest s (.context x.job x.idx) (homeOf h) (Config.messageCode Msg.carried.num) h 0 (askKey h what) id
          (jobPolder s x.job) (Config.remoteGroup h) (fields ++ payload) with
      | (none, _) => stop (.fault 11 0)
      | (some _, s) => do
        set (modCtx (if track then addPart s id (homeOf h) else s) x fun c => { c with awaiting := c.awaiting + 1 })
        stop (.waits 5)

/-- Load `n` bytes at an offset beyond an operand's effective offset, moved to start at 0. -/
def loadRef (x : CtxId) (track : Bool) (r : Ref) (off n : Nat) : Eng Memory := do
  match r.space with
  | .none => return []
  | .obj h => loadObj x track h (r.off + off) n
  | .share b size =>
    if r.off + off + n > size then stop (.fault 1 (r.off + off))
    return mcopy (← getThe State).spad (b + r.off + off) n [] 0
  | .sumps b size =>
    if r.off + off + n > size then stop (.fault 1 (r.off + off))
    return mcopy (← getThe State).sump (b + r.off + off) n [] 0

/-- Why a store of local addresses `[a, a + n)` waits: a migration (cause 7 of 02 R56), else a wait that is no stall, 0. -/
def storeCause (s : State) (a n : Nat) : Nat :=
  if ((List.range (n / 65536 + 2)).map fun i => a / 65536 + i).any fun k =>
      decide (k * 65536 < a + n) && (parcelState s k == .migUp || parcelState s k == .migDown) then 7 else 0

/-- Stop with the fault that a store's outcome calls for (R147, R150). -/
def storeStop (r : Ready) (off cause : Nat) : Eng Unit :=
  match r with
  | .ok => pure ()
  | .waits => stop (.waits cause)
  | .fails 0x4003 => stop (.fault 13 off)
  | .fails 0x1007 => stop (.fault 9 off)
  | .fails 0x2001 => stop (.fault 4 off)
  | .fails st => if st = 0x3001 ∨ st = 0x3002 ∨ st = 0x3005 ∨ st = 0x100D then stop (.aborted st) else stop (.fault 2 off)

/-- The checks of a context's store to an object of this module (R147, R150): rights, READ_ONLY, extent, an aborted transaction. -/
def storeTarget (x : CtxId) (h off n : Nat) : Eng (Option Obj) := do
  let s ← getThe State
  let p := jobPolder s x.job
  match liveObj s h with
  | none => do mutate (dikeFail · p); stop (.fault 2 off)
  | some o =>
    if !mayWrite o p then do mutate (dikeFail · p); stop (.fault 2 off)
    else if o.readOnly then stop (.fault 12 off)
    else if off + n > o.length then stop (.fault 1 off)
    else
      -- the context learns here that its transaction was aborted (R147)
      match getTx s (ctxTx s x) with
      | some t => if t.state = .aborted then stop (.aborted t.abort) else return some o
      | none => if ctxTx s x ≠ 0 then stop (.aborted 0x100D) else return some o

/-- Make a store of a range possible without doing it, so that the stores that follow do not wait half-way: the waits of R112 and
of parcels, the limits and conflicts of a transaction. -/
def prepObj (x : CtxId) (h off n : Nat) : Eng Unit := do
  let s ← getThe State
  if n = 0 ∨ homeOf h ≠ moduleId s then return
  match ← storeTarget x h off n with
  | none => return
  | some o =>
    let id := ctxTx s x
    let cause := storeCause s (o.base + off) n
    if id = 0 then
      if ← runs (snoopStore · h off n) then stop (.waits cause)
      if (← runs (meetLines · (o.base + off) n)) = .waits then stop (.waits cause)
    else if conflicts s id ((linesOf (o.base + off) n).map fun l => .line l.1) then
      mutate (abortTx · id 0x3001)
      stop (.aborted 0x3001)
    storeStop (← runs (prepRange · h o (o.base + off) n)) off cause

/-- Store bytes to an object for a context: an action of its transaction when it holds one (R141). -/
def saveObj (x : CtxId) (h off : Nat) (b : List Byte) : Eng Unit := do
  if b.isEmpty then return
  let s ← getThe State
  let p := jobPolder s x.job
  if homeOf h ≠ moduleId s then
    -- the context learns here that its transaction was aborted (R147); the actions count at the coordinator (04 R104)
    let id := ctxTx s x
    if id ≠ 0 then
      match getTx s id with
      | some t => if t.state = .aborted then stop (.aborted t.abort)
      | none => stop (.aborted 0x100D)
      match remoteActions s id h off b.length with
      | some s => set (addPart s id (homeOf h))
      | none => do
        set (abortTx s id 0x3002)
        stop (.aborted 0x3002)
    let s ← getThe State
    -- requests are split at 4 KiB; the record completes when their responses have arrived (R138)
    let ps := remotePieces h off b.length
    let (_, ok, s) := ps.foldl (fun acc q =>
      let (rest, ok, s) := acc
      if !ok then acc
      else match sendRequest s (.context x.job x.idx) (homeOf h) 2 q.1 q.2 q.1 (ctxTx s x) p (Config.remoteGroup h) (rest.take q.2) off with
        | (some _, s) => (rest.drop q.2, true, s)
        | (none, s) => (rest, false, s)) (b, true, s)
    if !ok then stop (.fault 11 off)
    set (modCtx s x fun c => { c with awaiting := c.awaiting + ps.length })
  else
    let cause ← (do match ← storeTarget x h off b.length with
                    | some o => return storeCause s (o.base + off) b.length
                    | none => return 0)
    storeStop (← runs (storeAt · (ctxTx s x) h off b (whoCtx x))) off cause

/-- Make a store to an operand possible without doing it. -/
def prepRef (x : CtxId) (r : Ref) (off n : Nat) : Eng Unit :=
  match r.space with
  | .obj h => prepObj x h (r.off + off) n
  | _ => pure ()

/-- Store bytes at an offset beyond an operand's effective offset. -/
def saveRef (x : CtxId) (r : Ref) (off : Nat) (b : List Byte) : Eng Unit := do
  match r.space with
  | .none => return
  | .obj h => saveObj x h (r.off + off) b
  | .share base size =>
    if r.off + off + b.length > size then stop (.fault 1 (r.off + off))
    mutate fun s => { s with spad := mwrite s.spad (base + r.off + off) b }
  | .sumps base size =>
    if r.off + off + b.length > size then stop (.fault 1 (r.off + off))
    mutate fun s => { s with sump := mwrite s.sump (base + r.off + off) b }

/-! ## Matrix operands (R131, 09 R236-R241) -/

/-- Blocks of 32 in a row. -/
def blocksOf (cols : Nat) : Nat := ceilDiv cols 32

/-- Packed bytes of a row of elements (R236). -/
def packedBytes (elem cols : Nat) : Nat := ceilDiv (cols * elemBits elem) 8

/-- Bytes of a dense row, its sequence trailer included when block-scaled, padded to 64 (R131, R240). -/
def denseRow (fmt cols : Nat) : Nat :=
  roundUp (packedBytes (fmt % 64) cols + (if fmt / 64 = 3 then ceilDiv (blocksOf cols) 2 else 0)) 64

/-- A matrix operand: its format byte, shape, row stride, where its first row and scale stream lie, its outlier block, and its place
in the whole matrix that its scales and trailers cover: first row and column, all rows and columns. -/
structure MatRef where
  fmt : Nat
  rows : Nat
  cols : Nat
  stride : Nat
  data : Ref
  scale : Ref
  outlier : Option Ref
  outliers : Nat
  r0 : Nat := 0
  c0 : Nat := 0
  allRows : Nat := 0
  allCols : Nat := 0
  deriving DecidableEq, Repr

/-- Units of a scale stream (09, before R238). -/
def scaleUnits (fmt rows cols : Nat) : Nat :=
  match fmt / 64 with
  | 1 => rows
  | 2 => cols
  | 3 => rows * blocksOf cols
  | _ => 0

/-- Bytes of a scale stream with history depth `h` (R238). -/
def scaleBytes (fmt units h : Nat) : Nat :=
  let a := fun (n : Nat) => roundUp n 64
  match fmt / 64 with
  | 0 => 0
  | 3 => 64 + 2 * a units + h * a units
  | _ => 64 + a (16 * units) + h * a (8 * units)

/-- The place of a matrix operand (R131): a TENSOR's own header gives its stride, scales and outliers. -/
def matRef (s : State) (r : Ref) (fmt rows cols : Nat) : MatRef :=
  let dense : MatRef :=
    let stride := denseRow fmt cols
    { fmt := fmt, rows := rows, cols := cols, stride := stride, data := r, scale := ⟨r.space, roundUp (r.off + rows * stride) 64⟩
      outlier := none, outliers := 0, allRows := rows, allCols := cols }
  match refArea s r with
  | some (.tensor t) =>
    { dense with
      stride := t.stride, scale := ⟨r.space, t.scaleOffset⟩
      data := ⟨r.space, r.off / t.stride * t.stride⟩, r0 := r.off / t.stride, c0 := r.off % t.stride * 8 / elemBits (fmt % 64)
      allRows := (t.dims.take 3).foldl (· * ·) 1, allCols := (t.dims[3]?).getD 1
      outlier := if t.outliers = 0 then none else some ⟨r.space, t.outlierOffset⟩, outliers := t.outliers }
  | _ => dense

/-- A matrix operand as loaded: its bytes, scale stream and outlier block, each from 0. -/
structure Mat where
  ref : MatRef
  data : Memory
  scale : Memory
  outlier : Memory
  deriving DecidableEq, Repr

/-- Bytes of an operand's data from its first row: its elements, and its trailers when block-scaled (R240). -/
def MatRef.bytes (m : MatRef) : Nat :=
  if m.rows = 0 then 0
  else (m.rows - 1) * m.stride + (if m.fmt / 64 = 3 then packedBytes (m.fmt % 64) m.allCols + ceilDiv (blocksOf m.allCols) 2
    else packedBytes (m.fmt % 64) (m.c0 + m.cols))

/-- Units of the whole matrix's scale stream. -/
def MatRef.units (m : MatRef) : Nat := scaleUnits m.fmt m.allRows m.allCols

/-- Load a matrix operand's outlier block: its head, and a line of values for each index along the other axis (09 R250). -/
def loadOutliers (x : CtxId) (track : Bool) (m : MatRef) : Eng Memory := do
  match m.outlier with
  | none => return []
  | some r =>
    let head ← loadRef x track r 0 320
    loadRef x track r 0 (320 + (if mget head 1 = 0 then m.allCols else m.allRows) * roundUp (2 * m.outliers) 64)

/-- Load a matrix operand whole. -/
def loadMat (x : CtxId) (track : Bool) (m : MatRef) : Eng Mat := do
  let data ← loadRef x track m.data 0 m.bytes
  let units := m.units
  let scale ← if m.fmt / 64 = 0 then pure [] else do
    let head ← loadRef x track m.scale 0 64
    loadRef x track m.scale 0 (scaleBytes m.fmt units (max 1 (mget head 2).toNat))
  return ⟨m, data, scale, ← loadOutliers x track m⟩

/-- Code of an element (R236). -/
def Mat.code (m : Mat) (r c : Nat) : Nat :=
  let elem := m.ref.fmt % 64
  let base := r * m.ref.stride
  let c := m.ref.c0 + c
  match elemBits elem with
  | 4 => bitsAt (mget m.data (base + c / 2)).toNat (if c % 2 = 0 then 0 else 4) 4
  | 8 => (mget m.data (base + c)).toNat
  | 16 => mfield m.data (base + 2 * c) 2
  | _ => mfield m.data (base + 4 * c) 4

/-- Scale unit of an element (09, before R238). -/
def Mat.unit (m : Mat) (r c : Nat) : Nat :=
  match m.ref.fmt / 64 with
  | 1 => m.ref.r0 + r
  | 2 => m.ref.c0 + c
  | _ => (m.ref.r0 + r) * blocksOf m.ref.allCols + (m.ref.c0 + c) / 32

/-- Exponent byte of a block (R239), channel entry fields (09 table after R239). -/
def Mat.exponent (m : Mat) (u : Nat) : Nat := (mget m.scale (64 + u)).toNat
def Mat.chanScale (m : Mat) (u : Nat) : U32 := BitVec.ofNat 32 (mfield m.scale (64 + 16 * u) 4)
def Mat.chanZero (m : Mat) (u : Nat) : U32 := BitVec.ofNat 32 (mfield m.scale (64 + 16 * u + 4) 4)

/-- Tag byte of a unit. -/
def Mat.tag (m : Mat) (u : Nat) : Nat :=
  if m.ref.fmt / 64 = 3 then (mget m.scale (64 + roundUp m.ref.units 64 + u)).toNat
  else (mget m.scale (64 + 16 * u + 8)).toNat

/-- A channel of an unsigned format whose elements all have its zero point's value (R241, R247). -/
def Mat.degenerate (m : Mat) (u : Nat) : Bool :=
  (m.ref.fmt % 64 == 2 || m.ref.fmt % 64 == 4) && (m.tag u).testBit 6 && m.ref.fmt / 64 != 0

/-- Zero point of an element as an integer (R241). -/
def Mat.zero (m : Mat) (r c : Nat) : Int :=
  if (m.ref.fmt % 64 = 2 ∨ m.ref.fmt % 64 = 4) ∧ m.ref.fmt / 64 ≠ 0 then (f32ToInt (m.chanZero (m.unit r c))).getD 0 else 0

/-- Sequence of a block of a row, numbered in the whole matrix, in the data's trailer (R240) and in the scale stream. -/
def Mat.dataSeq (m : Mat) (r b : Nat) : Nat :=
  bitsAt (mget m.data (r * m.ref.stride + packedBytes (m.ref.fmt % 64) m.ref.allCols + b / 2)).toNat (if b % 2 = 0 then 0 else 4) 4
def Mat.scaleSeq (m : Mat) (r b : Nat) : Nat := m.tag ((m.ref.r0 + r) * blocksOf m.ref.allCols + b) % 16

/-- A block's sequences differ (07 R196, 09 R249). -/
def Mat.desynced (m : Mat) (r b : Nat) : Bool := m.ref.fmt / 64 == 3 && m.dataSeq r b != m.scaleSeq r b

/-- The scale stream disagrees with the format byte (09 R245). -/
def Mat.streamWrong (m : Mat) : Bool :=
  m.ref.fmt / 64 != 0 && ((mget m.scale 0).toNat != m.ref.fmt / 64 || (mget m.scale 1).toNat != m.ref.fmt % 64)

/-- The element as it enters the array: after Decode, before per-channel scales (07 R189, R190, 09 R239, R241). -/
def Mat.entry (m : Mat) (r c : Nat) : Val :=
  let elem := m.ref.fmt % 64
  match m.ref.fmt / 64 with
  | 3 =>
    let e := m.exponent (m.unit r c)
    if e = 255 then .nan
    else (elemVal elem (m.code r c)).mul (.fin false 1 ((e : Int) - 127))
  | 0 => elemVal elem (m.code r c)
  | _ =>
    if m.degenerate (m.unit r c) then .fin false 0 0
    else if isInt elem then
      let n := intOf elem (m.code r c) - m.zero r c
      .fin (decide (n < 0)) n.natAbs 0
    else elemVal elem (m.code r c)

/-- The element's real value (09 R241), as FP32: dequantised. -/
def Mat.value (m : Mat) (r c : Nat) : U32 :=
  let u := m.unit r c
  if m.degenerate u then m.chanZero u
  else match m.ref.fmt / 64 with
    | 1 | 2 => toF32 ((m.entry r c).mul (ofF32 (m.chanScale u)))
    | _ => toF32 (m.entry r c)

/-- Outlier channels of a matrix on an axis (0 rows, 1 columns), ascending, as the operand's own indices with their position in the
block (09 R250). -/
def Mat.outlierSlots (m : Mat) (axis : Nat) : List (Nat × Nat) :=
  if m.ref.outliers = 0 ∨ (mget m.outlier 1).toNat ≠ axis then []
  else (List.range (mget m.outlier 0).toNat).filterMap fun i =>
    let k := mfield m.outlier (64 + 4 * i) 4
    let (o, n) := if axis = 0 then (m.ref.r0, m.ref.rows) else (m.ref.c0, m.ref.cols)
    if o ≤ k ∧ k < o + n then some (k - o, i) else none

def Mat.outlierSet (m : Mat) (axis : Nat) : List Nat := (m.outlierSlots axis).map (·.1)

/-- The BF16 value of outlier channel `k` at index `i` of the other axis, widened (09 R250, R251). -/
def Mat.outlierAt (m : Mat) (axis k i : Nat) : U32 :=
  match findFirst (fun p => p.1 == k) (m.outlierSlots axis) with
  | none => 0
  | some p =>
    let i := i + (if axis = 0 then m.ref.c0 else m.ref.r0)
    BitVec.ofNat 32 (mfield m.outlier (320 + i * roundUp (2 * m.ref.outliers) 64 + 2 * p.2) 2 * 65536)

/-! ## Lists (R132) -/

/-- A list operand: its elements, their width, and whether it is a SET. -/
structure Lst where
  isSet : Bool
  width : Nat
  elems : List (List Byte)
  flags : Nat
  capacity : Nat
  deriving DecidableEq, Repr

def Lst.ids (l : Lst) : List Nat := l.elems.map leNat

/-- The SET that an operand names, with its Capacity (R132). -/
def setOf (s : State) (r : Ref) : Option (Nat × Nat) :=
  match r.space, refArea s r with
  | .obj h, some (.set _ k) => some (h, k)
  | _, _ => none

/-- Where a list begins: a SET's elements lie from payload offset 0 (R132). -/
def listRef (s : State) (r : Ref) : Ref := if (setOf s r).isSome then ⟨r.space, 0⟩ else r

/-- Bytes that a list of `n` elements takes from there, its 64-byte header included unless it is a SET. -/
def listSize (s : State) (r : Ref) (w n : Nat) : Nat := if (setOf s r).isSome then 8 * n else 64 + w * n

/-- Count of a SET as a context sees it: its transaction's own first, then the header's, here or at its home (R132, R141). -/
def countOf (x : CtxId) (track : Bool) (h : Nat) : Eng Nat := do
  let s ← getThe State
  if homeOf h ≠ moduleId s then
    return fieldAt (← askHome x track h 0 1 0 0 []) 72 8
  else
    let id := ctxTx s x
    let held := if id = 0 then none else (getTx s id).bind fun t => aget t.counts h
    if track && id != 0 then mutate fun s => trackRead s id h (.header h)
    match held with
    | some n => return n
    | none => return (match headerArea s h with | some (.set n _) => n | _ => 0)

/-- Load an input list; a Count above Capacity or a wrong element width is a context fault with code 6. -/
def loadList (x : CtxId) (track : Bool) (r : Ref) (width : Nat) : Eng Lst := do
  let s ← getThe State
  match setOf s r with
  | some (h, k) =>
    if width ≠ 8 then stop (.fault 6 r.off)
    let n ← countOf x track h
    if n > k then stop (.fault 6 r.off)
    let m ← loadRef x track ⟨r.space, 0⟩ 0 (8 * n)
    return ⟨true, 8, (List.range n).map fun i => mread m (8 * i) 8, 2, k⟩
  | none =>
    let h ← loadRef x track r 0 64
    let n := mfield h 0 8
    let k := mfield h 8 8
    if n > k ∨ (mget h 20).toNat ≠ width then stop (.fault 6 r.off)
    let m ← loadRef x track r 64 (n * width)
    return ⟨false, width, (List.range n).map fun i => mread m (width * i) width, mfield h 16 4, k⟩

/-- An output list before it is written: the SET it is, if it is one, its Capacity and the width of its elements (R132). -/
structure OutList where
  ref : Ref
  set : Option Nat
  capacity : Nat
  width : Nat
  deriving DecidableEq, Repr

/-- The output list of an operand. -/
def outList (x : CtxId) (track : Bool) (r : Ref) : Eng OutList := do
  let s ← getThe State
  match setOf s r with
  | some (h, k) => return ⟨⟨r.space, 0⟩, some h, k, 8⟩
  | none =>
    let m ← loadRef x track r 8 13
    return ⟨r, none, mfield m 0 8, (mget m 12).toNat⟩

/-- Bytes that `n` elements of a width take in an output list. -/
def OutList.bytes (l : OutList) (w n : Nat) : Nat := if l.set.isSome then 8 * n else 64 + w * n

/-- Strictly ascending ids (R160). -/
def ascending : List Nat → Bool
  | a :: b :: r => decide (a < b) && ascending (b :: r)
  | _ => true

/-- Make it possible to write an output list: a longer one is a context fault with code 8 unless it is cut to Capacity. A SET holds u64
elements in strictly ascending order (R132): other elements are a context fault with code 6, DESIGN CHOICE (log entry 142). -/
def prepList (x : CtxId) (l : OutList) (w : Nat) (elems : List (List Byte)) (truncates : Bool) : Eng Unit := do
  if elems.length > l.capacity ∧ !truncates then stop (.fault 8 l.ref.off)
  let kept := elems.take l.capacity
  if l.set.isSome ∧ (w ≠ 8 ∨ !ascending (kept.map leNat)) then stop (.fault 6 l.ref.off)
  prepRef x l.ref 0 (l.bytes w kept.length)

/-- The bytes that an output list stores: its elements, then its Count and Flags (R132); a SET has its elements alone. -/
def OutList.stores (l : OutList) (elems : List (List Byte)) (flags : Nat) : List (Ref × Nat × List Byte) :=
  let kept := elems.take l.capacity
  let flags := if elems.length > l.capacity then flags ||| 1 else flags
  if l.set.isSome then [(l.ref, 0, kept.flatten)] else [(l.ref, 64, kept.flatten), (l.ref, 0, toLE 8 kept.length), (l.ref, 16, toLE 4 flags)]

/-- Write an output list: its elements, then its Count and Flags when the record completes (R132). A SET keeps its Count in its header:
here, or at its home, which is told. -/
def saveList (x : CtxId) (l : OutList) (elems : List (List Byte)) (flags : Nat) : Eng Unit := do
  let kept := elems.take l.capacity
  (l.stores elems flags).forM fun e => saveRef x e.1 e.2.1 e.2.2
  match l.set with
  | some h =>
    let s ← getThe State
    if homeOf h = moduleId s then
      mutate fun s => storeCount s (ctxTx s x) h kept.length
    else
      let id := ctxTx s x
      let fields := [2, h, 0, 0].flatMap (toLE 8) ++ toLE 16 kept.length
      match sendRequest s (.context x.job x.idx) (homeOf h) (Config.messageCode Msg.carried.num) h 0 (askKey h 1) id
          (jobPolder s x.job) (Config.remoteGroup h) fields with
      | (none, _) => stop (.fault 11 0)
      | (some _, s) => set (modCtx (addPart s id (homeOf h)) x fun c => { c with awaiting := c.awaiting + 1 })
  | none => return

end Sys2Proof.Machine
end

