-- ==== Sys2Proof/Machine/Array.lean ====
section
/-! DEFINITION. Machine/Array.lean: the sums of the dual-tree array: chunks, alignment, promotion, tile flags (07 R188-R204), and
outlier and degenerate channels at promotion (09 R247, R251). -/

namespace Sys2Proof.Machine

def TileFlags.or (a b : TileFlags) : TileFlags :=
  ⟨a.desync || b.desync, a.nonfinite || b.nonfinite, a.satTotal || b.satTotal, a.satAcc || b.satAcc⟩

/-- Cell mode of an operand pair (R189). -/
inductive CellMode where
  | four
  | eight
  | sixteen
  deriving DecidableEq, Repr

def intClass (e : Nat) : Bool := e == 1 || e == 2 || e == 3 || e == 4
def narrowClass (e : Nat) : Bool := e == 5 || e == 6 || e == 7
def wideClass (e : Nat) : Bool := e == 8 || e == 9

/-- The mode two element codes fix, none when the pair is not in the table (R189). -/
def cellMode (a b : Nat) : Option CellMode :=
  if (intClass a && intClass b && elemBits a == 4 && elemBits b == 4) || (a == 5 && b == 5) then some .four
  else if (intClass a && intClass b) || (narrowClass a && narrowClass b) then some .eight
  else if (a == 8 && b == 8) || (a == 9 && b == 9) || (wideClass a && (intClass b || narrowClass b)) ||
      (wideClass b && (intClass a || narrowClass a)) then some .sixteen
  else none

/-- Contraction indices one streamed vector carries (R189): 128 in a transposed read in the 4-bit mode, but on A0. -/
def vectorWidth (a0 : Bool) (m : CellMode) (transposed : Bool) : Nat :=
  if m = .four ∧ transposed ∧ ¬ a0 then 128 else 64

/-- Chunk length of a record: 128 for 0; an odd multiple of 16 goes to the next multiple of 32 in a transposed read in the 4-bit
mode, but on A0 (R197). -/
def chunkLength (a0 : Bool) (m : CellMode) (transposed : Bool) (field : Nat) : Nat :=
  let l := if field = 0 then 128 else field
  if m = .four ∧ transposed ∧ ¬ a0 then roundUp l 32 else l

/-- A chunk's fixed-point entry: its sum and its alignment exponent, none while every product was zero (R198). -/
abbrev Entry := Option (Int × Int)

/-- Floor of n × 2^-s. -/
def shiftDown (n : Int) (s : Nat) : Int := n / (2 ^ s : Nat)

/-- Exponent of a product: the least E with |p| < 2^E (log entry 11). -/
def prodExp (m : Nat) (e : Int) : Int := e + (Nat.log2 m : Int) + 1

/-- Floor of a signed dyadic at a least significant bit of 2^q. -/
def floorAt (neg : Bool) (m : Nat) (e q : Int) : Int :=
  if q ≤ e then sm neg (m * 2 ^ (e - q).toNat) else shiftDown (sm neg m) (q - e).toNat

/-- Add one vector's portion of a chunk into its entry (R198). -/
def addPortion (acc : Entry) (ps : List (Bool × Nat × Int)) : Entry :=
  let live := ps.filter fun p => p.2.1 != 0
  match live.map fun p => prodExp p.2.1 p.2.2 with
  | [] => acc
  | e0 :: es =>
    let emax := es.foldl max e0
    let sum := (live.map fun p => floorAt p.1 p.2.1 p.2.2 (emax - 23)).foldl (· + ·) 0
    match acc with
    | none => some (sum, emax)
    | some (a, e) =>
      if e ≤ emax then some (shiftDown a (emax - e).toNat + sum, emax) else some (a + shiftDown sum (e - emax).toNat, e)

/-- The special-value lane of a chunk (R195). -/
structure Special where
  nan : Bool := false
  pos : Bool := false
  neg : Bool := false
  deriving DecidableEq, Repr

def noteSpecial (z : Special) : Val → Special
  | .nan => { z with nan := true }
  | .inf true => { z with neg := true }
  | .inf false => { z with pos := true }
  | .fin .. => z

/-- Cut a contraction into the runs that one vector and one chunk share: boundaries at multiples of both (R197, R198). -/
def portions {α : Type} (w : Nat) : Nat → Nat → List α → List (List α)
  | 0, _, _ => []
  | _, _, [] => []
  | fuel + 1, at', l =>
    let n := w - at' % w
    l.take n :: portions w fuel (at' + n) (l.drop n)

/-- One chunk of the float classes and of integers with scaled blocks: its value (R195, R198). -/
def chunkFloat (w start : Nat) (ps : List Val) : Val :=
  let z := ps.foldl noteSpecial {}
  if z.nan || (z.pos && z.neg) then .nan
  else if z.pos then .inf false
  else if z.neg then .inf true
  else
    let fins := ps.map fun p => match p with | .fin n m e => (n, m, e) | _ => (false, 0, 0)
    match (portions w (ps.length + 1) start fins).foldl addPortion none with
    | none => .fin false 0 0
    | some (a, e) => .fin (decide (a < 0)) a.natAbs (e - 23)

def satInt32 (n : Int) : Int × Bool :=
  if n < -2147483648 then (-2147483648, true) else if 2147483647 < n then (2147483647, true) else (n, false)

/-- One chunk of integers without block scales: int32, saturating (R199). -/
def chunkInt (w start : Nat) (ps : List Int) : Int × Bool :=
  (portions w (ps.length + 1) start ps).foldl (fun acc p =>
    let (n, sat) := satInt32 (acc.1 + p.foldl (· + ·) 0)
    (n, acc.2 || sat)) (0, false)

/-- An exact new total rounded once: beyond the largest finite value it saturates, unless it was infinite already (R200). -/
def roundTotal (wasInf : Bool) (v : Val) : U32 × TileFlags :=
  let r := toF32 v
  if fIsInf r && !wasInf then ((if r.getLsbD 31 then fneg f32Max else f32Max), { satTotal := true }) else (r, {})

/-- Add a chunk, scaled by `s`, to an exact value with one rounding; a total beyond the largest finite value saturates and becomes infinite
only from a special chunk or from an infinite total (R195, R200). -/
def promoteInto (old : Val) (wasInf : Bool) (s : U32) (chunk : Val) : U32 × TileFlags :=
  match chunk with
  | .fin n m e =>
    let c : Val := match pack fp32 (.fin n m e) with
      | (code, _) => if fIsInf (BitVec.ofNat 32 code) then .fin n m e else unpack fp32 code
    roundTotal wasInf ((c.mul (ofF32 s)).add old)
  | v => (toF32 (v.add old), { nonfinite := true })

/-- Add a product of the vector unit at promotion (09 R247, R251): one fused multiply-add, with the saturation and the flags of a promotion. -/
def promoteProduct (total a b : U32) : U32 × TileFlags :=
  match (ofF32 a).mul (ofF32 b) with
  | .fin n m e => roundTotal (fIsInf total) ((Val.fin n m e).add (ofF32 total))
  | v => (toF32 (v.add (ofF32 total)), { nonfinite := true })

/-- Products added in order, with what they flag. -/
def promoteProducts (l : List (U32 × U32)) (t : U32 × TileFlags) : U32 × TileFlags :=
  l.foldl (fun t q => let r := promoteProduct t.1 q.1 q.2; (r.1, t.2.or r.2)) t

/-- Add a chunk into the running total (R200). -/
def promote (total s : U32) (chunk : Val) : U32 × TileFlags := promoteInto (ofF32 total) (fIsInf total) s chunk

/-- One output element: products in contraction order, cut into chunks and promoted in ascending order; after each chunk the
products that the vector unit adds (outlier and degenerate channels), one fused multiply-add each, in ascending index. -/
structure DotSpec where
  ints : Bool
  w : Nat
  chunk : Nat
  scale : U32
  deriving DecidableEq, Repr

def dotChunk (d : DotSpec) (start : Nat) (ps : List (Val × Val)) (total : U32) : U32 × TileFlags :=
  if d.ints then
    let prods := ps.map fun p => match p.1, p.2 with
      | .fin a m _, .fin b k _ => sm a m * sm b k
      | _, _ => 0
    let (n, sat) := chunkInt d.w start prods
    let (t, f) := promote total d.scale (ofF32 (f32OfInt n))
    (t, { f with satAcc := sat })
  else promote total d.scale (chunkFloat d.w start (ps.map fun p => p.1.mul p.2))

def dotLoop (d : DotSpec) (extra : Nat → Option (U32 × U32)) :
    Nat → Nat → List (Val × Val) → U32 → TileFlags → U32 × TileFlags
  | 0, _, _, t, f => (t, f)
  | _, _, [], t, f => (t, f)
  | fuel + 1, start, l, t, f =>
    let part := l.take d.chunk
    let (t, g) := promoteProducts ((List.range part.length).filterMap fun k => extra (start + k)) (dotChunk d start part t)
    dotLoop d extra fuel (start + part.length) (l.drop d.chunk) t (f.or g)

/-- Running total of an output element from its first value (R200, R201); one that is not finite has entered the total (R203). -/
def dot (d : DotSpec) (extra : Nat → Option (U32 × U32)) (l : List (Val × Val)) (init : U32) : U32 × TileFlags :=
  dotLoop d extra (l.length + 1) 0 l init { nonfinite := fIsNan init || fIsInf init }

/-- How a heavy product reads its operands: A streamed over the contraction, B stored; forward, B's rows are the contraction;
transposed, its columns (R188). `aT` streams A by columns (the Hᵀ of GRADPAIR). -/
structure Product where
  a : Mat
  b : Mat
  aT : Bool
  bT : Bool
  chunk : Nat
  a0 : Bool
  deriving DecidableEq, Repr

def Product.depth (p : Product) : Nat := if p.aT then p.a.ref.rows else p.a.ref.cols
def Product.mode (p : Product) : CellMode := (cellMode (p.a.ref.fmt % 64) (p.b.ref.fmt % 64)).getD .eight

def Product.aAt (p : Product) (m k : Nat) : Nat × Nat := if p.aT then (k, m) else (m, k)
def Product.bAt (p : Product) (k n : Nat) : Nat × Nat := if p.bT then (n, k) else (k, n)

/-- Integer chunks: both operands integer, neither with scaled blocks (R198, R199). -/
def Product.ints (p : Product) : Bool :=
  intClass (p.a.ref.fmt % 64) && intClass (p.b.ref.fmt % 64) && p.a.ref.fmt / 64 != 3 && p.b.ref.fmt / 64 != 3

/-- Per-channel scale of an operand for an output index, 1 when it has none (R199). -/
def chanScaleAt (m : Mat) (r c : Nat) : U32 :=
  if m.ref.fmt / 64 = 1 ∨ m.ref.fmt / 64 = 2 then
    (if m.degenerate (m.unit r c) then f32One else m.chanScale (m.unit r c))
  else f32One

/-- A per-channel scale along the contraction belongs to no output index; the manual gives the product no value (R199). -/
def Product.scalesApply (p : Product) : Bool :=
  let ok := fun (m : Mat) (t : Bool) => m.ref.fmt / 64 == 0 || m.ref.fmt / 64 == 3 || (m.ref.fmt / 64 == (if t then 2 else 1))
  ok p.a p.aT && ok p.b (!p.bT)

/-- One element (m, n) of a product added to `init` (R188, R197-R200, 09 R247, R251). -/
def Product.element (p : Product) (init : U32) (m n : Nat) : U32 × TileFlags :=
  if !p.scalesApply then (Config.openValue 1 (BitVec.ofNat 32 m) (BitVec.ofNat 32 n), {})
  else
  let ks := List.range p.depth
  let pairs := ks.map fun k =>
    (p.a.entry (p.aAt m k).1 (p.aAt m k).2, p.b.entry (p.bAt k n).1 (p.bAt k n).2)
  let s := fmul (chanScaleAt p.a (p.aAt m 0).1 (p.aAt m 0).2) (chanScaleAt p.b (p.bAt 0 n).1 (p.bAt 0 n).2)
  let axisA := if p.aT then 0 else 1
  let axisB := if p.bT then 1 else 0
  let oa := p.a.outlierSet axisA
  let ob := p.b.outlierSet axisB
  let extra := fun k =>
    let (ar, ac) := p.aAt m k
    let (br, bc) := p.bAt k n
    let da := p.a.degenerate (p.a.unit ar ac)
    let db := p.b.degenerate (p.b.unit br bc)
    if oa.contains k || ob.contains k || da || db then
      some (if oa.contains k then p.a.outlierAt axisA k m else p.a.value ar ac,
            if ob.contains k then p.b.outlierAt axisB k n else p.b.value br bc)
    else none
  dot ⟨p.ints, vectorWidth p.a0 p.mode p.bT, chunkLength p.a0 p.mode p.bT p.chunk, s⟩ extra pairs init

/-- Outlier and degenerate products of an element (09 R251, OD 0x9C00:06). -/
def Product.extras (p : Product) (m n : Nat) : Nat :=
  let axisA := if p.aT then 0 else 1
  let axisB := if p.bT then 1 else 0
  ((List.range p.depth).filter fun k =>
    (p.a.outlierSet axisA).contains k || (p.b.outlierSet axisB).contains k ||
    p.a.degenerate (p.a.unit (p.aAt m k).1 (p.aAt m k).2) || p.b.degenerate (p.b.unit (p.bAt k n).1 (p.bAt k n).2)).length

/-- Blocks of the whole matrix that some columns of an operand lie in. -/
def Mat.blocksFor (m : Mat) (cols : List Nat) : List Nat := nubList (cols.map fun c => (m.ref.c0 + c) / 32)

/-- A block sequence mismatch feeds the tile of rows and columns given (R196). -/
def Product.desync (p : Product) (ms ns : List Nat) : Bool :=
  let bad := fun (m : Mat) (byRow : Bool) (idx : List Nat) (deep : Nat) =>
    m.ref.fmt / 64 == 3 &&
    (if byRow then idx.any fun r => (m.blocksFor (List.range deep)).any fun b => m.desynced r b
     else (List.range deep).any fun r => (m.blocksFor idx).any fun b => m.desynced r b)
  bad p.a (!p.aT) ms p.depth || bad p.b p.bT ns p.depth

/-- A cell product is gated when either element is zero after Decode (R194). -/
def Val.isZero : Val → Bool
  | .fin _ 0 _ => true
  | _ => false

/-- Gated cell products of an element (R194, OD 0x9A00:05). -/
def Product.gated (p : Product) (m n : Nat) : Nat :=
  ((List.range p.depth).filter fun k =>
    (p.a.entry (p.aAt m k).1 (p.aAt m k).2).isZero || (p.b.entry (p.bAt k n).1 (p.bAt k n).2).isZero).length

/-- Issue interval, output width of a weight tile, and load cycles of a tile (R189, R193, R210). -/
def CellMode.interval : CellMode → Nat
  | .sixteen => 4
  | _ => 1

def Product.outWidth (p : Product) : Nat := if p.mode = .four ∧ !p.bT then 128 else 64

/-- Whether a weight register holds two elements of this product's stored operand (R189). -/
def Product.paired (p : Product) : Bool := p.mode == .four && !(p.a0 && p.bT)

/-- First row and column of the stored operand that weight tile `t` of a step holds (R188): `lane` is the step's first output column. -/
def Product.tileAt (p : Product) (lane t : Nat) : Nat × Nat :=
  let q := t * vectorWidth p.a0 p.mode p.bT
  if p.bT then (lane, q) else (q, lane)

/-- What the weight registers hold of a tile (R188, R189): the element's code, or the codes of two elements, the lower index in the low half; cells
beyond the operand's edge hold zero (DESIGN CHOICE, log entry 146). -/
def Product.tileRegs (p : Product) (r0 c0 : Nat) : List (List (BitVec 16)) :=
  let at' := fun (r c : Nat) => if r < p.b.ref.rows ∧ c < p.b.ref.cols then p.b.code r c else 0
  (List.range 64).map fun r => (List.range 64).map fun c =>
    BitVec.ofNat 16 (if p.paired then at' (r0 + r) (c0 + 2 * c) + 256 * at' (r0 + r) (c0 + 2 * c + 1) else at' (r0 + r) (c0 + c))

/-- Load cycles of a weight tile (R193). -/
def Product.loadCycles (p : Product) : Nat := ceilDiv (vectorWidth p.a0 p.mode p.bT * p.outWidth * elemBits (p.b.ref.fmt % 64)) 512

/-- Weight tiles of a record, in order: the first row and column of the stored operand of each (R210). -/
def Product.tiles (p : Product) (rows cols : Nat) : List (Nat × Nat) :=
  (List.range (ceilDiv rows 64)).flatMap fun _ => (List.range (ceilDiv cols p.outWidth)).flatMap fun j =>
    (List.range (ceilDiv p.depth (vectorWidth p.a0 p.mode p.bT))).map fun t => p.tileAt (j * p.outWidth) t

/-- Array cycles of a record of this product: entries, weight-load bubbles (R191, R193, R210). -/
def Product.cycles (p : Product) (rows cols : Nat) : Nat × Nat :=
  let win := vectorWidth p.a0 p.mode p.bT
  let tilesK := ceilDiv p.depth win
  let tilesN := ceilDiv cols p.outWidth
  let q := p.mode.interval
  let load := p.loadCycles
  let rowTiles := (List.range (ceilDiv rows 64)).map fun i => min 64 (rows - 64 * i)
  let per := fun (r : Nat) => load - r * q
  let total := (rowTiles.map fun r => tilesN * tilesK * per r).foldl (· + ·) 0
  let lastOne := match rowTiles.getLast? with | some r => per r | none => 0
  ((rowTiles.map fun r => r * tilesN * tilesK).foldl (· + ·) 0, load + total - lastOne)

/-- Channels of the contraction that are outliers of either operand (09 R251). -/
def Product.outlierChannels (p : Product) : Nat :=
  (nubList (p.a.outlierSet (if p.aT then 0 else 1) ++ p.b.outlierSet (if p.bT then 1 else 0))).length

/-! ## The registers of the array (R187, R193) -/

/-- Load weight tiles in order, each into the buffer that the one before did not take: the last two stay. -/
def ArrayRegs.load (g : ArrayRegs) (p : Product) (l : List (Nat × Nat)) : ArrayRegs :=
  let last := ((List.range l.length).zip l).drop (l.length - 2)
  let g' := last.foldl (fun (h : ArrayRegs) q =>
    let tile := p.tileRegs q.2.1 q.2.2
    if g.buffer != (q.1 % 2 == 1) then { h with w1 := tile } else { h with w0 := tile }) g
  { g' with buffer := g.buffer != (l.length % 2 == 1) }

/-- What a step leaves in the chunk accumulator file: its chunks are handed off, and the entries it used hold what the manual leaves open. -/
def ArrayRegs.spent (g : ArrayRegs) (key rows lanes : Nat) : ArrayRegs :=
  { g with chunks := (List.range 64).map fun r => (List.range 128).map fun c =>
      if r < rows ∧ c < lanes then Config.openValue 20 (BitVec.ofNat 32 key) (BitVec.ofNat 32 (128 * r + c)) else ((((g.chunks[r]?).getD [])[c]?).getD 0) }

/-- Fill the transpose buffer (R187): 64 rows of 64 codes. -/
def ArrayRegs.fill (g : ArrayRegs) (code : Nat → Nat → Nat) : ArrayRegs :=
  { g with transpose := (List.range 64).map fun r => (List.range 64).map fun c => BitVec.ofNat 16 (code r c) }

end Sys2Proof.Machine
end

