-- ==== Sys2Proof/Machine/Index.lean ====
section
/-! DEFINITION. Machine/Index.lean: what an INDEX holds and computes: sketches, distances, probe sets, scans, re-ranking, inserts and
deletes (12). -/

namespace Sys2Proof.Machine

/-- The index area of a live INDEX. -/
def indexArea (s : State) (h : Nat) : Option IndexArea :=
  match kget s.objs h with
  | some o => (match o.area with | .index a => some a | _ => none)
  | none => none

def State.idx (s : State) (h : Nat) : IndexSt := (kget s.indexes h).getD {}
def State.modIdx (s : State) (h : Nat) (f : IndexSt → IndexSt) : State := { s with indexes := kset s.indexes h (f (s.idx h)) }
def State.modIdxArea (s : State) (h : Nat) (f : IndexArea → IndexArea) : State :=
  s.modObj h fun o => match o.area with | .index a => { o with area := .index (f a) } | _ => o

/-- Bytes of a vector slot: the elements rounded up to 64 (R302). -/
def vectorBytes (a : IndexArea) : Nat := roundUp (packedBytes (a.format % 64) a.dim) 64

/-- Elements of a vector widened to FP32 (R318). -/
def vectorOf (a : IndexArea) (b : List Byte) : List U32 :=
  let elem := a.format % 64
  let k := elemBits elem / 8
  (List.range a.dim).map fun i => toF32 (elemVal elem (fieldAt b (i * k) k))

/-- A TENSOR read by the runtime: its elements as FP32, row by row; none when a page or line of it cannot be read. -/
def tensorRows (s : State) (h rows cols : Nat) : Option (List (List U32)) :=
  match kget s.objs h with
  | none => none
  | some o =>
    match o.area with
    | .tensor t =>
      (match (readPayload s o.base o.length 0).1 with
      | .ok m =>
        let fmt := t.format
        let r : MatRef := { matRef s ⟨.obj h, 0⟩ fmt rows cols with rows := rows, cols := cols }
        let mat : Mat := ⟨r, m, mcopy m t.scaleOffset (o.length - t.scaleOffset) [] 0, []⟩
        some ((List.range rows).map fun i => (List.range cols).map fun j => mat.value i j)
      | _ => none)
    | _ => none

/-- Sum of terms in 64-element groups in the tree order, groups added in ascending order (R318). -/
def termSum (l : List U32) : U32 := rowSum l

def innerSum (q x : List U32) : U32 := termSum ((q.zip x).map fun p => fmul p.1 p.2)

/-- Distance under a metric (R318). A cosine distance with a norm of 0 is NaN, and a NaN is the one that sorts last (R235, R319). -/
def distance (metric : Nat) (q x : List U32) : U32 :=
  let minus := fun (v : U32) => if fIsNan v then f32Nan else fneg v
  match metric with
  | 1 => termSum ((q.zip x).map fun p => let d := fsub p.1 p.2; fmul d d)
  | 2 => minus (innerSum q x)
  | _ =>
    let nx := termSum (x.map fun v => fmul v v)
    let nq := termSum (q.map fun v => fmul v v)
    if fabs nx = 0 ∨ fabs nq = 0 then f32Nan
    else minus (fmul (fmul (innerSum q x) (frsqrt nx)) (frsqrt nq))

/-- The sketch of a vector: bit b is y_b > t_b, a NaN y_b gives 0 (R305). -/
def sketchOf (proj : List (List U32)) (thr : List U32) (v : List U32) : BitVec 512 :=
  let bits := (proj.zip thr).map fun p => flt p.2 (innerSum p.1 v)
  BitVec.ofNat 512 (bits.foldr (fun b acc => (if b then 1 else 0) + 2 * acc) 0)

/-- Projection, thresholds and centroids of an index, none when one of them cannot be read. -/
def indexTensors (s : State) (a : IndexArea) : Option (List (List U32) × List U32 × List (List U32)) :=
  match tensorRows s a.projection 512 a.dim, tensorRows s a.thresholds 1 512, tensorRows s a.centroids a.partitions a.dim with
  | some p, some t, some c => some (p, (t.head?).getD [], c)
  | _, _, _ => none

/-- Order of results: the IEEE total order of the distances, then ascending id (R319). -/
def nearer (a b : Nat × U32) : Bool :=
  decide (totalKey 32 a.2.toNat < totalKey 32 b.2.toNat) || (a.2 == b.2 && decide (a.1 < b.1))

/-- A query as it enters the probe: an FP32 vector as BF16 (R314). -/
def probeVector (a : IndexArea) (v : List U32) : List U32 :=
  if a.format % 64 = 10 then v.map fun x => toF32 (unpack bf16 (pack bf16 (ofF32 x)).1) else v

/-- The `lists` partitions nearest to a query, ties to the lower number (R314). -/
def probeSet (a : IndexArea) (cents : List (List U32)) (v : List U32) (lists : Nat) : List Nat :=
  let q := probeVector a v
  let d := (List.range cents.length).zip (cents.map fun c => distance a.metric q c)
  ((sortBy (fun x y => nearer x y) d).take lists).map (·.1)

/-- One term of a predicate on the attribute words (R312). -/
def termHolds (attrs : List U32) (w op a b : Nat) : Bool :=
  let x := ((attrs[w]?).getD 0).toNat
  match op with
  | 1 => x == a
  | 2 => x != a
  | 3 => decide (a ≤ x) && decide (x ≤ b)
  | 4 => decide (x < a) || decide (b < x)
  | 5 => (BitVec.ofNat 32 x &&& BitVec.ofNat 32 a) != 0
  | 6 => (BitVec.ofNat 32 x &&& BitVec.ofNat 32 a) == BitVec.ofNat 32 a
  | 7 => (BitVec.ofNat 32 x &&& BitVec.ofNat 32 a) == 0
  | _ => Config.openValue 2 (BitVec.ofNat 32 op) (BitVec.ofNat 32 x) != 0

/-- The 64-byte predicate block that follows the vector in a query entry. -/
def predicateOf (a : IndexArea) (entry : List Byte) : List Byte := (entry.drop (vectorBytes a)).take 64

/-- Whether a predicate block is well formed: counts, combine, ops and unused terms (R312). -/
def predicateOk (p : List Byte) : Bool :=
  let terms := fieldAt p 2 1
  decide (fieldAt p 0 2 ≤ 512) && decide (terms ≤ 4) && decide (fieldAt p 3 1 ≤ 1) &&
  (List.range 4).all fun i =>
    if i < terms then
      decide (fieldAt p (16 + 12 * i) 1 ≤ 7) && decide (1 ≤ fieldAt p (16 + 12 * i + 1) 1) && decide (fieldAt p (16 + 12 * i + 1) 1 ≤ 7)
    else fieldAt p (16 + 12 * i) 12 == 0

/-- The predicate of a query on a record. -/
def predicateHolds (p : List Byte) (attrs : List U32) : Bool :=
  let n := fieldAt p 2 1
  let t := (List.range n).map fun i =>
    termHolds attrs (fieldAt p (16 + 12 * i) 1) (fieldAt p (16 + 12 * i + 1) 1) (fieldAt p (16 + 12 * i + 4) 4) (fieldAt p (16 + 12 * i + 8) 4)
  if n = 0 then true else if fieldAt p 3 1 = 0 then t.all id else t.any id

/-- Ones of a bit vector. -/
def ones (v : BitVec 512) : Nat := ((List.range 512).filter fun i => v.getLsbD i).length

/-- A record visible at snapshot s by its insert epoch (R315 test 1); the delete epoch is tested at re-ranking (R317). -/
def IRec.inserted (r : IRec) (s : Nat) : Bool := decide (r.insEpoch ≤ s)
def IRec.live (r : IRec) (s : Nat) : Bool := r.inserted s && (r.delEpoch == 0 || decide (s < r.delEpoch))

/-- A candidate: id, vector slot, Hamming distance. -/
abbrev Cand := Nat × Nat × Nat

def candLess (a b : Cand) : Bool := decide (a.2.2 < b.2.2) || (a.2.2 == b.2.2 && decide (a.1 < b.1))

/-- The scan of one query: pairs tested, the Cap best passing records by (h, id), whether more passed, and how many were dropped
(R315, R316). -/
def scanQuery (recs : List IRec) (probes : List Nat) (s cap : Nat) (pred : List Byte) (sketch : BitVec 512) :
    Nat × List Cand × Bool × Nat :=
  let tested := recs.filter fun r => probes.contains r.partition
  let passed := (tested.filter fun r => r.inserted s && predicateHolds pred r.attrs).filterMap fun r =>
    let h := ones (r.sketch ^^^ sketch)
    if h ≤ fieldAt pred 0 2 then some (r.id, r.slot, h) else none
  let best := (sortBy candLess passed).take cap
  (tested.length, best, decide (cap < passed.length), passed.length - best.length)

/-- Re-ranking: candidates deleted at or below the snapshot are dropped, the rest ordered by distance and id (R317-R319). Answers
the k nearest and the number dropped. -/
def rerank (a : IndexArea) (recs : List IRec) (metric : Nat) (s k : Nat) (q : List U32) (cands : List Cand) :
    List (Nat × U32) × Nat :=
  let recOf := fun (slot : Nat) => findFirst (fun r => r.slot == slot) recs
  let deleted := cands.filter fun c => match recOf c.2.1 with
    | some r => r.delEpoch != 0 && decide (r.delEpoch ≤ s)
    | none => true
  let kept := cands.filter fun c => !(deleted.contains c)
  let ds := kept.filterMap fun c => (recOf c.2.1).map fun r => (c.1, distance metric q (vectorOf a r.vector))
  ((sortBy nearer ds).take k, deleted.length)

/-! ## Inserts and deletes (R306-R310) -/

/-- Parse the insert records of a buffer (R306). -/
def parseInserts (a : IndexArea) (count : Nat) (b : List Byte) : List (Nat × Nat × List U32 × List Byte × Bool) :=
  let stride := 64 + vectorBytes a
  (List.range count).map fun i =>
    let r := (b.drop (i * stride)).take stride
    (fieldAt r 0 8, fieldAt r 8 4, (List.range 8).map fun j => BitVec.ofNat 32 (fieldAt r (16 + 4 * j) 4),
      (r.drop 64).take (vectorBytes a), fieldAt r 12 4 == 0 && fieldAt r 48 16 == 0)

/-- An id a record may carry (R307). -/
def okId (i : Nat) : Bool := decide (0 < i) && decide (i < 18446744073709551615)

/-- The version of an id that is live at the present epoch. -/
def liveVersion (st : IndexSt) (id : Nat) : Option IRec := findFirst (fun r => r.id == id && r.delEpoch == 0) st.recs

/-- Whether an id names a live version as a transaction sees it: its own staged changes first (R309, 04 R107). -/
def namesLive (st : IndexSt) (staged : List IdxChange) (id : Nat) : Bool :=
  staged.foldl (fun acc c => match c with
    | .insert i .. => if i = id then true else acc
    | .delete i => if i = id then false else acc) (liveVersion st id).isSome

/-- Put a record at the end of its list's records, after those of its partition (R310). -/
def appendRec (st : IndexSt) (r : IRec) : IndexSt :=
  let n := kcount st.intake r.partition + 1
  { st with recs := st.recs ++ [r], nextSlot := max st.nextSlot (r.slot + 1)
            intake := if n = 128 then kdel st.intake r.partition else kset st.intake r.partition n }

/-- The changes of one commit without the versions that it replaces or deletes itself, which no snapshot sees (R309). -/
def netChanges : List IdxChange → List IdxChange
  | [] => []
  | .delete i :: r => .delete i :: netChanges r
  | .insert i p a v :: r =>
    let again := r.any fun c => match c with | .insert j .. => j == i | .delete j => j == i
    (if again then .delete i else .insert i p a v) :: netChanges r

/-- A core of a polder lies in a powered cluster: its search context computes sketches, else the management cores do (R305). -/
def searchPowered (s : State) (p : Nat) : Bool :=
  p != 0xFF && (List.range 8).any fun c =>
    s.power.clusters.getLsbD c && (List.range 4).any fun k => (od s (0x3000 + p) 1).testBit (4 * c + k)

/-- Sketches of an index computed for commands of a polder: those of the management cores are counted (R305). -/
def countSketches (s : State) (owner p n : Nat) : State := if searchPowered s p then s else bumpB s owner 0x9F00 0xC n

/-- Apply the changes of one commit of a polder to an index at epoch e = Epoch + 1 (R308, R309). -/
def applyIdx (s : State) (p h : Nat) (changes : List IdxChange) : State :=
  match indexArea s h with
  | none => s
  | some a =>
    let e := a.epoch + 1
    let tens := indexTensors s a
    let kill := fun (st : IndexSt) (id : Nat) =>
      { st with recs := st.recs.map fun r => if r.id == id && r.delEpoch == 0 then { r with delEpoch := e } else r }
    let st := (netChanges changes).foldl (fun st c => match c with
      | .delete id => kill st id
      | .insert id part attrs vec =>
        let sk := match tens with
          | some (p, t, _) => sketchOf p t (vectorOf a vec)
          | none => 0
        appendRec (kill st id) ⟨id, st.nextSlot, e, 0, part, attrs, sk, vec⟩) (s.idx h)
    let ins := (changes.filter fun c => match c with | .insert .. => true | _ => false).length
    let dels := ((s.idx h).recs.filter fun r => r.delEpoch == 0 && (st.recs.any fun q => q.slot == r.slot && q.delEpoch == e) &&
      changes.any fun c => match c with | .delete i => i == r.id | _ => false).length
    let owner := match kget s.objs h with | some o => o.owner | none => 0xFF
    let s := s.modIdx h fun _ => st
    let s := s.modIdxArea h fun a => { a with epoch := e, live := (st.recs.filter fun r => r.delEpoch == 0).length }
    countSketches (bumpB (bumpB s owner 0x9F00 0xA ins) owner 0x9F00 0xB dels) owner p ins

/-- Partition of rank 0 for an insert that names none (R306, R314). -/
def bestPartition (s : State) (a : IndexArea) (vec : List Byte) : Nat :=
  match indexTensors s a with
  | some (_, _, c) => ((probeSet a c (vectorOf a vec) 1).head?).getD 0
  | none => 0

/-- Horizon of an index: the oldest snapshot held by a query or by an open transaction that has read the index, or Epoch less the
retained window (R311). -/
def horizon (s : State) (h : Nat) : Nat :=
  match indexArea s h with
  | none => 0
  | some a =>
    let read := (allTxs s).flatMap fun t => if t.2.state = .open then (t.2.snaps.filter fun e => e.1 == h).map (·.2) else []
    ((s.idx h).snapshots ++ read).foldl min (a.epoch - od s 0x3E00 6)

/-- The compaction of a list (R311): every record with a delete epoch at or below the horizon leaves it, the intake page's stay. -/
def compactList (s : State) (h p : Nat) : State :=
  let st := s.idx h
  let mine := st.recs.filter fun r => r.partition == p
  let dead := (mine.filter fun r => r.delEpoch != 0).length
  let full := mine.length - kcount st.intake p
  let owner := match kget s.objs h with | some o => o.owner | none => 0xFF
  if mine.length = 0 ∨ dead * 100 < od s 0x3E00 5 * mine.length then s
  else
    let hz := horizon s h
    let gone := ((mine.take full).filter fun r => r.delEpoch != 0 && decide (r.delEpoch ≤ hz)).map (·.slot)
    bumpB (s.modIdx h fun st => { st with recs := st.recs.filter fun r => !gone.contains r.slot }) owner 0x9F00 8 1

end Sys2Proof.Machine
end

