-- ==== Sys2Proof/Machine/Header.lean ====
section
/-! DEFINITION. Machine/Header.lean: the 128-byte object header and the type-specific images of CREATE (02 R34, R35, R529, 05 R128,
06 R184, 11 R279, 12 R301, 15 R408). -/

namespace Sys2Proof.Machine

/-- A range lies in a list of ranges (offset, end); pieces put into 64 zero bytes. -/
def areaOf (l : List (Nat × Nat × Nat)) : List Byte :=
  mread (l.foldl (fun m e => mwrite m e.1 (toLE e.2.1 e.2.2)) []) 0 64

/-- Whether a handle names an object bound in the host-mapped window: the MAPPED flag (02 R34, R58). -/
def isMapped (s : State) (h : Nat) : Bool := s.host.bindings.any fun e => e.2.handle == h

/-- The type-specific bytes +0x40-+0x7F of a header, offsets from +0x40. -/
def areaBytes (s : State) (a : Area) : List Byte :=
  match a with
  | .nspace nsid bs blocks _ => areaOf [(0, 4, nsid), (4, 4, bs), (8, 8, blocks), (16, 8, unitsInUse s nsid)]
  | .blob v => areaOf [(0, 8, v)]
  | .tensor t =>
    areaOf ([(0, 1, t.format), (1, 1, t.rank), (2, 1, t.scaleMode), (3, 1, t.outliers)] ++
      ((List.range 4).map fun i => (4 + 4 * i, 4, (t.dims[i]?).getD 1)) ++
      [(20, 4, t.stride), (24, 8, t.scaleOffset), (32, 8, t.outlierOffset)])
  | .table t =>
    areaOf [(0, 8, t.rows), (8, 2, t.dim), (10, 1, t.updateFormat),
      (11, 1, (if t.groupContrib then 32 else 0) + (if t.fixed then 16 else 0) + 4 * t.narrowest + t.widest),
      (12, 1, t.t1), (13, 1, t.t2), (14, 1, t.t3), (15, 1, t.hysteresis), (16, 8, t.heatOffset), (24, 8, t.slotOffset),
      (32, 8, t.reserve), (40, 2, t.decay), (42, 1, t.initClass), (48, 4, t.applied)]
  | .index i =>
    areaOf [(0, 4, i.dim), (4, 1, i.format), (5, 1, i.metric), (6, 2, if i.sharded then 1 else 0), (8, 4, i.partitions),
      (12, 4, i.shards), (16, 8, i.capacity), (24, 8, i.centroids), (32, 8, i.projection), (40, 8, i.thresholds),
      (48, 8, i.epoch), (56, 8, i.live)]
  | .program p =>
    areaOf [(0, 2, p.format), (2, 2, p.flags), (4, 4, p.records), (8, 4, p.entry), (12, 2, p.contexts), (14, 1, p.share),
      (15, 1, p.sump), (16, 4, p.fretSpacing), (20, 4, p.handleOffset), (24, 2, p.handleCount), (26, 2, p.chainCount),
      (28, 4, p.chainOffset), (32, 8, p.stride), (40, 4, p.dataEnd), (44, 4, p.crc)]
  | .job j =>
    areaOf [(0, 8, j.program), (8, 8, j.argument), (16, 1, j.state), (17, 1, j.priority), (18, 1, j.polder), (19, 1, j.resident),
      (20, 4, j.seed), (24, 2, j.finalStatus), (26, 1, j.faultCause), (27, 1, j.faultContext), (28, 4, j.faultRecord),
      (32, 8, j.faultOffset), (40, 4, j.frets), (44, 4, j.evictions), (48, 4, j.preemptions),
      (52, 4, min 4294967295 (j.queueMs / 1000)), (56, 4, min 4294967295 (j.issueMs / 1000))]
  | .group g =>
    areaOf [(0, 1, g.number), (1, 1, (if g.auto then 1 else 0) + (if g.explicit then 2 else 0)), (2, 2, g.members), (4, 4, g.epoch),
      (8, 4, g.failTimeout), (12, 2, g.keeper)]
  | .log r h t n => areaOf [(0, 4, r), (8, 8, h), (16, 8, t), (24, 8, n)]
  | .graph g =>
    areaOf [(0, 8, g.vertices), (8, 8, g.edges), (16, 8, g.rowPtr), (24, 8, g.column), (32, 8, g.weight), (40, 1, g.idWidth),
      (41, 1, g.weightFormat)]
  | .set c k => areaOf [(0, 8, c), (8, 8, k)]
  | .model m o => areaOf [(0, 4, m), (8, 8, o)]

/-- The header flags byte (R34). -/
def flagsByte (s : State) (h : Nat) (o : Obj) : Nat :=
  (if isMapped s h then 16 else 0) + (if o.spilled then 8 else 0) + (if o.readOnly then 4 else 0) +
  (if o.exported then 2 else 0) + (if o.volatile then 1 else 0)

/-- The common bytes +0x00-+0x3B (R34). -/
def commonBytes (s : State) (h : Nat) (o : Obj) : List Byte :=
  toLE 8 h ++ toLE 8 o.base ++ toLE 8 o.length ++ toLE 8 (o.created % 281474976710656) ++
  [BitVec.ofNat 8 o.owner, BitVec.ofNat 8 o.policy, BitVec.ofNat 8 o.pinCount, BitVec.ofNat 8 (flagsByte s h o)] ++
  toLE 4 o.readMask.toNat ++ toLE 4 o.writeMask.toNat ++ [BitVec.ofNat 8 o.exportGroup, 0, 0, 0] ++
  toLE 8 o.version ++ [0, 0, 0, 0]

/-- The 128-byte header (R34). -/
def headerBytes (s : State) (h : Nat) (o : Obj) : List Byte :=
  let c := commonBytes s h o
  c ++ toLE 4 (crc32 c).toNat ++ areaBytes s o.area

/-! ## Images of CREATE -/

/-- Bytes of the image that a layout does not name are zero (02 R35, R11). -/
def zeroIn (b : List Byte) (l : List (Nat × Nat)) : Bool := l.all fun e => fieldAt b e.1 e.2 == 0

/-- Format bytes that the table of element codes allows (09 R234). -/
def okFormat (f : Nat) : Bool :=
  let k := f / 64
  match f % 64 with
  | 1 | 3 => decide (k < 4)
  | 2 | 4 => k == 1 || k == 2
  | 5 | 6 | 7 => k == 0 || k == 3
  | 8 | 9 | 10 | 11 => k == 0
  | _ => false

/-- Format bytes an array operand may have (09 R234). -/
def arrayFormat (f : Nat) : Bool := okFormat f && decide (f % 64 ≤ 9)

/-- Scale mode that a format's scaling corresponds to (09 R234). -/
def scaleModeOf (f : Nat) : Nat := match f / 64 with | 0 => 0 | 3 => 2 | _ => 1

/-- A TENSOR that an image names: its header, when it lives here. -/
def tensorOf (s : State) (h : Nat) : Option TensorArea :=
  match liveObj s h with
  | some o => (match o.area with | .tensor t => some t | _ => none)
  | none => none

/-- The fields of a program header in range (05 R128), as CREATE checks them too. -/
def programFields (g : ProgramArea) : Bool :=
  g.format == 0x200 && decide (g.flags < 8) && decide (1 ≤ g.records) && decide (g.records ≤ 65536) && decide (g.entry < g.records) &&
  decide (1 ≤ g.contexts) && decide (g.contexts ≤ 32) && decide (1 ≤ g.share) && decide (g.share ≤ 16) && decide (g.sump ≤ 16) &&
  g.handleOffset % 64 == 0 && decide (2 ≤ g.handleCount) && decide (g.handleCount ≤ 4080) && decide (g.chainCount ≤ 4095) &&
  g.chainOffset % 64 == 0 && (g.chainCount != 0 || g.chainOffset == 0)

/-- A tensor has a shape of rows by columns, its other dimensions 1. -/
def hasShape (t : TensorArea) (rows cols : Nat) : Bool := t.dims == [1, 1, rows, cols]

/-- Slot bytes of a class (11 R282). -/
def slotBytes (d cls : Nat) : Nat :=
  roundUp (match cls with | 0 => 4 * d | 1 => 2 * d | 2 => 8 + d | _ => 8 + ceilDiv d 2) 16

/-- Parse and check an image (R90, R529). None: the image breaks its layout (0x1007). A TABLE with FIXED, which does not use its thresholds (11
R279), may have them in any order: DESIGN CHOICE (log entry 139). -/
def parseImage (s : State) (type length p : Nat) (b : List Byte) : Option Area :=
  let f := fieldAt b
  match type with
  | 2 => if zeroIn b [(0, 64)] then some (.blob 0) else none
  | 3 =>
    let t := tensorArea b
    let dimsOk := (List.range 4).all fun i =>
      if i < 4 - t.rank then (t.dims[i]?).getD 0 == 1 else decide (1 ≤ (t.dims[i]?).getD 0)
    if decide (1 ≤ t.rank) && decide (t.rank ≤ 4) && dimsOk && decide (t.scaleMode ≤ 2) && decide (t.outliers ≤ 64) &&
       okFormat t.format && t.scaleMode == scaleModeOf t.format && t.stride % 64 == 0 && zeroIn b [(40, 24)] then some (.tensor t) else none
  | 4 =>
    let pol := f 11 1
    let t := tableAreaOf b
    if decide (1 ≤ t.rows) && decide (t.rows ≤ 1099511627776) && decide (16 ≤ t.dim) && decide (t.dim ≤ 4096) && t.dim % 16 == 0 &&
       (t.updateFormat == 0x0A || t.updateFormat == 0x08) && decide (pol < 64) && decide (t.widest ≤ t.narrowest) &&
       (t.fixed || (decide (t.t1 > t.t2) && decide (t.t2 > t.t3) && decide (1 ≤ t.t3))) &&
       t.heatOffset % 65536 == 0 && decide (8 * t.rows ≤ t.heatOffset) &&
       t.slotOffset % 65536 == 0 && decide (t.heatOffset + t.rows ≤ t.slotOffset) && decide (t.slotOffset ≤ length) &&
       decide (4096 * slotBytes t.dim t.widest ≤ t.reserve) &&
       decide (1 ≤ t.decay) && decide (t.widest ≤ t.initClass) && decide (t.initClass ≤ t.narrowest) &&
       zeroIn b [(43, 5), (48, 4), (52, 12)] then some (.table t) else none
  | 5 =>
    let fl := f 6 2
    let i := indexAreaOf b
    let base := decide (32 ≤ i.dim) && decide (i.dim ≤ 4096) && i.dim % 32 == 0 &&
      (i.format == 6 || i.format == 8 || i.format == 9 || i.format == 10) && decide (1 ≤ i.metric) && decide (i.metric ≤ 3) &&
      decide (fl ≤ 1) && zeroIn b [(48, 16)]
    if !base then none
    else if i.sharded then
      if i.partitions = 0 ∧ 2 ≤ i.shards ∧ i.shards ≤ 1024 ∧ i.capacity = 0 ∧ i.centroids = 0 ∧ i.projection = 0 ∧
         i.thresholds = 0 ∧ 8 * i.shards ≤ length then some (.index i) else none
    else
      let shaped := match tensorOf s i.centroids, tensorOf s i.projection, tensorOf s i.thresholds with
        | some c, some q, some t =>
          hasShape c i.partitions i.dim && arrayFormat c.format &&
          -- the probe's MATMUL: FP32 vectors enter it as BF16 (12 R314)
          (cellMode (if i.format % 64 = 10 then 8 else i.format % 64) (c.format % 64)).isSome && hasShape q 512 i.dim && q.format == 8 &&
          (t.dims == [1, 1, 1, 512] || t.dims == [1, 1, 512, 1]) && t.format == 10 &&
          [i.centroids, i.projection, i.thresholds].all fun h => match kget s.objs h with | some o => canRead o p | none => false
        | _, _, _ => false
      if decide (1 ≤ i.partitions) && decide (i.partitions ≤ 65536) && i.shards == 0 && shaped &&
         decide (16416 * i.partitions + i.capacity * (176 + vectorBytes i) ≤ length) then some (.index i) else none
  | 6 =>
    if programFields (programArea b) && zeroIn b [(48, 16)] then some (.program (programArea b)) else none
  | 8 =>
    let fl := f 1 1
    if fl < 3 ∧ 1 ≤ f 8 4 ∧ f 8 4 ≤ 60000 ∧ zeroIn b [(2, 2), (4, 4), (12, 2), (14, 50)]
    then some (.group ⟨f 0 1, fl.testBit 0, fl.testBit 1, 1, 1, f 8 4, moduleId s⟩) else none
  | 9 =>
    if 64 ≤ f 0 4 ∧ f 0 4 ≤ 65536 ∧ f 0 4 % 64 = 0 ∧ zeroIn b [(4, 4), (8, 8), (16, 8), (24, 8), (32, 32)]
    then some (.log (f 0 4) 0 0 0) else none
  | 10 =>
    let g := graphArea b
    if (g.idWidth = 4 ∨ g.idWidth = 8) ∧ (if g.weight = 0 then g.weightFormat = 0 else okFormat g.weightFormat) ∧ zeroIn b [(42, 22)] then some (.graph g) else none
  | 11 => if zeroIn b [(0, 8), (16, 48)] ∧ f 8 8 ≤ length / 8 then some (.set 0 (f 8 8)) else none
  | 12 => if zeroIn b [(4, 4), (16, 48)] then some (.model (f 0 4) (f 8 8)) else none
  | _ => none

end Sys2Proof.Machine
end

