-- ==== Sys2Proof/Machine/Sched.lean ====
section
/-! DEFINITION. Machine/Sched.lean: contexts on cores: placement, issue, frets, eviction, faults and the end of a job (05 R142-R152,
06 R173-R186). -/

namespace Sys2Proof.Machine

def sat32 (n : Nat) : Nat := min n 4294967295

def State.core (s : State) (c : Nat) : Core := (kget s.cores c).getD {}
def State.modCore (s : State) (c : Nat) (f : Core → Core) : State := { s with cores := kset s.cores c (f (s.core c)) }

/-- Update a JOB area; the header version advances on each update (R184, R185). -/
def jobNote (s : State) (h : Nat) (f : JobArea → JobArea) : State :=
  s.modObj h fun o => match o.area with
    | .job a => { o with area := .job (f a), version := o.version + 1 }
    | _ => o

/-- Add to a scheduling counter, module-wide and for the polder (R186). -/
def schedBump (s : State) (p sub n : Nat) : State :=
  let s := bump (bump s 0x9800 sub n) (0x9801 + p) sub n
  bumpP (bumpP s p 0x9800 sub n) p (0x9801 + p) sub n

/-- Contexts that are resident, of a job: kept in the JOB header. -/
def countResident (s : State) (h : Nat) : State :=
  let n := match kget s.jobs h with
    | some j => (j.ctxs.filter fun c => c.resident.isSome).length
    | none => 0
  let held := match kget s.jobs h with
    | some j => !j.ctxs.isEmpty && j.ctxs.all fun c => c.held || c.ended
    | none => false
  jobNote s h fun a => { a with resident := n, state := if a.state = 3 then 3 else if held then 2 else if n = 0 then 0 else 1 }

def ctxPriority (s : State) (x : CtxId) : Nat := (jobArea s x.job).priority

/-- A context is runnable when it is resident, not blocked and not held (R175). -/
def runnable (s : State) (x : CtxId) : Bool :=
  match getCtx s x with
  | some (_, c) => c.resident.isSome && !c.ended && !c.held && c.wait == .none && c.awaiting == 0
  | none => false

/-- The context issues now on its core. -/
def issues (s : State) (x : CtxId) : Bool :=
  match getCtx s x with
  | some (_, c) => (match c.resident with
    | some (k, _, _) => (s.core k).issuing == some x && runnable s x
    | none => false)
  | none => false

/-- A context is blocked while it waits at WAIT_EVENT or stalls (05 R140); one that is held or has ended is not blocked. -/
def blocked (s : State) (x : CtxId) : Bool :=
  match getCtx s x with
  | some (_, c) => !c.ended && !c.held && (c.wait != .none || c.awaiting != 0)
  | none => false

/-- Count the time that a core's issuing context has issued up to now (R175, R186: cycles at the present ARR frequency). -/
def chargeIssue (s : State) (k : Nat) : State :=
  match (s.core k).issuing, (s.core k).runSince with
  | some x, some t =>
    let us := s.power.uptime - t
    let s := s.modCore k fun c => { c with runSince := some s.power.uptime }
    modCtx (schedBump s (jobPolder s x.job) 7 (us * s.power.arr * 125 / 2)) x fun c =>
      { c with turn := c.turn + us, issued := c.issued + us }
  | _, _ => s

/-- The JOB header shows the time that a context has issued (R184: at every fret, residency change and end). -/
def showIssue (s : State) (x : CtxId) : State :=
  match getCtx s x with
  | some (_, c) =>
    if c.issued = 0 then s
    else modCtx (jobNote s x.job fun a => { a with issueMs := a.issueMs + c.issued }) x fun c => { c with issued := 0 }
  | none => s

/-- Every resident of a core is blocked, or becomes unblocked (R181); the issuing context's time runs while it is not. -/
def noteBlocked (s : State) (k : Nat) : State :=
  let core := s.core k
  let all := !core.residents.isEmpty && core.residents.all fun x => blocked s x
  let since : Option Nat := if all then some (core.blockedSince.getD s.power.uptime) else none
  let run : Option Nat := match core.issuing with
    | some x => if runnable s x then some s.power.uptime else none
    | none => none
  s.modCore k fun c => { c with blockedSince := since, runSince := run }

/-- Add to a counter of the matrix cores: module-wide, of the context's core, and in its polder's view (07 R211). -/
def coreBump (s : State) (x : CtxId) (sub n : Nat) : State :=
  let p := jobPolder s x.job
  let k := match getCtx s x with | some (_, c) => (match c.resident with | some r => r.1 | none => 0) | none => 0
  let s := bump (bump s 0x9A00 sub n) (0x9A01 + k) sub n
  bumpP (bumpP s p 0x9A00 sub n) p (0x9A01 + k) sub n

/-- The array drains: what a heavy record left due is counted (07 R192). -/
def drainOut (s : State) (x : CtxId) : State :=
  match getCtx s x with
  | some (_, c) => if c.drain = 0 then s else coreBump (modCtx s x fun c => { c with drain := 0, lastOut := [] }) x 0xC c.drain
  | none => s

/-- Choose the issuing context of a core: highest priority, the present one kept among equals unless it gives way, and always while it
is not at a fret, blocked or not (R144, R175, R176). -/
def pickIssue (s : State) (k : Nat) (giveWay : Bool) : State :=
  let s := chargeIssue s k
  let core := s.core k
  let run := core.residents.filter fun x => runnable s x
  let best := bestBy (fun a b => decide (ctxPriority s a > ctxPriority s b)) run
  let amid := fun (cur : CtxId) => match getCtx s cur with
    | some (_, c) => !c.atFret && !c.held && !c.ended && c.resident.isSome
    | none => false
  let next : Option CtxId := match core.issuing, best with
    | some cur, some b =>
      if amid cur then some cur
      else if runnable s cur && decide (ctxPriority s cur ≥ ctxPriority s b) then
        if giveWay then
          (match findFirst (fun x => x != cur && ctxPriority s x == ctxPriority s cur) run with | some y => some y | none => some cur)
        else some cur
      else some b
    | none, b => b
    | some cur, none => if amid cur then some cur else none
  if next = core.issuing then noteBlocked s k
  else
    let s := match core.issuing with
      | some cur =>
        let s := drainOut s cur
        (match next with
        | some y =>
          if runnable s cur && decide (ctxPriority s y > ctxPriority s cur) then
            jobNote (schedBump s (jobPolder s cur.job) 2 1) cur.job fun a => { a with preemptions := sat32 (a.preemptions + 1) }
          else if runnable s cur then schedBump s (jobPolder s cur.job) 6 1
          else s
        | none => s)
      | none => s
    let s := s.modCore k fun c =>
      { c with issuing := next
               residents := match core.issuing with
                 | some cur => if c.residents.contains cur then (c.residents.filter (· != cur)) ++ [cur] else c.residents
                 | none => c.residents }
    let s := match next with
      | some y => modCtx s y fun c => { c with turn := 0 }
      | none => s
    noteBlocked s k

/-- Choose again on the core where a context is resident, if any. -/
def repick (s : State) (x : CtxId) (giveWay : Bool) : State :=
  match getCtx s x with
  | some (_, c) => (match c.resident with | some (k, _, _) => pickIssue s k giveWay | none => s)
  | none => s

/-- Drop prefetches of a core: their buffers return to the pool (R154, 13 R342). -/
def dropPrefetches (s : State) (k : Nat) (f : Prefetch → Bool) : State :=
  let gone := (s.core k).prefetches.filter f
  let s := gone.foldl (fun (s : State) (p : Prefetch) =>
    if p.remote.isSome then s
    else
      let s := s.modFlash fun t => { t with reads := if p.arrived then t.reads else dropFirst (fun r => r.ppa == p.stamp && r.use == .prefetch) t.reads }
      bermReturn s (ppaChannel p.stamp) 6) s
  if gone.isEmpty then s else s.modCore k fun q => { q with prefetches := q.prefetches.filter fun p => !f p }

/-- A stall is counted by its cause, with the cycles it lasted, a time the manual leaves to what it waited for, module-wide and in the
polder's entry and view (02 R56, R57). -/
def countStall (s : State) (p cause : Nat) : State :=
  if cause = 0 ∨ 8 < cause then s
  else
    let (k, s) := s.draw
    let s := bump (bump s 0x9100 cause 1) 0x9100 (0x10 + cause) (Config.cycles k)
    let s := bump (bump s (0x9101 + p) cause 1) (0x9101 + p) (0x10 + cause) (Config.cycles k)
    let s := bumpP (bumpP s p 0x9100 cause 1) p 0x9100 (0x10 + cause) (Config.cycles k)
    bumpP (bumpP s p (0x9101 + p) cause 1) p (0x9101 + p) (0x10 + cause) (Config.cycles k)

/-- The first of the causes that applied during a stall, in the order of 02 R56; 0 if none did. -/
def firstCause (l : List Nat) : Nat := (findFirst (fun c => l.contains c) [5, 7, 8, 4, 2, 1, 3, 6]).getD 0

/-- A context's stall has ended: charged to one cause (02 R56, R57). -/
def endStall (s : State) (x : CtxId) : State :=
  match getCtx s x with
  | some (_, c) =>
    if c.causes.isEmpty then s
    else countStall (modCtx s x fun c => { c with causes := [] }) (jobPolder s x.job) (firstCause c.causes)
  | none => s

/-- What a context waited for in the middle of a record is given up: its stall ends, its pages and remote operands are dropped. -/
def leaveRecord (s : State) (x : CtxId) : State :=
  usedPages (modCtx (endStall s x) x fun c => { c with wait := .none, awaiting := 0, staged := [] }) (.context x) []

/-- Take a context off its core: its share and sump rows are cleared (R174, R180), its prefetches dropped; the array drains first (07
R192). -/
def release (s : State) (x : CtxId) : State :=
  match getCtx s x with
  | none => s
  | some (_, c) =>
    match c.resident with
    | none => s
    | some (k, u, v) =>
      let g := jobProgram s x.job
      let s := drainOut (if (s.core k).issuing = some x then chargeIssue s k else s) x
      let s := showIssue s x
      let s := { s with spad := mclear s.spad (k * 4194304 + u * 262144) (g.share * 262144)
                        sump := mclear s.sump (k * 262144 + v * 16384) (g.sump * 16384) }
      let s := s.modCore k fun q =>
        { q with residents := q.residents.filter (· != x)
                 issuing := if q.issuing = some x then none else q.issuing
                 runSince := if q.issuing = some x then none else q.runSince }
      let s := (dropPrefetches s k fun f => f.job == x.job && f.idx == x.idx).modCore k fun q =>
        { q with asks := q.asks.filter fun a => !(a.job == x.job && a.idx == x.idx) }
      let s := modCtx s x fun c => { c with resident := none, lastCore := some k, lastOut := [] }
      countResident (pickIssue s k false) x.job

/-- Roll back the open transaction of a context with a status, and free it; one that is committing goes on (04 R122). -/
def ctxRollback (s : State) (x : CtxId) (status : Nat) : State :=
  match getCtx s x with
  | none => s
  | some (_, c) =>
    match c.tx with
    | none => s
    | some l =>
      match kget s.txs l with
      | none => modCtx s x fun c => { c with tx := none }
      | some t =>
        if t.state = .open ∨ t.state = .aborted then
          modCtx (freeTx (abortTx s (txIdOf s l) status) (txIdOf s l)) x fun c => { c with tx := none }
        else s

/-- Evict a context (R180, 05 R148): rolled back with 0x3006, its memory cleared, requeued at its restart point. -/
def evict (s : State) (x : CtxId) (why : Nat) : State :=
  let s := release (leaveRecord (ctxRollback s x 0x3006) x) x
  let s := modCtx s x fun c => { c with
    recIdx := c.rpRec, x := c.rpX, atFret := true, sinceFret := 0, evictWhy := none, queuedAt := s.power.uptime }
  let s := schedBump s (jobPolder s x.job) why 1
  jobNote s x.job fun a => { a with evictions := sat32 (a.evictions + 1) }

/-- A context that is queued no longer: its queue waiting time is counted (R184, R186). -/
def leaveQueue (s : State) (x : CtxId) : State :=
  match getCtx s x with
  | some (_, c) =>
    let us := s.power.uptime - c.queuedAt
    jobNote (schedBump s (jobPolder s x.job) 1 us) x.job fun a => { a with queueMs := a.queueMs + us }
  | none => s

/-- End a job with a status (R152, R182, R184): its contexts leave residency and the queue, waiters and the forwarding module are told. -/
def endJob (s : State) (h status : Nat) : State :=
  match kget s.jobs h with
  | none => s
  | some j =>
    let s := (List.range j.ctxs.length).foldl (fun s i =>
      let s := leaveRecord (ctxRollback s ⟨h, i⟩ 0x3003) ⟨h, i⟩
      match j.ctxs[i]? with
      | some c => if c.resident.isNone ∧ c.ended = false then leaveQueue s ⟨h, i⟩ else release s ⟨h, i⟩
      | none => s) s
    let s := jobNote s h fun a => { a with state := 3, finalStatus := status, resident := 0 }
    let s := { s with
      jobs := kdel s.jobs h
      execs := kmap s.execs fun _ e => match e.wait with
        | .jobEnd k => if k = h then { e with wait := .ready status h } else e
        | .jobCancel k => if k = h then { e with wait := .ready 0 0 } else e
        | _ => e }
    s

/-- A job whose contexts have all ended ends with 0x0000; one that is ending ends when every context is held, ended or not
resident (R150-R152). -/
def tryEnd (s : State) (h : Nat) : State :=
  match kget s.jobs h with
  | none => s
  | some j =>
    match j.ending with
    | some st => if j.ctxs.all fun c => c.ended || c.held || c.resident.isNone then endJob s h st else s
    | none => if j.ctxs.all fun c => c.ended then endJob s h 0 else s

/-- Hold every context of a job at its next fret: those at a fret or not resident at once (R144), during a securing at the fret after
it (10 R273). -/
def holdAll (s : State) (h : Nat) : State :=
  let s := s.modJob h fun j => { j with ctxs := j.ctxs.map fun c =>
    if c.ended then c
    else if j.securing.isSome then { c with holdAtFret := true }
    else if c.atFret || c.resident.isNone then { c with held := true }
    else { c with holdAtFret := true } }
  let s := (List.range 32).foldl (fun s k => if (s.core k).residents.any (·.job == h) then pickIssue s k false else s) s
  countResident s h

/-- A job begins to end with a status: its contexts are held (R150, R151, 03 R94). -/
def beginEnd (s : State) (h status : Nat) : State :=
  let s := s.modJob h fun j => { j with ending := match j.ending with | some e => some e | none => some status }
  tryEnd (holdAll s h) h

/-- A context fault (R150): counted, recorded in the JOB object, every context held; the job ends with 0x1012. -/
def ctxFault (s : State) (x : CtxId) (code off : Nat) : State :=
  let p := jobPolder s x.job
  let rec' := match getCtx s x with | some (_, c) => c.recIdx | none => 0
  let s := bumpB s p 0x9700 6 1
  let s := jobNote s x.job fun a => { a with faultCause := code, faultContext := x.idx, faultRecord := rec', faultOffset := off }
  let s := ctxRollback s x 0x3003
  let s := modCtx (leaveRecord s x) x fun c => { c with held := true }
  beginEnd s x.job 0x1012

/-- The context ends its aborted transaction (05 R147): a retry after k backoff steps from the restart point while retries
remain, else it is held and the job ends with the abort status. -/
def ctxAborted (s : State) (x : CtxId) (status : Nat) : State :=
  match getCtx s x with
  | none => s
  | some (_, c) =>
    let s := match c.tx with
      | some l => modCtx (freeTx s (txIdOf s l)) x fun c => { c with tx := none }
      | none => s
    if c.onAbort = 0 ∧ c.retries < c.retryLimit then
      let k := c.retries + 1
      let s := bumpB s (jobPolder s x.job) 0x9700 7 1
      let s := modCtx (leaveRecord s x) x fun c => { c with
        retries := k, recIdx := c.rpRec, x := c.rpX, wait := .backoff (s.power.uptime + k * od s 0x3400 4)
        waitSince := s.power.uptime }
      repick s x false
    else beginEnd (modCtx (leaveRecord s x) x fun c => { c with held := true }) x.job status

/-- The parcels that a context stored under PINNED_FLASH or STREAMING are written back at its fret (02 R46). -/
def fretWriteBack (s : State) (x : CtxId) : State :=
  (s.parcels.filter fun e => e.2.state == .dramDirty && e.2.storedBy.contains (whoCtx x) &&
    (match kget s.objs e.2.obj with
      | some o => (o.policy == 2 || o.policy == 4) && !o.volatile && o.pinCount == 0
      | none => false)).foldl (fun s e => (writeParcel s e.1 false).getD s) s

/-- What every fret does (R142, R184): it is counted, the JOB header brought up to date, and what the context stored is written back. -/
def fretNote (s : State) (x : CtxId) : State :=
  let s := match getCtx s x with
    | some (_, c) => (match c.resident with
      | some (k, _, _) => if (s.core k).issuing = some x then chargeIssue s k else s
      | none => s)
    | none => s
  let s := modCtx s x fun c => { c with atFret := true, sinceFret := 0, fretAt := s.power.uptime }
  let s := jobNote (showIssue s x) x.job fun a => { a with frets := sat32 (a.frets + 1) }
  let s := { s with execs := kmap s.execs fun _ e =>
    match e.wait with | .jobEnd k => if k = x.job then { e with work := e.work + 1 } else e | _ => e }
  fretWriteBack s x

/-- A fret (R142, R144): the only boundary at which a context is switched, held or evicted. -/
def doFret (s : State) (x : CtxId) : State :=
  let s := fretNote s x
  match getCtx s x with
  | none => s
  | some (j, c) =>
    if c.holdAtFret || j.ending.isSome then
      let s := modCtx s x fun c => { c with held := true, holdAtFret := false }
      let s := if j.ending.isSome then ctxRollback s x 0x3003 else s
      -- a context whose cluster is turned off leaves residency at the fret at which it is held (20 R508)
      let s := match c.evictWhy with
        | some why => if j.ending.isNone then evict s x why else s
        | none => s
      tryEnd (countResident (repick s x false) x.job) x.job
    else match c.evictWhy with
      | some why => evict s x why
      | none => repick s x (decide (od s 0x3100 1 ≤ c.turn))

/-- A context's record completed, and it goes on at a record index: FRET_AFTER takes a fret (R133, R138, R142), and a context that
reaches Records, past the fret that its last record asks for, ends: with a transaction open that is a context fault (R139, R150 code
10). -/
def recordTo (s : State) (x : CtxId) (next : Nat) (fretAfter : Bool) : State :=
  let s := usedPages (modCtx s x fun c => { c with recIdx := next, sinceFret := c.sinceFret + 1, atFret := false, staged := [] })
    (.context x) []
  match getCtx s x with
  | none => s
  | some (_, c) =>
    let g := jobProgram s x.job
    if g.records ≤ c.recIdx then
      let s := if fretAfter || (decide (0 < g.fretSpacing) && decide (g.fretSpacing ≤ c.sinceFret)) then fretNote s x else s
      if c.tx.isSome then ctxFault s x 10 0
      else
        let s := modCtx s x fun c => { c with ended := true, atFret := true }
        tryEnd (countResident (repick s x false) x.job) x.job
    else if fretAfter then doFret s x
    else repick s x false

/-- The record after the present one. -/
def recordDone (s : State) (x : CtxId) (fretAfter : Bool) : State :=
  match getCtx s x with
  | none => s
  | some (_, c) => recordTo s x (c.recIdx + 1) fretAfter

/-! ## The barrier of SECURE (10 R264, R271-R273) -/

/-- The contexts go on after a securing, or after a barrier at which none is due (10 R264, R273 step 6): a fret follows, and a restart
point that the SECURE's own commit set moves past it. -/
def secureRelease (s : State) (h : Nat) : State :=
  match kget s.jobs h with
  | none => s
  | some j =>
    -- a cancel that came during the securing takes effect at the fret after it (R273)
    let s := if j.cancelled ∧ j.ending.isNone then s.modJob h fun j => { j with ending := some cancelledStatus } else s
    let at' := (List.range j.ctxs.length).filter fun i => match j.ctxs[i]? with
      | some c => (match c.wait with | .secureBarrier .. => true | _ => false)
      | none => false
    at'.foldl (fun (s : State) (i : Nat) =>
      let s := modCtx s ⟨h, i⟩ fun c =>
        let past := match c.wait with | .secureBarrier _ b => b | _ => false
        { c with wait := .none, rpRec := if past then c.recIdx + 1 else c.rpRec }
      recordDone s ⟨h, i⟩ true) s

/-- Every context that has not ended has reached a SECURE: S advances by the Step of the lowest-indexed one, and securing begins if it
is due, by the lowest trigger that applies; else the barrier releases at once (10 R264, R272). -/
def secureCheck (s : State) (h : Nat) : State :=
  match kget s.jobs h with
  | none => s
  | some j =>
    let live := j.ctxs.filter fun c => !c.ended
    let reached := live.filterMap fun c => match c.wait with | .secureBarrier n _ => some n | _ => none
    if j.securing.isSome || reached.isEmpty || reached.length != live.length then s
    else
      let n := j.step + reached.head?.getD 0
      let due := if j.stepBound ≤ n - j.step0 then some 1 else if j.armed then some 2 else if j.requested then some 3 else none
      let s := s.modJob h fun j => { j with step := n, securing := due }
      if due.isSome then s else secureRelease s h

/-! ## Placement (R173, R179) -/

/-- Cores of a polder whose cluster is powered (20 R506). -/
def polderCores (s : State) (p : Nat) : List Nat :=
  (List.range 32).filter fun c => (od s (0x3000 + p) 1).testBit c && s.power.clusters.getLsbD (c / 4)

/-- Lowest first unit of a free run of `n` among `total` units, the used runs being (first, length). -/
def freeRun (used : List (Nat × Nat)) (total n : Nat) : Option Nat :=
  if n = 0 then some 0
  else findFirst (fun u => decide (u + n ≤ total) && used.all fun r => decide (u + n ≤ r.1) || decide (r.1 + r.2 ≤ u)) (List.range total)

/-- Room for a context of a job on a core, some residents left out of account: first share unit and first sump unit (R173). -/
def roomOn (s : State) (h k : Nat) (without : List CtxId) : Option (Nat × Nat) :=
  let p := jobPolder s h
  let res := (s.core k).residents.filter fun x => !without.contains x
  let g := jobProgram s h
  let runs := res.filterMap fun x => match getCtx s x with
    | some (_, c) => c.resident.map fun r => (r.2.1, (jobProgram s x.job).share, r.2.2, (jobProgram s x.job).sump)
    | none => none
  if 4 ≤ res.length ∨ od s (0x3000 + p) 9 ≤ (res.filter fun x => jobPolder s x.job == p).length ∨ res.any (·.job == h) then none
  else match freeRun (runs.map fun r => (r.1, r.2.1)) 16 g.share, freeRun (runs.map fun r => (r.2.2.1, r.2.2.2)) 16 g.sump with
    | some u, some v => some (u, v)
    | _, _ => none

/-- The core a context goes to: its last core, then the cluster with most residents of its job, the fewest residents, the lowest
number (R179). -/
def coreFor (s : State) (x : CtxId) : Option Nat :=
  let last := match getCtx s x with | some (_, c) => c.lastCore | none => none
  let inCluster : Nat → Nat := fun k =>
    ((List.range 4).map fun i => ((s.core (k / 4 * 4 + i)).residents.filter (·.job == x.job)).length).foldl (· + ·) 0
  let better := fun (a b : Nat) =>
    if last = some a ∧ last ≠ some b then true
    else if last = some b ∧ last ≠ some a then false
    else if inCluster a ≠ inCluster b then decide (inCluster a > inCluster b)
    else decide ((s.core a).residents.length < (s.core b).residents.length)
  bestBy better ((polderCores s (jobPolder s x.job)).filter fun k => (roomOn s x.job k []).isSome)

/-- Make a context resident on a core with zeroed memory; its queue waiting time ends (R173, R174, R186). -/
def placeOn (s : State) (x : CtxId) (k : Nat) : State :=
  match roomOn s x.job k [] with
  | none => s
  | some (u, v) =>
    let s := leaveQueue s x
    let s := modCtx s x fun c => { c with resident := some (k, u, v), atFret := true, sinceFret := 0, fretAt := s.power.uptime }
    let s := s.modCore k fun q => { q with residents := q.residents ++ [x] }
    countResident (pickIssue s k false) x.job

/-- The queue of a polder's non-resident contexts (R179): priority, started jobs first, JOB number, context index. -/
def waiting (s : State) (p : Nat) : List CtxId :=
  let all := (s.jobs.filter fun e => jobPolder s e.1 == p && e.2.ending.isNone).flatMap fun e =>
    ((List.range e.2.ctxs.length).zip e.2.ctxs).filterMap fun q =>
      if q.2.resident.isNone && !q.2.ended && !q.2.held then some (CtxId.mk e.1 q.1) else none
  let started : CtxId → Bool := fun x => match kget s.jobs x.job with | some j => j.started | none => false
  sortBy (fun (a b : CtxId) =>
    if ctxPriority s a ≠ ctxPriority s b then decide (ctxPriority s a > ctxPriority s b)
    else if started a ≠ started b then started a
    else if numberOf a.job ≠ numberOf b.job then decide (numberOf a.job < numberOf b.job)
    else decide (a.idx < b.idx)) all

/-- Place contexts of a job, each where it prefers, or none of them. -/
def placeList (s : State) (l : List CtxId) : Option State :=
  l.foldl (fun acc x => acc.bind fun s => (coreFor s x).map fun k => placeOn s x k) (some s)

/-- Every context of a job. -/
def ctxsOf (s : State) (h : Nat) : List CtxId :=
  match kget s.jobs h with
  | some j => (List.range j.ctxs.length).map fun i => ⟨h, i⟩
  | none => []

/-- Place every context of a new job at once, or none. -/
def placeAll (s : State) (h : Nat) : Option State :=
  (placeList s (ctxsOf s h)).map fun s => s.modJob h fun j => { j with started := true }

/-- One pass over a polder's queue (R179): a started job's context goes wherever room exists; a new job starts whole, and not
before the new job at the head of its priority level. -/
def placePass (s : State) (p : Nat) : State :=
  ((waiting s p).foldl (fun acc x =>
    let (s, blocked) := acc
    match kget s.jobs x.job with
    | none => acc
    | some j =>
      if (match getCtx s x with | some (_, c) => c.resident.isSome | none => true) then acc
      else if j.started then ((match coreFor s x with | some k => placeOn s x k | none => s), blocked)
      else if blocked.contains (ctxPriority s x) then acc
      else match placeAll s x.job with
        | some s => (s, blocked)
        | none => (s, ctxPriority s x :: blocked)) (s, ([] : List Nat))).1

/-! ## Eviction (R180, R181) -/

/-- Whether a resident may be evicted for a waiting context (R180, R181). -/
def candidate (s : State) (w x : CtxId) (equal : Bool) : Bool :=
  let t := match getCtx s x with
    | some (_, c) => (match c.tx with | some l => kget s.txs l | none => none)
    | none => none
  (if equal then decide (ctxPriority s x ≤ ctxPriority s w) else decide (ctxPriority s x < ctxPriority s w)) &&
  x.job != w.job && (match t with | some t => t.state != .committing | none => true) &&
  (match getCtx s x with | some (_, c) => c.evictWhy.isNone | none => false)

/-- Order in which candidates are chosen (R180). -/
def evictBefore (s : State) (a b : CtxId) : Bool :=
  let rp := fun (x : CtxId) => match getCtx s x with | some (_, c) => c.rpSeq | none => 0
  if ctxPriority s a ≠ ctxPriority s b then decide (ctxPriority s a < ctxPriority s b)
  else if rp a ≠ rp b then decide (rp a < rp b)
  else if numberOf a.job ≠ numberOf b.job then decide (numberOf a.job < numberOf b.job)
  else decide (a.idx < b.idx)

/-- Residents of a core that are chosen for eviction already. -/
def leaving (s : State) (k : Nat) : List CtxId :=
  (s.core k).residents.filter fun x => match getCtx s x with | some (_, c) => c.evictWhy.isSome | none => false

/-- Fewest residents of a core whose eviction makes room for a context, earliest candidates first; none of them where those that leave
already do. -/
def evictSet (s : State) (w : CtxId) (k : Nat) (equal : Bool) : Option (List CtxId) :=
  let c := sortBy (evictBefore s) ((s.core k).residents.filter fun x => candidate s w x equal)
  let subsets := c.foldr (fun x acc => (acc.map fun l => x :: l) ++ acc) [[]]
  bestBy (fun a b => decide (a.length < b.length)) (subsets.filter fun l => (roomOn s w.job k (leaving s k ++ l)).isSome)

/-- An order of eviction sets: fewer evictions first, then the earlier candidates (R180). -/
def setBefore (s : State) : List CtxId → List CtxId → Bool
  | x :: a, y :: b => if x = y then setBefore s a b else decide (a.length < b.length) || (a.length == b.length && evictBefore s x y)
  | a, b => decide (a.length < b.length)

/-- The fewest evictions that let `n` contexts of a job be placed at once, on distinct cores, residents of the cores that a test admits
being evicted (R173, R179, R180); none if no choice does. -/
def evictPlan (s : State) (w : CtxId) (n : Nat) (may : Nat → Bool) (equal : Bool) : Option (List CtxId) :=
  let sets := (polderCores s (jobPolder s w.job)).filterMap fun k =>
    if (roomOn s w.job k (leaving s k)).isSome then some [] else if may k then evictSet s w k equal else none
  if sets.length < n then none else some ((sortBy (setBefore s) sets).take n).flatten

/-- Evict a resident: at once if it is at a fret and its job is not being secured, else at its next fret (R144, R180, 10 R273). -/
def evictNow (s : State) (x : CtxId) (why : Nat) : State :=
  match getCtx s x with
  | some (j, c) => if c.atFret && j.securing.isNone then evict s x why else modCtx s x fun c => { c with evictWhy := some why }
  | none => s

/-- The contexts that must be placed together with a waiting one: all of a new job, else it alone (R179). -/
def placedWith (s : State) (w : CtxId) : List CtxId :=
  match kget s.jobs w.job with
  | some j => if j.started then [w] else ctxsOf s w.job
  | none => [w]

/-- Contexts that wait in a polder and find no room: for each, in queue order, the evictions of R180. The second state is what the first
becomes once they have taken effect and those before have been placed; a new job that finds no room keeps the later new jobs of its
priority level waiting (R179). -/
def evictPass (s : State) (p : Nat) : State :=
  if (od s (0x3000 + p) 8).testBit 0 then
    let later := ((List.range 32).flatMap (leaving s)).foldl (fun s x => evict s x 3) s
    ((waiting s p).foldl (fun (acc : State × State × List Nat) w =>
      let (s, t, blocked) := acc
      let l := placedWith s w
      let whole := match kget t.jobs w.job with | some j => !j.started | none => true
      let placed := match getCtx t w with | some (_, c) => c.resident.isSome | none => true
      if placed || (whole && blocked.contains (ctxPriority s w)) then acc
      else
        let place := fun (t : State) => (placeList t l).map fun t => t.modJob w.job fun j => { j with started := true }
        match place t with
        | some t => (s, t, blocked)
        | none => match evictPlan t w l.length (fun _ => true) false with
          | some out =>
            let t := out.foldl (fun t x => evict t x 3) t
            (out.foldl (fun s x => evictNow s x 3) s, (place t).getD t, blocked)
          | none => (s, t, if whole then ctxPriority s w :: blocked else blocked)) (s, later, ([] : List Nat))).1
  else s

end Sys2Proof.Machine
end

