-- ==== Sys2Proof/Machine/Txn.lean ====
section
/-! DEFINITION. Machine/Txn.lean: opening, validating, committing and applying transactions, and two-phase commit (04). -/

namespace Sys2Proof.Machine

/-- Next local number: increasing, wrapping from 0x3F_FFFF to 1, skipping numbers in use and kept outcomes (R101). -/
def nextLocal (s : State) : Nat → Nat → Option Nat
  | 0, _ => none
  | fuel + 1, n =>
    let k := if n ≥ 0x3FFFFF then 1 else n + 1
    if (kget s.txs k).isSome || s.outcomes.any (fun o => o.loc == k) then nextLocal s fuel k else some k

/-- Open a transaction; none when all 4,096 coordinator slots are in use (R101-R103). -/
def beginTx (s : State) (owner : TxOwner) : Option (Nat × State) :=
  if 4096 ≤ s.txs.length then none
  else (nextLocal s (4097 + s.outcomes.length) s.txHigh).map fun k =>
    let s := { s with txs := kset s.txs k { owner := owner, lastNamed := s.power.uptime }, txHigh := k }
    (k, (jadd s (.highMark s.numHigh s.txHigh s.seq s.healthMark)).2)

/-- Whether a branch that is PREPARED here holds an item that was read: its transaction may have committed elsewhere (R119). -/
def inDoubtHolds (s : State) (i : Item) : Bool :=
  s.branches.any fun b => b.2.state == .prepared && match i with
    | .header h | .object h => b.2.objs.contains h || b.2.idx.any fun c => c.1 == h
    | i => b.2.writes.contains i

/-- Validation: every read-set entry against the item's current version (R113). A reader of an item in doubt aborts (R119). -/
def validates (s : State) (t : Tx) : Bool :=
  t.reads.all fun e => !inDoubtHolds s e.1 && match e.1 with
    | .header h => (match kget s.objs h with | some o => o.version == e.2 | none => false)
    | .object h => (match kget s.objs h with | some o => decide (o.changeStamp ≤ e.2) | none => false)
    | i => (match aget s.versions i with | some v => v == e.2 | none => true)

/-- Pages a transaction has staged. -/
def stagedPages (t : Tx) : List Nat := t.units.filterMap (·.2)

/-- Whether a transaction's write set is persistent: units, or changes to objects that are not VOLATILE (13 R369). -/
def persistentTx (s : State) (t : Tx) : Bool :=
  !t.units.isEmpty || (t.objs ++ t.idx.map (·.1)).any fun h => match kget s.objs h with | some o => !o.volatile | none => false

/-- Row additions that a transaction holds, with their tables. -/
def additionsOf (s : State) (id : Nat) : List RowAdd :=
  s.tables.flatMap fun e => (e.2.pend.filter fun (a : Addition) => a.tx == id).map fun (a : Addition) =>
    (⟨e.1, some a.row, a.step, a.src, a.pos, 0xFF, 0, a.tx, a.values⟩ : RowAdd)

/-- Present contents of the lines of a write set that belong to persistent objects (R116). -/
def lineValues (s : State) (t : Tx) : List (Nat × List Byte) :=
  t.undo.filterMap fun u => match ownerOfAddr s (u.1 * 64) with
    | some e => if e.2.volatile then none else some (u.1, lineBytes s u.1)
    | none => none

/-- Objects that a transaction changes. -/
def changedBy (t : Tx) : List Nat := nubList (t.objs ++ t.idx.map (·.1))

/-- The record that makes an outcome durable makes the present headers of the objects it changed durable too (R116). -/
def hardenObjs (s : State) (l : List Nat) : State :=
  { s with durObjs := l.foldl (fun m h => match kget s.objs h with | some o => kset m h o | none => m) s.durObjs }

/-- Apply an outcome COMMIT at sequence number `n` (R115): units remapped, undo copies released, index changes at the commit's
epoch, row additions joined, trimmed parcels returned, versions stamped. An object's change stamp is the commit's number, or a fresh one
where the object has changed since that number was drawn, so that no reader misses the change (R106). -/
def applyTx (s : State) (id n : Nat) (t : Tx) : State :=
  let s := t.units.foldl (fun s u => match u.2 with
    | some ppa => s.modFlash fun f => { f with map := kset f.map u.1 ppa }
    | none => s.modFlash fun f => { f with map := kdel f.map u.1 }) s
  -- a write-back under way carries undo copies of these lines: its parcels stay DRAM_DIRTY (02 R42, R43)
  let s := (nubList (t.undo.map fun u => u.1 / 1024)).foldl (fun s k => s.modParcel k fun p => { p with writing := [] }) s
  let s := t.trims.foldl (fun s k => dropDram (unmapUnits s ((List.range 4).map fun q => parcelLu k q)) k .unbacked) s
  let s := t.validTo.foldl (fun s v => raiseValid s v.1 v.2) s
  let s := t.counts.foldl (fun s c => setCount s c.1 c.2) s
  let s := t.logs.foldl (fun s c => setLog s c.1 c.2.1 c.2.2.1 c.2.2.2) s
  let s := (nubList (t.idx.map (·.1))).foldl (fun s h =>
    applyIdx s t.polder h ((t.idx.filter fun c => c.1 == h).map (·.2))) s
  let join := fun (a : Addition) => if a.tx = id then { a with tx := 0 } else a
  let s : State := { s with tables := kmap s.tables fun _ b => { b with pend := b.pend.map join } }
  -- a row's stamp changes at its application, not at the commit (11 R292)
  let isRow := fun (i : Item) => match i with | .row .. => true | _ => false
  let s : State := { s with versions := s.versions.map fun p => if t.writes.contains p.1 && !isRow p.1 then (p.1, n) else p }
  let changed := changedBy t
  let late := changed.any fun h => match kget s.objs h with | some o => decide (n ≤ o.changeStamp) | none => false
  let (stamp, s) := if late then nextSeq s else (n, s)
  let s := changed.foldl (fun s h => bumpVersion (s.modObj h fun o => { o with changeStamp := stamp }) h) s
  changed.foldl (fun s h => (journalObj s h).2) s

/-- The transaction's end reaches its waiters: a command, or the context whose record it is (05 R146, R147). -/
def settle (s : State) (loc status : Nat) (t : Tx) : State :=
  let s := { s with execs := kmap s.execs fun _ e => match e.wait with
    | .txOutcome l => if l = loc then { e with wait := .ready status 0 } else e
    | _ => e }
  match t.owner with
  | .context job idx _ =>
    let x : CtxId := ⟨job, idx⟩
    (match getCtx s x with
    | some (_, c) =>
      if c.wait = .commit loc then
        if status = 0 then
          let (n, s) := nextSeq s
          let s := modCtx s x fun c => { c with
            wait := .none, tx := none, retries := 0, rpRec := c.recIdx + 1, rpX := c.x, rpSeq := n }
          recordDone s x true
        else ctxAborted (modCtx s x fun c => { c with wait := .none, tx := none }) x status
      else match c.wait with
        | .secureCommit l step =>
          if l ≠ loc then s
          else if status = 0 then
            -- the commit that a SECURE makes comes before the record: its restart point is the SECURE itself (10 R264)
            let (n, s) := nextSeq s
            let s := modCtx s x fun c => { c with
              wait := .secureBarrier step true, tx := none, retries := 0, rpRec := c.recIdx, rpX := c.x, rpSeq := n }
            secureCheck (doFret s x) job
          else ctxAborted (modCtx s x fun c => { c with wait := .none, tx := none }) x status
        | _ => s
    | none => s)
  | _ => s

/-- A COMMITTING transaction fails: undone, freed, its participants told, its waiters ended (R114). -/
def failCommit (s : State) (loc status : Nat) : State :=
  match kget s.txs loc with
  | none => s
  | some t =>
    let s := bumpB (freeTx s (txIdOf s loc)) t.polder 0x9600 (abortCounter status) (if abortCounter status = 0 then 0 else 1)
    settle s loc status t

/-- Whether commands that carry a transaction's id and were accepted before its TX_COMMIT still execute (03 R92). -/
def earlierRuns (s : State) (id : Nat) : Bool :=
  match findFirst (fun e => e.2.wait == .txOutcome (localOf id)) s.execs with
  | none => false
  | some c => s.execs.any fun e => e.2.cmd.tx.toNat == id && e.2.opcode != 0x21 && decide (e.2.order < c.2.order)

/-- Move a COMMITTING transaction on (R92, R117 steps 2 and 4, 13 R348): after its earlier commands, it validates and sends
PREPARE to its participants; with every YES, or none to ask, and its pages in closed courses, it writes the commit record. -/
def advanceCommit (s : State) (loc : Nat) : State :=
  match kget s.txs loc with
  | none => s
  | some t =>
    let id := txIdOf s loc
    -- an earlier command of it aborted it: the commit ends with the abort's status (R92, R114)
    if t.state = .aborted ∧ !earlierRuns s id ∧ s.execs.any (fun e => e.2.wait == .txOutcome loc) then
      settle (freeTx s id) loc t.abort t
    else if t.state ≠ .committing ∨ t.recordSeq.isSome ∨ earlierRuns s id then s
    else if !t.participants.isEmpty && t.preparedAt.isNone then
      if !validates s t then failCommit s loc 0x3001
      else
        -- validation and the commit's sequence number go together (R113)
        let (n, s) := nextSeq s
        let s := s.modTx loc fun t => { t with preparedAt := some s.power.uptime, commitSeq := some n }
        let s := awaitPages s (stagedPages t)
        t.participants.foldl (fun s p => sendMsg s p.module .prepare id 0 [] []) s
    else if t.participants.any (fun p => p.vote == some false) then failCommit s loc 0x3001
    else if t.participants.any (fun p => p.vote.isNone) then s
    else
      let s := awaitPages s (stagedPages t)
      if !(stagedPages t).all (pageClosed s) then s
      else if t.participants.isEmpty && !validates s t then failCommit s loc 0x3001
      else if s.flash.readOnly && persistentTx s t then failCommit s loc 0x2002
      else
        let (n, s) := jadd s (.commit id (t.commitSeq.getD s.seq) t.units (lineValues s t) (t.participants.map (·.module)) (additionsOf s id) t.idx t.trims)
        s.modTx loc fun t => { t with recordSeq := some n }

/-- TX_COMMIT on a transaction (R114): an ABORTED one ends with its abort status, an OPEN one becomes COMMITTING. -/
def startCommit (s : State) (loc : Nat) : State :=
  match kget s.txs loc with
  | none => s
  | some t =>
    if t.state = .aborted then settle (freeTx s (txIdOf s loc)) loc t.abort t
    else if t.state = .open then advanceCommit (s.modTx loc fun t => { t with state := .committing }) loc
    else s

/-- The staged page of a unit that a branch's record names: the page itself, or where GC has moved it, under the same unit and transaction
id, since (13 R365). -/
def stagedNow (s : State) (id : Nat) (u : Nat × Option Nat) : Nat × Option Nat :=
  match u.2 with
  | none => u
  | some x =>
    let mine := fun (p : Page) => p.lu == u.1 && p.tx == id
    if (match kget s.flash.pages x with | some p => mine p | none => false) then u
    else match bestBy (fun (a b : Nat × Page) => decide (b.2.seq < a.2.seq)) (s.flash.pages.filter fun e => mine e.2) with
      | some e => (u.1, some e.1)
      | none => u

/-- The PREPARED record of a branch in the journal: the branch, its lines and row additions (R117 step 3). -/
def preparedRec (s : State) (id : Nat) : Option (Tx × List (Nat × List Byte) × List RowAdd) :=
  findFirst (fun _ => true) (s.flash.journal.reverse.filterMap fun r => match r.2 with
    | .prepared k b lines rows => if k = id then some (b, lines, rows) else none
    | _ => none)

/-- What an outcome COMMIT changes in the durable map and lines, recorded under sequence number `n` (R115, R116). -/
def durableOutcome (s : State) (n id : Nat) (units : List (Nat × Option Nat)) (lines : List (Nat × List Byte)) (trims : List Nat) : State :=
  let remap := fun (m : KMap Nat) (u : Nat × Option Nat) => match u.2 with
    | some ppa => kset m u.1 ppa
    | none => kdel m u.1
  let drop := fun (m : KMap Nat) (k : Nat) => (List.range 4).foldl (fun m q => kdel m (parcelLu k q)) m
  let kept := kfilter s.durLines fun l _ => !trims.contains (l / 1024)
  let s : State := { s with durLines := lines.foldl (fun m l => kset m l.1 (n, id, l.2)) kept }
  s.modFlash fun f => { f with durMap := trims.foldl drop (units.foldl remap f.durMap) }

/-- Make a queued journal record durable: its journal page is programmed (13 R358, R359). Map deltas, outcomes and headers take effect on
the durable state as their records say: a transaction's with its commit record, a branch's with the record of its outcome (R116, R117). -/
def journalApply (s : State) (n : Nat) (r : JRec) : State :=
  match r with
  | .map lu ppa => s.modFlash fun f => { f with durMap := kset f.durMap lu ppa }
  | .unmap lu =>
    let s : State := { s with durLines := kfilter s.durLines fun n _ => lineLu n != lu }
    s.modFlash fun f => { f with durMap := kdel f.durMap lu }
  | .commit id _ units lines _ _ _ trims => durableOutcome s n id units lines trims
  | .outcome id false =>
    (match preparedRec s id with
    | some (b, lines, _) => hardenObjs (durableOutcome s n id (b.units.map (stagedNow s id)) lines b.trims) (changedBy b)
    | none => s)
  | .object h o => { s with durObjs := match o with | some o => kset s.durObjs h o | none => kdel s.durObjs h }
  | _ => s

/-- Program the journal page that holds every queued record (13 R359). -/
def journalFlush (s : State) : State :=
  match s.flash.jpend with
  | [] => s
  | l =>
    let top := match l.getLast? with | some e => e.1 | none => s.flash.jdone
    let s := l.foldl (fun s e => journalApply s e.1 e.2) s
    let (n, s) := nextSeq s
    bump (s.modFlash fun f => { f with
      jpend := [], jsince := none, journal := f.journal ++ l ++ [(n, .stream)], jdone := max f.jdone top }) 0x9050 5 1

/-- Whether a record is durable. -/
def jDurable (s : State) (n : Nat) : Bool := decide (n ≤ s.flash.jdone)

/-- End a COMMITTED transaction whose outcome is applied and acknowledged (R114, R117 step 6). -/
def finishCommit (s : State) (loc : Nat) : State :=
  match kget s.txs loc with
  | none => s
  | some t =>
    if t.state = .committed ∧ t.participants.all (fun p => p.acked) then
      let s := if t.participants.isEmpty then s else (jadd s (.outcome (txIdOf s loc) true)).2
      settle { s with txs := kdel s.txs loc } loc 0 t
    else s

/-- The commit point (R115): the commit record is durable; the outcome is applied and COMMIT goes to the participants. -/
def commitPoint (s : State) (loc : Nat) : State :=
  match kget s.txs loc with
  | none => s
  | some t =>
    match t.recordSeq with
    | none => s
    | some n =>
      if t.state ≠ .committing ∨ !jDurable s n then s
      else
        let id := txIdOf s loc
        let s := bumpB (hardenObjs (applyTx s id (t.commitSeq.getD n) t) (changedBy t)) t.polder 0x9600 1 1
        let at' := s.power.uptime
        let s := s.modTx loc fun t => { clearTx t with state := .committed, commitAt := at', repeatAt := at' }
        let s := t.participants.foldl (fun s p => sendMsg s p.module .commit id 0 [] []) s
        finishCommit s loc

/-! ## The participant's side (R117-R121, R123) -/

/-- Open or extend the branch of a transaction of another coordinator; none when 4,096 are held (R103). -/
def openBranch (s : State) (id src polder : Nat) : Option State :=
  match kget s.branches id with
  | some _ => some { s with branches := kmod s.branches id fun t => { t with lastNamed := s.power.uptime } }
  | none =>
    if 4096 ≤ s.branches.length then none
    else some { s with branches := kset s.branches id { owner := .coordinator src polder, lastNamed := s.power.uptime } }

/-- Roll a branch back and forget it. -/
def rollBranch (s : State) (id : Nat) : State :=
  match kget s.branches id with
  | none => s
  | some t =>
    let s := if t.state = .aborted then s else undoTx s id t
    -- a PREPARED branch that ends is not rebuilt (R122)
    let s := if t.state = .prepared then (jadd s (.outcome id true)).2 else s
    { s with branches := kdel s.branches id }

/-- PREPARE arrives (R117 step 3): the branch validates; on success its PREPARED record is written and YES goes when it is durable;
on failure NO, and it is rolled back. -/
def prepareBranch (s : State) (src id : Nat) : State :=
  match kget s.branches id with
  | none => sendMsg s src .vote id 0x3001 [0] []
  | some t =>
    if t.state = .prepared then
      if (match t.recordSeq with | some n => jDurable s n | none => false) then sendMsg s src .vote id 0 [1] [] else s
    else if t.state ≠ .open ∨ !validates s t ∨ (s.flash.readOnly && persistentTx s t) then
      sendMsg (rollBranch s id) src .vote id 0x3001 [0] []
    else
      let s := awaitPages s (stagedPages t)
      let b := { t with state := .prepared, lastNamed := s.power.uptime, repeatAt := s.power.uptime }
      let (n, s) := jadd s (.prepared id b (lineValues s t) (additionsOf s id))
      { s with branches := kset s.branches id { b with recordSeq := some n } }

/-- PREPARED records that have become durable, their pages in closed courses, answer YES (R117 step 3, 13 R348); a branch whose outcome's
record is durable acknowledges and is forgotten (R117 step 5, R118). -/
def answerPrepared (s : State) : State :=
  s.branches.foldl (fun s e =>
    match e.2.recordSeq with
    | some n =>
      if e.2.state = .prepared ∧ e.2.preparedAt.isNone ∧ jDurable s n ∧ (stagedPages e.2).all (pageClosed s) then
        let s := { s with branches := kmod s.branches e.1 fun t => { t with preparedAt := some s.power.uptime } }
        sendMsg s (coordOf e.1) .vote e.1 0 [1] []
      else if e.2.state = .committed ∧ jDurable s n then
        sendMsg { s with branches := kdel s.branches e.1 } (coordOf e.1) .ack e.1 0 [] []
      else s
    | none => s) s

/-- COMMIT reaches a PREPARED branch (R117 step 5): applied at the number drawn with its validation, recorded, and acknowledged once the
record is durable. A branch rolled back by hand logs the divergence and is not applied (R121): a record of type 0x0032, as at the rollback
itself; DESIGN CHOICE (log entry 140). -/
def commitBranch (s : State) (src id : Nat) : State :=
  match kget s.branches id with
  | some t =>
    if t.state = .prepared then
      let (n, s) := jadd s (.outcome id false)
      let s := applyTx s id (t.recordSeq.getD n) t
      { s with branches := kset s.branches id { clearTx t with state := .committed, recordSeq := some n } }
    else s
  | none =>
    -- an outcome already applied is acknowledged again; a branch ended by OD 0x4601:02 diverges
    if s.flash.journal.any (fun r => match r.2 with | .outcome k false => k == id | _ => false) ||
       s.flash.jpend.any (fun r => match r.2 with | .outcome k false => k == id | _ => false)
    then sendMsg s src .ack id 0 [] []
    else sendMsg (logHealth s 0x0032 false [id]) src .ack id 0 [] []

/-- Every journal page programmed lets waiting work go on: commit points, PREPARED answers (13 R348, R359). -/
def afterJournal (s : State) : State :=
  let s := (s.txs.map (·.1)).foldl (fun s l => commitPoint s l) s
  answerPrepared s

/-- Closed courses let commits write their records (13 R348). -/
def afterCourse (s : State) : State :=
  answerPrepared ((s.txs.map (·.1)).foldl (fun s l => advanceCommit s l) s)

end Sys2Proof.Machine
end

