-- ==== Sys2Proof/Machine/HostMem.lean ====
section
/-! DEFINITION. Machine/HostMem.lean: host memory as a command reaches it: reads over CXL.cache, deliveries over CXL.io, and lists of
buffers (03 R87, R525, 16 R426, R437). -/

namespace Sys2Proof.Machine

/-- CXL.io carries DMA while the link is up (16, link errors). -/
def ioUp (s : State) : Bool := s.host.link != .down

/-- CXL.cache needs a CXL link and a whole IDE stream (16 R423, R437). -/
def cacheUp (s : State) : Bool := (s.host.link == .l0 || s.host.link == .l1) && s.host.ide

/-- The host serves a range of a function's DMA addresses. -/
def hostServes (s : State) (fn a n : Nat) : Bool :=
  decide (a + n ≤ 18446744073709551616) &&
  !(s.host.faults.any fun f => f.1 == fn && decide (f.2.1 < a + n) && decide (a < f.2.2))

/-- Where a function's DMA address lies in `HostIf.mem`. -/
def hostKey (fn a : Nat) : Nat := fn * 18446744073709551616 + a

/-- Note the translations obtained by ATS for a range (16 R426). -/
def noteAts (s : State) (fn a n : Nat) : State :=
  if n = 0 then s
  else s.modHost fun h => { h with ats :=
    ((List.range ((a + n - 1) / 4096 + 1 - a / 4096)).map fun i => (fn, a / 4096 + i)).foldl (fun l t =>
      if l.contains t then l else l ++ [t]) h.ats }

/-- Read host memory coherently over CXL.cache. None: the host does not serve it (0x100E). -/
def hostRead (s : State) (fn a n : Nat) : Option (List Byte) :=
  if cacheUp s && hostServes s fn a n then some (mread s.host.mem (hostKey fn a) n) else none

/-- Write host memory over CXL.io. -/
def hostWrite (s : State) (fn a : Nat) (b : List Byte) : Option State :=
  if ioUp s && hostServes s fn a b.length then
    some (s.modHost fun h => { h with mem := mwrite h.mem (hostKey fn a) b })
  else none

/-- Write host memory over CXL.cache (completion records, 03 R75). -/
def hostWriteCache (s : State) (fn a : Nat) (b : List Byte) : Option State :=
  if cacheUp s && hostServes s fn a b.length then
    some ((noteAts s fn a b.length).modHost fun h => { h with mem := mwrite h.mem (hostKey fn a) b })
  else none

/-- A result or a failure status. -/
inductive Res (α : Type) where
  | ok (a : α)
  | err (status : Nat)
  deriving DecidableEq, Repr

/-- Entries of a list of buffers before its terminator; at most `fuel` of them (R525). -/
def sglEntries (s : State) (fn : Nat) : Nat → Nat → Res (List (Nat × Nat))
  | 0, _ => .err 0x1007
  | fuel + 1, a =>
    match hostRead s fn a 16 with
    | none => .err 0x100E
    | some b =>
      if fieldAt b 8 8 = 0 then .ok []
      else match sglEntries s fn fuel (a + 16) with
        | .ok l => .ok ((fieldAt b 0 8, fieldAt b 8 8) :: l)
        | .err e => .err e

/-- The buffer of a command: one range, or the list at Host address, checked whole before any byte moves (R525). -/
def bufferOf (s : State) (fn : Nat) (sgl : Bool) (addr length : Nat) : Res (List (Nat × Nat)) :=
  if !sgl then .ok [(addr, length)]
  else if addr % 16 ≠ 0 then .err 0x1009
  else match sglEntries s fn 4097 addr with
    | .err e => .err e
    | .ok l => if (l.map (·.2)).foldl (· + ·) 0 = length then .ok l else .err 0x1007

/-- Read a buffer's bytes. -/
def fetchAll (s : State) (fn : Nat) : List (Nat × Nat) → Res (List Byte)
  | [] => .ok []
  | (a, n) :: r =>
    match hostRead s fn a n with
    | none => .err 0x100E
    | some b => (match fetchAll s fn r with
      | .ok l => .ok (b ++ l)
      | .err e => .err e)

/-- Deliver bytes into a buffer; those before a range the host does not serve are not undone (R87). -/
def deliver (s : State) (fn : Nat) : List (Nat × Nat) → List Byte → Bool × State
  | [], _ => (true, s)
  | (a, n) :: r, b =>
    match hostWrite s fn a (b.take n) with
    | none => (false, s)
    | some s => deliver s fn r (b.drop n)

/-! ## A command being executed -/

/-- A command as its effect sees it: the register, the function and the polder of its page, and whether its flash reads are done. -/
structure Req where
  reg : Nat
  fn : Nat
  p : Nat
  c : TaskCmd
  again : Bool
  /-- payload of a command carried here from another module (R526) -/
  data : Option (List Byte) := none
  deriving DecidableEq, Repr

/-- Transaction id carried, 0 for none: local number 0 means none (03 command table). -/
def Req.tx (q : Req) : Nat := if q.c.tx.toNat % 4194304 = 0 then 0 else q.c.tx.toNat

/-- A flag bit. -/
def Req.flag (q : Req) (i : Nat) : Bool := q.c.flags.getLsbD i

/-- An operand field at an offset from +0x20, of `k` bytes. -/
def Req.op (q : Req) (o k : Nat) : Nat := bitsAt q.c.ops.toNat (8 * o) (8 * k)

/-- What a command's effect answers: the state, what it still waits for, and its work (R70). -/
abbrev Eff := State × Wait × Nat

/-- The command ends with a status, or ends well with a value. -/
def fails (s : State) (status : Nat) : Eff := (s, .ready status 0, 0)
def ends (s : State) (value : Nat) : Eff := (s, .ready 0 value, 0)

/-- Whether a command may act in the transaction it names: 0, or the status it fails with (04 R102, R114, 03 R92). -/
def txGate (s : State) (fn p id : Nat) : Nat :=
  if id = 0 then 0
  else if coordOf id ≠ moduleId s then 0x100D
  else match getTx s id with
    | none => 0x100D
    | some t =>
      if t.owner ≠ .page fn p then 0x100D
      else match t.state with
        | .open => 0
        | .aborted => t.abort
        | _ => 0x100D

/-- A command names a transaction (04 R114: the idle time restarts). -/
def touchTx (s : State) (id : Nat) : State :=
  if id = 0 then s
  else match getTx s id with
    | some t => setTx s id { t with lastNamed := s.power.uptime }
    | none => s

/-- The buffer described by a command. -/
def Req.buffer (q : Req) (s : State) : Res (List (Nat × Nat)) :=
  bufferOf s q.fn (q.flag 3) q.c.haddr.toNat q.c.length.toNat

/-- Read the whole buffer of a command over CXL.cache, before anything of it is stored: a WRITE whose buffer the host does not serve leaves
nothing written. DESIGN CHOICE (log entry 139; R87 leaves bytes already transferred). -/
def Req.fetch (q : Req) (s : State) : Res (List Byte) × State :=
  match q.data, q.buffer s with
  | some b, _ => (.ok b, s)
  | none, .err e => (.err e, s)
  | none, .ok l => (fetchAll s q.fn l, l.foldl (fun s e => noteAts s q.fn e.1 e.2) s)

end Sys2Proof.Machine
end

