-- ==== Sys2Proof/Machine/Flags.lean ====
section
/-! DEFINITION. Machine/Flags.lean: the status words of a task register as host software reads them (03 R69-R74). -/

namespace Sys2Proof.Machine

/-- Registers of a page (R66, R67): 32 registers of 128 bytes. -/
def pageOfReg (reg : Nat) : Nat := reg / 32

/-- Register states as the queue-state word gives them. -/
def RegState.code : RegState → Nat
  | .idle => 0
  | .pending => 1
  | .executing => 2
  | .done => 3

/-- Opcodes whose progress counts work (R70): READ, WRITE, LOOKUP, SEARCH, JOB with WAIT_END, SANITIZE. -/
def countsWork (op flags : Nat) : Bool :=
  op == 1 || op == 2 || op == 0x50 || op == 0x40 || op == 0x103 || (op == 0x30 && bitAt flags 8)

/-- Work completed by the command in a register. -/
def progressOf (s : State) (reg : Nat) : Nat :=
  match kget s.execs reg with
  | some e => if countsWork e.opcode e.cmd.flags.toNat then e.work % 281474976710656 else 0
  | none => 0

/-- Result control, +0x4E (R71). -/
def resultControl (r : TaskReg) : Nat := (if r.valid then 32768 else 0) + r.readCount.toNat * 8192

/-- Result value, +0x40: the value of a complete result, else the state and the progress (R70). -/
def resultValue (s : State) (reg : Nat) (r : TaskReg) : Nat :=
  if r.valid then r.value.toNat else r.state.code * 72057594037927936 + progressOf s reg

/-- Queue state, +0x50. -/
def queueState (r : TaskReg) (pg : PageCond) : Nat :=
  r.lastDropped.toNat * 4294967296 + (if r.overrun then 2147483648 else 0) + r.state.code * 268435456 +
  (if pg.polder = 0xFF then 134217728 else 0) + pg.polder * 65536 + r.nextSeq.toNat

/-- Completion-ring control, +0x58: the ring's tail in its low half. -/
def ringControl (s : State) (r : TaskReg) : Nat :=
  (if r.enable then 9223372036854775808 else 0) + r.ring.toNat * 1125899906842624 +
  ((kget s.rings r.ring.toNat).getD {}).tail % 4294967296

/-- The 128 bytes of a register as they read (R69): the command slot and the last 32 bytes read zero. -/
def registerBytes (s : State) (reg : Nat) (pg : PageCond) : List Byte :=
  let r := s.reg reg
  List.replicate 64 0 ++ toLE 8 (resultValue s reg r) ++ toLE 4 r.tag.toNat ++ toLE 2 (if r.valid then r.status.toNat else 0) ++
  toLE 2 (resultControl r) ++ toLE 8 (queueState r pg) ++ toLE 8 (ringControl s r) ++ List.replicate 32 0

end Sys2Proof.Machine
end

