-- ==== Sys2Proof/Machine/Storage.lean ====
section
/-! DEFINITION. Machine/Storage.lean: what READ, WRITE, FLUSH and TRIM do, on namespaces, objects and remote objects (03 R86-R89, R526,
02 R43, 04 R104, 13 R348, R356, R369). -/

namespace Sys2Proof.Machine

/-! ## Namespaces -/

/-- The live NAMESPACE of an id. -/
def nsOf (s : State) (nsid : Nat) : Option (Nat × Obj) :=
  findFirst (fun e => match e.2.area with | .nspace n _ _ _ => n == nsid && !e.2.leaving | _ => false) s.objs

/-- Logical block size and blocks of a NAMESPACE. -/
def nsShape (o : Obj) : Nat × Nat := match o.area with | .nspace _ b n _ => (b, n) | _ => (4096, 0)

/-- First byte of an NS_ADDR target whose range is aligned and inside the namespace (R86). -/
def nsStart (o : Obj) (target length : Nat) : Res Nat :=
  let (b, n) := nsShape o
  let lba := target % 281474976710656
  if length % b ≠ 0 then .err 0x1009
  else if n < lba + length / b then .err 0x1008
  else .ok (lba * b)

/-- Units that `[start, start + n)` touches. -/
def unitsOf (start n : Nat) : List Nat :=
  if n = 0 then [] else (List.range ((start + n - 1) / pageBytes + 1 - start / pageBytes)).map (start / pageBytes + ·)

/-- Current page of a unit as a transaction sees it: its own staged page or trim first (04 R107). -/
def unitPage (s : State) (id lu : Nat) : Option Nat :=
  match (if id = 0 then none else getTx s id) with
  | some t => (match stagedPage t.units lu with
    | some x => x
    | none => pageOf s lu)
  | none => pageOf s lu

/-- Queue the demand reads of a command (13 R338). -/
def askReads (s : State) (pages : List Nat) (p : Nat) : State := pages.foldl (fun s x => askRead s x 2 p .command) s

/-- Bytes of a unit as a transaction sees it; none when its page cannot be decoded. -/
def unitData (s : State) (id lu : Nat) : Option Memory :=
  match unitPage s id lu with
  | none => some []
  | some ppa => pageData s ppa

/-- READ of a namespace range. -/
def readNs (q : Req) (s : State) : Eff :=
  let n := q.c.length.toNat
  match nsOf s (q.c.target.toNat / 281474976710656) with
  | none => fails s 0x5001
  | some (h, o) =>
    match nsStart o q.c.target.toNat n with
    | .err e => fails s e
    | .ok start =>
      let nsid := q.c.target.toNat / 281474976710656
      let us := unitsOf start n
      let wait := onMedia s (us.filterMap fun u => unitPage s q.tx (unitLu nsid u))
      if !q.again && !wait.isEmpty then (askReads s wait q.p, .reads wait, 0)
      else
        let data := us.foldl (fun acc u => match acc, unitData s q.tx (unitLu nsid u) with
          | some m, some d =>
            let lo := max start (u * pageBytes)
            let hi := min (start + n) (u * pageBytes + pageBytes)
            some (mcopy d (lo - u * pageBytes) (hi - lo) m (lo - start))
          | _, _ => none) (some ([] : Memory))
        match data, q.buffer s with
        | none, _ => fails s 0x2001
        | _, .err e => fails s e
        | some m, .ok l =>
          let s := if q.tx = 0 then s else us.foldl (fun s u => trackRead s q.tx h (.unit (unitLu nsid u))) s
          let (ok, s) := deliver s q.fn l (mread m 0 n)
          if ok then (bump s (0x8000 + nsid) 5 n, .ready 0 n, n) else fails s 0x100E

/-- How a change of units ended. -/
inductive UnitEnd where
  | ok (pages : List Nat) (whole : Nat)
  | waits
  | fails (status : Nat)
  deriving DecidableEq, Repr

/-- Write or trim bytes of a namespace: whole units are written or unmapped, parts by read-modify-write of the unit, in a transaction
staged under its id (R86, R89, 04 R104, R111, R112, 13 R356). `data` none: a trim. -/
def changeUnits (s : State) (id h nsid start n : Nat) (data : Option (List Byte)) : UnitEnd × State :=
  let us := unitsOf start n
  let lus := us.map (unitLu nsid)
  let items := lus.map Item.unit
  let part := fun (u : Nat) => decide (u * pageBytes < start) || decide (start + n < u * pageBytes + pageBytes)
  let mapped := us.any fun u => (unitPage s id (unitLu nsid u)).isSome
  if s.flash.readOnly && (data.isSome || mapped) then (.fails 0x2002, s)
  else if us.any fun u => part u && (unitData s id (unitLu nsid u)).isNone then (.fails 0x2001, s)
  else
    let gate : Meet × State × Nat :=
      if id = 0 then
        let (m, s) := meetItems s fun i => items.contains i
        (m, s, 0)
      else if conflicts s id items then (.free, abortTx s id 0x3001, 0x3001)
      else (.free, s, 0)
    match gate with
    | (.waits, s, _) => (.waits, s)
    | (.free, s, status) =>
      if status ≠ 0 then (.fails status, s)
      else
        -- pages first; the map or the staged units after
        let (s, pages, changed, whole, ok) := us.foldl (fun acc u =>
          let (s, pages, changed, whole, ok) := acc
          let lu := unitLu nsid u
          if !ok then acc
          else if data.isNone && !part u then (s, pages, changed ++ [(lu, none)], whole + 1, ok)
          else if data.isNone && (unitPage s id lu).isNone then acc
          else
            let lo := max start (u * pageBytes)
            let hi := min (start + n) (u * pageBytes + pageBytes)
            let new := match data with
              | some b => (b.drop (lo - start)).take (hi - lo)
              | none => List.replicate (hi - lo) 0
            let old := if part u then (unitData s id lu).getD [] else []
            let s := if part u then bump s (0x8000 + nsid) 7 1 else s
            match placePage s .openHost lu .data id false 1 (mwrite old (lo - u * pageBytes) new) with
            | (some x, s) => (s, pages ++ [x], changed ++ [(lu, some x)], whole, ok)
            | (none, s) => (s, pages, changed, whole, false))
          (s, ([] : List Nat), ([] : List (Nat × Option Nat)), 0, true)
        if !ok then (.waits, s)
        else if id = 0 then
          let s := changed.foldl (fun s e => match e.2 with
            | some x => mapUnit s e.1 x
            | none => unmapUnits s [e.1]) s
          let (v, s) := nextSeq s
          (.ok pages whole, stampIf s h (fun i => items.contains i) v)
        else
          match getTx s id with
          | none => (.fails 0x100D, s)
          | some t =>
            let acts := (lus.filter fun lu => (stagedPage t.units lu).isNone).length
            -- a unit's 16,384 bytes count once, when it is first written (04 R104)
            let written := (changed.filter fun e => e.2.isSome && !t.blocks.contains (h, e.1)).map fun e => (h, e.1)
            match addAction s id (items.filter fun i => !t.writes.contains i) acts (16384 * written.length) fun t =>
                { t with blocks := t.blocks ++ written
                         units := changed.foldl (fun l e => aset l e.1 e.2) t.units
                         objs := if t.objs.contains h then t.objs else t.objs ++ [h] } with
            | none => (.fails 0x3002, abortTx s id 0x3002)
            | some s => (.ok pages whole, s)

/-- WRITE to a namespace. -/
def writeNs (q : Req) (s : State) : Eff :=
  let n := q.c.length.toNat
  let nsid := q.c.target.toNat / 281474976710656
  match nsOf s nsid with
  | none => fails s 0x5001
  | some (h, o) =>
    match nsStart o q.c.target.toNat n with
    | .err e => fails s e
    | .ok start =>
      match q.fetch s with
      | (.err e, s) => fails s e
      | (.ok b, s) =>
        match changeUnits s q.tx h nsid start n (some b) with
        | (.fails e, s) => fails s e
        | (.waits, s) => (s, .retry, 0)
        | (.ok pages _, s) =>
          let s := bump s (0x8000 + nsid) 6 n
          if q.flag 0 && q.tx == 0 then (awaitPages s pages, .pages pages 0 n, n) else (s, .ready 0 n, n)

/-- TRIM of a namespace range. -/
def trimNs (q : Req) (s : State) : Eff :=
  let n := q.c.length.toNat
  let nsid := q.c.target.toNat / 281474976710656
  match nsOf s nsid with
  | none => fails s 0x5001
  | some (h, o) =>
    match nsStart o q.c.target.toNat n with
    | .err e => fails s e
    | .ok start =>
      match changeUnits s q.tx h nsid start n none with
      | (.fails e, s) => fails s e
      | (.waits, s) => (s, .retry, 0)
      | (.ok _ whole, s) => ends (bump s (0x8000 + nsid) 8 whole) 0

/-! ## Objects -/

/-- READ of an object's payload. -/
def readObj (q : Req) (s : State) : Eff :=
  let n := q.c.length.toNat
  let h := q.c.target.toNat
  let off := q.op 0 8
  match kget s.objs h with
  | none => fails s 0x5001
  | some o =>
    if o.length < off + n then fails s 0x1008
    else
      let pages := flashPages s (o.base + off) n
      let wait := missingPages s .command pages
      if !q.again && !wait.isEmpty then (askReads s wait q.p, .reads wait, 0)
      else
        let s := usedPages (touchHeat s h (o.base + off) n (whoReg q.reg)) .command pages
        match readPayload s (o.base + off) n q.tx with
        | (.memory, s) => fails s 0x2006
        | (.media, s) => fails s 0x2001
        | (.ok m, s) =>
          let s := if q.tx = 0 then s else trackLines s q.tx h (o.base + off) n
          match q.buffer s with
          | .err e => fails s e
          | .ok l =>
            let (ok, s) := deliver s q.fn l (mread m 0 n)
            if ok then (s, .ready 0 n, n) else fails s 0x100E

/-- READ with HEADER: the 128-byte header (R34, 04 R104). -/
def readHeader (q : Req) (s : State) : Eff :=
  let h := q.c.target.toNat
  if q.c.length.toNat ≠ 128 ∨ q.op 0 8 ≠ 0 then fails s 0x1007
  else match kget s.objs h with
    | none => fails s 0x5001
    | some o =>
      let s := if q.tx = 0 then s else trackRead s q.tx h (.header h)
      match q.buffer s with
      | .err e => fails s e
      | .ok l =>
        let (ok, s) := deliver s q.fn l (headerBytes s h o)
        if ok then (s, .ready 0 128, 128) else fails s 0x100E

/-- Dirty parcels of an object's range, with those being written back. -/
def dirtyIn (s : State) (o : Obj) (off n : Nat) : List Nat :=
  (s.parcels.filter fun e =>
    (e.2.state == .dramDirty || e.2.state == .migDown) &&
    decide (o.base + off < e.1 * 65536 + 65536) && decide (e.1 * 65536 < o.base + off + n)).map (·.1)

/-- Write back parcels (02 R43): answers the pages to wait for, or the status of a failure: a poisoned line 0x2006 (14 R380), the
read-only state 0x2002 (13 R369). None: no page could be placed yet. -/
def writeBack (s : State) (ks : List Nat) : Option (Res (List Nat)) × State :=
  if ks.any fun k => s.dram.poison.any fun l => l / 1024 == k then (some (.err 0x2006), s)
  else if s.flash.readOnly && !ks.isEmpty then (some (.err 0x2002), s)
  else ks.foldl (fun acc k => match acc with
    | (some (.ok pages), s) =>
      (match kget s.parcels k with
      | none => acc
      | some p =>
        if !p.writing.isEmpty then (some (.ok (pages ++ p.writing)), s)
        else match writeParcel s k false with
          | none => (none, s)
          | some s => (match kget s.parcels k with
            | some p => (some (.ok (pages ++ p.writing)), s)
            | none => (some (.ok pages), s)))
    | r => r) (some (.ok []), s)

/-- End a command once parcels are written back. -/
def afterWriteBack (s : State) (ks : List Nat) (value work : Nat) : Eff :=
  match writeBack s ks with
  | (none, s) => (s, .retry, work)
  | (some (.err e), s) => fails s e
  | (some (.ok pages), s) => (awaitPages s pages, .pages pages 0 value, work)

/-- WRITE to an object's payload; with FUA the touched parcels are written back (R87). -/
def writeObj (q : Req) (s : State) : Eff :=
  let n := q.c.length.toNat
  let h := q.c.target.toNat
  let off := q.op 0 8
  match kget s.objs h with
  | none => fails s 0x5001
  | some o =>
    if o.length < off + n then fails s 0x1008
    else if s.flash.readOnly && !o.volatile then fails s 0x2002
    else match q.fetch s with
      | (.err e, s) => fails s e
      | (.ok b, s) =>
        match storeAt s q.tx h off b (whoReg q.reg) with
        | (.fails e, s) => fails s e
        | (.waits, s) => (s, .retry, 0)
        | (.ok, s) =>
          if q.flag 0 && q.tx == 0 && !o.volatile then afterWriteBack s (dirtyIn s o off n) n n
          else (s, .ready 0 n, n)

/-- FLUSH of one object (02 R43). -/
def flushObj (s : State) (h : Nat) : Eff :=
  match kget s.objs h with
  | none => fails s 0x5001
  | some o => if o.volatile then ends s 0 else afterWriteBack s (dirtyIn s o 0 o.extent) 0 0

/-- Current pages of a namespace that lie in courses not yet closed. -/
def openPagesOf (s : State) (nsid : Nat) : List Nat :=
  (s.flash.map.filter fun e => e.1 % 2 == 0 && e.1 / 2 / 1099511627776 == nsid && !pageClosed s e.2).map (·.2)

/-- FLUSH of one namespace. -/
def flushNs (s : State) (nsid : Nat) : Eff :=
  let pages := openPagesOf s nsid
  -- read-only: pages whose padding failed never become durable (13 R369)
  if s.flash.readOnly && pages.any (fun p => (kget s.flash.courses (p / 4)).isNone) then fails s 0x2002
  else (awaitPages s pages, .pages pages 0 0, 0)

/-- FLUSH with the null handle: every object and namespace here that the polder may write (R88). -/
def flushAll (s : State) (p : Nat) : Eff :=
  let mine := s.objs.filter fun e => !e.2.leaving && mayWrite e.2 p
  let ks := (mine.filter fun e => !e.2.volatile && hasPayload e.2.area.code).flatMap fun e => dirtyIn s e.2 0 e.2.extent
  let ns := mine.filterMap fun e => match e.2.area with | .nspace n _ _ _ => some n | _ => none
  match writeBack s ks with
  | (none, s) => (s, .retry, 0)
  | (some (.err e), s) => fails s e
  | (some (.ok pages), s) =>
    let pages := pages ++ ns.flatMap (openPagesOf s)
    if s.flash.readOnly && pages.any (fun p => (kget s.flash.courses (p / 4)).isNone) then fails s 0x2002
    else (awaitPages s pages, .pages pages 0 0, 0)

/-- TRIM of an object's range outside a transaction: parcels wholly inside become UNBACKED, zeros over the rest (R89). -/
def trimPlain (s : State) (h off n who : Nat) : Ready × State :=
  match kget s.objs h with
  | none => (.fails 0x5001, s)
  | some o =>
    let a := o.base + off
    let k0 := ceilDiv a 65536
    let k1 := (a + n) / 65536
    let whole := (List.range (k1 - k0)).map (k0 + ·)
    let backed := s.parcels.any fun e => e.2.state != .unbacked && decide (a < e.1 * 65536 + 65536) && decide (e.1 * 65536 < a + n)
    if s.flash.readOnly && !o.volatile && backed then (.fails 0x2002, s)
    else match snoopStore s h off n with
    | (true, s) => (.waits, s)
    | (false, s) =>
      match meetLines s a n with
      | (.waits, s) => (.waits, s)
      | (.free, s) =>
        let s := whole.foldl (fun s k => dropDram (unmapUnits s ((List.range 4).map (parcelLu k))) k .unbacked) s
        let (v, s) := nextSeq s
        let s := stampIf s h (lineIn a n) v
        let valid := o.area
        let zero := fun (s : State) (lo hi : Nat) =>
          if hi ≤ lo then (Ready.ok, s) else storePlain s h (lo - o.base) (List.replicate (hi - lo) 0) who
        let r := if k1 < k0 ∨ whole.isEmpty then zero s a (a + n)
          else match zero s a (k0 * 65536) with
            | (.ok, s) => zero s (k1 * 65536) (a + n)
            | r => r
        -- TRIM never changes a BLOB's Valid bytes (02 R529)
        match r.1, valid with
        | .ok, .blob _ => (.ok, r.2.modObj h fun o => { o with area := valid })
        | _, _ => r

/-- TRIM of an object's range in a transaction: a store of zeros; whole parcels become UNBACKED at the commit (R89). -/
def trimTx (s : State) (id h off n who : Nat) : Ready × State :=
  match kget s.objs h, getTx s id with
  | some o, some t =>
    if 16777216 < n then (.fails 0x3002, abortTx s id 0x3002)
    else
      let a := o.base + off
      let k0 := ceilDiv a 65536
      let whole := (List.range ((a + n) / 65536 - k0)).map (k0 + ·)
      if s.flash.readOnly && !o.volatile && !(dirtyIn s o off n).isEmpty then (.fails 0x2002, s)
      else match storeTx s id h off (List.replicate n 0) who with
        | (.ok, s) =>
          (.ok, match getTx s id with
            | some u => setTx s id { u with validTo := t.validTo, trims := nubList (u.trims ++ whole) }
            | none => s)
        | r => r
  | _, _ => (.fails 0x5001, s)

/-- TRIM of an object's range. -/
def trimObj (s : State) (id h off n who : Nat) : Eff :=
  match kget s.objs h with
  | none => fails s 0x5001
  | some o =>
    if o.length < off + n then fails s 0x1008
    else match (if id = 0 then trimPlain s h off n who else trimTx s id h off n who) with
      | (.ok, s) => ends s 0
      | (.waits, s) => (s, .retry, 0)
      | (.fails e, s) => fails s e

/-! ## Remote objects (R526) -/

/-- Send the pieces of a READ or WRITE of a remote object (R526): ascending offsets, each owned by its byte offset in the command. -/
def sendPieces (q : Req) (s : State) (type : Nat) (b : List Byte) : Option (List (Nat × Nat) × State) :=
  let h := q.c.target.toNat
  let ps := remotePieces h (q.op 0 8) q.c.length.toNat
  (ps.foldl (fun acc e => match acc with
    | none => none
    | some (tags, at', b, s) =>
      (match sendRequest s (.register q.reg at') (homeOf h) type e.1 e.2 0 q.tx q.p (Config.remoteGroup h) (b.take e.2) with
      | (some tag, s) => some (tags ++ [(tag, e.2)], at' + e.2, b.drop e.2, s)
      | (none, _) => none)) (some (([] : List (Nat × Nat)), 0, b, s))).map fun r => (r.1, r.2.2.2)

/-- The command cannot reach its home: 0x6001 or 0x6004, or in a transaction the transaction aborts with 0x3005 (R526, 04 R122). -/
def unreachable (s : State) (id dest : Nat) : Eff :=
  if id = 0 then fails s (sendStatus s dest) else fails (abortTx s id 0x3005) 0x3005

/-- READ of a remote object. -/
def readRemote (q : Req) (s : State) : Eff :=
  match q.buffer s with
  | .err e => fails s e
  | .ok _ =>
    match sendPieces q s 1 [] with
    | none => unreachable s q.tx (homeOf q.c.target.toNat)
    | some (tags, s) => (addPart s q.tx (homeOf q.c.target.toNat), .remote tags 0, 0)

/-- WRITE to a remote object. -/
def writeRemote (q : Req) (s : State) : Eff :=
  match q.fetch s with
  | (.err e, s) => fails s e
  | (.ok b, s) =>
    match remoteActions s q.tx q.c.target.toNat (q.op 0 8) q.c.length.toNat with
    | none => fails (abortTx s q.tx 0x3002) 0x3002
    | some s =>
      match sendPieces q s 2 b with
      | none => unreachable s q.tx (homeOf q.c.target.toNat)
      | some (tags, s) => (addPart s q.tx (homeOf q.c.target.toNat), .remote tags 0, 0)

/-- Carry a command whole to the home of its target (R526, 06 R183, 11 R285, R295, 12 R329): opcode, operands and payload. -/
def carry (q : Req) (s : State) (op : Nat) (payload : List Byte) : Eff :=
  let h := q.c.target.toNat
  let fields := [op, h, q.op 0 8, q.c.length.toNat].flatMap (toLE 8) ++ toLE 16 q.c.ops.toNat
  match sendRequest s (.register q.reg 0) (homeOf h) (Config.messageCode Msg.carried.num) h q.c.length.toNat 0 q.tx q.p (Config.remoteGroup h)
      (fields ++ payload) with
  | (none, s) => unreachable s q.tx (homeOf q.c.target.toNat)
  | (some tag, s) => (addPart s q.tx (homeOf h), .remote [(tag, 0)] 0, 0)

/-- Count a command's actions on items of another module at the coordinator (04 R104, R105): each item once, `bytes` for each new one. -/
def carriedActions (s : State) (id : Nat) (items : List Item) (blocks : List (Nat × Nat)) (bytes : Nat) : Option State :=
  match getTx s id with
  | none => some s
  | some t =>
    let fresh := (nubList items).filter fun i => !t.writes.contains i
    addAction s id fresh (if blocks.isEmpty then fresh.length else (blocks.filter fun b => !t.blocks.contains b).length) (bytes * fresh.length) fun t =>
      { t with blocks := t.blocks ++ blocks.filter fun b => !t.blocks.contains b }

/-- Carry a command that acts in its transaction: its actions count here first, and beyond the limits the transaction aborts (04 R105). -/
def carryActing (q : Req) (s : State) (op : Nat) (payload : List Byte) (items : List Item) (blocks : List (Nat × Nat)) (bytes : Nat) : Eff :=
  if q.tx = 0 then carry q s op payload
  else match carriedActions s q.tx items blocks bytes with
    | none => fails (abortTx s q.tx 0x3002) 0x3002
    | some s => carry q s op payload

/-- TRIM of a remote object: in a transaction a store of zeros (03 R89). -/
def trimRemote (q : Req) (s : State) : Eff :=
  let h := q.c.target.toNat
  let n := q.c.length.toNat
  if q.tx = 0 then carry q s 0x0004 []
  else if 16777216 < n then fails (abortTx s q.tx 0x3002) 0x3002
  else match remoteActions s q.tx h (q.op 0 8) n with
    | none => fails (abortTx s q.tx 0x3002) 0x3002
    | some s => carry q s 0x0004 []

/-! ## The four commands -/

def isRemote (s : State) (h : Nat) : Bool := homeOf h != moduleId s

/-- READ (R85-R87). -/
def effRead (q : Req) (s : State) : Eff :=
  if q.flag 2 then readHeader q s
  else if q.c.length.toNat = 0 ∨ 67108864 < q.c.length.toNat then fails s 0x1007
  else if q.flag 1 then readNs q s
  else if isRemote s q.c.target.toNat then readRemote q s
  else readObj q s

/-- WRITE (R85-R87). -/
def effWrite (q : Req) (s : State) : Eff :=
  if q.c.length.toNat = 0 ∨ 67108864 < q.c.length.toNat then fails s 0x1007
  else if q.flag 1 then writeNs q s
  else if isRemote s q.c.target.toNat then writeRemote q s
  else writeObj q s

/-- FLUSH (R88). -/
def effFlush (q : Req) (s : State) : Eff :=
  if q.flag 1 then flushNs s (q.c.target.toNat / 281474976710656)
  else if numberOf q.c.target.toNat = 0 then flushAll s q.p
  else if isRemote s q.c.target.toNat then carry q s 0x0003 []
  else flushObj s q.c.target.toNat

/-- TRIM (R89). -/
def effTrim (q : Req) (s : State) : Eff :=
  if q.c.length.toNat = 0 ∨ 68719476736 < q.c.length.toNat then fails s 0x1007
  else if q.flag 1 then trimNs q s
  else if isRemote s q.c.target.toNat then trimRemote q s
  else trimObj s q.tx q.c.target.toNat (q.op 0 8) q.c.length.toNat (whoReg q.reg)

end Sys2Proof.Machine
end

