-- ==== Sys2Proof/Machine/Objects.lean ====
section
/-! DEFINITION. Machine/Objects.lean: creating, destroying, binding, pinning and changing objects and namespaces, and the transaction
commands (02 R30-R47, R58-R63, R527-R529, 03 R90-R92, R96, 04 R101-R103, 11 R280, 15 R408, R409, 16 R427-R429). -/

namespace Sys2Proof.Machine

/-! ## Allocation in the device address space (R36, R40) -/

/-- First local address never assigned to be tried, and the end of the assignable range, in parcels. -/
def dasLow : Nat := 65536
def dasTop : Nat := 274877906944

/-- A run of parcels that no live object's extent meets. -/
def dasFree (s : State) (k n : Nat) : Bool :=
  decide (k + n ≤ dasTop) && s.objs.all fun e =>
    e.2.extent == 0 || decide (e.2.base / 65536 + e.2.extent / 65536 ≤ k) || decide (k + n ≤ e.2.base / 65536)

/-- Assign a base: upward from the last one, wrapping at the top (R40). -/
def allocDas (s : State) (n : Nat) : Option (Nat × State) :=
  let tops := sortBy (fun a b => decide (a < b)) (s.objs.map fun e => e.2.base / 65536 + e.2.extent / 65536)
  let tries := s.dasNext :: (tops.filter fun t => decide (s.dasNext ≤ t)) ++ (dasLow :: tops.filter fun t => decide (dasLow ≤ t))
  (findFirst (fun k => dasFree s k n) tries).map fun k => (k * 65536, { s with dasNext := k + n })

/-! ## CREATE -/

/-- What CREATE asks for, its image read. -/
structure NewObj where
  length : Nat
  owner : Nat
  policy : Nat
  flags : Nat
  group : Nat
  readMask : U32
  writeMask : U32
  area : Area
  deriving DecidableEq, Repr

/-- The object as it is made; a `hidden` one waits for its group's claim (15 R409). -/
def NewObj.obj (n : NewObj) (hidden : Bool) : Obj :=
  { base := 0, length := n.length, created := 0, owner := n.owner, policy := n.policy, area := n.area
    volatile := n.flags.testBit 0, exported := n.flags.testBit 1, readOnly := n.flags.testBit 2
    readMask := n.readMask, writeMask := n.writeMask, exportGroup := n.group, leaving := hidden }

/-- Bytes that an object takes from the exported capacity pool (R36). -/
def NewObj.pool (n : NewObj) : Nat :=
  match n.area with
  | .nspace _ b k _ => b * k
  | a => if hasPayload a.code && !n.flags.testBit 0 then n.length else 0

/-- DRAM that its owner must be able to hold at once: the whole extent when PINNED_DRAM or VOLATILE, else what always stays in DRAM
(R36, R46, 11 R280). -/
def NewObj.need (n : NewObj) : Nat :=
  if !hasPayload n.area.code then 0
  else if n.policy = 1 ∨ n.flags.testBit 0 then (n.obj false).extent
  else n.area.kept

/-- The object listed under the next number, its pool share taken. -/
def placeObj (s : State) (n : NewObj) (hidden : Bool) (base : Nat) : State :=
  let h := mkHandle s n.area.code (s.numHigh + 1)
  { s with
    numHigh := s.numHigh + 1, reserved := s.reserved + n.pool
    objs := kset s.objs h { n.obj hidden with base := base, created := s.seq + 1 }
    tables := if n.area.code = 4 then kset s.tables h {} else s.tables
    indexes := if n.area.code = 5 then kset s.indexes h {} else s.indexes }

/-- Make an object and journal it: its handle and its record's number, or the status of a failure that changes nothing (R36-R38). -/
def makeObj (s : State) (n : NewObj) (hidden : Bool) : Res (Nat × Nat) × State :=
  if 16777216 ≤ s.objs.length then (.err 0x4005, s)
  else if !poolAllows s n.pool then (.err 0x4002, s)
  else if !quotaAllows s n.owner n.need then (.err 0x4003, s)
  else
    match (if (n.obj hidden).extent = 0 then some (0, s) else allocDas s ((n.obj hidden).extent / 65536)) with
    | none => (.err 0x4002, s)
    | some (base, s) =>
      let h := mkHandle s n.area.code (s.numHigh + 1)
      let r := journalObj (placeObj s n hidden base) h
      (.ok (h, r.1), r.2)

/-- Modules that the applied topology or routing table names, other than this one (15 R396, R400). -/
def otherModules (s : State) : List Nat :=
  let all : List Nat := match s.fabric.kind with
    | 1 | 2 => List.range s.fabric.sizeX
    | 3 | 4 => List.range (s.fabric.sizeX * s.fabric.sizeY)
    | 5 => s.fabric.routes.map (·.1)
    | _ => []
  all.filter fun m => m != moduleId s && reaches s m

/-- A completed claim: the keeper is the only member, with index 0, and the GROUP becomes live (15 R409). -/
def groupMade (s : State) (number handle : Nat) : State :=
  let s := s.modFab fun f => { f with groups := kset f.groups number { keeper := moduleId s, epoch := 1, members := [(moduleId s, 0, none)] } }
  s.modObj handle fun o => { o with leaving := false }

/-- CREATE of a GROUP floods a claim for its number; it completes once every reachable module has acknowledged (15 R409). -/
def claimGroup (q : Req) (s : State) (n : NewObj) (number : Nat) : Eff :=
  if (kget s.fabric.groups number).isSome || s.fabric.claims.any (fun c => c.number == number) then fails s 0x1007
  else
    match makeObj s n true with
    | (.err e, s) => fails s e
    | (.ok (h, k), s) =>
      let others := otherModules s
      if others.isEmpty then (groupMade s number h, .journal k 0 h, 0)
      else
        let s := others.foldl (fun s m =>
          (sendRequest s (.claim number) m (Config.messageCode Msg.claim.num) number 0 0 0 0xFF number []).2) s
        (s.modFab fun f => { f with claims := f.claims ++ [⟨number, h, q.reg, others⟩] }, .claim number h, 0)

/-- CREATE (R36-R38, R46, R90, R529). -/
def effCreate (q : Req) (s : State) : Eff :=
  let type := q.op 0 1
  let policy := if q.op 1 1 = 0 then od s 0x3200 1 else q.op 1 1
  let len := q.c.length.toNat
  let image : Res (List Byte) := if q.c.haddr = 0 then .ok (List.replicate 64 0)
    else match hostRead s q.fn q.c.haddr.toNat 64 with | some b => .ok b | none => .err 0x100E
  let s := if q.c.haddr = 0 then s else noteAts s q.fn q.c.haddr.toNat 64
  if !(okType type) || type == 1 || type == 7 || decide (4 < q.op 1 1) then fails s 0x1007
  else if (if type = 8 then len ≠ 0 else len = 0 ∨ 70368744177664 < len) then fails s 0x1007
  else match image with
    | .err e => fails s e
    | .ok b =>
      match parseImage s type len q.p b with
      | none => fails s 0x1007
      | some area =>
        let contrib := match area with | .table t => t.groupContrib | _ => false
        if contrib && !(q.op 2 1).testBit 1 then fails s 0x1007
        else
          let n : NewObj := ⟨len, q.p, policy, q.op 2 1, q.op 3 1, BitVec.ofNat 32 (q.op 4 4), BitVec.ofNat 32 (q.op 8 4), area⟩
          match area with
          | .group g => claimGroup q s n g.number
          | _ => (match makeObj s n false with
            | (.err e, s) => fails s e
            | (.ok (h, k), s) => (s, .journal k 0 h, 0))

/-! ## DESTROY and NS_DELETE -/

/-- Namespace id of an object, 0 if it is none. -/
def nsidOf (o : Obj) : Nat := match o.area with | .nspace n _ _ _ => n | _ => 0

/-- Whether an item belongs to an object. -/
def itemOf (h : Nat) (o : Obj) : Item → Bool
  | .unit lu => decide (0 < nsidOf o) && lu % 2 == 0 && lu / 2 / 1099511627776 == nsidOf o
  | .line l => decide (0 < o.extent) && decide (o.base ≤ l * 64) && decide (l * 64 < o.base + o.extent)
  | .row t _ => t == h
  | .record i _ => i == h
  | .header k => k == h
  | .object k => k == h

/-- Whether a live transaction holds an object in its read or write set. -/
def txHolds (s : State) (h : Nat) (o : Obj) : Bool :=
  (allTxs s).any fun e => e.2.writes.any (itemOf h o) || e.2.reads.any fun r => itemOf h o r.1

/-- Whether a live job names an object, its own JOB among them. -/
def jobNames (s : State) (h : Nat) : Bool :=
  s.jobs.any fun e => e.1 == h || e.2.handles.contains h || (jobArea s e.1).program == h || (jobArea s e.1).argument == h ||
    e.2.destination == h

/-- Whether an executing command names an object: by its target, or by an operand that is a handle. -/
def execNames (h nsid : Nat) (e : Exec) : Bool :=
  (if e.cmd.flags.getLsbD 1 then decide (0 < nsid) && e.cmd.target.toNat / 281474976710656 == nsid else e.cmd.target.toNat == h) ||
  ((e.opcode == 0x30 || e.opcode == 0x40) && bitsAt e.cmd.ops.toNat 0 64 == h)

/-- DESTROY's conditions and first step (R39). -/
def effDestroy (q : Req) (s : State) : Eff :=
  let h := q.c.target.toNat
  match kget s.objs h with
  | none => fails s 0x5001
  | some o =>
    if decide (0 < o.pinCount) || isMapped s h || jobNames s h || txHolds s h o then fails s 0x4006
    else (s.modObj h fun o => { o with leaving := true }, .destroy h, 0)

/-- NS_DELETE's condition and first step (R96). -/
def effNsDelete (q : Req) (s : State) : Eff :=
  let h := q.c.target.toNat
  match kget s.objs h with
  | none => fails s 0x5001
  | some o =>
    if (allTxs s).any fun e => (e.2.writes ++ e.2.reads.map (·.1)).any fun i => i != .header h && itemOf h o i then fails s 0x4006
    else (s.modObj h fun o => { o with leaving := true }, .destroy h, 0)

/-- Whether nothing that began before still uses an object being destroyed (R39 step 2). -/
def destroyReady (s : State) (reg h : Nat) : Bool :=
  let nsid := match kget s.objs h with | some o => nsidOf o | none => 0
  !(s.execs.any fun e => e.1 != reg && execNames h nsid e.2) &&
  !(s.parcels.any fun e => e.2.obj == h && (e.2.state == .migUp || e.2.state == .migDown))

/-- The last step of DESTROY and NS_DELETE (R39 step 3, R96 step 3): parcels and units released by journal records, the reservation
returned, the object gone. A GROUP's release is flooded (15 R409). -/
def finishDestroy (s : State) (h : Nat) : State :=
  match kget s.objs h with
  | none => s
  | some o =>
    let mine := (s.parcels.filter fun e => e.2.obj == h).map (·.1)
    let s := mine.foldl (fun s k => dropDram (unmapUnits s ((List.range 4).map (parcelLu k))) k .unbacked) s
    let s : State := match o.area with
      | .nspace nsid _ _ _ =>
        let s : State := unmapUnits s ((s.flash.map.filter fun e => e.1 % 2 == 0 && e.1 / 2 / 1099511627776 == nsid).map (·.1))
        [5, 6, 7, 8].foldl (fun s k => s.modOd fun d => { d with cnt := kdel d.cnt (odKey (0x8000 + nsid) k) }) s
      | .group g =>
        (otherModules s).foldl (fun s m => sendMsg s m .release 0 0 [g.number] [])
          (s.modFab fun f => { f with groups := kdel f.groups g.number })
      | _ => s
    let pool := match o.area with
      | .nspace _ b k _ => b * k
      | a => if hasPayload a.code && !o.volatile then o.length else 0
    let s : State := { s with
      parcels := kfilter s.parcels fun _ p => p.obj != h, reserved := s.reserved - pool
      objs := kdel s.objs h, tables := kdel s.tables h, indexes := kdel s.indexes h }
    (jadd s (.object h none)).2

/-! ## MAP and UNBIND -/

def windowBytes : Nat := 549755813888

/-- Whether two ranges meet. -/
def meet (a n b m : Nat) : Bool := decide (a < b + m) && decide (b < a + n)

/-- The lowest window offset at which a length fits (R58). -/
def lowestFit (s : State) (n : Nat) : Option Nat :=
  let ends := sortBy (fun a b => decide (a < b)) (s.host.bindings.map fun e => e.1 + e.2.length)
  findFirst (fun w => decide (w + n ≤ windowBytes) && !(s.host.bindings.any fun e => meet w n e.1 e.2.length)) (0 :: ends)

/-- 2 MiB chunks of a window range that it covers wholly, and those it covers in part (16 R428). -/
def chunksOf (w n : Nat) : List (Nat × Bool) :=
  if n = 0 then []
  else ((List.range ((w + n - 1) / 2097152 + 1 - w / 2097152)).map (w / 2097152 + ·)).map fun c =>
    (c, decide (w ≤ c * 2097152) && decide (c * 2097152 + 2097152 ≤ w + n))

/-- Window map after a range is bound, none when it would need a 1,985th sub-map (16 R428). -/
def bindMap (s : State) (w n : Nat) : Option (KMap WinEntry) :=
  (chunksOf w n).foldl (fun acc c => acc.bind fun m =>
    if c.2 then some (kset m c.1 .run)
    else match kget m c.1 with
      | some _ => some m
      | none =>
        let used := m.filterMap fun e => match e.2 with | .submap k => some k | .run => none
        (findFirst (fun k => !used.contains k) (List.range 1984)).map fun k => kset m c.1 (.submap k)) (some s.host.winMap)

/-- Window map after a binding is removed: chunks that no binding meets are unbound. -/
def unbindMap (s : State) : State :=
  s.modHost fun h => { h with winMap := kfilter h.winMap fun c _ => h.bindings.any fun e => meet (c * 2097152) 2097152 e.1 e.2.length }

/-- Bring an object's parcels into DRAM while its pin count is not 0 (R47): FLASH parcels are queued, demotions aborted (R53). -/
def pinParcels (s : State) (h : Nat) : State :=
  let aborted := (s.parcels.filter fun e => e.2.obj == h && e.2.state == .migDown).length
  bump { s with parcels := kmap s.parcels fun _ p =>
    if p.obj = h then
      (match p.state with
      | .flash => { p with queued := true }
      | .migDown => { p with state := .dramDirty, writing := [] }
      | _ => p)
    else p } 0x3201 5 aborted

/-- The quota check of a pin count that rises from 0 (R47). -/
def pinAllowed (s : State) (h : Nat) (o : Obj) : Bool :=
  decide (0 < o.pinCount) || quotaAllows s o.owner (o.extent - objCharge s h o)

/-- MAP (R58, R91, 04 R108, 16 R427-R428). Length 0 is a value out of range, 0x1007: DESIGN CHOICE (log entry 139). -/
def mapBind (q : Req) (s : State) : Eff :=
  let h := q.c.target.toNat
  let n := q.c.length.toNat
  let off := q.op 0 8
  let w := q.op 8 8
  match kget s.objs h with
  | none => fails s 0x5001
  | some o =>
    if n = 0 then fails s 0x1007
    else if n % 65536 ≠ 0 ∨ off % 65536 ≠ 0 ∨ (w ≠ 0xFFFFFFFFFFFFFFFF ∧ w % 65536 ≠ 0) then fails s 0x1009
    else if o.extent < off + n then fails s 0x1008
    else
      let place := if w = 0xFFFFFFFFFFFFFFFF then lowestFit s n else some w
      match place with
      | none => fails s 0x4008
      | some w =>
        if windowBytes < w + n || s.host.bindings.any (fun e => meet w n e.1 e.2.length) then fails s 0x1008
        else if o.pinCount = 255 then fails s 0x100B
        else if !pinAllowed s h o then fails s 0x4003
        else if (allTxs s).any fun e => e.2.writes.any (lineIn (o.base + off) n) then (s, .retry, 0)
        else match bindMap s w n with
          | none => fails s 0x4008
          | some m =>
            let s := pinParcels s h
            let away := (s.parcels.filter fun e => e.2.obj == h && (e.2.state == .flash || e.2.state == .migUp) &&
              decide (o.base + off ≤ e.1 * 65536) && decide (e.1 * 65536 < o.base + off + n)).map fun e =>
                (e.1 * 65536 - o.base - off + w) / 65536
            let s := s.modHost fun t => { t with
              bindings := kset t.bindings w ⟨h, off, n, q.p⟩, winMap := m, nonResident := t.nonResident ++ away }
            ends (s.modObj h fun o => { o with maps := o.maps + 1 }) w

/-- The count falls by one: a binding's pin first when a binding goes, else a PIN's. -/
def unpinOnce (o : Obj) (binding : Bool) : Obj :=
  if binding then (if 0 < o.maps then { o with maps := o.maps - 1 } else { o with pins := o.pins - 1 })
  else if 0 < o.pins then { o with pins := o.pins - 1 } else { o with maps := o.maps - 1 }

/-- Remove a binding: its lines are back-invalidated and its parcels forgotten (R91, 16 R429). -/
def dropBinding (s : State) (w : Nat) : State :=
  match kget s.host.bindings w with
  | none => s
  | some b =>
    let s := backInvalidate s w (w + b.length)
    let s := unbindMap (s.modHost fun t => { t with
      bindings := kdel t.bindings w
      nonResident := t.nonResident.filter fun k => !(decide (w / 65536 ≤ k) && decide (k < (w + b.length) / 65536)) })
    s.modObj b.handle fun o => unpinOnce o true

/-- MAP with UNBIND (R91): it completes when the host has answered for every line it may hold. -/
def mapUnbind (q : Req) (s : State) : Eff :=
  let w := q.op 8 8
  match kget s.host.bindings w with
  | none => fails s 0x1008
  | some b =>
    if b.handle ≠ q.c.target.toNat then fails s 0x1008
    else (dropBinding s w, .snoop w (w + b.length) 0 w, 0)

/-- Opcode 0x0012. -/
def effMap (q : Req) (s : State) : Eff := if q.flag 8 then mapUnbind q s else mapBind q s

/-! ## PIN, SET_POLICY -/

/-- PIN and its UNPIN form (R47). -/
def effPin (q : Req) (s : State) : Eff :=
  let h := q.c.target.toNat
  match kget s.objs h with
  | none => fails s 0x5001
  | some o =>
    if q.flag 8 then
      if o.pinCount = 0 then fails s 0x100B
      else ends (journalObj (s.modObj h fun o => unpinOnce o false) h).2 (o.pinCount - 1)
    else if o.pinCount = 255 then fails s 0x100B
    else if !pinAllowed s h o then fails s 0x4003
    else
      let s := pinParcels (s.modObj h fun o => { o with pins := o.pins + 1 }) h
      ends (journalObj s h).2 (o.pinCount + 1)

/-- SET_POLICY (R46, R91): the fields selected change together, in one header version. -/
def effSetPolicy (q : Req) (s : State) : Eff :=
  let h := q.c.target.toNat
  let sel := q.op 0 1
  let policy := if q.op 1 1 = 0 then od s 0x3200 1 else q.op 1 1
  match kget s.objs h with
  | none => fails s 0x5001
  | some o =>
    if nsidOf o ≠ 0 ∧ (sel.testBit 0 ∨ sel.testBit 3 ∨ sel.testBit 4) then fails s 0x1007
    -- a value outside its range fails whether its field is selected or not (R85)
    else if 4 < q.op 1 1 ∨ 1 < q.op 2 1 then fails s 0x1007
    else if sel.testBit 0 ∧ policy = 1 ∧ !quotaAllows s o.owner (o.extent - objCharge s h o) then fails s 0x4003
    else
      let new : Obj := { o with
        policy := if sel.testBit 0 then policy else o.policy
        readMask := if sel.testBit 1 then BitVec.ofNat 32 (q.op 4 4) else o.readMask
        writeMask := if sel.testBit 2 then BitVec.ofNat 32 (q.op 8 4) else o.writeMask
        exported := if sel.testBit 3 then q.op 2 1 == 1 else o.exported
        exportGroup := if sel.testBit 3 then q.op 3 1 else o.exportGroup
        readOnly := o.readOnly || sel.testBit 4 }
      if new = o then ends s o.version
      else
        let s := (journalObj (bumpVersion (s.modObj h fun _ => new) h) h).2
        -- bindings whose polder no longer has the right are removed (02 R62)
        let s := (s.host.bindings.filter fun e => e.2.handle == h && !canRead new e.2.polder).foldl (fun s e => dropBinding s e.1) s
        ends s (o.version + 1)

/-! ## NS_CREATE -/

/-- NS_CREATE (R36, R90, R96). -/
def effNsCreate (q : Req) (s : State) : Eff :=
  let blocks := q.c.length.toNat
  let bs := q.op 0 4
  let used := s.objs.map fun e => nsidOf e.2
  let id := if q.op 4 4 = 0 then findFirst (fun i => !used.contains i) ((List.range 1024).map (· + 1)) else some (q.op 4 4)
  if blocks = 0 ∨ (bs ≠ 4096 ∧ bs ≠ 16384) ∨ 1024 < q.op 4 4 then fails s 0x1007
  else match id with
    | none => fails s 0x4005
    | some id =>
      if used.contains id then fails s 0x1007
      else match makeObj s ⟨0, 0xFF, od s 0x3200 1, 0, 0, 0, 0, .nspace id bs blocks 0⟩ false with
        | (.err e, s) => fails s e
        | (.ok (h, k), s) => (s, .journal k 0 h, 0)

/-! ## Transactions -/

/-- TX_BEGIN (04 R101-R103). -/
def effTxBegin (q : Req) (s : State) : Eff :=
  match beginTx s (.page q.fn q.p) with
  | none => fails s 0x4004
  | some (k, s) => ends s (txIdOf s k)

/-- The transaction that TX_COMMIT or TX_ABORT names, in a state it may end (04 R102, R114). -/
def endable (q : Req) (s : State) : Option Tx :=
  if q.tx = 0 ∨ coordOf q.tx ≠ moduleId s then none
  else match kget s.txs (localOf q.tx) with
    | some t => if t.owner = .page q.fn q.p ∧ (t.state = .open ∨ t.state = .aborted) then some t else none
    | none => none

/-- TX_COMMIT (R92, 04 R114). -/
def effTxCommit (q : Req) (s : State) : Eff :=
  match endable q s with
  | none => fails s 0x100D
  | some _ =>
    let loc := localOf q.tx
    let s : State := { s with execs := kmod s.execs q.reg fun e => { e with wait := .txOutcome loc } }
    let s := startCommit s loc
    (s, match kget s.execs q.reg with | some e => e.wait | none => .txOutcome loc, 0)

/-- TX_ABORT (R92, 04 R114): the transaction's other executing commands end with 0x3003. -/
def effTxAbort (q : Req) (s : State) : Eff :=
  match endable q s with
  | none => fails s 0x100D
  | some t =>
    let s := freeTx s q.tx
    let s := if t.state = .open then bumpB s t.polder 0x9600 4 1 else s
    ends { s with execs := kmap s.execs fun r e => if r != q.reg && e.cmd.tx.toNat == q.tx then { e with wait := .ready 0x3003 0 } else e } 0

end Sys2Proof.Machine
end

