-- ==== Sys2Proof/Machine/Search.lean ====
section
/-! DEFINITION. Machine/Search.lean: SEARCH, INSERT and DELETE, search passes, sharded queries, and the image of an index in its payload
(12). -/

namespace Sys2Proof.Machine

/-! ## The image of an index (R302-R304, R310) -/

/-- A sketch record (R303). -/
def sketchBytes (r : IRec) : List Byte :=
  toLE 8 r.id ++ toLE 6 r.insEpoch ++ toLE 2 0 ++ toLE 5 r.slot ++ List.replicate 11 0 ++
  (r.attrs.flatMap fun a => toLE 4 a.toNat) ++ toLE 64 r.sketch.toNat

/-- Lists of the partitions, in partition order. -/
def listsOf (a : IndexArea) (st : IndexSt) : List (List IRec) :=
  (List.range a.partitions).map fun p => st.recs.filter fun r => r.partition == p

/-- A partition table entry (R302, R304): its page table, pages, records, deleted, intake, first channel. -/
def partitionEntry (tableOff : Nat) (p : Nat) (l : List IRec) (intake : Nat) : List Byte :=
  let pages := ceilDiv l.length 128
  toLE 8 tableOff ++ toLE 4 pages ++ toLE 4 pages ++ toLE 4 l.length ++
  toLE 4 (l.filter fun r => r.delEpoch != 0).length ++ toLE 2 intake ++ toLE 2 (p % 64) ++ toLE 4 0

/-- Payload of an index from offset 0: partition table, page tables, sketch pages. The order of the last two is the model's. -/
def indexImage (a : IndexArea) (st : IndexSt) : List Byte :=
  let ls := listsOf a st
  let counts := ls.map fun l => ceilDiv l.length 128
  let tables := 32 * a.partitions
  let total := counts.foldl (· + ·) 0
  let pages := sketchBase a counts
  let before := fun (p : Nat) => (counts.take p).foldl (· + ·) 0
  let head := ((List.range a.partitions).zip ls).flatMap fun e =>
    partitionEntry (tables + 8 * before e.1) e.1 e.2 (kcount st.intake e.1)
  let offs := (List.range total).flatMap fun i => toLE 8 (pages + 16384 * i)
  let body := ls.flatMap fun l => padTo (16384 * ceilDiv l.length 128) (l.flatMap sketchBytes)
  padTo pages (head ++ offs) ++ body

/-- Put the image of an index into its payload, where its parcels can take it. -/
def refreshIndex (s : State) (h : Nat) : State :=
  match kget s.objs h, indexArea s h with
  | some o, some a =>
    if a.sharded then s
    else
      let b := (indexImage a (s.idx h)).take o.length
      (match prepRange s h o o.base b.length with
      | (.ok, s) => noteStore (putLines s o.base b) o.base o.base b.length 0 true
      | (_, s) => s)
  | _, _ => s

/-! ## INSERT and DELETE -/

/-- Handles of the shards of a SHARDED index, read from its payload (R302). -/
def shardTable (s : State) (h : Nat) (a : IndexArea) : List Nat :=
  match kget s.objs h with
  | some o => (match (readPayload s o.base (8 * a.shards) 0).1 with
    | .ok m => (List.range a.shards).map fun i => mfield m (8 * i) 8
    | _ => [])
  | none => []

/-- An id appears twice. -/
def hasRepeat (l : List Nat) : Bool := (nubList l).length != l.length

/-- Changes to one index on this module: one commit of its own, or staged in a transaction (R307-R309, 04 R104, R111, R112).
Answers the sequence number of the journal record to wait for, none when staged; or a wait; or a status. -/
inductive IdxEnd where
  | journal (n : Nat)
  | staged
  | waits
  | fails (status : Nat)
  deriving DecidableEq, Repr

/-- `p`: the command's polder; `bytes`: write-set bytes of each change (04 R104). -/
def changeIndex (s : State) (p id h : Nat) (changes : List IdxChange) (bytes : Nat) : IdxEnd × State :=
  let ids := changes.map fun c => match c with | .insert i .. => i | .delete i => i
  let items := ids.map fun i => Item.record h i
  if id = 0 then
    match meetItems s fun i => items.contains i with
    | (.waits, s) => (.waits, s)
    | (.free, s) =>
      let s := refreshIndex (applyIdx s p h changes) h
      let (n, s) := nextSeq s
      let s := bumpVersion (stamp s h items n) h
      let (k, s) := jadd s (.commit 0 n [] [] [] [] (changes.map fun c => (h, c)) [])
      (.journal k, (journalObj s h).2)
  else if conflicts s id items then (.fails 0x3001, abortTx s id 0x3001)
  else
    match getTx s id with
    | none => (.fails 0x100D, s)
    | some t =>
      let fresh := items.filter fun i => !t.writes.contains i
      match addAction s id fresh fresh.length (bytes * fresh.length) fun t => { t with
          idx := t.idx ++ changes.map fun c => (h, c), objs := if t.objs.contains h then t.objs else t.objs ++ [h] } with
      | none => (.fails 0x3002, abortTx s id 0x3002)
      | some s => (.staged, s)

/-- Send a part of an INSERT or DELETE to the home of a shard (R329). -/
def sendShardPart (q : Req) (s : State) (op shard count : Nat) (payload : List Byte) : Option Nat × State :=
  let fields := [op, shard, 0, payload.length].flatMap (toLE 8) ++ toLE 16 count
  sendRequest s (.register q.reg 0) (homeOf shard) (Config.messageCode Msg.carried.num) shard payload.length 0 q.tx q.p (Config.remoteGroup shard)
    (fields ++ payload)

/-- What stops the part of a sharded change that falls to a shard of this module, before any part acts: 0, or the status (R329, R307). -/
def localShardStatus (s : State) (p op h : Nat) (recs : List (List Byte)) (a : IndexArea) : Nat :=
  match liveObj s h, indexArea s h with
  | some o, some b =>
    if b.sharded || b.dim != a.dim || b.format != a.format || b.metric != a.metric then 0x1006
    else if !canStore o p then 0x6002
    else if op = 0x0041 ∧ recs.any (fun r => fieldAt r 8 4 != 0xFFFFFFFF && decide (b.partitions ≤ fieldAt r 8 4)) then 0x1007
    else if op = 0x0041 ∧ b.capacity < (s.idx h).recs.length + recs.length then 0x4002
    else 0
  | _, _ => 0x6002

/-- An INSERT or DELETE on a SHARDED index (R329): id x belongs to shard x mod Shards. `parts` gives each id its bytes and its change
on a local shard. What the shards here refuse, or wait for, is found out before any part acts, so that a command that fails leaves no
action behind (03 R93). -/
def shardedChange (q : Req) (s : State) (op : Nat) (a : IndexArea) (parts : List (Nat × List Byte × (State → Nat → IndexArea → IdxChange)))
    (counts : State → Nat → List Nat → Nat) : Eff :=
  let shards := shardTable s q.c.target.toNat a
  if shards.length ≠ a.shards then fails s 0x2001
  else match findFirst (fun h => homeOf h != moduleId s && !reaches s (homeOf h)) shards with
  | some h => unreachable s q.tx (homeOf h)
  | none =>
    let part := fun (i : Nat) => parts.filter fun p => p.1 % a.shards == i
    let mine := ((List.range a.shards).zip shards).filter fun e => homeOf e.2 == moduleId s && !(part e.1).isEmpty
    let refused := mine.filterMap fun e =>
      let st := localShardStatus s q.p op e.2 ((part e.1).map (·.2.1)) a
      if st = 0 then none else some st
    let held := fun (i : Item) => match i with | .record h x => mine.any fun e => e.2 == h && (part e.1).any fun p => p.1 == x | _ => false
    let (gate, s) := if !refused.isEmpty ∨ q.tx ≠ 0 then (Meet.free, s) else meetItems s held
    if gate = .waits then (s, .retry, 0)
    else
    let (s, tags, value, seqs, bad) := (List.range a.shards).foldl (fun acc i =>
      let (s, tags, value, seqs, bad) := acc
      let h := (shards[i]?).getD 0
      let ps := part i
      if bad ≠ 0 ∨ ps.isEmpty then acc
      else if homeOf h ≠ moduleId s then
        -- the actions count at the coordinator too (04 R104)
        match carriedActions s q.tx (ps.map fun p => Item.record h p.1) [] ((ps.map fun p => p.2.1.length).foldl max 0) with
        | none => (abortTx s q.tx 0x3002, tags, value, seqs, 0x3002)
        | some s =>
          match sendShardPart q s op h ps.length (ps.flatMap (·.2.1)) with
          | (some tag, s) => (addPart s q.tx (homeOf h), tags ++ [(tag, 0)], value, seqs, bad)
          | (none, s) => (s, tags, value, seqs, sendStatus s (homeOf h))
      else match indexArea s h with
        | some b =>
          let n := counts s h (ps.map (·.1))
          (match changeIndex s q.p q.tx h (ps.map fun p => p.2.2 s h b) ((ps.map fun p => p.2.1.length).foldl max 0) with
          | (.fails e, s) => (s, tags, value, seqs, e)
          | (.waits, s) => (s, tags, value, seqs, 0x3001)
          | (.staged, s) => (s, tags, value + n, seqs, bad)
          | (.journal k, s) => (s, tags, value + n, seqs ++ [k], bad))
        | none => (s, tags, value, seqs, 0x6002))
      (s, ([] : List (Nat × Nat)), 0, ([] : List Nat), (refused.head?).getD 0)
    if bad ≠ 0 then fails s bad
    else if !tags.isEmpty then (s, .remote tags value, 0)
    else match seqs.getLast? with
      | some k => (s, .journal k 0 value, 0)
      | none => ends s value

/-- An insert of a record: its partition chosen by rank when it names none (R306). -/
def insertOf (r : Nat × Nat × List U32 × List Byte × Bool) (s : State) (_h : Nat) (a : IndexArea) : IdxChange :=
  .insert r.1 (if r.2.1 = 0xFFFFFFFF then bestPartition s a r.2.2.2.1 else r.2.1) r.2.2.1 r.2.2.2.1

/-- Bytes of an insert record as they came. -/
def insertBytes (r : Nat × Nat × List U32 × List Byte × Bool) : List Byte :=
  toLE 8 r.1 ++ toLE 4 r.2.1 ++ toLE 4 0 ++ (r.2.2.1.flatMap fun w => toLE 4 w.toNat) ++ List.replicate 16 0 ++ r.2.2.2.1

/-- INSERT (R306-R310, R329). -/
def effInsert (q : Req) (s : State) : Eff :=
  let h := q.c.target.toNat
  let count := q.op 0 4
  if count = 0 ∨ 65536 < count then fails s 0x1007
  else if isRemote s h then
    match q.fetch s with
    | (.err e, s) => fails s e
    | (.ok b, s) =>
      let per := q.c.length.toNat / count
      carryActing q s 0x0041 b ((List.range count).map fun i => Item.record h (fieldAt b (i * per) 8)) [] per
  else match indexArea s h with
    | none => fails s 0x5001
    | some a =>
      if q.c.length.toNat ≠ count * (64 + vectorBytes a) then fails s 0x1007
      else match q.fetch s with
        | (.err e, s) => fails s e
        | (.ok b, s) =>
          let rs := parseInserts a count b
          let okPart := fun (p : Nat) => decide (p < a.partitions) || p == 0xFFFFFFFF || a.sharded
          if rs.any (fun r => !okId r.1 || !okPart r.2.1 || !r.2.2.2.2) || hasRepeat (rs.map (·.1)) then fails s 0x1007
          else if a.sharded then
            shardedChange q s 0x0041 a (rs.map fun r => (r.1, insertBytes r, insertOf r)) fun _ _ l => l.length
          else if decide (a.capacity < (s.idx h).recs.length + count) then fails s 0x4002
          else match changeIndex s q.p q.tx h (rs.map fun r => insertOf r s h a) (64 + vectorBytes a) with
            | (.fails e, s) => fails s e
            | (.waits, s) => (s, .retry, 0)
            | (.staged, s) => ends s count
            | (.journal k, s) => (s, .journal k 0 count, 0)

/-- Ids of a list that name a live version as a command, or its transaction, sees them (R309). -/
def liveCount (s : State) (id h : Nat) (ids : List Nat) : Nat :=
  let staged := match getTx s id with
    | some t => if id = 0 then [] else (t.idx.filter fun c => c.1 == h).map (·.2)
    | none => []
  (ids.filter (namesLive (s.idx h) staged)).length

/-- DELETE (R307-R309, R329). -/
def effDelete (q : Req) (s : State) : Eff :=
  let h := q.c.target.toNat
  let count := q.op 0 4
  if count = 0 ∨ 65536 < count ∨ q.c.length.toNat ≠ 8 * count then fails s 0x1007
  else match q.fetch s with
    | (.err e, s) => fails s e
    | (.ok b, s) =>
      let ids := (List.range count).map fun i => fieldAt b (8 * i) 8
      if ids.any (fun i => !okId i) || hasRepeat ids then fails s 0x1007
      else if isRemote s h then carryActing q s 0x0042 b (ids.map (Item.record h)) [] 8
      else match indexArea s h with
        | none => fails s 0x5001
        | some a =>
          if a.sharded then
            shardedChange q s 0x0042 a (ids.map fun i => (i, toLE 8 i, fun _ _ _ => IdxChange.delete i)) fun s k l => liveCount s q.tx k l
          else
            let value := liveCount s q.tx h ids
            match changeIndex s q.p q.tx h (ids.map .delete) 8 with
            | (.fails e, s) => fails s e
            | (.waits, s) => (s, .retry, 0)
            | (.staged, s) => ends s value
            | (.journal k, s) => (s, .journal k 0 value, 0)

/-! ## Passes (R313-R323) -/

/-- Open a pass of its own for the queries of a SKETCH_SCAN (R326). -/
def openPass (s : State) (h epoch : Nat) (qs : List Query) : Nat × State :=
  let id := s.nextPass
  let s := s.modIdx h fun st => { st with snapshots := st.snapshots ++ [epoch] }
  (id, { s with nextPass := id + 1, passes := kset s.passes id ⟨h, epoch, s.power.uptime, qs⟩ })

/-- Join the open pass of an index at an epoch, or open one (R323). `room`: the most queries that it may hold. -/
def joinPass (s : State) (h epoch : Nat) (qs : List Query) (room : Nat) : Nat × State :=
  let joins := fun (p : Pass) => p.index == h && decide (p.queries.length + qs.length ≤ room) &&
    (p.epoch == epoch || p.queries.all fun q => match q.owner with | .context .. | .record .. => false | _ => true)
  match findFirst (fun e => joins e.2) s.passes with
  | some e => (e.1, { s with passes := kset s.passes e.1 { e.2 with queries := e.2.queries ++ qs } })
  | none =>
    openPass s h epoch qs

/-- The answer to a query: pairs tested, candidates, truncated, dropped by the cap, dropped as deleted, results (R314-R319). -/
structure Answer where
  tested : Nat
  cands : List Cand
  truncated : Bool
  capDropped : Nat
  deleted : Nat
  results : List (Nat × U32)
  /-- ids of the records tested -/
  ids : List Nat
  deriving DecidableEq, Repr

/-- Whether the sketch pages of the probed lists can be read (R322). -/
def pagesReadable (s : State) (h : Nat) (a : IndexArea) (probes : List Nat) : Bool :=
  let counts := (listsOf a (s.idx h)).map fun l => ceilDiv l.length 128
  let first := roundUp (32 * a.partitions + 8 * counts.foldl (· + ·) 0) 16384
  match kget s.objs h with
  | none => false
  | some o => probes.all fun p =>
    let at' := o.base + first + 16384 * (counts.take p).foldl (· + ·) 0
    match (readPayload s at' (16384 * (counts[p]?).getD 0) 0).1 with
    | .ok _ => true
    | _ => false

/-- Scan and re-rank one query. None: a tensor or a sketch page of the index cannot be read. -/
def answerQuery (s : State) (h epoch : Nat) (q : Query) : Option Answer :=
  match indexArea s h with
  | none => none
  | some a =>
    match indexTensors s a with
    | none => none
    | some (proj, thr, cents) =>
      let v := vectorOf a (q.entry.take (vectorBytes a))
      let probes := probeSet a cents v q.lists
      if !pagesReadable s h a probes then none
      else
      let (tested, cands, trunc, drop) := scanQuery (s.idx h).recs probes epoch q.cap (predicateOf a q.entry) (sketchOf proj thr v)
      let (rs, del) := rerank a (s.idx h).recs a.metric epoch q.k v cands
      some ⟨tested, cands, trunc, drop, del, rs, ((s.idx h).recs.filter fun r => probes.contains r.partition).map (·.id)⟩

/-- Polder that owns an index, whose view counts its searches (R333). -/
def indexOwner (s : State) (h : Nat) : Nat := match kget s.objs h with | some o => o.owner | none => 0xFF

/-- Count an answered query (R315-R317, R321). -/
def countAnswer (s : State) (h k : Nat) (a : Answer) : State :=
  let p := indexOwner s h
  let s := bumpB (bumpB s p 0x9F00 3 a.tested) p 0x9F00 4 a.capDropped
  let s := bumpB (bumpB s p 0x9F00 1 1) p 0x9F00 5 a.deleted
  let s := if a.truncated then bumpB s p 0x9F00 6 1 else s
  if a.results.length < k then bumpB s p 0x9F00 7 1 else s

/-- Result flags (R321): EXHAUSTED, CANDIDATE_CAP. -/
def resultFlags (count k : Nat) (capped : Bool) : Nat := (if count < k ∧ !capped then 1 else 0) + (if capped then 2 else 0)

/-- The search result object's bytes: header and entries (R320), entries beyond Count left out. -/
def resultHead (count flags epoch scanned cands shards index : Nat) : List Byte :=
  toLE 4 count ++ toLE 4 flags ++ toLE 8 epoch ++ toLE 8 scanned ++ toLE 4 cands ++ toLE 2 shards ++ toLE 2 0 ++ toLE 8 index ++
  List.replicate 24 0

def resultElem (shard : Nat) (r : Nat × U32) : List Byte := toLE 8 r.1 ++ toLE 4 r.2.toNat ++ toLE 2 shard ++ toLE 2 0

/-- Value of SEARCH (03 table): count, flags, low half of the epoch. -/
def searchValue (count flags epoch : Nat) : Nat := count + flags * 65536 + epoch % 4294967296 * 4294967296

/-- Set what an executing command waits for. -/
def setWait (s : State) (reg : Nat) (w : Wait) : State := { s with execs := kmod s.execs reg fun e => { e with wait := w } }

/-- Write a result object and end its command: a store that must wait tries the command again; one that fails ends it. -/
def giveResult (s : State) (reg result value : Nat) (head entries tail : List Byte) (k : Nat) : State :=
  if (match kget s.execs reg with | some e => e.silent && !e.effect | none => true) then s
  else match storePlain s result 0 (head ++ entries) (whoReg reg) with
    | (.waits, s) => setWait s reg .retry
    | (.fails e, s) => setWait s reg (.ready e 0)
    | (.ok, s) =>
      let s := { s with execs := kmod s.execs reg fun e => { e with effect := true } }
      if tail.isEmpty then setWait s reg (.ready 0 value)
      else match storePlain s result (64 + 16 * k) tail (whoReg reg) with
        | (.ok, s) => setWait s reg (.ready 0 value)
        | (.waits, s) => setWait s reg .retry
        | (.fails e, s) => setWait s reg (.ready e 0)

/-- Answer the SEARCH command in a register. -/
def answerSearch (s : State) (reg h epoch : Nat) (q : Query) : State :=
  match answerQuery s h epoch q with
  | none => setWait s reg (.ready 0x2001 0)
  | some a =>
    let s := { s with execs := kmod s.execs reg fun e => { e with work := a.tested } }
    let s := countAnswer s h q.k a
    let n := a.results.length
    let f := resultFlags n q.k a.truncated
    giveResult s reg q.result (searchValue n f epoch) (resultHead n f epoch a.tested a.cands.length 0 h)
      (a.results.flatMap (resultElem 0)) [] q.k

/-! ## Records that search an index (R326, R327), of this module or carried to its home -/

/-- A candidate element (R325), and a candidate read back. -/
def candElem (c : Cand) : List Byte := toLE 8 c.1 ++ toLE 5 c.2.1 ++ toLE 1 0 ++ toLE 2 c.2.2
def candOf (b : List Byte) : Cand := (fieldAt b 0 8, fieldAt b 8 5, fieldAt b 14 2)

/-- The snapshot epoch that a SKETCH_SCAN's Epoch field names (R326). -/
def scanEpoch (s : State) (h : Nat) (a : IndexArea) (field : Nat) : Nat × State :=
  if field = 0 then (a.epoch, s)
  else
    let e := a.epoch - (a.epoch + 4294967296 - field) % 4294967296
    let hz := horizon s h
    if e < hz then (hz, bumpB s (indexOwner s h) 0x9F00 0xD 1) else (e, s)

/-- An open transaction has read an index at a snapshot epoch (R311). -/
def readsAt (s : State) (id h epoch : Nat) : State :=
  match getTx s id with
  | some t => if t.snaps.contains (h, epoch) then s else setTx s id { t with snaps := t.snaps ++ [(h, epoch)] }
  | none => s

/-- A query of a SKETCH_SCAN was answered: counted, and its records read by a transaction, 0 for none (R141, R311, R333). -/
def scanned (s : State) (id h epoch : Nat) (a : Answer) : State :=
  let s := if id = 0 then s else a.ids.foldl (fun s i => trackRead s id h (.record h i)) (readsAt s id h epoch)
  let p := indexOwner s h
  let s := bumpB (bumpB (bumpB s p 0x9F00 1 1) p 0x9F00 3 a.tested) p 0x9F00 4 a.capDropped
  if a.truncated then bumpB s p 0x9F00 6 1 else s

/-- RERANK of candidates at an epoch (R317-R319, R327): the k nearest. -/
def rerankAt (s : State) (id h : Nat) (a : IndexArea) (metric epoch k : Nat) (vector : List Byte) (cands : List Cand) :
    List (Nat × U32) × State :=
  let (rs, gone) := rerank a (s.idx h).recs metric epoch k (vectorOf a vector) cands
  let s := if id = 0 then s else cands.foldl (fun s c => trackRead s id h (.record h c.1)) (readsAt s id h epoch)
  (rs, bumpB s (indexOwner s h) 0x9F00 5 gone)

/-- Opcodes under which a SKETCH_SCAN and a RERANK reach the home of their index: the manual gives none (log entry 10). -/
def scanCode : Nat := 0xF326
def rerankCode : Nat := 0xF327

/-- A SKETCH_SCAN of another module at the home of its index: its queries open a pass. -/
def effScanHere (q : Req) (s : State) : Eff :=
  let h := q.c.target.toNat
  match indexArea s h, q.data with
  | some a, some b =>
    let n := q.op 0 2
    let stride := vectorBytes a + 64
    if b.length ≠ n * stride then fails s 0x1007
    else
      let (epoch, s) := scanEpoch s h a (q.op 8 4)
      let qs := (List.range n).map fun i =>
        Query.mk (.record q.reg i) ((b.drop (i * stride)).take stride) (q.op 6 1) (q.op 2 2) (q.op 4 2) 0 q.p
      let (id, s) := openPass s h epoch qs
      (s, .pass id, 0)
  | _, _ => fails s 0x6002

/-- One query's part of the answer to a SKETCH_SCAN of another module: position, epoch, whether it is truncated, how many elements, the
elements. -/
structure ScanPart where
  position : Nat
  epoch : Nat
  truncated : Bool
  elems : List (List Byte)
  deriving DecidableEq, Repr

def ScanPart.bytes (p : ScanPart) : List Byte :=
  toLE 8 p.position ++ toLE 8 p.epoch ++ toLE 8 (if p.truncated then 1 else 0) ++ toLE 8 p.elems.length ++ p.elems.flatten

/-- Read back the parts of `n` queries. -/
def parseScan : Nat → List Byte → List ScanPart
  | 0, _ => []
  | n + 1, b =>
    let k := fieldAt b 24 8
    let body := b.drop 32
    ⟨fieldAt b 0 8, fieldAt b 8 8, fieldAt b 16 8 == 1, (List.range k).map fun i => (body.drop (16 * i)).take 16⟩ :: parseScan n (body.drop (16 * k))

/-- A query of a SKETCH_SCAN of another module was answered: its part joins the answer, which goes once every query of it has. -/
def scanAnswer (s : State) (key h epoch position : Nat) (e : Query × Option Answer) : State :=
  match kget s.execs key, e.2 with
  | none, _ => s
  | some _, none => setWait s key (.ready 0x2001 0)
  | some x, some a =>
    let s := scanned s (if e.1.k = 1 then x.cmd.tx.toNat else 0) h epoch a
    let part : ScanPart := ⟨position, epoch, a.truncated, a.cands.map candElem⟩
    let s := { s with execs := kmod s.execs key fun x => { x with answer := x.answer ++ part.bytes, work := x.work + 1 } }
    if x.work + 1 = bitsAt x.cmd.ops.toNat 0 16 then
      (match x.wait with
      | .pass _ => setWait s key (.ready 0 epoch)
      | _ => s)
    else s

/-- A RERANK of another module at the home of its index. -/
def effRerankHere (q : Req) (s : State) : Eff :=
  let h := q.c.target.toNat
  match indexArea s h, q.data with
  | some a, some b =>
    let v := vectorBytes a
    let (rs, s) := rerankAt s (if q.op 3 1 = 1 then q.tx else 0) h a (q.op 2 1) (q.op 8 8) (q.op 0 2) (b.take v)
      ((groupsOf 16 b.length (b.drop v)).map candOf)
    let s := { s with execs := kmod s.execs q.reg fun x => { x with answer := rs.flatMap (resultElem 0) } }
    ends s rs.length
  | _, _ => fails s 0x6002

/-! ## Sharded queries (R330, R331) -/

/-- The status of a shard's reply as the coordinator takes it: its own failure (R322, R330), or 0x1006 when the shard does not match. -/
def replyStatus (a : IndexArea) (r : ShardR) : Nat :=
  if r.status = 0x6001 ∨ r.status = 0x6004 ∨ r.status = 0x2001 ∨ r.status = 0x1006 then r.status
  else if r.status ≠ 0 then 0x6002
  else if r.dimension ≠ a.dim ∨ r.vformat ≠ a.format ∨ r.metric ≠ a.metric then 0x1006 else 0

/-- Merge results of several inputs (R327): the order of R319, an id kept once from the element that sorts first. -/
def mergeTop (k : Nat) (l : List (Nat × Nat × U32)) : List (Nat × Nat × U32) :=
  let less := fun (a b : Nat × Nat × U32) =>
    nearer a.2 b.2 || (a.2 == b.2 && decide (a.1 < b.1))
  ((sortBy less l).foldl (fun acc e => if acc.any (fun x => x.2.1 == e.2.1) then acc else acc ++ [e]) []).take k

/-- End a sharded query whose shards have all replied or failed: the first failure in shard order, or the merged answer. -/
def finishShards (s : State) (tag : Nat) : State :=
  match kget s.fabric.shardWaits tag with
  | none => s
  | some w =>
    if w.replies.length + w.failures.length < w.homes.length then s
    else
      let s := s.modFab fun f => { f with shardWaits := kdel f.shardWaits tag }
      match indexArea s w.index with
      | none => setWait s w.reg (.ready 0x5001 0)
      | some a =>
        let bad := w.failures ++ (w.replies.map fun r => (r.shard, replyStatus a r)).filter fun e => e.2 != 0
        match bestBy (fun (x y : Nat × Nat) => decide (x.1 < y.1)) bad with
        | some e => setWait s w.reg (.ready e.2 0)
        | none =>
          let rs := sortBy (fun (x y : ShardR) => decide (x.shard < y.shard)) w.replies
          let merged := mergeTop w.k (rs.flatMap fun r => r.results.map fun e => (r.shard, e))
          let n := merged.length
          let capped := rs.any (·.truncated)
          let f := resultFlags n w.k capped
          let epoch := match rs.head? with | some r => r.epoch | none => 0
          let scanned := (rs.map (·.scanned)).foldl (· + ·) 0
          let cands := (rs.map (·.candidates)).foldl (· + ·) 0
          let s := { s with execs := kmod s.execs w.reg fun e => { e with work := scanned } }
          let p := indexOwner s w.index
          let s := bumpB (bumpB s p 0x9F00 9 1) p 0x9F00 1 1
          let s := if capped then bumpB s p 0x9F00 6 1 else s
          let s := if n < w.k then bumpB s p 0x9F00 7 1 else s
          giveResult s w.reg w.result (searchValue n f epoch) (resultHead n f epoch scanned cands a.shards w.index)
            (merged.flatMap fun e => resultElem e.1 e.2) (rs.flatMap fun r => toLE 8 r.epoch) w.k

/-- A shard failed, or answered. -/
def shardFail (s : State) (tag shard status : Nat) : State :=
  let add := fun (w : ShardWait) =>
    if w.replies.any (·.shard == shard) || w.failures.any (·.1 == shard) then w
    else { w with failures := w.failures ++ [(shard, status)] }
  finishShards (s.modFab fun f => { f with shardWaits := kmod f.shardWaits tag add }) tag

def shardAnswer (s : State) (r : ShardR) : State :=
  let mine := fun (q : RemoteReq) => match q.owner with
    | .shard t i => t == r.tag && i == r.shard
    | _ => false
  let add := fun (w : ShardWait) =>
    if w.replies.any (·.shard == r.shard) || w.failures.any (·.1 == r.shard) then w else { w with replies := w.replies ++ [r] }
  finishShards (s.modFab fun f => { f with
    reqs := kfilter f.reqs fun _ q => !mine q, shardWaits := kmod f.shardWaits r.tag add }) r.tag

/-- A shard's own reply from an answered query. -/
def shardReplyOf (s : State) (h tag shard epoch : Nat) (a : Option Answer) : ShardR :=
  let i := indexArea s h
  let dim := match i with | some a => a.dim | none => 0
  let fmt := match i with | some a => a.format | none => 0
  let met := match i with | some a => a.metric | none => 0
  match a with
  | none => ⟨tag, shard, 0x2001, false, epoch, 0, 0, dim, fmt, met, []⟩
  | some a => ⟨tag, shard, 0, a.truncated, epoch, a.tested, a.cands.length, dim, fmt, met, a.results⟩

/-- Give a shard's reply to the coordinator: this module's own query, or a message. -/
def giveReply (s : State) (coord : Nat) (r : ShardR) : State :=
  if coord = moduleId s then shardAnswer s r
  else sendMsg s coord .shardReply 0 r.status
    ([r.tag, r.shard, if r.truncated then 1 else 0, r.epoch, r.scanned, r.candidates, r.dimension, r.vformat, r.metric] ++
      r.results.flatMap fun e => [e.1, e.2.toNat]) []

/-- A query at a shard home (R330): refused without the read right, else it joins a pass of its index. -/
def shardQueryHere (s : State) (coord tag shard h polder : Nat) (allowed : Bool) (entry : List Byte) (k cap lists : Nat) : State :=
  match liveObj s h, indexArea s h with
  | some _, some a =>
    if !allowed || a.sharded then giveReply s coord { shardReplyOf s h tag shard 0 none with status := if allowed then 0x1006 else 0x6002 }
    else if entry.length ≠ vectorBytes a + 64 then
      giveReply s coord { shardReplyOf s h tag shard 0 none with status := 0, dimension := 0 }
    else (joinPass s h a.epoch [⟨.shard coord tag shard, entry, k, cap, lists, 0, polder⟩] (od s 0x3E00 2)).2
  | _, _ => giveReply s coord { shardReplyOf s h tag shard 0 none with status := 0x6002 }

/-! ## SEARCH -/

/-- Whether a polder may write a result object, its type and its length (R320): 0, or the status. -/
def resultStatus (s : State) (p result need : Nat) : Nat :=
  if homeOf result ≠ moduleId s then 0x5001
  else match liveObj s result with
    | none => 0x5001
    | some o =>
      if !canStore o p then 0x5001
      else if o.area.code ≠ 2 then 0x1006
      else if o.length < need then 0x1008
      else 0

/-- SEARCH (R312-R323, R328-R331). -/
def effSearch (q : Req) (s : State) : Eff :=
  let h := q.c.target.toNat
  let result := q.op 0 8
  let k := q.op 8 2
  let cap := q.op 10 2
  let lists := q.op 12 2
  if k = 0 ∨ 4096 < k ∨ cap < k ∨ lists = 0 ∨ 4096 < lists then fails s 0x1007
  -- a null result handle, or one with a reserved type code (02 R30, R32)
  else if numberOf result = 0 ∨ !okType (typeOf result) then fails s 0x1005
  else if isRemote s h then
    match q.fetch s with
    | (.err e, s) => fails s e
    | (.ok b, s) => carry q s 0x0040 b
  else match indexArea s h with
    | none => fails s 0x5001
    | some a =>
      let st := resultStatus s q.p result (64 + 16 * k + 8 * (if a.sharded then a.shards else 0))
      if st ≠ 0 then (if st = 0x5001 then fails (dikeFail s q.p) st else fails s st)
      else if q.c.length.toNat ≠ vectorBytes a + 64 then fails s 0x1007
      else match q.fetch s with
        | (.err e, s) => fails s e
        | (.ok b, s) =>
          if !predicateOk (predicateOf a b) then fails s 0x1007
          else if !a.sharded then
            let (id, s) := joinPass s h a.epoch [⟨.register q.reg, b, k, cap, lists, result, q.p⟩] (od s 0x3E00 2)
            (s, .pass id, 0)
          else
            let shards := shardTable s h a
            if shards.length ≠ a.shards then fails s 0x2001
            else
              let tag := s.fabric.nextShard
              let s := s.modFab fun f => { f with
                nextShard := tag + 1
                shardWaits := kset f.shardWaits tag ⟨q.reg, h, k, result, shards.map homeOf, [], []⟩ }
              -- the command waits from here on: a shard on this module may answer before the others are asked
              let s := setWait s q.reg (.shards tag)
              let s := ((List.range shards.length).zip shards).foldl (fun s e =>
                let m := homeOf e.2
                if m = moduleId s then
                  let ok := match liveObj s e.2 with | some o => canRead o q.p | none => false
                  shardQueryHere s m tag e.1 e.2 q.p ok b k cap lists
                else
                  match sendRequest s (.shard tag e.1) m (Config.messageCode Msg.shardQuery.num) e.2 0 0 0 q.p (Config.remoteGroup e.2)
                      ([tag, e.1, e.2, k, cap, lists].flatMap (toLE 8) ++ b) with
                  | (some _, s) => s
                  | (none, s) => shardFail s tag e.1 (sendStatus s m)) s
              (s, match kget s.execs q.reg with | some e => e.wait | none => .shards tag, 0)

end Sys2Proof.Machine
end

