-- ==== Sys2Proof/Machine/Remote.lean ====
section
/-! DEFINITION. Machine/Remote.lean: how a request to another module ends, and what a link change brings about: floods, failed ports,
lost members, failed collectives (03 R526, 04 R122, 05 R138, R150, 15 R399, R405-R407, R412, R417, 18 R468). -/

namespace Sys2Proof.Machine

/-! ## Answers -/

/-- Type of the fabric OD request packets (18 R470). -/
def odReadType : Nat := 0x90
def odWriteType : Nat := 0x91

/-- Mailbox of a path: the PF's is 0, a VF's its number. -/
def mailboxOf : OdPath → Option Nat
  | .pf => some 0
  | .vf n => some n
  | _ => none

/-- CXL return code of an Oddex status (16 R434, R436). -/
def returnCode (status : Nat) : Nat := if status = 0 then 0 else 2

/-- A mailbox command ends (16 R434): return code, extended status, output, doorbell; vector 0 is signalled if its interrupt is on. -/
def Mailbox.finish (m : Mailbox) (code ext : Nat) (out : List Byte) : Mailbox :=
  { m with
    control := m.control &&& 6#3, returnCode := code, extStatus := ext, length := out.length
    payload := if out.isEmpty then m.payload else out }

/-- A background command ends (16 R434, R436). -/
def Mailbox.finishBg (m : Mailbox) (code ext : Nat) : Mailbox :=
  { m with bgOp := false, bgPercent := 100, bgReturn := code, bgExt := ext }

def signalMailbox (h : HostIf) (fn : Nat) (on : Bool) : HostIf :=
  if on then { h with msix := kset h.msix (fn * 2048) (kcount h.msix (fn * 2048) + 1) } else h

/-- Answer an OD access on its path (16 R434-R436, 18 R469, R470): a mailbox shows it in its registers, every path on the bus. Read
data stand at +0x10 of the output payload. -/
def answerOd (s : State) (path : OdPath) (status : Nat) (b : List Byte) : State :=
  s.modHost fun h =>
    let h : HostIf := { h with bus := .status status b }
    match mailboxOf path with
    | none => h
    | some k =>
      let m := (kget h.mailboxes k).getD {}
      if m.bgOp && !m.control.getLsbD 0 then
        signalMailbox { h with mailboxes := kset h.mailboxes k (m.finishBg (returnCode status) status) } k (m.control.getLsbD 2)
      else
        let out := if status = 0 ∧ m.opcode ≠ 0xC001 then List.replicate 16 0 ++ b else []
        signalMailbox { h with mailboxes := kset h.mailboxes k (m.finish (returnCode status) status out) } k (m.control.getLsbD 1)

/-- Respond to a request packet (15 R402-R404): its type and tag, class RSP. -/
def respond (s : State) (p : Packet) (status : Nat) (b : List Byte) : State :=
  (sendPacket s { blankPacket with
    type := p.type, dest := p.src, tclass := 1, tag := p.tag, addr := p.addr, tx := p.tx, polder := p.polder, group := p.group
    status := BitVec.ofNat 16 status, payload := b }).2

/-- Answer an access that may have come over the fabric: a response packet of the MGT class then (18 R470). -/
def answerPath (s : State) (path : OdPath) (type tag status : Nat) (b : List Byte) : State :=
  match path with
  | .fabric m => (sendPacket s { blankPacket with
      type := type, dest := m, tclass := 3, tag := tag, status := BitVec.ofNat 16 status, payload := if status = 0 then b else [] }).2
  | _ => answerOd s path status b

/-! ## The end of a request (R405-R407) -/

/-- What is left of a buffer beyond its first `n` bytes. -/
def dropBuf : List (Nat × Nat) → Nat → List (Nat × Nat)
  | [], _ => []
  | (a, k) :: r, n => if n < k then (a + n, k - n) :: r else dropBuf r (n - k)

/-- Deliver bytes of a READ into its command's buffer from a byte offset (03 R87, R526). -/
def giveData (s : State) (reg piece : Nat) (e : Exec) (b : List Byte) : Bool × State :=
  let q : Req := { reg := reg, fn := e.fn, p := e.polder, c := e.cmd, again := true }
  match q.buffer s with
  | .err _ => (false, s)
  | .ok l => deliver s e.fn (dropBuf l piece) b

/-- The wait of a remote command once its outstanding pieces are known: ended, or still waiting (R526). -/
def remoteWait (whole : Nat) (tags : List (Nat × Nat)) (done : Nat) : Wait :=
  match tags with
  | [] => .ready 0 whole
  | [(0, st)] => .ready st done
  | l => .remote l done

/-- A piece of a command ended (R526): a success leaves the list; a failure drops the pieces above it and stands as the last; in a
transaction it aborts the transaction and the command ends with 0x3005. A carried command ends with its home's status and value. -/
def endPiece (s : State) (reg piece : Nat) (r : RemoteReq) (tag status : Nat) (b : List Byte) : State :=
  match kget s.execs reg with
  | none => s
  | some e =>
    match e.wait with
    | .remote tags done =>
      if !(tags.any fun t => t.1 == tag) then s
      else
        let id := e.cmd.tx.toNat
        let put := fun (s : State) (w : Wait) (n : Nat) =>
          { s with execs := kmod s.execs reg fun e => { e with wait := w, work := e.work + n } }
        let carried := decide (128 ≤ r.type)
        let (ok, s) : Bool × State :=
          if status ≠ 0 then (false, s)
          else if r.type = 1 then giveData s reg piece e b
          else if carried && e.opcode == 0x50 then deliver s e.fn [(bitsAt e.cmd.ops.toNat 0 64, b.length - 8)] (b.drop 8)
          else (true, s)
        let st := if status = 0 then 0x100E else status
        if e.opcode = 0x30 ∧ r.length = 0 then
          -- a forwarded job (06 R183): refused or out of reach, it is admitted here; WAIT_END goes on at its new home
          if status ≠ 0 then { s with execs := kmod s.execs reg fun e => { e with wait := .retry, waited := true } }
          else
            let h := fieldAt b 0 8
            let s := schedBump s e.polder 9 1
            if !e.cmd.flags.getLsbD 8 then put s (.ready 0 h) 0
            else
              let fields := [0x30, h, 0, 0].flatMap (toLE 8) ++ toLE 16 0
              match sendRequest s (.register reg 0) (homeOf h) (Config.messageCode Msg.carried.num) h 1 0 0 e.polder (Config.remoteGroup h) fields with
              | (some t, s) => put s (.remote [(t, 0)] 0) 0
              | (none, s) => put s (.ready (sendStatus s (homeOf h)) 0) 0
        else if ok then
          if carried then
            -- a command in several parts (12 R329) ends with the sum of its parts' values, durable here too
            let left := tags.filter fun t => t.1 != tag
            let value := done + fieldAt b 0 8
            put s (if !left.isEmpty then .remote left value
              else match s.flash.jpend.getLast? with
                | some j => .journal j.1 0 value
                | none => .ready 0 value) (b.length - 8)
          else
            let w := remoteWait e.cmd.length.toNat (tags.filter fun t => t.1 != tag) done
            -- a WRITE with FUA whose pieces are all held at their home goes on with a FLUSH there (R43, R87)
            if e.opcode = 2 ∧ e.cmd.flags.getLsbD 0 ∧ id % 4194304 = 0 ∧ w = .ready 0 e.cmd.length.toNat then
              let h := e.cmd.target.toNat
              match sendRequest s (.register reg 0) (homeOf h) (Config.messageCode Msg.carried.num) h 0 0 0 e.polder (Config.remoteGroup h)
                  ([3, h, 0, 0].flatMap (toLE 8) ++ toLE 16 0) with
              | (some t, s) => put s (.remote [(t, 0)] e.cmd.length.toNat) r.length
              | (none, s) => put s (.ready (sendStatus s (homeOf h)) e.cmd.length.toNat) r.length
            else put s w r.length
        else if id % 4194304 ≠ 0 ∧ status ≠ 0 then put (abortTx s id 0x3005) (.ready 0x3005 0) 0
        else if carried then put s (.ready st done) 0
        else put s (remoteWait 0 ((tags.takeWhile fun t => t.1 != tag) ++ [(0, st)]) piece) 0
    | _ => s

/-- A home confirmed the versions of staged rows, in the order they were asked (05 R155): those still current are used, the others are
discarded as stale. -/
def confirmStaged (s : State) (x : CtxId) (home : Nat) (b : List Byte) : State :=
  let k := match getCtx s x with | some (_, c) => (match c.resident with | some r => r.1 | none => 0) | none => 0
  let mine := fun (p : Prefetch) => p.job == x.job && p.idx == x.idx && p.remote == some home && p.arrived && !p.forNext
  let rows := (s.core k).prefetches.filter mine
  let good := (((List.range rows.length).zip rows).filter fun e => fieldAt b (8 * e.1) 8 == e.2.stamp).map (·.2)
  let s := modCtx s x fun c => { c with staged := c.staged ++ good.map fun p => (p.key, p.data) }
  let p := jobPolder s x.job
  let s := bumpB (bumpB s p 0x9700 2 good.length) p 0x9700 3 (rows.length - good.length)
  s.modCore k fun q => { q with prefetches := q.prefetches.filter fun p => !mine p }

/-- A remote operand of a record arrived or a remote store was answered (05 R138); a failure is a context fault with code 11 (R407). -/
def endOperand (s : State) (x : CtxId) (r : RemoteReq) (status : Nat) (b : List Byte) : State :=
  match getCtx s x with
  | none => s
  | some (_, c) =>
    if c.awaiting = 0 then s
    -- a refused action ends the transaction (04 R117 step 1), which its context learns (R147)
    else if status ≠ 0 ∧ r.tx ≠ 0 then ctxAborted (abortTx s r.tx 0x3005) x 0x3005
    else if status ≠ 0 then ctxFault s x 11 r.off
    else
      let left := c.awaiting - 1
      let s := if 128 ≤ r.type ∧ r.length = 1 then confirmStaged s x r.dest b else s
      let s := modCtx s x fun c => { c with
        awaiting := left
        staged := if r.type = 1 ∨ (128 ≤ r.type ∧ r.length ≠ 1) then c.staged ++ [(r.haddr, b)] else c.staged
        wait := if left = 0 then (match c.wait with | .stall _ => .none | w => w) else c.wait }
      if left = 0 then
        let s := repick s x false
        -- a record whose stores at other modules were all answered is complete (R138)
        if c.wait = .stall 64 then recordDone s x false else if c.wait = .stall 65 then recordDone s x true else s
      else s

/-- A claim was answered (15 R409): with every acknowledgement the group is made; a refusal fails its CREATE with 0x1007. -/
def endClaim (s : State) (number src status : Nat) : State :=
  match findFirst (fun c => c.number == number && c.handle != 0) s.fabric.claims with
  | none => s
  | some c =>
    let others := s.fabric.claims.filter fun d => !(d.number == number && d.handle != 0)
    if status ≠ 0 then
      let s := s.modFab fun f => { f with claims := others }
      let s := (otherModules s).foldl (fun s m => sendMsg s m .release 0 0 [number] []) s
      let s : State := { s with objs := kdel s.objs c.handle }
      let s := (jadd s (.object c.handle none)).2
      { s with execs := kmod s.execs c.reg fun e => { e with wait := .ready 0x1007 0 } }
    else
      let left := c.waiting.filter (· != src)
      if !left.isEmpty then s.modFab fun f => { f with claims := others ++ [{ c with waiting := left }] }
      else
        let s := groupMade (s.modFab fun f => { f with claims := others }) number c.handle
        let s := (otherModules s).foldl (fun s m => sendMsg s m .install 0 0 [number, moduleId s, 1, moduleId s, 0, 255] []) s
        let (k, s) := journalObj s c.handle
        { s with execs := kmod s.execs c.reg fun e => { e with wait := .journal k 0 c.handle } }

/-- A request ends with a status and a response payload (R405, R406): its slot is freed, packets that waited for it go, and its owner
learns the outcome. -/
def endRequest (s : State) (tag status : Nat) (b : List Byte) : State :=
  match kget s.fabric.reqs tag with
  | none => s
  | some r =>
    let s := s.modFab fun f => { f with reqs := kdel f.reqs tag }
    let s := if s.fabric.reqs.any fun e => e.2.dest == r.dest then s else sendWaiting s r.dest
    match r.owner with
    | .register reg piece => endPiece s reg piece r tag status b
    | .context job idx => endOperand s ⟨job, idx⟩ r status b
    | .mailbox path _ => answerOd (s.modOd fun o => { o with remote := o.remote.filter fun e => e.1 != tag }) path status b
    | .claim number => endClaim s number r.dest status
    | .shard t i => if status = 0 then s else shardFail s t i (if status = 0x6001 ∨ status = 0x6004 then status else 0x6002)
    | .runtime => s

/-! ## Link changes (R399, R412, R417) -/

/-- A collective fails on this module (R417): counted, and its context takes a fault with code 11. -/
def failColls (s : State) (test : Coll → Bool) : State :=
  (s.fabric.colls.filter test).foldl (fun s c =>
    let s := bump (s.modFab fun f => { f with colls := f.colls.filter fun d => !(d.group == c.group && d.number == c.number) }) 0x9074 6 1
    match c.ctx with
    | some (x, _) => ctxFault s x 11 0
    | none => s) s

/-- The AUTO flag and failure timeout of a group that this module keeps. -/
def keptGroup (s : State) (number : Nat) : Option (Nat × GroupArea) :=
  findFirst (fun _ => true) (s.objs.filterMap fun e => match e.2.area with
    | .group g => if g.number = number ∧ !e.2.leaving then some (e.1, g) else none
    | _ => none)

/-- After a link change: collectives with a member that cannot be reached fail (R417), and members without a route of groups kept
here are noted with the uptime (R412). -/
def afterLinks (s : State) : State :=
  let gone := fun (s : State) (m : Nat) => !reaches s m
  let s := failColls s fun c => match kget s.fabric.groups c.group with
    | some g => gone s g.keeper || g.members.any fun m => gone s m.1
    | none => true
  -- barriers of a group whose keeper is out of reach fail (R413)
  let s := ((s.fabric.groups.filter fun e => gone s e.2.keeper).map (·.1)).foldl (fun s g =>
    (s.jobs.flatMap fun e => ((List.range e.2.ctxs.length).zip e.2.ctxs).filterMap fun q => match q.2.wait with
      | .groupBarrier k _ => if k = g then some (CtxId.mk e.1 q.1) else none
      | _ => none).foldl (fun s x => ctxFault s x 11 0) s) s
  -- exchanges of the runtimes that wait for an answer from a module out of reach end with 0x6001
  let s := ((s.fabric.reqs.filter fun e => decide (128 ≤ e.2.type) && gone s e.2.dest).map (·.1)).foldl
    (fun s tag => endRequest s tag 0x6001 []) s
  s.fabric.groups.foldl (fun s e =>
    if e.2.keeper ≠ moduleId s then s
    else (e.2.members.map (·.1) ++ e.2.former).foldl (fun s m => s.modFab fun f => { f with
      lost := if gone s m then (match kget f.lost (e.1 * 1024 + m) with
          | some _ => f.lost
          | none => kset f.lost (e.1 * 1024 + m) s.power.uptime)
        else kdel f.lost (e.1 * 1024 + m) }) s) s

/-- Flood a state change of an own port (R399). -/
def floodLink (s : State) (port : Nat) (up : Bool) : State :=
  let n := kcount s.fabric.ownNumber port + 1
  let s := bump (s.modFab fun f => { f with ownNumber := kset f.ownNumber port n }) 0x4000 8 1
  let s := (otherModules s).foldl (fun s m => sendMsg s m .linkState 0 0 [moduleId s, port, if up then 1 else 0, n] []) s
  afterLinks s

/-- Change a port; a change between carrying traffic and not is flooded (R399). -/
def changePort (s : State) (n : Nat) (f : Port → Port) : State :=
  let was := (s.port n).state.carries
  let s := s.modPort n f
  let is := (s.port n).state.carries
  if was = is then s else floodLink s n is

/-- Packets that a port holds: in its replay buffer and its egress queues. -/
def heldPackets (t : Port) : List Packet := t.replay.flatMap (·.2.2) ++ t.egress.map (·.2)

/-- What happens to packets held for a port that fails (R406): each request's source gets 0x6004, the rest is discarded; a collective
of this module whose packet is lost fails (R417). -/
def loseHeld (s : State) (l : List Packet) : State :=
  l.foldl (fun s p =>
    let claim := match kget s.fabric.reqs p.tag with
      | some r => p.tclass == 3 && p.src == moduleId s && (match r.owner with | .claim _ => true | _ => false)
      | none => false
    if claim then endRequest s p.tag 0x6004 []
    else if p.tclass = 0 then (if p.src = moduleId s then endRequest s p.tag 0x6004 [] else respond s p 0x6004 [])
    else if p.tclass = 2 then
      -- a part names its group, epoch and number first
      failColls s fun c => c.group == fieldAt p.payload 0 8 && c.epoch == fieldAt p.payload 8 8 && c.number == fieldAt p.payload 16 8
    else s) s

/-- A port enters FAILED (R392, R406). -/
def portFail (s : State) (n : Nat) : State :=
  let held := heldPackets (s.port n)
  let s := bump s (0x9070 + n) 4 1
  let s := changePort s n fun t => { t with state := .failed, failedAt := s.power.uptime, replay := [], egress := [], used := [] }
  loseHeld s held

/-- A port goes DOWN, for want of a signal, disabled or unpowered (R388, R389). What it holds is lost as on a failure (R406). -/
def portDown (s : State) (n : Nat) (dark : Bool) : State :=
  let held := heldPackets (s.port n)
  let s := changePort s n fun t => { t with
    state := .down, replay := [], egress := [], used := [], lanes := 0, recovered := false, commanded := false
    lit := if dark then false else t.lit, dark0 := s.power.uptime, peer := 0xFFFF, peerPort := 0xFF }
  loseHeld s held

/-- A port starts training (R389): enabled, powered, and in a topology other than 0. -/
def startTraining (s : State) (n : Nat) (commanded : Bool) : State :=
  let held := heldPackets (s.port n)
  let s := changePort s n fun t => { t with
    state := .training, lit := true, recovered := t.signal, commanded := commanded, trainAt := s.power.uptime
    replay := [], egress := [], used := [], txSeq := 0, rxSeq := 0 }
  loseHeld s held

/-- Whether a port may be lit at all: enabled, its domain powered, the topology not "None" (R388, R396). -/
def portAllowed (s : State) (n : Nat) : Bool :=
  od s (0x4010 + n) 5 == 1 && s.fabric.kind != 0 &&
  (match s.power.pd[17 + n / 2]? with | some .off => false | some _ => true | none => true)

end Sys2Proof.Machine
end

