-- ==== Sys2Proof/Machine/CfgCells.lean ====
section
/-! DEFINITION. Machine/CfgCells.lean: the words of the configuration flash: their code, their stored form, programs and erases (19 R476, R477,
R480-R485, R492). -/

namespace Sys2Proof.Machine

/-! ## The (40,32) code (R477) -/

/-- The columns of the code: 32 different bytes of three ones each, whose sum is zero, so that the word of all ones has check bits of zero
(DESIGN CHOICE, log entry 148: the manual names no code; the order of the columns is free). -/
def checkColumns : List (BitVec 8) :=
  [7, 13, 19, 21, 25, 28, 35, 42, 50, 56, 67, 69, 70, 74, 76, 82, 84, 97, 104, 112, 133, 134, 137, 138, 148, 152, 161, 162, 168, 176, 196, 224]

/-- The column of a data bit. -/
def columnOf (i : Fin 32) : BitVec 8 := (checkColumns[(Config.codeOrder i).val]?).getD 0

/-- Check bits of a word: the sum of the columns of its ones. -/
def checkBits (w : BitVec 32) : BitVec 8 := (List.finRange 32).foldl (fun c i => if w.getLsbD i.val then c ^^^ columnOf i else c) 0

/-- An erased word: every cell 1. -/
def erasedWord : BitVec 40 := BitVec.allOnes 40

/-- A word as it is stored: its data, and its check bits inverted. -/
def storedWord (w : BitVec 32) : BitVec 40 := w ++ ~~~(checkBits w)

/-- What a read of a stored word gives: its data and whether a bit was corrected; none when it is uncorrectable (R477, R480). -/
def readStored (c : BitVec 40) : Option (BitVec 32 × Bool) :=
  let w : BitVec 32 := c.extractLsb' 8 32
  let syndrome := checkBits w ^^^ ~~~(c.extractLsb' 0 8)
  if syndrome = 0 then some (w, false)
  else match findFirst (fun i => columnOf i == syndrome) (List.finRange 32) with
    | some i => some (w ^^^ ((1 : BitVec 32) <<< i.val), true)
    | none => if (List.range 8).any fun i => (1 : BitVec 8) <<< i == syndrome then some (w, true) else none

/-! ## Cells -/

/-- First word of a sector, and of the status sectors of a slot (R481, R492). -/
def sectorWord (k : Nat) : Nat := 1024 * k
def statusWord (slot word : Nat) : Nat := sectorWord (1152 + 8 * slot) + word

/-- A word as the module was shipped: identity region, owner keys, the first record of the key store, and slot A with STAGED, VERIFIED and RAN
set, and its image; every other word is erased (log entry 148). -/
def shippedCell (a : Nat) : BitVec 40 :=
  let k := a / 1024
  if k < 16 ∨ (32 ≤ k ∧ k < 64) ∨ (sectorWord 64 ≤ a ∧ a < sectorWord 64 + 32) ∨ (1280 ≤ k ∧ k < 13568) then storedWord (Config.shippedWord a)
  else if a = statusWord 0 0 ∨ a = statusWord 0 1 ∨ a = statusWord 0 5 then storedWord 0
  else erasedWord

/-- The cells of a word. -/
def cfgCell (s : State) (a : Nat) : BitVec 40 := (kget s.sec.cells a).getD (shippedCell a)

def putCell (s : State) (a : Nat) (c : BitVec 40) : State :=
  s.modSec fun q => { q with cells := if c = shippedCell a then kdel q.cells a else kset q.cells a c }

/-- Program a word: data and check bits together, each bit only from 1 to 0. -/
def programWord (s : State) (a : Nat) (w : BitVec 32) : State := putCell s a (cfgCell s a &&& storedWord w)

/-- Program words from word `a` upward. -/
def programWords (s : State) (a : Nat) (l : List (BitVec 32)) : State :=
  ((List.range l.length).zip l).foldl (fun s e => programWord s (a + e.1) e.2) s

/-- Erase a sector. -/
def eraseSector (s : State) (k : Nat) : State := (List.range 1024).foldl (fun s i => putCell s (sectorWord k + i) erasedWord) s

/-- The words of a sector as a read gives them, and how many are uncorrectable; such a word stays as it reads. -/
def sectorRead (s : State) (k : Nat) : List (BitVec 32) × Nat :=
  let l := (List.range 1024).map fun i => cfgCell s (sectorWord k + i)
  (l.map fun c => match readStored c with | some r => r.1 | none => c.extractLsb' 8 32, (l.filter fun c => (readStored c).isNone).length)

/-- Bytes as words, lowest byte first. -/
def wordsOf (b : List Byte) : List (BitVec 32) := (groupsOf 4 (b.length + 1) b).map fun g => BitVec.ofNat 32 (leNat g)

/-- A sector is erased and programmed whole. -/
def rewriteSector (s : State) (k : Nat) (l : List (BitVec 32)) : State := programWords (eraseSector s k) (sectorWord k) l

/-- An operation in a sector that a loss of 3.3Vaux cut off: an erase leaves the whole sector undefined, a program what was erased (R499). -/
def cutSector (s : State) (k key : Nat) (erase : Bool) : State :=
  (List.range 1024).foldl (fun s i =>
    let a := sectorWord k + i
    if erase || cfgCell s a == erasedWord then putCell s a (Config.cutWord key a) else s) s

/-! ## What the regions hold -/

/-- Set a status word of a slot (R492). -/
def setStatus (s : State) (slot word : Nat) (v : BitVec 32) : State := programWord s (statusWord slot word) v

/-- The status sectors of a slot are erased, and the words listed are set. -/
def restatus (s : State) (slot : Nat) (l : List (Nat × BitVec 32)) : State :=
  let s := (List.range 8).foldl (fun s i => eraseSector s (1152 + 8 * slot + i)) s
  l.foldl (fun s e => setStatus s slot e.1 e.2) s

/-- The floor rises: its words are programmed to zero in ascending order (R484). -/
def raiseFloor (s : State) (f : Nat) : State :=
  let n := s.sec.floor
  let s := (List.range (f - n)).foldl (fun s i => programWord s (sectorWord 16 + n + i) 0) s
  s.modSec fun c => { c with floor := max n f }

/-- First word of the record of a key generation in the key store. -/
def keyRecordAt (g : Nat) : Nat := sectorWord 64 + 32 * ((g - 1) % 2048)

/-- The record of a media key: its generation, the key wrapped, zeros, and a CRC (R488). -/
def keyRecord (s : State) (g : Nat) (key : List Byte) : List (BitVec 32) :=
  let wrap := match s.sec.puf with | some p => p.wrap | none => []
  let b := toLE 4 g ++ (List.range 72).map (Config.keyWrap wrap key) ++ List.replicate 48 0
  wordsOf (b ++ toLE 4 (crc32 b).toNat)

/-- The words of a record of the OD store: header, sequence, value, CRC over these, and the commit word (R485). -/
def storeRecord (key seq words value : Nat) : List (BitVec 32) :=
  let b := toLE 4 (key * 256 + words) ++ toLE 4 seq ++ toLE (4 * words) value
  wordsOf (b ++ toLE 4 (crc32 b).toNat) ++ [0]

/-- The sector of the owner's keys as it is programmed: the maintenance key and the owner debug key (R481, R486). -/
def ownerSector : Nat := 32
def reopenSector : Nat := 33

/-- The reopen password record: scope, uses, salt and hash (R502); erased when there is none. -/
def reopenWords (r : Option Reopen) : List (BitVec 32) :=
  match r with
  | none => []
  | some r => wordsOf (toLE 2 r.scope ++ toLE 2 r.uses ++ r.salt ++ r.hash)

end Sys2Proof.Machine
end

