-- ==== Sys2Proof/Machine/CfgFlash.lean ====
section
/-! DEFINITION. Machine/CfgFlash.lean: operations of the configuration flash and the OD store in it (18 R464, 19 R478-R485), the end of
maintenance mode (18 R463), and the switch of the power-loss mode (13 R353). -/

namespace Sys2Proof.Machine

/-! ## The controller (R479) -/

def modCfgOp (s : State) (f : CfgOp → CfgOp) : State := s.modSec fun c => { c with op := c.op.map f }

/-- A program that finds an erase in progress requests a suspend: issued after 500 µs of run time, held until then, and at most 16 times
in an erase. -/
def cfgSuspend (s : State) : State :=
  match s.sec.op with
  | none => s
  | some o =>
    if !o.erase || o.suspended || s.power.resetReq.isSome || decide (16 ≤ o.suspends) then s
    else if o.startedAt + 500 ≤ s.power.uptime then
      bump (modCfgOp s fun o => { o with suspended := true, suspends := o.suspends + 1, served := 0, heldReq := false }) 0x5300 4 1
    else if o.heldReq then s
    else bump (modCfgOp s fun o => { o with heldReq := true }) 0x5300 5 1

/-- What a refresh reads before it erases: the words of the sector, corrected (R480). -/
def refreshWords (s : State) (erase : Bool) (rank sector : Nat) : List (BitVec 32) := if erase && rank == 5 then (sectorRead s sector).1 else []

/-- A program or erase of the configuration flash starts, or its request waits in the order of R479. None starts once a reset has been
requested (R498, 20 R513). -/
def cfgStart (s : State) (erase : Bool) (sector rank : Nat) : State :=
  if s.power.resetReq.isSome then s
  else match s.sec.op with
  | none => s.modSec fun c => { c with op := some { erase := erase, sector := sector, startedAt := s.power.uptime, words := refreshWords s erase rank sector } }
  | some _ =>
    let s := modCfgOp s fun o => { o with queue := insertBy (fun a b => decide (a.1 < b.1)) (rank, sector, erase) o.queue }
    if erase then s else cfgSuspend s

/-- CFG_SUSPEND_HOLD: a held suspend is issued once the erase has run 500 µs. -/
def cfgHold (s : State) : State :=
  match s.sec.op with
  | some o => if o.heldReq && !o.suspended && decide (o.startedAt + 500 ≤ s.power.uptime) then cfgSuspend s else s
  | none => s

/-! ## The OD store (R464, R485) -/

/-- Entries held in the password-protected region (R481, R486, R502): the owner's keys and the reopen password. -/
def inKeyRegion (key : Nat) : Bool := key == odKey 0x5010 1 || key == odKey 0x5010 2 || key == odKey 0x5400 5

def StoreWrite.inKeys (w : StoreWrite) : Bool := w.items.any fun i => inKeyRegion i.1

/-- Words of the record of an entry: header, sequence, value, CRC and commit words (R485). -/
def recWords (key : Nat) : Nat :=
  4 + ceilDiv (match odEntry (key / 256) (key % 256) with | some e => e.size | none => 8) 4

/-- Append a record to the ring: into the sector being filled while it holds the record, else into the next one (log entry 34). -/
def storeAppend (s : State) (key value : Nat) : State :=
  let recs := s.sec.storeRecs
  let n := recWords key
  let last := match recs.getLast? with | some r => r.2 | none => 0
  let used := ((recs.filter fun r => r.2 == last).map fun r => recWords r.1).foldl (· + ·) 0
  let stays := !recs.isEmpty && decide (used + n ≤ 1024) && !s.sec.storeFull
  let k := if recs.isEmpty then 0 else if stays then last else (last + 1) % 1024
  let seq := (s.sec.storeSeq + 1) % 4294967296
  let s := s.modSec fun c => { c with
    storeRecs := recs ++ [(key, k)], storeFree := if stays then c.storeFree else c.storeFree - 1, storeSeq := seq, storeFull := false }
  programWords s (sectorWord (128 + k) + (if stays then used else 0)) (storeRecord key seq (n - 4) value)

/-- The sector being filled, in the numbering of R481. -/
def storeSector (s : State) : Nat := 128 + (match s.sec.storeRecs.getLast? with | some r => r.2 | none => 0)

/-- Queue a write of persistent entries; it is answered when it has been programmed, and cores it took away hold no resident. -/
def storeWriteFor (s : State) (items : List (Nat × Nat)) (path : Option OdPath) (tag cores : Nat) : State :=
  let w : StoreWrite := { items := items, path := path, tag := tag, cores := cores }
  let s := s.modSec fun c => { c with storeQ := c.storeQ ++ [w] }
  if w.inKeys then cfgStart s false 32 3 else cfgStart s false (storeSector s) 2

def storeWrite (s : State) (items : List (Nat × Nat)) (path : Option OdPath) (tag : Nat) : State := storeWriteFor s items path tag 0

/-- Applies of polders are answered once the cores they took away hold no resident context (06 R168). -/
def applyStep (s : State) : State :=
  let empty := fun (a : Nat × OdPath × Nat) => (List.range 32).all fun k => !a.1.testBit k || (s.core k).residents.isEmpty
  let go := s.od.applies.filter empty
  go.foldl (fun s a => answerPath s a.2.1 odWriteType a.2.2 0 [])
    (s.modOd fun o => { o with applies := o.applies.filter fun a => !empty a })

/-- A write of the key region takes its effect: a maintenance or owner key, zeros for none, or the reopen password destroyed. -/
def keyWritten (s : State) (i : Nat × Nat) : State :=
  let keys := fun (s : State) => rewriteSector s ownerSector
    (wordsOf ((s.sec.maintKey.getD (Config.oddexKey 1)) ++ s.sec.ownerKey.getD (List.replicate 388 0)))
  if i.1 = odKey 0x5010 1 then keys (s.modSec fun c => { c with maintKey := some (toLE 388 i.2) })
  else if i.1 = odKey 0x5010 2 then keys (s.modSec fun c => { c with ownerKey := if i.2 = 0 then none else some (toLE 388 i.2) })
  else if i.1 = odKey 0x5400 5 then eraseSector (s.modSec fun c => { c with lock := { c.lock with reopen := none } }) reopenSector
  else s

/-- The oldest waiting write, of the key region or not, is programmed: its values are committed and its path is answered. -/
def storeCommit (s : State) (keys : Bool) : State :=
  match findFirst (fun w => w.inKeys == keys) s.sec.storeQ with
  | none => s
  | some w =>
    let s := s.modSec fun c => { c with storeQ := c.storeQ.erase w }
    let s := w.items.foldl (fun s i =>
      if keys then keyWritten s i
      else (storeAppend s i.1 i.2).modSec fun c => { c with store := kset c.store i.1 i.2 }) s
    match w.path with
    | some path => applyStep (s.modOd fun o => { o with applies := o.applies ++ [(w.cores, path, w.tag)] })
    | none => s

/-- OD_STORE_COMPACTION: below 8 free sectors, the live records of the oldest sector go forward and it is erased. -/
def storeCompact (s : State) : State :=
  match s.sec.storeRecs with
  | [] => s
  | (_, k) :: _ =>
    if 8 ≤ s.sec.storeFree then s
    else
      let old := s.sec.storeRecs.filter fun r => r.2 == k
      let rest := s.sec.storeRecs.filter fun r => r.2 != k
      let live := (nubList (old.map (·.1))).filter fun key => !rest.any fun r => r.1 == key
      let s := live.foldl (fun s key => storeAppend s key (kcount s.sec.store key)) (s.modSec fun c => { c with storeRecs := rest })
      cfgStart s true (128 + k) 6

/-- What the end of a program or erase of a sector brings about: `words` are programmed again after the erase of a refresh. -/
def cfgLanded (s : State) (erase : Bool) (sector : Nat) (words : List (BitVec 32)) : State :=
  if erase then
    let s := if !words.isEmpty then rewriteSector s sector words else if 128 ≤ sector ∧ sector < 1152 then eraseSector s sector else s
    -- a sector of the store without a record is free (R485)
    if 128 ≤ sector ∧ sector < 1152 ∧ !(s.sec.storeRecs.any fun r => r.2 + 128 == sector) then
      s.modSec fun c => { c with storeFree := min 1024 (c.storeFree + 1) }
    else s
  else if 128 ≤ sector ∧ sector < 1152 then storeCommit s false
  else if sector = 32 then storeCommit s true
  else s

/-- The request served while an erase is suspended: the first that is no erase and names another sector. -/
def CfgOp.beside (o : CfgOp) : Option (Nat × Nat × Bool) := findFirst (fun q => !q.2.2 && q.2.1 != o.sector) o.queue

/-- A module reset is requested: the media quiesce, suspended operations resume, and the first cause stands (R498, 20 R513). -/
def requestReset (s : State) (cause : Nat) : State :=
  let s := s.modPower fun p => { p with resetReq := some (p.resetReq.getD cause) }
  let resume := fun (d : DieOp) => if d.suspended then { d with suspended := false, held := false, startedAt := s.power.uptime } else d
  let s := s.modFlash fun f => { f with dies := kmap f.dies fun _ d => resume d }
  modCfgOp s fun o => if o.suspended then { o with suspended := false, startedAt := s.power.uptime } else o

/-- An operation ends and the next waiting request starts, unless a reset has been requested. A suspended erase resumes when no request
is queued, or after 8. -/
def cfgComplete (s : State) : State :=
  match s.sec.op with
  | none => s
  | some o =>
    if o.suspended then
      match o.beside with
      | none => modCfgOp s fun o => { o with suspended := false, startedAt := s.power.uptime }
      | some q =>
        let o : CfgOp := { o with queue := o.queue.erase q, served := o.served + 1 }
        -- a request left over after 8 finds the erase in progress again, and is held as above
        let again := o.beside.isSome && decide (8 ≤ o.served) && decide (o.suspends < 16)
        let o : CfgOp := if o.beside.isNone || decide (8 ≤ o.served)
          then { o with suspended := false, startedAt := s.power.uptime, heldReq := again } else o
        let s := if again then bump s 0x5300 5 1 else s
        cfgLanded (s.modSec fun c => { c with op := some o }) false q.2.1 []
    else
      let next : Option CfgOp := match (if s.power.resetReq.isSome then [] else o.queue) with
        | [] => none
        | q :: r => some { erase := q.2.2, sector := q.2.1, startedAt := s.power.uptime, queue := r, words := refreshWords s q.2.2 q.1 q.2.1 }
      cfgLanded (s.modSec fun c => { c with op := next }) o.erase o.sector o.words

/-- CFG_EARLY_WARNING_REFRESH (R480): a read corrected as many words of a sector as OD 0x5312:00 says. A sector of a locked or
password-protected region is named in the health log, with its region (0 identity, 1 rollback counter, 2 owner keys, 3 key store);
any other is refreshed. -/
def cfgWarning (s : State) (sector corrected : Nat) : State :=
  let s := bump (bump s 0x5300 1 corrected) 0x5300 2 (sectorRead s sector).2
  if corrected < od s 0x5312 0 then s
  else
    let s := bump s 0x5300 3 1
    if sector < 128 then
      logHealth s 0x0019 false [sector, if sector < 16 then 0 else if sector < 32 then 1 else if sector < 64 then 2 else 3, corrected]
    else cfgStart s true sector 5

/-! ## Maintenance mode ends (18 R463) -/

/-- Code of a path in OD 0x5001:05 and in the log: 1 PF mailbox, 2 MCTP, 3 fabric. -/
def pathCode : OdPath → Nat
  | .mctp _ => 2
  | .fabric _ => 3
  | _ => 1

/-- Maintenance mode ends: logged with path, exit and cause (0 written, 1 idle time, 2 a reset), and counted. -/
def leaveMaint (s : State) (cause : Nat) : State :=
  match s.od.maint with
  | none => s
  | some path => bump (logHealth (s.modOd fun o => { o with maint := none }) 0x001B false [pathCode path, 0, cause]) 0x9500 6 1

/-! ## The power-loss mode (13 R353) -/

/-- The oldest mode write goes on: the switch once the courses it closes have closed, its answer once the switch is in the journal. -/
def modeStep (s : State) : State :=
  match s.od.modes with
  | [] => s
  | m :: r =>
    match m.record with
    | none =>
      if m.courses.any fun c => (kget s.flash.courses c).isSome then s
      else
        let s := odSet s 0x2230 0 m.value
        let (n, s) := jadd s (.mode m.value)
        let s := storeWrite s [(odKey 0x2230 0, m.value)] none 0
        s.modOd fun o => { o with modes := { m with record := some n } :: r }
    | some n =>
      if jDurable s n then answerPath (s.modOd fun o => { o with modes := r }) m.path odWriteType m.tag 0 []
      else s

end Sys2Proof.Machine
end

