-- ==== Sys2Proof/Machine/Power.lean ====
section
/-! DEFINITION. Machine/Power.lean: power domains and the transition between power states (01 R22-R25, 15 R420, 17 R444, 20
R504-R509). -/

namespace Sys2Proof.Machine

/-- Admitted state of the sense pins (17 R444). -/
def admittedState (p : SensePins) : Nat :=
  if !p.present then 4 else if p.sense1 then 0 else if p.sense0 then 1 else 2

/-- Clusters powered in a state (01 R23, 20 R506). -/
def clustersIn (s : State) (b : Nat) : BitVec 8 :=
  if b ≤ 1 then 0xFF else if b = 2 then BitVec.ofNat 8 (od s 0x6000 2) else 0

/-- Power domains of a state (01 R23). -/
def domainsIn (b : Nat) (clusters : BitVec 8) : List PdState :=
  [.on] ++ ((List.range 8).map fun i => if clusters.getLsbD i then .on else .off) ++ [.on, .on] ++
  List.replicate 4 (if b ≤ 3 then .on else if b = 4 then .ret else .off) ++ [.on, .on] ++
  List.replicate 2 (if b ≤ 3 then .on else if b = 4 then .lp else .off) ++ [if b = 5 then .ret else .on]

/-- Board power cap in 0.1 W (01 R24). -/
def powerCap (b : Nat) : Nat :=
  match b with | 0 => 4000 | 1 => 3000 | 2 => 2000 | 3 => 900 | 4 => 400 | _ => 150

/-- The lowest two of a port's active lanes (15 R420). -/
def lowLanes (l : BitVec 8) : BitVec 8 :=
  (((List.range 8).filter fun i => l.getLsbD i).take 2).foldl (fun acc i => acc ||| (1 <<< i)) 0

/-- A port enters UP_LOW without training (15 R389, R420). -/
def portLow (s : State) (n : Nat) : State :=
  let t := s.port n
  if t.state = .up ∨ t.state = .upNarrow then
    bump (s.modPort n fun t => { t with state := .upLow, lanes := lowLanes t.lanes }) (0x9070 + n) 8 1
  else s

/-- The ports after a move from state a to state b (15 R420). -/
def portsFor (s : State) (a b : Nat) : State :=
  (List.range 4).foldl (fun s n =>
    if b = 5 then portDown s n true
    else if b < a ∧ 4 ≤ a then
      (if !portAllowed s n then s
       else if (s.port n).signal || (s.port n).state == .upLow then startTraining s n true
       else s.modPort n fun t => { t with lit := true })
    else if b = 4 then portLow s n
    else s) s

/-- Scratchpads, sumps and array registers of clusters that are off hold nothing (01 R22, R25). -/
def dropClusters (s : State) (on : BitVec 8) : State :=
  let lost := (List.range 32).filter fun k => !on.getLsbD (k / 4)
  { s with spad := lost.foldl (fun m k => mclear m (k * 4194304) 4194304) s.spad
           sump := lost.foldl (fun m k => mclear m (k * 262144) 262144) s.sump
           cores := kmap s.cores fun k c => if lost.contains k then { c with regs := {} } else c }

/-- Time spent in the present power state is added to its counter, in µs (20 R523, OD 0x6003). -/
def countPs (s : State) : State :=
  (bump s 0x6003 (s.power.ps + 1) (s.power.uptime - s.power.psSince)).modPower fun p => { p with psSince := p.uptime }

/-- Release the jobs that a transition or a runtime restart held (20 R507, R515), and place the queued contexts (R509). -/
def releaseJobs (s : State) : State :=
  let s := { s with jobs := kmap s.jobs fun _ j =>
    if j.ending.isSome then j
    else { j with ctxs := j.ctxs.map fun c => if c.ended then c else { c with held := false, holdAtFret := false } } }
  let s := (List.range 32).foldl (fun s k => pickIssue s k false) s
  let s := (s.jobs.map (·.1)).foldl countResident s
  (List.range 32).foldl placePass s

/-- Hold every running job, and make the residents of clusters that go off leave (20 R507 step 3, R508). -/
def holdForPower (s : State) (on : BitVec 8) : State :=
  let s := (s.jobs.map (·.1)).foldl holdAll s
  let going := (List.range 32).flatMap fun k => if on.getLsbD (k / 4) then [] else (s.core k).residents
  going.foldl (fun s x => match getCtx s x with
    | some (_, c) =>
      let committing := match c.wait with | .commit _ | .secureCommit _ _ => true | _ => false
      if c.held && !committing then evict s x 5 else modCtx s x fun c => { c with evictWhy := some 5 }
    | none => s) s

/-- A command in execution counts as completed for a transition: a JOB with WAIT_END once its job is held (20 R507). -/
def doneForPower (s : State) (e : Exec) : Bool :=
  match e.wait with
  | .jobEnd h => (match kget s.jobs h with
    | some j => j.ctxs.all fun c => c.held || c.ended
    | none => true)
  | _ => false

/-- Steps 2 and 3 of R507 have ended: earlier commands are complete, contexts held, clusters that go off empty. -/
def powerQuiet (s : State) (order b : Nat) : Bool :=
  !(s.execs.any fun e => decide (e.2.order < order) && !doneForPower s e.2) &&
  (s.jobs.all fun e => e.2.ctxs.all fun c => (c.held || c.ended) && (match c.wait with | .commit _ | .secureCommit _ _ => false | _ => true)) &&
  (List.range 32).all fun k => (clustersIn s b).getLsbD (k / 4) || (s.core k).residents.isEmpty

/-- A prefetched copy of a page, which its berm buffer holds, is gone (01 R22, 05 R153). -/
def dropPagePrefetches (s : State) : State :=
  { s with cores := kmap s.cores fun _ q => { q with prefetches := q.prefetches.filter fun p => p.remote.isSome } }

/-- A migration to DRAM whose page reads are lost begins again (01 R22, 02 R52). -/
def requeueUp (s : State) : State :=
  { s with parcels := kmap s.parcels fun _ p => if p.state = .migUp then { p with state := .flash, queued := true } else p }

/-- The flash quadrants in power state b (01 R22, R23, R25): before they park or go off, the journal is written; parked they keep their
queues and buffers, off they lose them, and what waited for a page read of theirs asks again. -/
def parkFlash (s : State) (b : Nat) : State :=
  if b ≤ 3 then s.modFlash fun f => { f with parked := false }
  else
    let s := (afterJournal (journalFlush s)).modFlash fun f => { f with parked := true }
    if b = 4 then s
    else (requeueUp (dropPagePrefetches s)).modFlash fun f => { f with
      reads := f.reads.filter fun r => match r.use with | .copy _ => true | _ => false
      arrived := [], ahead := [], bermWait := [], shared := [], reservedUsed := [] }

/-- Enter power state b (20 R507 steps 4-6). -/
def enterPower (s : State) (b evictions : Nat) : State :=
  let a := s.power.ps
  let s := countPs s
  let s := parkFlash s b
  let on := clustersIn s b
  let s := dropClusters s on
  let s := s.modPower fun p => { p with
    clusters := on, pd := domainsIn b on, ps := b, target := none
    dieLimit := if b = 3 then p.dieLimit else none }
  let s := portsFor s a b
  let s := logHealth s 0x0051 false [a, b, cnt s 0x9800 5 - evictions]
  if s.power.restarting then s else releaseJobs s

end Sys2Proof.Machine
end

