-- ==== Sys2Proof/Machine/Admin.lean ====
section
/-! DEFINITION. Machine/Admin.lean: what SET_POWER_STATE, SANITIZE, FW_STAGE, FW_ACTIVATE and SCRUB do (03 R97-R99, 14 R384, 19
R489-R497, 20 R507, R517-R519). -/

namespace Sys2Proof.Machine

/-! ## SET_POWER_STATE -/

/-- Step 1 of R507. Evictions made by the transition are counted from here. -/
def effSetPowerState (q : Req) (s : State) : Eff :=
  let b := q.op 0 1
  if 5 < b then fails s 0x1007
  else if b < admittedState s.power.pins then fails s 0x7001
  else if s.power.target.isSome then fails s 0x7002
  else (holdForPower (s.modPower fun p => { p with target := some b }) (clustersIn s b), .power b, cnt s 0x9800 5)

/-- Open courses are closed, and the journal can be written (R507 step 4, 01 R25). -/
def flashQuiet (s : State) : Bool := s.flash.courses.isEmpty && (s.flash.jpend.isEmpty || canProgram s)

/-- Parked quadrants run again, so that the FTL can close its courses and write the journal before they go off (01 R25). -/
def unpark (s : State) : State :=
  (s.modFlash fun f => { f with parked := false }).modPower fun p => { p with pd := (((p.pd.set 11 .on).set 12 .on).set 13 .on).set 14 .on }

/-- A transition goes on: step 4 once steps 2 and 3 have ended, and the new state once step 4 has. True when it is entered. The quadrants are
quiet before they park, and before they go off from PS4 (01 R25). -/
def powerGo (s : State) (order b evictions : Nat) : Bool × State :=
  if !powerQuiet s order b then (false, s)
  else if 4 ≤ b ∧ s.power.ps < b ∧ !flashQuiet s then (false, padAll (unpark s))
  else (true, enterPower s b evictions)

/-! ## SANITIZE (R98, R489, R517) -/

/-- Blocks that a sanitize erases: every block of every plane. -/
def allBlocks (s : State) : Nat := planeCount s * 1080

/-- A step of the sanitize is recorded; the blocks erased are the work of the commands that wait for it (R70). -/
def sanitizeStep (s : State) (step erased : Nat) : State :=
  let s : State := { s with execs := kmap s.execs fun _ e => if e.wait = .sanitize then { e with work := max e.work erased } else e }
  (jadd (s.modPower fun p => { p with sanitize := { p.sanitize with step := step, erased := erased } }) (.sanitize step erased)).2

/-- Step 1: the begin record (R517). -/
def sanitizeBegin (s : State) : State :=
  sanitizeStep (s.modPower fun p => { p with sanitize := ⟨true, 0, 0, allBlocks s⟩ }) 1 0

/-- SANITIZE: one in progress is joined (R98). -/
def effSanitize (_q : Req) (s : State) : Eff :=
  (if s.power.sanitize.pending then s else sanitizeBegin s, .sanitize, 0)

/-- A sector of the key store whose records are all destroyed is erased before it is used again (log entry 148). -/
def eraseFull (s : State) (g : Nat) : State := if cfgCell s (keyRecordAt g) = erasedWord then s else eraseSector s (keyRecordAt g / 1024)

/-- Step 2, the crypto-erase: a new media key, loaded, and every older record destroyed (R489). -/
def cryptoErase (s : State) : State :=
  let g := s.sec.keyGen + 1
  let key := (List.range 64).map (Config.randomByte s.sec.draws)
  let s := programWords (eraseFull s g) (keyRecordAt g) (keyRecord s g key)
  let s := s.sec.keys.foldl (fun s k => programWords s (keyRecordAt k) (List.replicate 32 0)) s
  s.modSec fun c => { c with keys := [g], keyGen := g, draws := c.draws + 1 }

/-- Commands that R98 names end with 0x2003 when their objects go; SANITIZE and a power transition go on. -/
def sanitizeEnds (s : State) : State :=
  { s with execs := kmap s.execs fun _ e => match e.wait with
    | .sanitize | .power _ => e
    | _ => { e with wait := .ready 0x2003 0 } }

/-- Step 3: jobs end, transactions roll back, bindings go with back-invalidates, namespace units are unmapped, and every object that
is no NAMESPACE is destroyed. -/
def sanitizeObjects (s : State) : State :=
  let s := (s.jobs.map (·.1)).foldl (fun s h => endJob s h 0x2003) s
  let s := (s.txs.map (·.1)).foldl (fun s l => freeTx s (txIdOf s l)) s
  let s := (s.branches.map (·.1)).foldl rollBranch s
  let s := (s.host.bindings.map (·.1)).foldl dropBinding s
  let s := sanitizeEnds { s with passes := [], versions := [] }
  let s := s.modFab fun f => { f with shardWaits := [] }
  let s := ((s.objs.filter fun e => nsidOf e.2 == 0).map (·.1)).foldl finishDestroy s
  unmapUnits s (s.flash.map.map (·.1))

/-- Step 4: every block of every plane is erased; what the engines held of the old data is gone with it. -/
def eraseAll (s : State) : State :=
  s.modFlash fun f => { f with
    pages := [], courses := [], dies := [], reads := [], arrived := [], ahead := [], wbs := [], bermWait := [], shared := []
    reservedUsed := [], refreshQ := [], patrolQ := [], levees := [], baseErases := f.baseErases + 1
    blocks := kmap f.blocks fun _ b => { state := if b.state = .retired then .retired else .free, eraseCount := b.eraseCount + 1 } }

/-- Step 5: the journal moves into erased blocks, holding the end record; nothing older than it is left. -/
def sanitizeEnd (s : State) : State :=
  let s := sanitizeStep s 5 s.power.sanitize.total
  let s := s.modFlash fun f => { f with
    journal := f.jpend, jpend := [], jsince := none, durMap := [], jdone := s.seq }
  let s : State := { s with
    durObjs := s.objs, durLines := []
    execs := kmap s.execs fun _ e => if e.wait = .sanitize then { e with wait := .ready 0 0 } else e }
  s.modPower fun p => { p with sanitize := {} }

/-- Run the steps not recorded yet (R517). -/
def sanitizeRun (s : State) : State :=
  if !s.power.sanitize.pending then s
  else
    let k := s.power.sanitize.step
    let s := if k < 2 then sanitizeStep (cryptoErase s) 2 0 else s
    let s := if k < 3 then sanitizeStep (sanitizeObjects s) 3 0 else s
    let s := if k < 4 then sanitizeStep (eraseAll s) 4 (allBlocks s) else s
    sanitizeEnd s

/-! ## Firmware (R490-R497) -/

/-- The slot not booted, and a slot by number: 0 A, 1 B. -/
def State.inactive (s : State) : Nat := if s.sec.active then 0 else 1
def State.slot (s : State) (n : Nat) : Slot := if n = 0 then s.sec.slotA else s.sec.slotB
def State.modSlot (s : State) (n : Nat) (f : Slot → Slot) : State :=
  s.modSec fun c => if n = 0 then { c with slotA := f c.slotA } else { c with slotB := f c.slotB }

def Sec.activeSlot (c : Sec) : Slot := if c.active then c.slotB else c.slotA

/-- Bytes of an image. -/
def Slot.bytes (t : Slot) (a n : Nat) : List Byte := mread t.image a n

/-- Stepping byte of this module (00 R4). -/
def steppingByte (s : State) : Nat := if s.ident.a0 then 0x00 else 0x10

/-- Image bytes, version and security version of the header (R490). -/
def Slot.size (t : Slot) : Nat := leNat (t.bytes 0x10 8)

/-- What R491 finds of an image but its security version: 0, or the status 0x5003. The image a module was shipped with verifies. -/
def imageStatus (s : State) (t : Slot) : Nat :=
  let root := t.bytes 0x40 388
  let sign := t.bytes 0x1C8 388
  if t.shipped then 0
  else if leNat (t.bytes 0 4) ≠ 0x3246584F ∨ leNat (t.bytes 4 2) ≠ 0x0100 ∨ leNat (t.bytes 6 1) ≠ steppingByte s then 0x5003
  else if t.size % 4096 ≠ 0 ∨ 50331648 < t.size ∨ t.size < 4096 ∨ leNat (t.bytes 0x650 2480) ≠ 0 then 0x5003
  else if Config.sha256 root ≠ Config.oddexKey 0 then 0x5003
  else if !Config.rsaVerify root (t.bytes 0x1C8 392) (t.bytes 0x350 384) then 0x5003
  else if !Config.rsaVerify sign (t.bytes 0 0x4D0) (t.bytes 0x4D0 384) then 0x5003
  else if Config.sha256 (t.bytes 0x1000 (t.size - 0x1000)) ≠ t.bytes 0x18 32 then 0x5003
  else 0

/-- Whether an image verifies (R491): a security version below the floor alone is a rollback, 0x5004. -/
def verifyImage (s : State) (t : Slot) : Nat :=
  if imageStatus s t ≠ 0 then imageStatus s t
  else if (if t.shipped then t.security else leNat (t.bytes 0xC 4)) < s.sec.floor then 0x5004 else 0

/-- Sectors of 4 KiB that a chunk covers. -/
def chunkSectors (off n : Nat) : List Nat := (List.range (n / 4096)).map (off / 4096 + ·)

/-- First sector of a slot's image (R481). -/
def slotSector (n : Nat) : Nat := if n = 0 then 1280 else 13568

/-- FW_STAGE (R99, R496). -/
def effFwStage (q : Req) (s : State) : Eff :=
  let n := q.c.length.toNat
  let off := q.op 0 8
  let k := s.inactive
  if n = 0 ∨ 1048576 < n then fails s 0x1007
  else if n % 4096 ≠ 0 ∨ off % 4096 ≠ 0 then fails s 0x1009
  else if 50331648 < off + n then fails s 0x1008
  else match q.fetch s with
    | (.err e, s) => fails s e
    | (.ok b, s) =>
      let s := if s.sec.session then s
        else restatus ((s.modSlot k fun t => { image := t.image, staged := true }).modSec fun c => { c with session := true }) k [(0, 0)]
      let s := cfgStart s true (slotSector k + off / 4096) 4
      let s := s.modSlot k fun t => { t with
        image := mwrite t.image off b, written := nubList (t.written ++ chunkSectors off n) }
      let s := ((chunkSectors off n).zip (groupsOf 4096 (b.length + 1) b)).foldl (fun s e => rewriteSector s (slotSector k + e.1) (wordsOf e.2)) s
      if !q.flag 8 then ends s 0
      else
        let t := s.slot k
        let whole := (List.range (t.size / 4096)).all fun i => t.written.contains i
        let st := if imageStatus s t ≠ 0 ∨ !whole then 0x5003 else verifyImage s t
        let s := s.modSec fun c => { c with session := false }
        if st ≠ 0 then fails s st
        else ends (setStatus (s.modSlot k fun t => { t with
          verified := true, version := leNat (t.bytes 8 4), security := leNat (t.bytes 0xC 4) }) k 1 0) k

/-- The highest activation number in either slot (R492). -/
def topActivation (s : State) : Nat := max s.sec.slotA.activation s.sec.slotB.activation

/-- Commands in execution when a runtime restart begins end with 0x8002 and add nothing, which is logged first (03 R100); one whose outcome
stands already keeps it; a SANITIZE runs
on (04 R122, 20 R515, R516). A transition between power states is given up with its command. -/
def restartEnds (s : State) (but : Option Nat) : State :=
  let giveUp := s.execs.any fun e => match e.2.wait with | .power _ => some e.1 != but | _ => false
  let s := if giveUp then s.modPower fun p => { p with target := none } else s
  let ends := fun (r : Nat) (e : Exec) => some r != but && (match e.wait with | .sanitize | .ready .. => false | _ => true)
  let cut := s.execs.any fun e => ends e.1 e.2
  -- a remote command cut off adds no action: its transaction ends as when a part of it fails (03 R93, R526)
  let s := (s.execs.filter fun e => ends e.1 e.2 && (match e.2.wait with | .remote .. => true | _ => false)).foldl (fun s e =>
    abortTx s e.2.cmd.tx.toNat 0x3005) s
  let s := if cut then logHealth s 0x0040 false [Config.faultUnit, 0x8002] else s
  { s with execs := kmap s.execs fun r e => if ends r e then { e with wait := .ready 0x8002 0 } else e }

/-- A runtime restart begins (20 R515, R516): running jobs are held at their next fret, path states go, maintenance mode ends, the
staging session closes, and the boot chain starts. -/
def beginRestart (s : State) (but : Option Nat) : State :=
  let s := restartEnds s but
  let s := (s.jobs.map (·.1)).foldl holdAll (s.modPower fun p => { p with restarting := true })
  let s := (leaveMaint s 2).modOd fun o => { o with paths := [] }
  bump (s.modSec fun c => { c with session := false, boot := .off }) 0x1101 4 1

/-- ACTIVATION is set in a slot (R492). A word is programmed at most once (R477): where it was set before, the status sectors are erased and their
words set again (DESIGN CHOICE, log entry 148). -/
def activateSlot (s : State) (k n : Nat) : State :=
  let t := s.slot k
  let s := s.modSlot k fun t => { t with activation := n }
  let v := BitVec.ofNat 32 n
  if t.activation = 0 then setStatus s k 2 v
  else restatus s k ([(0, 0), (1, 0), (2, v)] ++ (List.range t.attempts).map (fun i => (3 + i, 0)) ++ (if t.ran then [(5, 0)] else []))

/-- FW_ACTIVATE (R99, R497). In recovery an activated image boots at once (R495). A slot that is rejected or whose words cannot be used is
refused as one without a verified image, 0x1007: DESIGN CHOICE (log entry 139). -/
def effFwActivate (q : Req) (s : State) : Eff :=
  let k := s.inactive
  let t := s.slot k
  if 1 < q.op 0 1 ∨ !t.verified ∨ !t.usable ∨ t.rejected then fails s 0x1007
  else
    let s := activateSlot s k (topActivation s + 1)
    let s := cfgStart s false (if k = 0 then 1152 else 1160) 4
    if q.op 0 1 = 0 ∧ s.sec.boot ≠ .recovery then ends s (if s.sec.active then 1 else 0)
    else (beginRestart s (some q.reg), .restart, 0)

/-! ## SCRUB (14 R384) -/

/-- SCRUB is accepted: its range is checked; one scrub runs at a time. Its work holds the uptime at which it began. -/
def effScrub (q : Req) (s : State) : Eff :=
  let start := q.op 0 8
  let n := q.op 8 8
  if n ≠ 0 ∧ (start % 64 ≠ 0 ∨ n % 64 ≠ 0) then fails s 0x1009
  else if n ≠ 0 ∧ 18014398509481984 < start + n then fails s 0x1008
  else match s.dram.scrubbing with
    | some _ => (s, .scrub, 0)
    | none => (s.modDram fun d => { d with scrubbing := some q.reg }, .scrub, s.power.uptime)

/-- Parcels of objects that meet a range, and those of them in the DRAM tier. -/
def parcelsIn (s : State) (a n : Nat) : List Nat :=
  s.objs.flatMap fun e =>
    if !(hasPayload e.2.area.code) || e.2.extent == 0 then []
    else ((List.range (e.2.extent / 65536)).map (e.2.base / 65536 + ·)).filter fun k =>
      n == 0 || (decide (a < k * 65536 + 65536) && decide (k * 65536 < a + n))

/-- Lines of a range that lie in a parcel. -/
def linesInParcel (a n k : Nat) : Nat :=
  if n = 0 then 1024 else (min (a + n) (k * 65536 + 65536) - max a (k * 65536)) / 64

/-- Counts of a scrub. -/
structure ScrubCount where
  corrected : Nat := 0
  uncorrectable : Nat := 0
  repaired : Nat := 0
  left : Nat := 0
  before : Nat := 0
  deriving DecidableEq, Repr

/-- One line that needs the decoder, read by the scrubber (R378-R380). -/
def scrubLine (s : State) (c : ScrubCount) (n : Nat) : State × ScrubCount :=
  let was := s.dram.poison.contains n
  let damaged := (kget s.dram.damage n).isSome
  let (b, s) := readLine s n
  match b with
  | some _ => (s, if damaged then { c with corrected := c.corrected + 1 } else c)
  | none =>
    let c := if was then { c with before := c.before + 1 } else { c with uncorrectable := c.uncorrectable + 1 }
    let s := repairLine s n
    if s.dram.poison.contains n then (s, { c with left := c.left + 1 }) else (s, { c with repaired := c.repaired + 1 })

/-- Run a scrub to its end: the summary to write and the lines corrected. Frames without an object and internal structures hold no
damage in this model; with a length of 0 their lines are read too. -/
def scrubRun (s : State) (start n since : Nat) : List Byte × Nat × State :=
  let ks := parcelsIn s start n
  let inTier := ks.filter fun k => (parcelState s k).inDram && parcelState s k != .migUp
  let skipped := if n = 0 then 0 else ks.length - inTier.length
  let read := if n = 0 then (720 * gib - 65536 * s.dram.retired.length) / 64
    else (inTier.map (linesInParcel start n)).foldl (· + ·) 0
  let bad := sortBy (fun a b => decide (a < b)) ((nubList (s.dram.poison ++ s.dram.damage.map (·.1))).filter fun l =>
    inTier.contains (l / 1024) && (n == 0 || (decide (start ≤ l * 64) && decide (l * 64 < start + n))))
  let retired := s.dram.retired.length
  let (s, c) := bad.foldl (fun acc l => scrubLine acc.1 acc.2 l) (s, ({} : ScrubCount))
  let due := s.dram.retireQ.filter fun k => inTier.contains k
  let s := due.foldl (fun s k => retireFrame (match ownerOfAddr s (k * 65536) with
    | some e => (match windowOf s e.1 (k * 65536 - e.2.base) with | some w => backInvalidate s w (w + 65536) | none => s)
    | none => s) k) s
  let s := bump s 0x9060 9 read
  let sum := toLE 8 (if n = 0 then 0 else start) ++ toLE 8 read ++ toLE 4 c.corrected ++ toLE 4 c.uncorrectable ++ toLE 4 c.repaired ++ toLE 4 c.left ++
    toLE 4 c.before ++ toLE 4 (s.dram.retired.length - retired) ++ toLE 8 skipped ++ toLE 4 ((s.power.uptime - since) / 1000) ++
    toLE 4 0 ++ toLE 8 s.power.uptime
  (sum, c.corrected, s)

/-- The next waiting scrub starts (R384), by order of acceptance. -/
def nextScrub (s : State) : State :=
  let w := s.execs.filter fun e => e.2.wait == .scrub
  match bestBy (fun a b => decide (a.2.order < b.2.order)) w with
  | none => s.modDram fun d => { d with scrubbing := none }
  | some e => ({ s with execs := kmod s.execs e.1 fun x => { x with work := s.power.uptime } } : State).modDram fun d =>
      { d with scrubbing := some e.1 }

/-- A scrub ends: its summary is written to the host, then its result is VALID with the lines corrected. -/
def scrubEnd (s : State) (reg : Nat) (e : Exec) : State :=
  let start := bitsAt e.cmd.ops.toNat 0 64
  let n := bitsAt e.cmd.ops.toNat 64 64
  let (sum, corrected, s) := scrubRun s start n e.work
  let w := fun (s : State) (st v : Nat) => { s with execs := kmod s.execs reg fun e => { e with wait := .ready st v, work := 0 } }
  match (if e.silent then some s else hostWrite s e.fn e.cmd.haddr.toNat sum) with
  | some s => nextScrub (w s 0 corrected)
  | none => nextScrub (w s 0x100E 0)

end Sys2Proof.Machine
end

