-- ==== Sys2Proof/Machine/Tables.lean ====
section
/-! DEFINITION. Machine/Tables.lean: rows, slots and the directory of a TABLE, LOOKUP, UPDATE_ROWS, step barriers and migrations (11). -/

namespace Sys2Proof.Machine

/-! ## The header area and what the runtime keeps -/

def tableArea (s : State) (h : Nat) : Option TableArea :=
  match kget s.objs h with
  | some o => (match o.area with | .table a => some a | _ => none)
  | none => none

def State.tbl (s : State) (h : Nat) : TableSt := (kget s.tables h).getD {}
def State.modTbl (s : State) (h : Nat) (f : TableSt → TableSt) : State := { s with tables := kset s.tables h (f (s.tbl h)) }

/-- Counters of OD 0x9E00, in the view of the table's owner too (R300). -/
def tblBump (s : State) (h sub n : Nat) : State :=
  bumpB s (match kget s.objs h with | some o => o.owner | none => 0xFF) 0x9E00 sub n

/-! ## Payload access by the runtime -/

/-- Read payload bytes of a table; none when a line or page of them cannot be read. -/
def rowLoad (s : State) (o : Obj) (off n : Nat) : Option (List Byte) × State :=
  match readPayload s (o.base + off) n 0 with
  | (.ok m, s) => (some (mread m 0 n), s)
  | (_, s) => (none, s)

/-- Store payload bytes of a table. The directory and the heat array are charged from the CREATE on, so they never wait for quota
(R280). False: the store must wait. -/
def rowStore (s : State) (h off : Nat) (b : List Byte) : Bool × State :=
  match kget s.objs h with
  | none => (false, s)
  | some o =>
    match snoopStore s h off b.length with
    | (true, s) => (false, s)
    | (false, s) =>
      let o' : Obj := if off < o.area.kept then { o with volatile := true } else o
      match prepRange s h o' (o.base + off) b.length with
      | (.ok, s) => (true, noteStore (putLines s (o.base + off) b) o.base (o.base + off) b.length 0 true)
      | (_, s) => (false, s)

/-! ## Directory entries (R283) -/

def entryOf (cls off : Nat) : Nat := cls * 4611686018427387904 + 2305843009213693952 + off / 16
def entryPresent (e : Nat) : Bool := e.testBit 61
def entryClass (e : Nat) : Nat := bitsAt e 62 2
def entrySlot (e : Nat) : Nat := bitsAt e 0 44 * 16

/-- Fetch a row's entry. -/
def rowEntry (s : State) (o : Obj) (r : Nat) : Nat :=
  match (rowLoad s o (8 * r) 8).1 with
  | some b => leNat b
  | none => 0

/-! ## Row values (R282, R284) -/

/-- A row's codes of a class from FP32 values (R284). -/
def encodeRow (cls : Nat) (v : List U32) : List Byte :=
  let top := (v.map fabs).foldl (fun a b => if fIsNan b || fIsInf b then a else fmax a b) 0
  let qmax := if cls = 2 then 127 else 7
  let s := if top = 0 then f32One else f32Up ((ofF32 top).div (.fin false qmax 0))
  let code := fun (x : U32) =>
    let y := (ofF32 x).div (ofF32 s)
    let n := intOf (if cls = 2 then 3 else 1) (toElem (if cls = 2 then 3 else 1) 0 y).1
    let n := max (-(qmax : Int)) (min (qmax : Int) n)
    (n % (if cls = 2 then 256 else 16)).toNat
  match cls with
  | 0 => v.flatMap fun x => toLE 4 x.toNat
  | 1 => v.flatMap fun x => toLE 2 (pack bf16 (ofF32 x)).1
  | 2 => toLE 4 s.toNat ++ toLE 4 0 ++ v.map fun x => BitVec.ofNat 8 (code x)
  | _ => toLE 4 s.toNat ++ toLE 4 0 ++ (groupsOf 2 v.length v).map fun g =>
      BitVec.ofNat 8 (code (g.headD 0) + 16 * (match g with | [_, y] => code y | _ => 0))

/-- FP32 values of a slot's bytes. -/
def decodeRow (cls d : Nat) (b : List Byte) : List U32 :=
  let s := BitVec.ofNat 32 (fieldAt b 0 4)
  let scaled := fun (n : Int) => toF32 ((Val.fin (decide (n < 0)) n.natAbs 0).mul (ofF32 s))
  (List.range d).map fun i =>
    match cls with
    | 0 => BitVec.ofNat 32 (fieldAt b (4 * i) 4)
    | 1 => BitVec.ofNat 32 (fieldAt b (2 * i) 2 * 65536)
    | 2 => scaled (intOf 3 (fieldAt b (8 + i) 1))
    | _ => scaled (intOf 1 (bitsAt (fieldAt b (8 + i / 2) 1) (if i % 2 = 0 then 0 else 4) 4))

/-- The value of the slot that an entry names; an absent row reads as zeros (R286). None: it cannot be read. -/
def rowValue (s : State) (o : Obj) (d e : Nat) : Option (List U32) × State :=
  if !entryPresent e then (some (List.replicate d 0), s)
  else match rowLoad s o (entrySlot e) (slotBytes d (entryClass e)) with
    | (some b, s) => (some (decodeRow (entryClass e) d b), s)
    | (none, s) => (none, s)

/-! ## Slots (R288, R289) -/

/-- Bytes of the slot area not held by a slot. -/
def freeSpace (t : TableSt) (d area : Nat) : Nat :=
  (area - t.carved) + (t.freeSlots.map fun f => if f.2 = 4 then 65536 else slotBytes d f.2).foldl (· + ·) 0

/-- Carve a parcel of the slot area into slots of a class. -/
def carve (d cls off n : Nat) : List (Nat × Nat) :=
  (List.range (n / slotBytes d cls)).map fun i => (off + i * slotBytes d cls, cls)

/-- Take a slot of a class: a free one, else a parcel is carved. -/
def allocSlot (t : TableSt) (a : TableArea) (length cls : Nat) : Option (Nat × TableSt) :=
  match findFirst (fun f => f.2 == cls) t.freeSlots with
  | some f => some (f.1, { t with freeSlots := t.freeSlots.erase f })
  | none =>
    match findFirst (fun f => f.2 == 4) t.freeSlots with
    | some f =>
      (match carve a.dim cls f.1 65536 with
      | x :: r => some (x.1, { t with freeSlots := t.freeSlots.erase f ++ r })
      | [] => none)
    | none =>
      let n := min 65536 (length - a.slotOffset - t.carved)
      (match carve a.dim cls (a.slotOffset + t.carved) n with
      | x :: r => some (x.1, { t with freeSlots := t.freeSlots ++ r, carved := t.carved + n })
      | [] => none)

/-- Return a slot to free space; a parcel whose slots are all free returns to the slot area (R289). -/
def returnSlot (t : TableSt) (a : TableArea) (off cls : Nat) : TableSt :=
  let free := t.freeSlots ++ [(off, cls)]
  let base := off / 65536 * 65536
  let mine := free.filter fun f => f.2 == cls && f.1 / 65536 * 65536 == base
  if mine.length = 65536 / slotBytes a.dim cls then { t with freeSlots := (free.filter fun f => !mine.contains f) ++ [(base, 4)] }
  else { t with freeSlots := free }

/-- A reader still reads: the command that registered runs. -/
def readerLives (s : State) (r : Nat × Nat) : Bool := (kget s.execs r.1).isSome

/-- Swap a row's entry for a slot written before; the old slot is released with the prior epoch (R288 steps 3 and 4). False: the
store of the entry must wait. -/
def swapEntry (s : State) (h : Nat) (o : Obj) (r cls slot : Nat) : Bool × State :=
  let old := rowEntry s o r
  match rowStore s h (8 * r) (toLE 8 (entryOf cls slot)) with
  | (false, s) => (false, s)
  | (true, s) =>
    (true, s.modTbl h fun t => { t with
      rho := t.rho + 1
      released := if entryPresent old then t.released ++ [(entrySlot old, entryClass old, t.rho)] else t.released })

/-! ## Heat and target classes (R287, R290, R291) -/

def thresholds (a : TableArea) : List Nat := [a.t1, a.t2, a.t3]

def heatOf (s : State) (o : Obj) (a : TableArea) (r : Nat) : Nat :=
  match (rowLoad s o (a.heatOffset + r) 1).1 with
  | some b => leNat b
  | none => 0

/-- Target class of a row with a heat. -/
def targetClass (a : TableArea) (heat : Nat) : Nat :=
  if a.fixed then a.initClass
  else
    let c := if a.t1 ≤ heat then 0 else if a.t2 ≤ heat then 1 else if a.t3 ≤ heat then 2 else 3
    max a.widest (min a.narrowest c)

/-- Whether a row of a class moves, and where to. -/
def moveTo (a : TableArea) (heat cls : Nat) : Option Nat :=
  let c := targetClass a heat
  if a.fixed then none
  else if c < cls then some c
  else if cls < c ∧ heat + a.hysteresis < ((thresholds a)[cls]?).getD 0 then some c
  else none

/-- Evaluate the class of a row: one that moves is queued for migration. -/
def evaluateRow (s : State) (h r : Nat) : State :=
  match kget s.objs h, tableArea s h with
  | some o, some a =>
    let e := rowEntry s o r
    if entryPresent e && (moveTo a (heatOf s o a r) (entryClass e)).isSome then
      s.modTbl h fun t => if t.migQ.contains r || t.migs.any (fun m => m.row == r) then t else { t with migQ := t.migQ ++ [r] }
    else s
  | _, _ => s

/-- A demand read of a row raises its heat, and at T1, T2 or T3 the row is evaluated. -/
def heatUp (s : State) (h r : Nat) : State :=
  match kget s.objs h, tableArea s h with
  | some o, some a =>
    let s := tblBump s h 1 1
    if a.fixed then s
    else
      let old := heatOf s o a r
      let n := min 255 (old + 1)
      let s := (rowStore s h (a.heatOffset + r) [BitVec.ofNat 8 n]).2
      if n ≠ old ∧ (thresholds a).contains n then evaluateRow s h r else s
  | _, _ => s

/-! ## LOOKUP (R285-R287) -/

/-- The id that means no row. -/
def noRow : Nat := 0xFFFFFFFFFFFFFFFF

/-- A row in an output format (R285): FP32, BF16 or FP16, padded to 64. -/
def outRow (fmt : Nat) (v : List U32) : List Byte :=
  let k := elemBits fmt / 8
  let b := v.flatMap fun x => toLE k (match fmtOf fmt with | some f => (pack f (ofF32 x)).1 | none => 0)
  padTo (roundUp b.length 64) b

/-- Read rows by the entries fetched for them; `none`: a row cannot be read. -/
def readRows (s : State) (o : Obj) (a : TableArea) (fmt : Nat) (es : List (Option Nat)) : Option (List Byte) × State :=
  es.foldl (fun acc e => match acc.1 with
    | none => acc
    | some out =>
      match e with
      | none => (some (out ++ outRow fmt (List.replicate a.dim 0)), acc.2)
      | some e => (match rowValue acc.2 o a.dim e with
        | (some v, s) => (some (out ++ outRow fmt v), s)
        | (none, s) => (none, s))) (some [], s)

/-- Rows of a LOOKUP in groups of at most 4,096 (R286), from the bytes that are written: `fetched` where the entries of the first group stand in
the command's answer, after those bytes for a command carried here. A reader registers when the entries of its group are fetched and
deregisters when the group's last row is written. -/
def lookupGroups (q : Req) (h fmt total : Nat) (o : Obj) (a : TableArea) : List (List Nat) → Nat → Bool → State → Eff
  | [], n, _, s => (s, .ready 0 total, n)
  | ids :: rest, n, fetched, s =>
    let answer := match kget s.execs q.reg with | some e => e.answer | none => []
    let keep := if q.data.isSome then answer.take n else []
    let put := fun (s : State) (b : List Byte) => ({ s with execs := kmod s.execs q.reg fun e => { e with answer := keep ++ b } } : State)
    let es : List (Option Nat) := ((List.range ids.length).zip ids).map fun e =>
      if e.2 = noRow then none
      else if fetched then some (fieldAt answer (keep.length + 8 * e.1) 8) else some (rowEntry s o e.2)
    let s : State := if fetched then s else
      ids.foldl (fun s r => if r = noRow then s else
        (if q.tx = 0 then heatUp s h r else trackRead (heatUp s h r) q.tx h (.row h r))) s
    let wait := onMedia s (es.flatMap fun e => match e with
      | some e => if entryPresent e then flashPages s (o.base + entrySlot e) (slotBytes a.dim (entryClass e)) else []
      | none => [])
    if !fetched && !wait.isEmpty then
      let s := s.modTbl h fun t => { t with readers := t.readers ++ [(q.reg, t.rho)] }
      (askReads (put s (es.flatMap fun e => toLE 8 (e.getD 0))) wait q.p, .reads wait, n)
    else
      let s := put (s.modTbl h fun t => { t with readers := t.readers.filter fun r => r.1 != q.reg }) []
      (match readRows s o a fmt es with
      | (none, s) => fails s 0x2001
      | (some out, s) =>
        if q.data.isSome then lookupGroups q h fmt total o a rest (n + out.length) false (put s out)
        else match deliver s q.fn [(q.op 0 8 + n, out.length)] out with
          | (true, s) => lookupGroups q h fmt total o a rest (n + out.length) false s
          | (false, s) => fails s 0x100E)

/-- LOOKUP (R285-R287): every id is checked before any row is written. -/
def effLookup (q : Req) (s : State) : Eff :=
  let h := q.c.target.toNat
  let fmt := q.op 8 1
  let n := q.c.length.toNat
  if (fmt ≠ 10 ∧ fmt ≠ 8 ∧ fmt ≠ 9) ∨ n = 0 ∨ n % 8 ≠ 0 ∨ 524288 < n then fails s 0x1007
  else match q.fetch s with
    | (.err e, s) => fails s e
    | (.ok b, s) =>
      if isRemote s h then carry q s 0x0050 b
      else match kget s.objs h, tableArea s h with
        | some o, some a =>
          let ids := (List.range (n / 8)).map fun i => fieldAt b (8 * i) 8
          if ids.any fun i => i != noRow && decide (a.rows ≤ i) then fails s 0x1008
          else
            let written := if q.again then (match kget s.execs q.reg with | some e => e.work | none => 0) else 0
            let row := roundUp (a.dim * (elemBits fmt / 8)) 64
            lookupGroups q h fmt ids.length o a (groupsOf 4096 (ids.length + 1) (ids.drop (written / row))) written q.again s
        | _, _ => fails s 0x5001

/-! ## Additions (R294-R298) -/

/-- How an addition at the home ended. -/
inductive AddEnd where
  | ok
  | waits
  | late
  | fails (status : Nat)
  deriving DecidableEq, Repr

/-- Note that a contributor named a step (R296): an addition that waits for the window has reached the home and counts. -/
def noteStep (s : State) (h src step : Nat) : State :=
  s.modTbl h fun t => { t with closed := kset t.closed src (max step (kcount t.closed src)) }

/-- Whether the step window takes a step: at or below the applied step it is refused, too far above it the addition waits. -/
def stepWindow (s : State) (a : TableArea) (step : Nat) : AddEnd :=
  if step ≤ a.applied then .late else if a.applied + od s 0x3D00 2 < step then .waits else .ok

/-- Other transactions that hold additions to a row for another step (04 R109). -/
def rowRivals (s : State) (id h row step : Nat) : List Nat :=
  ((s.tbl h).pend.filter fun (a : Addition) => a.row == row && a.step != step && a.tx != 0 && a.tx != id).map fun (a : Addition) => a.tx

/-- Stored width of a row. -/
def rowBytes (s : State) (o : Obj) (a : TableArea) (r : Nat) : Nat :=
  let e := rowEntry s o r
  slotBytes a.dim (if entryPresent e then entryClass e else a.initClass)

/-- Add to rows of a table, all or none, the window already checked: row, position and values of each. `id` ≠ 0 stages them under a
transaction (04 R104, R105, R109). -/
def addRows (s : State) (id h src step : Nat) (l : List (Nat × Nat × List U32)) : AddEnd × State :=
  match kget s.objs h, tableArea s h with
  | some o, some a =>
    let rivals := nubList (l.flatMap fun e => rowRivals s id h e.1 step)
    let join := fun (s : State) =>
      let s := tblBump s h 2 l.length
      let new := ((List.range l.length).zip l).map fun e => (⟨e.2.1, step, src, e.2.2.1, s.arrivals + e.1, id, e.2.2.2⟩ : Addition)
      { s with arrivals := s.arrivals + l.length }.modTbl h fun t => { t with pend := t.pend ++ new }
    if id = 0 then
      -- a holder of another step is met as a non-transactional store meets it (04 R112)
      if rivals.any fun k => match getTx s k with | some t => t.state == .committing || t.state == .prepared | none => false then (.waits, s)
      else (.ok, join (rivals.foldl (fun s k => match getTx s k with
        | some t => bumpB (abortTx s k 0x3001) t.polder 0x9600 0xA 1
        | none => s) s))
    else if !rivals.isEmpty then (.fails 0x3001, abortTx s id 0x3001)
    else match getTx s id with
      | none => (.fails 0x100D, s)
      | some t =>
        let fresh := (nubList (l.map (·.1))).filter fun r => !t.writes.contains (.row h r)
        match addAction s id (fresh.map fun r => .row h r) fresh.length ((fresh.map (rowBytes s o a)).foldl (· + ·) 0) fun t =>
            { t with objs := if t.objs.contains h then t.objs else t.objs ++ [h] } with
        | none => (.fails 0x3002, abortTx s id 0x3002)
        | some s => (.ok, join s)
  | _, _ => (.fails 0x5001, s)

/-- Elements of an update buffer: row id and values widened to FP32 (R294). -/
def parseUpdates (a : TableArea) (count : Nat) (b : List Byte) : List (Nat × List U32) :=
  let k := elemBits a.updateFormat / 8
  let stride := roundUp (8 + a.dim * k) 16
  (List.range count).map fun i =>
    let r := (b.drop (i * stride)).take stride
    (fieldAt r 0 8, (List.range a.dim).map fun j =>
      if k = 2 then BitVec.ofNat 32 (fieldAt r (8 + 2 * j) 2 * 65536) else BitVec.ofNat 32 (fieldAt r (8 + 4 * j) 4))

/-- Count additions to rows of a table at another module, of a total width, at the coordinator (04 R104). -/
def rowActions (s : State) (id h : Nat) (fresh : List Nat) (width : Nat) : Option State :=
  addAction s id (fresh.map fun r => .row h r) fresh.length width fun t => t

/-- UPDATE_ROWS (R294-R296). -/
def effUpdateRows (q : Req) (s : State) : Eff :=
  let h := q.c.target.toNat
  let count := q.op 0 4
  let step := q.op 4 4
  let base := q.op 8 4
  if count = 0 ∨ 65536 < count then fails s 0x1007
  else match q.fetch s with
    | (.err e, s) => fails s e
    | (.ok b, s) =>
      if isRemote s h then
        -- a row's stored width is known to its home alone (04 R104): a free value here
        let stride := q.c.length.toNat / count
        let rows := nubList (((List.range count).map fun i => fieldAt b (i * stride) 8).filter fun r => r != noRow)
        let fresh := rows.filter fun r => match getTx s q.tx with | some t => !t.writes.contains (.row h r) | none => true
        let width := (fresh.map fun r => Config.remoteRowBytes h r).foldl (· + ·) 0
        (match (if q.tx = 0 then some s else rowActions s q.tx h fresh width) with
        | none => fails (abortTx s q.tx 0x3002) 0x3002
        | some s => carry q s 0x0051 b)
      else match tableArea s h with
        | none => fails s 0x5001
        | some a =>
          if q.c.length.toNat ≠ count * roundUp (8 + a.dim * (elemBits a.updateFormat / 8)) 16 then fails s 0x1007
          else
            let els := ((List.range count).zip (parseUpdates a count b))
            let rows := els.filter fun e => e.2.1 != noRow
            if rows.any fun e => decide (a.rows ≤ e.2.1) then fails s 0x1008
            else
              let src := match kget s.execs q.reg with
                | some e => (match e.carried with | some c => c.src | none => moduleId s)
                | none => moduleId s
              match stepWindow s a step with
              | .late => fails s 0x1007
              | .fails e => fails s e
              | .waits =>
                let told := match kget s.execs q.reg with | some e => e.waited | none => true
                let s := noteStep s h src step
                let s := if told then s else tblBump s h 0xB 1
                ({ s with execs := kmod s.execs q.reg fun e => { e with waited := true } }, .retry, 0)
              | .ok =>
                match addRows s q.tx h src step (rows.map fun e => (e.2.1, base + e.1, e.2.2)) with
                | (.ok, s) => (noteStep s h src step, .ready 0 rows.length, rows.length)
                | (.waits, s) => (s, .retry, 0)
                | (.late, s) => fails s 0x1007
                | (.fails e, s) => fails s e

/-! ## The step barrier (R292, R296-R298) -/

/-- Contributors of a table (R296): its home, or the members of its export group. -/
def contributors (s : State) (o : Obj) (a : TableArea) : List Nat :=
  if a.groupContrib then
    (match kget s.fabric.groups o.exportGroup with
    | some g => g.members.map (·.1)
    | none => [moduleId s])
  else [moduleId s]

/-- Additions in the combiner's order: source, batch position, arrival (R298). -/
def addBefore (a b : Addition) : Bool :=
  if a.src ≠ b.src then decide (a.src < b.src)
  else if a.pos ≠ b.pos then decide (a.pos < b.pos)
  else decide (a.arrival < b.arrival)

/-- Repeats of a source and position in an ordered list. -/
def repeats : List Addition → Nat
  | a :: b :: r => (if a.src = b.src ∧ a.pos = b.pos then 1 else 0) + repeats (b :: r)
  | _ => 0

/-- The sum Δ of a row, from zero (R298). -/
def rowDelta (d : Nat) (l : List Addition) : List U32 :=
  l.foldl (fun acc (a : Addition) => (acc.zip a.values).map fun p => fadd p.1 p.2) (List.replicate d 0)

/-- Apply a row's sum (R292): a migration of the row is aborted (R289). None: it waits for a slot. -/
def applyRow (s : State) (h r : Nat) (delta : List U32) : Option State :=
  match kget s.objs h, tableArea s h with
  | some o, some a =>
    let t := s.tbl h
    let s := match findFirst (fun m => m.row == r) t.migs with
      | some m => tblBump (s.modTbl h fun t =>
          { returnSlot t a m.slot m.cls with migs := t.migs.filter fun m => m.row != r }) h 7 1
      | none => s
    let e := rowEntry s o r
    let cls := if entryPresent e then targetClass a (heatOf s o a r) else a.initClass
    (match rowValue s o a.dim e with
    | (none, _) => none
    | (some old, s) =>
      match allocSlot (s.tbl h) a o.length cls with
      | none => none
      | some (slot, t) =>
        match rowStore (s.modTbl h fun _ => t) h slot (encodeRow cls ((old.zip delta).map fun p => fadd p.1 p.2)) with
        | (false, _) => none
        | (true, s) =>
          match swapEntry s h o r cls slot with
          | (false, _) => none
          | (true, s) =>
            let (n, s) := nextSeq s
            some (stamp (tblBump s h 4 1) h [.row h r] n))
  | _, _ => none

/-- Rows whose directory entry says PRESENT. -/
def presentRows (s : State) (o : Obj) (a : TableArea) : List Nat :=
  match (readPayload s o.base (8 * a.rows) 0).1 with
  | .ok m => (m.filter fun e => e.1 % 8 == 7 && e.2.getLsbD 5).map fun e => e.1 / 8
  | _ => []

/-- Halve every heat byte, rounding down, and evaluate every present row (R290). -/
def decayHeat (s : State) (h : Nat) : State :=
  match kget s.objs h, tableArea s h with
  | some o, some a =>
    let hot := match (readPayload s (o.base + a.heatOffset) a.rows 0).1 with | .ok m => m | _ => []
    let s := hot.foldl (fun s e => (rowStore s h (a.heatOffset + e.1) [BitVec.ofNat 8 (e.2.toNat / 2)]).2) s
    (presentRows s o a).foldl (fun s r => evaluateRow s h r) s
  | _, _ => s

/-- An addition or marker from another module (R294-R296), checked under 02 R64 by the polder it names. One above the
window is held. -/
def takeRowAdd (s : State) (a : RowAdd) : State :=
  match liveObj s a.table, tableArea s a.table with
  | some o, some t =>
    let member := match kget s.fabric.groups o.exportGroup with | some g => g.members.any (fun m => m.1 == a.src) | none => false
    if !(o.exported && member && maskBit o.writeMask a.polder && !o.readOnly) then peerFail s a.polder
    else match stepWindow s t a.step with
      | .late | .fails _ => s
      | .waits => tblBump ((noteStep s a.table a.src a.step).modTbl a.table fun t => { t with held := t.held ++ [a] }) a.table 0xB 1
      | .ok =>
        (match a.row with
        | none => noteStep s a.table a.src a.step
        | some r =>
          if t.rows ≤ r ∨ a.values.length ≠ t.dim then s
          else
            let s := if a.tx = 0 then s else (openBranch s a.tx (coordOf a.tx) a.polder).getD s
            -- a branch that is not OPEN takes no action (04 R117)
            if a.tx != 0 && (match kget s.branches a.tx with | some t => t.state != .open | none => false) then s
            else match addRows s a.tx a.table a.src a.step [(r, a.pos, a.values)] with
            | (.ok, s) => noteStep s a.table a.src a.step
            | (_, s) => s)
  | _, _ => s

/-- The barrier of the next step. An application that finds no slot ends it for now; it goes on at the next event. -/
def stepBarrier (s : State) (h : Nat) : State :=
  match liveObj s h, tableArea s h with
  | some o, some a =>
    let step := a.applied + 1
    let t := s.tbl h
    if (contributors s o a).any fun m => decide (kcount t.closed m ≤ step) then s
    else if t.pend.any fun (x : Addition) => x.step == step && x.tx != 0 then
      if t.waited then s else tblBump (s.modTbl h fun t => { t with waited := true }) h 9 1
    else
      let mine := t.pend.filter fun (x : Addition) => x.step == step
      let rows := sortBy (fun a b => decide (a < b)) (nubList (mine.map fun (x : Addition) => x.row))
      let (s, stop) := rows.foldl (fun acc r =>
        if acc.2 != none then acc
        else
          let l := sortBy addBefore (mine.filter fun (x : Addition) => x.row == r)
          match applyRow acc.1 h r (rowDelta a.dim l) with
          | none => (acc.1, some r)
          | some s =>
            (tblBump (s.modTbl h fun t => { t with
              pend := t.pend.filter fun (x : Addition) => !(x.step == step && x.row == r) }) h 3 (repeats l), none)) (s, (none : Option Nat))
      match stop with
      | some r => if t.stuck = some r then s else tblBump (s.modTbl h fun t => { t with stuck := some r }) h 0xA 1
      | none =>
        let s := s.modTbl h fun t => { t with waited := false, stuck := none }
        let s := s.modObj h fun o => match o.area with
          | .table a => { o with area := .table { a with applied := step } }
          | _ => o
        let s := (journalObj (bumpVersion s h) h).2
        let s := if step % a.decay = 0 ∧ !a.fixed then decayHeat s h else s
        -- additions that the window now admits join
        let ready := (s.tbl h).held.filter fun x => decide (x.step ≤ step + od s 0x3D00 2)
        ready.foldl takeRowAdd (s.modTbl h fun t => { t with held := t.held.filter fun x => !ready.contains x })
  | _, _ => s

/-! ## Migrations and reclamation (R288, R289, R291) -/

/-- First event of a migration: the entry is read, a slot of the target class allocated and the converted row written. A wider class
must leave the free space above Reserve; at most OD 0x3D00:01 rows start in a millisecond. -/
def startMigration (s : State) (h r : Nat) : State :=
  match kget s.objs h, tableArea s h with
  | some o, some a =>
    let t := s.tbl h
    let ms := s.power.uptime / 1000
    let n := if t.migMs = ms then t.migCount else 0
    let e := rowEntry s o r
    let keep := s.modTbl h fun t => { t with migQ := t.migQ.filter (· != r) }
    if !t.migQ.contains r ∨ od s 0x3D00 1 ≤ n then s
    else if !entryPresent e then keep
    else match moveTo a (heatOf s o a r) (entryClass e) with
      | none => keep
      | some cls =>
        match allocSlot t a o.length cls with
        | none => s
        | some (slot, t2) =>
          if cls < entryClass e ∧ freeSpace t2 a.dim (o.length - a.slotOffset) ≤ a.reserve then s
          else match rowValue s o a.dim e with
            | (none, s) => s
            | (some v, s) =>
              match rowStore (s.modTbl h fun _ => { t2 with
                  migQ := t2.migQ.filter (· != r), migMs := ms, migCount := n + 1
                  migs := t2.migs ++ [⟨r, e, slot, cls⟩] }) h slot (encodeRow cls v) with
              | (true, s) => s
              | (false, _) => s
  | _, _ => s

/-- Second event: the entry is compared and swapped. -/
def swapMigration (s : State) (h : Nat) (m : RowMig) : State :=
  match kget s.objs h, tableArea s h with
  | some o, some a =>
    let drop := fun (s : State) => s.modTbl h fun t => { t with migs := t.migs.filter fun x => x.row != m.row }
    if rowEntry s o m.row ≠ m.entry then
      drop (s.modTbl h fun t => returnSlot t a m.slot m.cls)
    else match swapEntry s h o m.row m.cls m.slot with
      | (false, s) => s
      | (true, s) => tblBump (drop s) h (if m.cls < entryClass m.entry then 5 else 6) 1
  | _, _ => s

def rowMigration (s : State) (h r : Nat) : State :=
  match findFirst (fun m => m.row == r) (s.tbl h).migs with
  | some m => swapMigration s h m
  | none => startMigration s h r

/-- A released slot returns to free space once no reader registered at or below its tag is left. -/
def slotReclamation (s : State) (h slot : Nat) : State :=
  match tableArea s h with
  | none => s
  | some a =>
    let t := s.tbl h
    match findFirst (fun r => r.1 == slot) t.released with
    | none => s
    | some (off, cls, tag) =>
      if t.readers.any fun r => readerLives s r && decide (r.2 ≤ tag) then s
      else tblBump (s.modTbl h fun t => { returnSlot t a off cls with released := t.released.erase (off, cls, tag) }) h 8 1

/-! ## The commands of the block -/

/-- STEP_BARRIER. -/
def execStepBarrier (table : Nat) (s : State) : Host.Outcome State Fault Refusal := done s (stepBarrier s table)

/-- ROW_MIGRATION. -/
def execRowMigration (table row : Nat) (s : State) : Host.Outcome State Fault Refusal := done s (rowMigration s table row)

/-- SLOT_RECLAMATION. -/
def execSlotReclamation (table slot : Nat) (s : State) : Host.Outcome State Fault Refusal := done s (slotReclamation s table slot)

end Sys2Proof.Machine
end

