-- ==== Sys2Proof/Machine/Programs.lean ====
section
/-! DEFINITION. Machine/Programs.lean: chain encodings, the fields of operation records, and the checks of a program at JOB (05 R128-R135,
08 R212-R217, 10 R258, R262, R263). -/

namespace Sys2Proof.Machine

/-! ## Chains (08 R214, R215) -/

structure Stage where
  code : Nat
  matchF : Nat
  mode : Nat
  aux : Nat
  imm : Nat
  slot : Nat
  deriving DecidableEq, Repr

structure Chain where
  pro : List Stage
  epi : List Stage
  flags : Nat
  entry : Nat
  stat : Nat
  split : Nat
  bytes : Nat
  param : Nat
  k : Nat
  deriving DecidableEq, Repr

/-- Slots of a stage code (R215). -/
def slotsOf (code : Nat) : Nat := if code = 5 ∨ code = 7 ∨ code = 8 ∨ code = 0xB then 0 else 1

/-- Parse `n` stages from an offset: the stages and the offset after them. -/
def parseStages (m : Memory) : Nat → Nat → List Stage × Nat
  | 0, o => ([], o)
  | n + 1, o =>
    let code := (mget m o).toNat
    let k := slotsOf code
    let (r, e) := parseStages m n (o + 8 + 8 * k)
    (⟨code, (mget m (o + 1)).toNat, (mget m (o + 2)).toNat, (mget m (o + 3)).toNat, mfield m (o + 4) 4,
      if k = 0 then 0 else mfield m (o + 8) 8⟩ :: r, e)

/-- Parse a chain at a payload offset. -/
def parseChain (m : Memory) (o : Nat) : Chain :=
  let np := min 8 (mget m o).toNat
  let ne := min 8 (mget m (o + 1)).toNat
  let (p, a) := parseStages m np (o + 16)
  let (e, _) := parseStages m ne a
  ⟨p, e, (mget m (o + 2)).toNat, (mget m (o + 3)).toNat, (mget m (o + 4)).toNat, (mget m (o + 5)).toNat, mfield m (o + 6) 2,
    mfield m (o + 8) 4, mfield m (o + 12) 4⟩

def Chain.twoSweep (c : Chain) : Bool := bitAt c.flags 0

/-- A stage's own fields (R215, R217). -/
def Stage.ok (t : Stage) (elementwise : Bool) : Bool :=
  (t.matchF == 0 || okFormat t.matchF) &&
  match t.code with
  | 1 | 2 => decide (t.mode ≤ 2) && t.aux == 0 && (t.mode == 0 || t.imm == 0) && (t.mode != 0 || t.slot == 0)
  | 3 | 4 => t.mode == 0 && t.aux == 0 && t.imm == 0 && (elementwise || t.slot != 0)
  | 5 => decide (t.mode ≤ 13) && t.aux == 0 && (t.mode == 1 || t.imm == 0)
  | 6 => t.mode == 0 && t.aux == 0 && t.imm == 0
  | 7 => decide (t.mode ≤ 1) && okFormat t.aux && t.imm == 0
  | 8 => t.mode == 0 && t.aux == 0 && t.imm == 0
  | 9 => decide (t.mode ≤ 3) && decide (t.aux ≤ 15) && t.imm == 0
  | 10 => decide (t.mode ≤ 2) && decide (t.aux ≤ 15) && (t.mode != 0 || t.slot == 0)
  | 11 => t.mode == 0 && okFormat t.aux && t.imm == 0
  | 12 => decide (t.mode ≤ 3) && (if t.mode = 0 then arrayFormat t.aux else t.aux == 0) && (t.mode == 1 || t.mode == 2 || t.slot == 0)
  | _ => false

/-- What a chain's validity depends on beside its bytes: the record's kind, the format that its streamed operand pairs with, its output's format, the
row length and the width of a weight tile's output; for `MATMUL_PAIR` the second operand's format, and the row and width after `ROW_ONLINE`. -/
structure ChainUse where
  kind : Nat
  pairs : Nat
  out : Nat
  row : Nat
  wOut : Nat
  pairs2 : Nat := 0
  row2 : Nat := 0
  wOut2 : Nat := 0
  deriving DecidableEq, Repr

/-- A last-only stage stands nowhere else. -/
def lastOnly (f : Stage → Bool) (l : List Stage) : Bool := (l.dropLast).all fun t => !f t

/-- The rules of R212, R213 and R217 on a chain of a record. -/
def Chain.ok (c : Chain) (u : ChainUse) : Bool :=
  let elementwise := u.kind == 5
  let whole := c.epi.filter fun t => t.code == 12
  let quant := fun (t : Stage) => t.code == 7
  c.bytes == 16 + ((c.pro ++ c.epi).map fun t => 8 + 8 * slotsOf t.code).foldl (· + ·) 0 && decide (c.flags < 2) &&
  (c.entry == 0 || okFormat c.entry) && (c.pro ++ c.epi).all (·.ok elementwise) &&
  -- whole-row constructs
  c.pro.all (fun t => t.code != 12) && decide (whole.length + (if c.twoSweep then 1 else 0) ≤ 1) &&
  (if c.twoSweep then decide (1 ≤ c.stat) && decide (c.stat ≤ 4) && decide (c.split ≤ c.epi.length) &&
      (c.stat != 4 || (decide (1 ≤ c.k) && decide (c.k ≤ u.row)))
    else c.stat == 0 && c.split == 0) &&
  (match u.kind with
    | 2 => !c.twoSweep && whole.length == 1 && whole.all fun t => t.mode == 0 && (cellMode (t.aux % 64) (u.pairs2 % 64)).isSome
    | 3 | 5 => !c.twoSweep && whole.isEmpty
    | _ => whole.all fun t => t.mode != 0) &&
  (if u.kind = 3 ∨ u.kind = 4 ∨ u.kind = 5 then c.pro.isEmpty else true) &&
  -- QUANT, DEQUANT, ROPE and the elementwise restrictions
  lastOnly quant c.pro && lastOnly quant c.epi &&
  c.pro.all (fun t => !quant t || (t.mode == 1 && arrayFormat t.aux && (cellMode (t.aux % 64) (u.pairs % 64)).isSome)) &&
  (!(c.pro.any fun t => t.code == 8) || (match c.pro.getLast? with | some t => quant t | none => false)) &&
  c.epi.all (fun t => !quant t || (t.aux == u.out && !(t.mode == 1 && t.aux / 64 == 2))) &&
  (let split := fun (t : Stage) => t.code == 9 && bitAt t.mode 0
   let before := c.epi.takeWhile fun t => t.code != 12
   if u.kind = 2 then (!before.any split || decide (u.row ≤ u.wOut)) && (!(c.epi.drop before.length).any split || decide (u.row2 ≤ u.wOut2))
   else !c.epi.any split || decide (u.row ≤ u.wOut)) &&
  (!elementwise || c.epi.all fun t => t.code != 9 && t.code != 10 && !((t.code == 1 || t.code == 2) && t.mode != 0))

/-! ## Records (05 R133, tables of records) -/

/-- Numbers of the record kinds, in the order of the manual's tables; the opcode bytes are free values (Config). -/
def recKinds : List Nat := List.range 21

/-- The kind of a record by its opcode byte. -/
def kindOf (r : Nat) : Option Nat :=
  findFirst (fun k => (Config.recordCode.symm (Fin.ofNat 256 (bitsAt r 0 8))).val == k) recKinds

/-- Bytes that a kind's table lists, beyond the header. -/
def recUsed : Nat → List (Nat × Nat)
  | 0 | 1 => [(4, 44)]
  | 2 => [(4, 56)]
  | 3 => [(4, 59)]
  | 4 => [(4, 2), (8, 26)]
  | 5 => [(4, 3), (8, 34)]
  | 6 => [(4, 3), (8, 48)]
  | 7 => [(4, 48)]
  | 8 => [(4, 30), (0x24, 4)]
  | 9 => [(4, 3), (8, 32)]
  | 10 => [(4, 28)]
  | 11 => [(4, 2), (8, 24)]
  | 12 => [(4, 28)]
  | 13 => [(4, 1), (8, 48)]
  | 14 => [(4, 38)]
  | 15 => [(4, 3)]
  | 18 => [(4, 1), (8, 28)]
  | 19 => [(4, 1), (8, 24)]
  | 20 => [(8, 20)]
  | _ => []

/-- Mode bytes and the bits they define. -/
def recModes : Nat → List (Nat × Nat)
  | 0 | 1 => [(7, 2)]
  | 2 => [(0x3A, 3)]
  | 3 => [(0x3E, 2)]
  | 6 | 7 => [(6, 1)]
  | 12 => [(7, 1)]
  | 13 => [(4, 3)]
  | _ => []

/-- Offsets of a kind's operand references. -/
def recRefs : Nat → List Nat
  | 0 | 1 => [8, 0x10, 0x18]
  | 2 => [8, 0x10, 0x18, 0x20]
  | 3 => [8, 0x10, 0x18, 0x20, 0x28]
  | 4 => [8, 0x10]
  | 5 => [8, 0x10, 0x18]
  | 6 => [8, 0x10, 0x18, 0x30]
  | 7 => [8, 0x10, 0x18]
  | 8 => [8, 0x10, 0x18]
  | 9 => [8, 0x10, 0x18, 0x20]
  | 10 => [8, 0x18]
  | 11 | 12 => [8, 0x10, 0x18]
  | 13 => [8, 0x10, 0x18, 0x20, 0x28, 0x30]
  | 14 => [8, 0x10, 0x18]
  | 19 => [8]
  | 20 => [8, 0x10]
  | _ => []

/-- Offsets of the references that a kind stores through. -/
def recOuts : Nat → List Nat
  | 0 | 1 => [0x18]
  | 2 => [0x20]
  | 3 => [0x20, 0x28]
  | 4 => [0x10]
  | 5 => [0x18]
  | 6 => [0x18]
  | 7 => [8]
  | 8 => [0x18]
  | 9 => [0x20]
  | 10 => [0x18]
  | 11 => [0x18]
  | 12 => [0x10, 0x18]
  | 13 => [0x18, 0x28, 0x30]
  | 14 => [0x18]
  | _ => []

/-- Field of a record held as a number. -/
def rf (r o k : Nat) : Nat := bitsAt r (8 * o) (8 * k)

/-- The chain a record names. -/
def recChain (k r : Nat) : Nat :=
  match k with
  | 0 | 1 => rf r 0x2E 2
  | 2 => rf r 0x38 2
  | 3 => rf r 0x3C 2
  | 4 => rf r 0x20 2
  | 5 => rf r 0x28 2
  | _ => 0

/-- Check 4: reserved bytes, flags and bits are zero. -/
def recReserved (k r : Nat) : Bool :=
  let free := (List.range 60).all fun i =>
    let o := i + 4
    (recUsed k).any (fun u => decide (u.1 ≤ o) && decide (o < u.1 + u.2)) || rf r o 1 == 0
  decide (rf r 1 1 < 8) && rf r 2 2 == 0 && free && (recModes k).all fun m => decide (rf r m.1 1 < 2 ^ m.2)

def okDim (n : Nat) : Bool := decide (1 ≤ n) && decide (n ≤ 16777216)
def okChunk (n : Nat) : Bool := n % 16 == 0 && decide (n ≤ 256)
def accumFormat (f : Nat) : Bool := f == 8 || f == 9 || f == 10

/-- Check 5 on one record (05 tables, 07 R189, R201, 08 R221, 09 R234, 10 R258, R264, 15 R414). `type` gives the type of the object that a
reference names, 0 of the share and the sump. -/
def recRanges (records : Nat) (type : Nat → Nat) (k r : Nat) : Bool :=
  let f := fun (o n : Nat) => rf r o n
  let table := fun (w : Nat) => type w == 4
  let atZero := fun (w : Nat) => bitsAt w 0 48 == 0
  let pair := fun (a b : Nat) => arrayFormat a && arrayFormat b && (cellMode (a % 64) (b % 64)).isSome
  match k with
  | 0 | 1 =>
    pair (f 4 1) (f 5 1) && okFormat (f 6 1) && (!bitAt (f 7 1) 0 || accumFormat (f 6 1)) &&
    okDim (f 0x20 4) && okDim (f 0x24 4) && okDim (f 0x28 4) && okChunk (f 0x2C 2)
  | 2 =>
    pair (f 4 1) (f 5 1) && arrayFormat (f 6 1) && okFormat (f 7 1) && okDim (f 0x28 4) && okDim (f 0x2C 4) && okDim (f 0x30 4) &&
    okDim (f 0x34 4) && decide (f 0x34 4 ≤ 256) && decide (f 0x3B 1 ≤ 16) &&
    (decide (f 0x34 4 ≤ 128) || bitAt (f 0x3A 1) 2 || (bitsAt (f 0x20 8) 52 12 == 0xFFE && f 7 1 == 10))
  | 3 =>
    pair (f 5 1) (f 4 1) && pair (f 6 1) (f 5 1) && accumFormat (f 7 1) && okDim (f 0x30 4) && okDim (f 0x34 4) && okDim (f 0x38 4) &&
    decide (f 0x34 4 * f 0x38 4 ≤ 4194304) && bitsAt (f 0x28 8) 52 12 != 0
  | 4 => okFormat (f 4 1) && okFormat (f 5 1) && okDim (f 0x18 4) && okDim (f 0x1C 4)
  | 5 =>
    okFormat (f 4 1) && (if f 0x10 8 = 0 then f 5 1 == 0 else okFormat (f 5 1)) && okFormat (f 6 1) &&
    decide (1 ≤ f 0x20 8) && decide (f 0x20 8 ≤ 1099511627776)
  | 6 =>
    (f 4 1 == 4 || f 4 1 == 8) &&
    (if table (f 8 8) then (f 5 1 == 8 || f 5 1 == 9 || f 5 1 == 10) && atZero (f 8 8)
     else (f 5 1 == 0 || okFormat (f 5 1)) && decide (1 ≤ f 0x20 4) && decide (f 0x20 4 ≤ 65536) &&
       (f 0x24 4 == 0 || decide (f 0x20 4 ≤ f 0x24 4)))
  | 7 =>
    (f 4 1 == 4 || f 4 1 == 8) && (f 5 1 == 8 || f 5 1 == 10 || f 5 1 == 11) && decide (f 7 1 ≤ 15) &&
    (if table (f 8 8) then atZero (f 8 8) else (decide (1 ≤ f 0x20 4) && f 0x20 4 % (elemBits (f 5 1) / 8) == 0 && f 0x30 4 == 0))
  | 8 => atZero (f 8 8) && decide (1 ≤ f 4 2) && decide (f 4 2 ≤ 16) && decide (1 ≤ f 6 2) && decide (f 6 2 ≤ 4096) && decide (1 ≤ f 0x20 2)
  | 9 => atZero (f 8 8) && decide (1 ≤ f 4 2) && decide (f 4 2 ≤ 4096) && decide (f 6 1 ≤ 3)
  | 10 => decide (1 ≤ f 4 2) && decide (f 4 2 ≤ 4096) && decide (2 ≤ f 6 2) && decide (f 6 2 ≤ 1024)
  | 11 => decide (f 4 1 ≤ 2) && (f 5 1 == 8 || (f 5 1 == 4 && [f 8 8, f 0x10 8, f 0x18 8].all fun w => type w != 11))
  | 12 =>
    decide (1 ≤ f 4 1) && decide (f 4 1 ≤ 4) && decide (f 5 1 ≤ 1) && decide (4 ≤ f 6 1) && decide (f 6 1 ≤ 64) && f 6 1 % 4 == 0 &&
    (f 4 1 == 1 || f 4 1 == 4 || decide (8 ≤ f 6 1))
  | 13 => atZero (f 8 8)
  | 14 =>
    atZero (f 8 8) && (if f 4 1 = 2 then f 5 1 == 8 || f 5 1 == 10 || f 5 1 == 11 else f 5 1 == 0 || okFormat (f 5 1)) && decide (1 ≤ f 4 1) && decide (f 4 1 ≤ 4) && (f 4 1 != 4 || (decide (1 ≤ f 0x28 2) && decide (f 0x28 2 ≤ 4096)))
  | 15 => decide (f 6 1 ≤ 1)
  | 18 => decide (1 ≤ f 4 1) && decide (f 4 1 ≤ 15)
  | 19 => (f 4 1 == 1 || atZero (f 8 8)) && decide (1 ≤ f 4 1) && decide (f 4 1 ≤ 4) && (f 0x18 4 == 0 || decide (f 0x1C 4 < records))
  | 20 => decide (1 ≤ f 0x18 4) && decide (f 0x18 4 ≤ 65535)
  | _ => true

/-- Check 6 on one record. -/
def recSlots (g : ProgramArea) (k r : Nat) : Bool :=
  ((recRefs k).all fun o =>
    let w := rf r o 8
    let slot := bitsAt w 52 12
    let off := bitsAt w 0 48
    if slot = 0xFFE then decide (off < g.sump * 16384)
    else if slot = 0xFFF then decide (off < g.share * 262144)
    else decide (slot < g.handleCount)) &&
  !((k == 0 || k == 1) && bitAt (rf r 7 1) 1 && g.sump == 0) && !(k == 2 && bitAt (rf r 0x3A 1) 2 && g.sump == 0)

/-- Types that a kind accepts in one of its references (check 7). -/
def refTypes (k o : Nat) (kind : Nat) : Nat → Bool :=
  let mem := fun (t : Nat) => hasPayload t
  match k with
  | 8 | 9 => if o = 8 then (· == 5) else mem
  | 13 => if o = 8 then (· == 10) else mem
  | 14 => if o = 8 then (· == 8) else mem
  | 19 => if kind = 4 then (· == 8) else if kind = 3 then (· == 9) else okType
  | 20 => if o = 8 then (· == 9) else mem
  | 7 => mem
  | _ => if (recOuts k).contains o then (fun t => hasPayload t && t != 4) else mem

/-- The restore list of a program (10 R262), parsed: step bound and entries (OREF, bytes, kind, format); none if its layout is broken. -/
def parseRestore (m : Memory) (o : Nat) : Option (Nat × List (Nat × Nat × Nat × Nat)) :=
  let n := mfield m (o + 4) 4
  let es := (List.range n).map fun i =>
    let e := o + 0x40 + 16 * i
    (mfield m e 8, mfield m (e + 8) 4, mfield m (e + 12) 1, mfield m (e + 13) 1)
  let okE := fun (e : Nat × Nat × Nat × Nat) =>
    let slot := bitsAt e.1 52 12
    decide (1 ≤ slot) && decide (slot ≤ 0xFEF) && bitsAt e.1 48 4 == 0 && decide (1 ≤ e.2.2.1) && decide (e.2.2.1 ≤ 5) &&
    e.2.1 % 64 == 0 && (decide (e.2.2.1 ≤ 3) || (e.2.1 == 0 && bitsAt e.1 0 48 == 0)) &&
    (if e.2.2.1 = 1 then accumFormat e.2.2.2 else e.2.2.2 == 0)
  if mfield m o 2 = 0x0100 ∧ mfield m (o + 2) 2 = 0 ∧ 1 ≤ n ∧ n ≤ 4096 ∧ 1 ≤ mfield m (o + 8) 4 ∧ mfield m (o + 8) 4 ≤ 1000000 ∧
     mfield m (o + 12) 52 = 0 ∧ es.all okE ∧ (List.range n).all (fun i => mfield m (o + 0x40 + 16 * i + 14) 2 == 0)
  then some (mfield m (o + 8) 4, es) else none

/-- A program being checked: its handle, header, payload, records, handle table and argument. -/
structure Prog where
  handle : Nat
  area : ProgramArea
  mem : Memory
  recs : List Nat
  handles : List Nat
  argument : Nat
  deriving DecidableEq, Repr

/-- The length and the READ_ONLY flag of a PROGRAM: those of its header here, or what its home serves. -/
def progLength (s : State) (h : Nat) : Nat :=
  objLength s h
def progSealed (s : State) (h : Nat) : Bool :=
  match kget s.objs h with | some o => o.readOnly | none => Config.remoteReadOnly h

/-- Load a program: of this module, or as its home serves it. -/
def loadProg (s : State) (h arg : Nat) : Option Prog × State :=
  if homeOf h ≠ moduleId s then
    let g := programArea ((List.range 64).map (Config.remoteHeader h))
    let n := progLength s h
    let m := ofBytes ((List.range n).map (Config.remotePayload h))
    (some ⟨h, g, m, (List.range g.records).map fun i => mfield m (64 * i) 64,
      (List.range g.handleCount).map fun i => mfield m (g.handleOffset + 8 * i) 8, arg⟩, s)
  else match kget s.objs h with
  | some o => (match o.area with
    | .program g => (match readPayload s o.base o.length 0 with
      | (.ok m, s) =>
        (some ⟨h, g, m, (List.range g.records).map fun i => mfield m (64 * i) 64,
          (List.range g.handleCount).map fun i => mfield m (g.handleOffset + 8 * i) 8, arg⟩, s)
      | (_, s) => (none, s))
    | _ => (none, s))
  | none => (none, s)

/-- Handle that a slot of a program names. -/
def Prog.slot (p : Prog) (w : Nat) : Nat :=
  let k := bitsAt w 52 12
  if k = 1 then p.argument else (p.handles[k]?).getD 0

/-- Chain c of a program. -/
def Prog.chain (p : Prog) (c : Nat) : Chain := parseChain p.mem (mfield p.mem (p.area.chainOffset + 4 * c) 4)

/-- Output lanes of a weight tile (07 R210): 128 for a forward read in the 4-bit mode. -/
def laneWidth (a b : Nat) (transposed : Bool) : Nat :=
  match cellMode (a % 64) (b % 64) with
  | some .four => if transposed then 64 else 128
  | _ => 64

/-- The format of a streamed operand as it enters the array: a prologue's closing `QUANT` chooses it (08 R218). -/
def Chain.streamed (c : Chain) (fmt : Nat) : Nat :=
  match c.pro.getLast? with
  | some t => if t.code = 7 then t.aux else fmt
  | none => fmt

/-- What the chain of a record is used for. -/
def chainUse (c : Chain) (k r : Nat) : ChainUse :=
  let a := c.streamed (rf r 4 1)
  match k with
  | 0 => ⟨0, rf r 5 1, rf r 6 1, rf r 0x24 4, laneWidth a (rf r 5 1) false, 0, 0, 0⟩
  | 1 => ⟨1, rf r 5 1, rf r 6 1, rf r 0x28 4, 64, 0, 0, 0⟩
  | 2 =>
    let p := match findFirst (fun (t : Stage) => t.code == 12) c.epi with | some t => t.aux | none => 0
    ⟨2, rf r 5 1, rf r 7 1, rf r 0x30 4, laneWidth a (rf r 5 1) (bitAt (rf r 0x3A 1) 0), rf r 6 1, rf r 0x34 4,
      laneWidth p (rf r 6 1) (bitAt (rf r 0x3A 1) 1)⟩
  | 3 => ⟨3, rf r 4 1, rf r 7 1, rf r 0x34 4, 64, 0, 0, 0⟩
  | 4 => ⟨4, 0, rf r 5 1, rf r 0x1C 4, 64, 0, 0, 0⟩
  | _ => ⟨5, 0, rf r 6 1, rf r 0x20 8, 64, 0, 0, 0⟩

/-- Check 9 on one record. -/
def recChainOk (p : Prog) (i k r : Nat) : Bool :=
  let c := recChain k r
  let off := mfield p.mem (p.area.chainOffset + 4 * c) 4
  !(k == 18 && decide (i < rf r 0x20 4)) &&
  (if c = 0 then !(k == 2 || k == 4 || k == 5)
   else decide (c < p.area.chainCount) && off % 8 == 0 && decide ((mget p.mem off).toNat ≤ 8) && decide ((mget p.mem (off + 1)).toNat ≤ 8) &&
     decide (off + mfield p.mem (off + 6) 2 ≤ p.area.dataEnd) && (p.chain c).ok (chainUse (p.chain c) k r))

/-- Offset of a kind's output format byte, when it has one (09 R234). -/
def outFormat (k r : Nat) : Nat :=
  match k with
  | 0 | 1 | 5 => rf r 6 1
  | 2 | 3 => rf r 7 1
  | 4 => rf r 5 1
  | 6 => rf r 5 1
  | _ => 0

/-- Check 5: which elements a record may write (09 R234): int32 none of these, the narrow integers, FP4 and scaled formats only through a
closing `QUANT`. -/
def recOutput (p : Prog) (k r : Nat) : Bool :=
  let f := outFormat k r
  let quant := recChain k r != 0 && (match (p.chain (recChain k r)).epi.getLast? with | some t => t.code == 7 | none => false)
  f == 0 || (f % 64 != 11 && ((decide (5 < f % 64) && f / 64 == 0) || quant))

/-- Check 5: the format bytes of the record's chain, its entry match format and those of its stages, are allowed (09 R234); a chain that cannot
be found fails check 9. -/
def recStages (p : Prog) (k r : Nat) : Bool :=
  let c := p.chain (recChain k r)
  recChain k r == 0 || decide (p.area.chainCount ≤ recChain k r) ||
  ((c.entry == 0 || okFormat c.entry) && (c.pro ++ c.epi).all fun t =>
    (t.matchF == 0 || okFormat t.matchF) && ((t.code != 7 && t.code != 11 && !(t.code == 12 && t.mode == 0)) || okFormat t.aux))

/-- Operands that enter the array, with the axis that is their contraction axis: 0 rows, 1 columns (09 R250). -/
def arrayAxes (k r : Nat) : List (Nat × Nat) :=
  match k with
  | 0 => [(8, 1), (0x10, 0)]
  | 1 => [(8, 1), (0x10, 1)]
  | 2 => [(8, 1), (0x10, if bitAt (rf r 0x3A 1) 0 then 1 else 0), (0x18, if bitAt (rf r 0x3A 1) 1 then 1 else 0)]
  | 3 => [(8, 1), (0x10, 1), (0x10, 0), (0x18, 0)]
  | _ => []

/-- Check 5: a TENSOR's outlier channels lie on the contraction axis of the record that reads it (09 R250). -/
def recAxes (s : State) (p : Prog) (k r : Nat) : Bool :=
  (arrayAxes k r).all fun q =>
    let w := rf r q.1 8
    let slot := bitsAt w 52 12
    slot == 0 || decide (0xFEF < slot) || (match kget s.objs (p.slot w) with
      | some o => (match o.area with
        | .tensor t => t.outliers == 0 || (match (readPayload s (o.base + t.outlierOffset) 64 0).1 with
          | .ok m => (mget m 1).toNat == q.2
          | _ => true)
        | _ => true)
      | none => true)

/-- Check 5: the predicates of a SKETCH_SCAN's queries are well formed (12 R312), where its index and its query block lie in objects of this
module and no register moves the block; what the block holds later is tested as it is then. -/
def recQueries (s : State) (p : Prog) (k r : Nat) : Bool :=
  let w := rf r 0x10 8
  k != 8 || bitsAt w 48 4 != 0 || (match indexArea s (p.slot (rf r 8 8)), kget s.objs (p.slot w) with
    | some a, some o =>
      let n := vectorBytes a + 64
      (match (readPayload s (o.base + bitsAt w 0 48) (n * rf r 4 2) 0).1 with
      | .ok m => (List.range (rf r 4 2)).all fun i => predicateOk (predicateOf a (mread m (i * n) n))
      | _ => true)
    | _, _ => true)

/-- Check 2: the header's fields and tables. A handle entry 0 or 1 or a chain entry 0 that is not zero (R129) fails it too, DESIGN CHOICE (log
entry 144). -/
def headerOk (p : Prog) (length : Nat) : Bool :=
  let g := p.area
  let n := 64 * g.records
  programFields g &&
  decide (n ≤ length) && decide (n ≤ g.handleOffset) && decide (g.handleOffset + 8 * g.handleCount ≤ min length 4294967296) &&
  (g.chainCount == 0 || (decide (n ≤ g.chainOffset) && decide (g.chainOffset + 4 * g.chainCount ≤ min length 4294967296) &&
    mfield p.mem g.chainOffset 4 == 0)) &&
  decide (g.dataEnd ≤ length) && (p.handles[0]?).getD 0 == 0 && (p.handles[1]?).getD 0 == 0

/-- The SECURE records of a program (10 R263): none when they break the rules, else step bound, restore list and destination. -/
def secureOk (s : State) (p : Prog) : Option (Option (Nat × Nat × Nat)) :=
  match p.recs.filter fun r => kindOf r == some 20 with
  | [] => some none
  | r :: rest =>
    let dest := rf r 8 8
    let list := rf r 0x10 8
    let objOf := fun (w : Nat) => kget s.objs (p.slot w)
    if rest.any (fun q => rf q 8 8 != dest || rf q 0x10 8 != list) || bitsAt dest 48 4 != 0 || bitsAt list 48 4 != 0 then none
    else match objOf list with
      | none => none
      | some o =>
        match (readPayload s o.base o.length 0).1 with
        | .ok m =>
          (match parseRestore m (bitsAt list 0 48), objOf dest with
          | some (bound, es), some d =>
            (match d.area with
            | .log rs _ _ _ =>
              let ranges := es.filter fun e => decide (e.2.2.1 ≤ 3)
              let inside := ranges.all fun e => bitsAt e.1 0 48 % 64 == 0 && (match objOf e.1 with
                | some o => decide (bitsAt e.1 0 48 + e.2.1 ≤ o.length)
                | none => false)
              let pairs := (List.range ranges.length).zip ranges
              let apart := pairs.all fun a => pairs.all fun b => a.1 == b.1 || p.slot a.2.1 != p.slot b.2.1 ||
                !(decide (bitsAt a.2.1 0 48 < bitsAt b.2.1 0 48 + b.2.2.1) && decide (bitsAt b.2.1 0 48 < bitsAt a.2.1 0 48 + a.2.2.1))
              let logs := (es.filter fun e => decide (4 ≤ e.2.2.1)).all fun e => match objOf e.1 with
                | some o => (match o.area with | .log k _ _ _ => e.2.2.1 == 5 || k == 64 | _ => false)
                | none => false
              let watch := (es.filter fun e => e.2.2.1 == 4).length
              let groups := if bitAt p.area.flags 1 then ((p.handles.filter fun h => typeOf h == 8).map fun h =>
                match kget s.objs h with
                | some o => (match o.area with | .group g => 16 + roundUp (4 * g.members) 64 | _ => 16)
                | none => 16).foldl (· + ·) 0 else 0
              let image := 64 + 128 * p.area.contexts + (es.map fun e => if e.2.2.1 = 5 then 64 else e.2.1).foldl (· + ·) 0 + groups
              if inside && apart && logs && decide (watch ≤ 1) && decide (4 * roundUp image rs ≤ d.length) then
                some (some (bound, list, dest)) else none
            | _ => none)
          | _, _ => none)
        | _ => none

/-- A failure of R135: check, status and record. -/
abbrev CheckFail := Nat × Nat × Nat

/-- First record that a test fails on. -/
def firstBad (p : Prog) (check status : Nat) (test : Nat → Nat → Nat → Bool) : Option CheckFail :=
  (findFirst (fun (e : Nat × Nat) => match kindOf e.2 with | some k => !test e.1 k e.2 | none => true)
    ((List.range p.recs.length).zip p.recs)).map fun e => (check, status, e.1)

/-- Check 7: each handle from 2 upward names a live object of a type that its records accept. -/
def handlesOk (s : State) (p : Prog) : Option CheckFail :=
  let live := fun (h : Nat) => okType (typeOf h) && numberOf h != 0 && (homeOf h != moduleId s || (liveObj s h).isSome)
  if (p.handles.drop 2).any fun h => !live h then some (7, 0x1005, 0xFFFFFFFF)
  else firstBad p 7 0x1006 fun _ k r => (recRefs k).all fun o =>
    let w := rf r o 8
    let slot := bitsAt w 52 12
    slot == 0 || decide (0xFEF < slot) || (slot == 1 && p.argument == 0) || refTypes k o (rf r 4 1) (typeOf (p.slot w))

/-- Check 8: the read right on every handle and on the argument, for the job's polder; remote objects are checked at each access. -/
def programRights (s : State) (p : Prog) (polder : Nat) : Bool :=
  (p.argument :: p.handles.drop 2).all fun h =>
    h == 0 || homeOf h != moduleId s || (match liveObj s h with | some o => canRead o polder | none => false)

/-- The checks of R135 in order. Within check 4 every opcode is tested before any reserved byte; a dead entry of the handle table and check 8
report the header's record index: DESIGN CHOICE (log entry 144). -/
def checkProgram (s : State) (p : Prog) (polder : Nat) : Option CheckFail :=
  let g := p.area
  let hdr := 0xFFFFFFFF
  let type := fun (w : Nat) => if bitsAt w 52 12 = 0 ∨ 0xFEF < bitsAt w 52 12 then 0 else typeOf (p.slot w)
  if !progSealed s p.handle then some (1, 0x1007, hdr)
  else if !headerOk p (progLength s p.handle) then some (2, 0x1007, hdr)
  else if (crc32 (mread p.mem 0 g.dataEnd)).toNat ≠ g.crc then some (3, 0x1007, hdr)
  else match findFirst (fun (e : Nat × Nat) => (kindOf e.2).isNone) ((List.range p.recs.length).zip p.recs) with
    | some e => some (4, 0x1003, e.1)
    | none =>
      match firstBad p 4 0x1004 fun _ k r => recReserved k r with
      | some e => some e
      | none =>
        match firstBad p 5 0x1007 fun _ k r =>
            recRanges g.records type k r && recStages p k r && recOutput p k r && recAxes s p k r && recQueries s p k r with
        | some e => some e
        | none =>
          if (secureOk s p).isNone then
            some (5, 0x1007, ((findFirst (fun (e : Nat × Nat) => kindOf e.2 == some 20) ((List.range p.recs.length).zip p.recs)).map (·.1)).getD hdr)
          else match firstBad p 6 0x1007 fun _ k r => recSlots g k r with
            | some e => some e
            | none =>
              match handlesOk s p with
              | some e => some e
              | none =>
                if !programRights s p polder then some (8, 0x5001, hdr)
                else match firstBad p 9 0x1007 fun i k r => recChainOk p i k r with
                  | some e => some e
                  | none => firstBad p 10 0x1007 fun _ k r => !(k == 13 && bitAt (rf r 4 1) 0 && (bitAt (rf r 4 1) 1 || bitAt (rf r 4 1) 2))

end Sys2Proof.Machine
end

