-- ==== Sys2Proof/Machine/Jobs.lean ====
section
/-! DEFINITION. Machine/Jobs.lean: admission, restoring, forwarding and cancelling of jobs (03 R94, 05 R135-R137, 06 R178, R183, R184,
10 R276, R277). -/

namespace Sys2Proof.Machine

/-! ## Images in the destination LOG (10 R273, R274, R276) -/

/-- An image found in a LOG: its payload offset and its bytes. -/
structure Image where
  off : Nat
  bytes : List Byte
  deriving DecidableEq, Repr

def Image.field (i : Image) (o k : Nat) : Nat := fieldAt i.bytes o k

/-- Image bytes at an offset of a LOG's payload; the header gives their number. -/
def imageAt (m : Memory) (length off : Nat) : Option Image :=
  let n := mfield m (off + 8) 8
  if n < 64 ∨ length < off + n then none else some ⟨off, mread m off n⟩

/-- Walk the images from an offset as far as Tail, with the wrap rule; at most `fuel` images. -/
def walkImages (m : Memory) (length rs tail : Nat) : Nat → Nat → List Image
  | 0, _ => []
  | fuel + 1, off =>
    match imageAt m length off with
    | none => []
    | some i =>
      let step := roundUp i.bytes.length rs
      let next := if length < off + step + step then 0 else off + step
      i :: (if next = tail ∨ off + step = tail then [] else walkImages m length rs tail fuel next)

/-- A valid image of a program (R276). -/
def validImage (p : Prog) (entries : Nat) (i : Image) : Bool :=
  let zeroed := i.bytes.take 0x3C ++ toLE 4 0 ++ i.bytes.drop 0x40
  i.field 0x3C 4 == (crc32 zeroed).toNat && i.field 0x10 8 == p.handle && i.field 2 2 == p.area.contexts &&
  i.field 4 4 == entries && bitAt (i.field 0x25 1) 0 == bitAt p.area.flags 1

/-- Images of the LOG that R276 examines. -/
def imagesOf (s : State) (dest : Nat) : List Image :=
  match kget s.objs dest with
  | some o => (match o.area with
    | .log rs head tail _ => (match (readPayload s o.base o.length 0).1 with
      | .ok m =>
        if head = tail then (match imageAt m o.length 0 with | some i => [i] | none => [])
        else walkImages m o.length rs tail (o.length / 64 + 1) head
      | _ => [])
    | _ => [])
  | none => []

/-- What a SECURE program names: step bound, restore list reference, entries, destination handle. -/
structure SecureInfo where
  bound : Nat
  list : Nat
  entries : List (Nat × Nat × Nat × Nat)
  dest : Nat
  deriving DecidableEq, Repr

def secureInfo (s : State) (p : Prog) : Option SecureInfo :=
  match secureOk s p with
  | some (some (bound, list, dest)) =>
    (match kget s.objs (p.slot list) with
    | some o => (match (readPayload s o.base o.length 0).1 with
      | .ok m => (parseRestore m (bitsAt list 0 48)).map fun r => ⟨bound, list, r.2, p.slot dest⟩
      | _ => none)
    | none => none)
  | _ => none

/-- The valid image with the highest securing number, and whether the newest image examined failed. -/
def bestImage (s : State) (p : Prog) (i : SecureInfo) : Option Image × Option Image :=
  let l := imagesOf s i.dest
  let good := l.filter (validImage p i.entries.length)
  (bestBy (fun a b => decide (a.field 0x28 8 > b.field 0x28 8)) good,
    match l.getLast? with | some x => if good.isEmpty || good.contains x then none else some x | none => none)

/-- Write the entry data of an image back (R276): kinds 1-3 into their ranges, the positions of kind 5 into their LOGs. -/
def writeBackImage (s : State) (p : Prog) (i : SecureInfo) (im : Image) : Ready × State :=
  (i.entries.foldl (fun (acc : Ready × State × List Byte) e =>
    let (r, s, rest) := acc
    if r != .ok then acc
    else
      let h := p.slot e.1
      if e.2.2.1 ≤ 3 then
        let (r, s) := storePlain s h (bitsAt e.1 0 48) (rest.take e.2.1) 0
        (r, s, rest.drop e.2.1)
      else if e.2.2.1 = 5 then
        let s := s.modObj h fun o => match o.area with
          | .log k _ _ _ => { o with area := .log k (fieldAt rest 0 8) (fieldAt rest 8 8) (fieldAt rest 16 8), version := o.version + 1 }
          | _ => o
        (.ok, (journalObj s h).2, rest.drop 64)
      else acc) (.ok, s, im.bytes.drop (64 + 128 * p.area.contexts))) |> fun r => (r.1, r.2.1)

/-- Group records of an image (R274): number and members with their egress ports. -/
def imageGroups (im : Image) : List (Nat × List (Nat × Nat × Option Nat)) :=
  let n := im.field 0x34 2
  let g0 := im.field 0x30 4
  if g0 = 0 then []
  else ((List.range n).foldl (fun (acc : List (Nat × List (Nat × Nat × Option Nat)) × Nat) _ =>
    let o := acc.2
    let k := im.field (o + 10) 2
    let ms := (List.range k).map fun j =>
      (im.field (o + 16 + 4 * j) 2, j, if im.field (o + 18 + 4 * j) 1 < 4 then some (im.field (o + 18 + 4 * j) 1) else none)
    (acc.1 ++ [(im.field (o + 8) 1, ms)], o + 16 + roundUp (4 * k) 64)) ([], g0)).1

/-- Egress port of traffic to a member: its pin, or the port of its present route (R277). -/
def memberPort (s : State) (m : Nat) (pin : Option Nat) : Nat :=
  match pin with
  | some n => n
  | none =>
    match egressOf s { blankPacket with dest := m, order := (pickRoute s m).getD false } none with
    | some (n, _) => n
    | none => 0

/-- A group differs from its record: in its members, their indices, or the port that traffic to one leaves by (R277). -/
def groupDiffers (s : State) (d : Group) (l : List (Nat × Nat × Option Nat)) : Bool :=
  (d.members.map fun e => (e.1, e.2.1)) != (l.map fun e => (e.1, e.2.1)) ||
  (d.members.zip l).any fun e => e.1.1 != moduleId s && some (memberPort s e.1.1 e.1.2.2) != e.2.2.2

/-- Whether a module accepts joins and pins: its own setting, or what another module's holds (15 R410, OD 0x4400:03). -/
def acceptsJoin (s : State) (m : Nat) : Bool × State :=
  if m = moduleId s then (od s 0x4400 3 == 1, s)
  else
    let (d, s) := s.draw
    (Config.peerAccepts m d, s)

/-- Set groups to their secured membership (R277): 0, or the status that ends the JOB, 0x6001 for a member out of reach and 0x6002 for one
that refuses. A group that equals its record stays as it is. -/
def restoreGroups (s : State) (l : List (Nat × List (Nat × Nat × Option Nat))) : Nat × State :=
  let due := l.filter fun g => match kget s.fabric.groups g.1 with | some d => groupDiffers s d g.2 | none => true
  if due.any fun g => g.2.any fun m => !reaches s m.1 then (0x6001, s)
  else
    let (no, s) := (nubList (due.flatMap fun g => g.2.map (·.1))).foldl (fun (acc : Bool × State) m =>
      let (ok, s) := acceptsJoin acc.2 m
      (acc.1 || !ok, s)) (false, s)
    if no then (0x6002, s)
    else (0, due.foldl (fun s g =>
      match kget s.fabric.groups g.1 with
      | some d =>
        let members := g.2.map fun e => if e.1 = moduleId s then (e.1, e.2.1, none) else e
        let left := (d.members.map (·.1)).filter fun m => members.all fun e => e.1 != m
        let new : Group := { d with members := members, epoch := d.epoch + 1, former := left }
        let s := bump (s.modFab fun f => { f with groups := kset f.groups g.1 new }) 0x9074 7 1
        let s := (otherModules s).foldl (fun s m => sendMsg s m .install 0 0 ([g.1, d.keeper, d.epoch + 1] ++
          members.flatMap fun e => [e.1, e.2.1, e.2.2.getD 255]) []) s
        -- the GROUP header kept here shows the members and the epoch (15 R408, R411)
        (s.objs.filter fun e => match e.2.area with | .group a => a.number == g.1 && !e.2.leaving | _ => false).foldl (fun s e =>
          (journalObj (s.modObj e.1 fun o => match o.area with
            | .group a => { o with area := .group { a with members := members.length, epoch := d.epoch + 1 }, version := o.version + 1 }
            | _ => o) e.1).2) s
      | none => s) s)

/-! ## Admission (06 R178) -/

/-- How an admission ended: the JOB handle, a status with its value, or a wait for a store of the restore. -/
inductive Admit where
  | job (h : Nat)
  | fails (status value : Nat)
  | waits
  deriving DecidableEq, Repr

/-- Contexts of a job at its start (05 R137), or at their resume records (10 R276). -/
def startContexts (s : State) (g : ProgramArea) (im : Option Image) : List Ctx :=
  (List.range g.contexts).map fun i =>
    let b := 64 + 128 * i
    let (r, x) : Nat × List U64 := match im with
      | some m => (m.field (b + 4) 4, (List.range 15).map fun k => BitVec.ofNat 64 (m.field (b + 8 + 8 * k) 8))
      | none => (g.entry, List.replicate 14 0 ++ [BitVec.ofNat 64 (i * g.stride)])
    { recIdx := r, x := x, rpRec := r, rpX := x, rpSeq := s.seq, queuedAt := s.power.uptime
      ended := decide (g.records ≤ r) }

/-- Whether a polder could hold every context at once, even empty. -/
def couldHold (s : State) (p : Nat) (g : ProgramArea) : Bool :=
  let cores := ((List.range 32).filter fun c => (od s (0x3000 + p) 1).testBit c).length
  decide (p < 32) && decide (g.contexts ≤ cores) && decide (g.share ≤ 16) && decide (g.sump ≤ 16) && decide (1 ≤ od s (0x3000 + p) 9)

/-- Admit a job on this module. -/
def admitJob (s : State) (program argument p priority : Nat) (seed : Nat) : Admit × State :=
  if homeOf program ≠ moduleId s ∧ !reaches s (homeOf program) then (.fails 0x6001 0, s)
  else if homeOf program ≠ moduleId s ∧ !Config.remoteGrants program then (.fails 0x6002 0, s)
  else match loadProg s program argument with
    | (none, s) => (.fails 0x2001 0, s)
    | (some g, s) =>
      match checkProgram s g p with
      | some (check, status, rec') => (.fails status (rec' + check * 4294967296), if check = 8 then dikeFail s p else s)
      | none =>
        if !couldHold s p g.area then (.fails 0x1007 0, s)
        else
          let info := secureInfo s g
          let (im, broken) := match info with | some i => bestImage s g i | none => (none, none)
          let back : Ready × State := match info, im with
            | some i, some m => writeBackImage s g i m
            | _, _ => (.ok, s)
          match back with
          | (.waits, s) => (.waits, s)
          | (.fails e, s) => (.fails e 0, s)
          | (.ok, s) =>
            match (match im with | some m => if bitAt (m.field 0x25 1) 0 then restoreGroups s (imageGroups m) else (0, s) | none => (0, s)) with
            | (st, s) =>
              if st ≠ 0 then (.fails st 0, s) else
              -- the polder's ceiling (06 R169)
              let priority := min priority (od s (0x3000 + p) 0xA)
              let seed := match im with | some m => m.field 0x20 4 | none => seed
              let a : JobArea := ⟨program, argument, 0, priority, p, 0, seed, 0, 0, 0, 0, 0, 0, 0, 0, 0, 0⟩
              match makeObj s ⟨0, p, 3, 0, 0, 0, 0, .job a⟩ false with
              | (.err e, s) => (.fails e 0, s)
              | (.ok (h, _), s) =>
                let step := match im with | some m => m.field 0x18 8 | none => 0
                let armed := decide (od s 0x7002 1 ≤ s.risk.risk)
                let named := match info with | some i => i.dest :: (i.entries.map fun (e : Nat × Nat × Nat × Nat) => g.slot e.1) ++ [g.slot i.list] | none => []
                let j : Job := {
                  ctxs := startContexts s g.area im, step := step, step0 := step
                  secNumber := match im with | some m => m.field 0x28 8 | none => 0
                  lastImage := match im with | some m => some m.off | none => none
                  stepBound := match info with | some i => i.bound | none => 0
                  restoreList := match info with | some i => i.list | none => 0
                  destination := match info with | some i => i.dest | none => 0
                  armed := armed && info.isSome, bitMatch := bitAt g.area.flags 0 || od s 0x3600 1 == 1
                  handles := g.handles, named := named
                  entries := match info with | some i => i.entries | none => []
                  area := g.area, payload := g.mem }
                let s : State := { s with jobs := kset s.jobs h j }
                let s := if im.isSome then bumpB s p 0x9D00 5 1 else s
                let s := match broken with
                  | some b => logHealth s 0x0021 false [h, b.field 0x28 8]
                  | none => s
                (.job h, schedBump s p 8 1)

/-! ## Forwarding (06 R183) -/

/-- The module that a job is forwarded to, if any: the one that holds the share of the named payload that OD 0x3100:02 asks for and is
a member of the forwarding group. The other module checks its own polder. -/
def forwardTo (s : State) (p : Nat) (g : Prog) : Option Nat :=
  if p ≥ 32 ∨ !((od s (0x3000 + p) 8).testBit 1) then none
  else
    let members : List Nat := match kget s.fabric.groups (od s (0x3000 + p) 0xB) with | some d => d.members.map (fun (e : Nat × Nat × Option Nat) => e.1) | none => []
    let sized : List (Nat × Nat) := ((g.handles.drop 2).filter fun h => hasPayload (typeOf h)).map fun h => (homeOf h, progLength s h)
    let total : Nat := (sized.map (·.2)).foldl (· + ·) 0
    let held := fun (m : Nat) => (((sized.filter fun e => e.1 == m).map (·.2)).foldl (· + ·) 0 : Nat)
    bestBy (fun a b => decide (held a > held b)) ((nubList (sized.map (·.1))).filter fun m =>
      m != moduleId s && members.contains m && decide (0 < total) && decide (od s 0x3100 2 * total ≤ 100 * held m) && reaches s m)

/-- JOB (R94, 05 R135, 06 R178, R183). -/
def effJob (q : Req) (s : State) : Eff :=
  let program := q.c.target.toNat
  let argument := q.op 0 8
  let tried := match kget s.execs q.reg with | some e => e.waited | none => true
  if 7 < q.op 8 1 then fails s 0x1007
  else
    let fwd := if tried then none else match loadProg s program argument with
      | (some g, _) => if headerOk g (progLength s program) then forwardTo s q.p g else none
      | (none, _) => none
    match (match fwd with
      | some m => sendRequest s (.register q.reg 0) m (Config.messageCode Msg.jobForward.num) program 0 0 0 q.p (od s (0x3000 + q.p) 0xB)
          ([program, argument, q.p, q.op 8 1, q.op 12 4].flatMap (toLE 8))
      | none => (none, s)) with
    | (some tag, s) => (s, .remote [(tag, 0)] 0, 0)
    | (none, s) =>
      match admitJob s program argument q.p (q.op 8 1) (q.op 12 4) with
      | (.fails e v, s) => (s, .ready e v, 0)
      | (.waits, s) => (s, .retry, 0)
      | (.job h, s) => if q.flag 8 then (s, .jobEnd h, 0) else ends s h

/-- Begin to cancel a job; during a securing it takes effect at the fret after it (10 R273). -/
def cancelJob (s : State) (h : Nat) : State :=
  let s := s.modJob h fun j => { j with cancelled := true }
  match kget s.jobs h with
  | none => s
  | some j => if j.securing.isSome then s else beginEnd s h cancelledStatus

/-- JOB_CANCEL (R94, 06 R183). -/
def effJobCancel (q : Req) (s : State) : Eff :=
  let h := q.c.target.toNat
  if isRemote s h then carry q s 0x0031 []
  else match kget s.jobs h with
    | none => ends s 0
    | some _ =>
      let s := cancelJob (setWait s q.reg (.jobCancel h)) h
      (s, match kget s.execs q.reg with | some e => e.wait | none => .jobCancel h, 0)

end Sys2Proof.Machine
end

