-- ==== Sys2Proof/Machine/Tasks.lean ====
section
/-! DEFINITION. Machine/Tasks.lean: task registers: triggers, acceptance, execution, completion, rings and register accesses (03). -/

namespace Sys2Proof.Machine

/-! ## Access to a register (R67, R68, 16 R423) -/

/-- Whether host accesses to task registers arrive: the link is up as CXL. -/
def cxlUp (s : State) : Bool := s.host.link == .l0 || s.host.link == .l1

/-- A host access brings the link out of L1 (20 R510). -/
def wake (s : State) : State := if s.host.link = .l1 then s.modHost fun h => { h with link := .l0 } else s

/-- Page condition that lets a function reach a register, none when the access has no effect. -/
def condOf (s : State) (fn reg : Nat) : Option PageCond :=
  match kget s.pages (pageOfReg reg) with
  | some pg => if pg.fn = fn then some pg else none
  | none => none

/-- Run a write to a register where the link and the page let it through; else it is discarded, and counted at an unassigned or
foreign page. -/
def withReg (s : State) (fn reg : Nat) (f : State → PageCond → State) : State :=
  if !cxlUp s then s
  else match condOf (wake s) fn reg with
    | none => bump (wake s) 0x9500 3 1
    | some pg => f (wake s) pg

/-! ## Commands and the opcode table (R76, R84, R85) -/

/-- The 60 bytes of a command that its CRC covers. -/
def cmdBytes (op : Nat) (c : TaskCmd) : List Byte :=
  toLE 2 op ++ toLE 2 c.flags.toNat ++ toLE 4 c.tag.toNat ++ toLE 8 c.target.toNat ++ toLE 8 c.length.toNat ++ toLE 8 c.haddr.toNat ++
  toLE 16 c.ops.toNat ++ toLE 4 c.tx.toNat ++ toLE 4 c.rsv.toNat ++ toLE 2 c.seq.toNat ++ toLE 2 c.polder.toNat

/-- The command in a slot's 64 bytes. -/
def slotCommand (fn reg : Nat) (b : List Byte) : Nat × TaskCmd :=
  (fieldAt b 0 2, { fn := fn, reg := reg, flags := BitVec.ofNat 16 (fieldAt b 2 2), tag := BitVec.ofNat 32 (fieldAt b 4 4)
                    target := BitVec.ofNat 64 (fieldAt b 8 8), length := BitVec.ofNat 64 (fieldAt b 16 8)
                    haddr := BitVec.ofNat 64 (fieldAt b 24 8), ops := BitVec.ofNat 128 (fieldAt b 32 16)
                    tx := BitVec.ofNat 32 (fieldAt b 48 4), rsv := BitVec.ofNat 32 (fieldAt b 52 4)
                    seq := BitVec.ofNat 16 (fieldAt b 56 2), polder := BitVec.ofNat 16 (fieldAt b 58 2)
                    crc := BitVec.ofNat 32 (fieldAt b 60 4) })

/-- Whether an opcode takes a transaction id: no, yes, required. -/
inductive TxUse where
  | no
  | yes
  | required
  deriving DecidableEq, Repr

/-- A row of the opcode tables: admin only, transaction use, which of Target, Length and Host address are fields, and how many low
bytes of the operands are. -/
structure OpRow where
  op : Nat
  admin : Bool
  tx : TxUse
  target : Bool
  length : Bool
  haddr : Bool
  deriving DecidableEq, Repr

def opRows : List OpRow := [
  ⟨0x0001, false, .yes, true, true, true⟩, ⟨0x0002, false, .yes, true, true, true⟩,
  ⟨0x0003, false, .no, true, false, false⟩, ⟨0x0004, false, .yes, true, true, false⟩,
  ⟨0x0010, false, .no, true, true, true⟩, ⟨0x0011, false, .no, true, false, false⟩,
  ⟨0x0012, false, .no, true, true, false⟩, ⟨0x0013, false, .no, true, false, false⟩,
  ⟨0x0014, false, .no, true, false, false⟩, ⟨0x0020, false, .no, false, false, false⟩,
  ⟨0x0021, false, .required, false, false, false⟩, ⟨0x0022, false, .required, false, false, false⟩,
  ⟨0x0030, false, .no, true, false, false⟩, ⟨0x0031, false, .no, true, false, false⟩,
  ⟨0x0040, false, .no, true, true, true⟩, ⟨0x0041, false, .yes, true, true, true⟩,
  ⟨0x0042, false, .yes, true, true, true⟩, ⟨0x0050, false, .no, true, true, true⟩,
  ⟨0x0051, false, .yes, true, true, true⟩, ⟨0x0100, true, .no, true, true, false⟩,
  ⟨0x0101, true, .no, true, false, false⟩, ⟨0x0102, true, .no, false, false, false⟩,
  ⟨0x0103, true, .no, false, false, false⟩, ⟨0x0104, true, .no, false, true, true⟩,
  ⟨0x0105, true, .no, false, false, false⟩, ⟨0x0106, true, .no, false, false, true⟩]

def opRow (op : Nat) : Option OpRow := findFirst (fun r => r.op == op) opRows

/-- Operand bits an opcode defines, as a mask of the 16 bytes (R85). -/
def opMask (op : Nat) (ns bit8 : Bool) : Nat :=
  match op with
  | 0x1 | 0x2 | 0x4 => if ns then 0 else 0xFFFFFFFFFFFFFFFF
  | 0x10 => 0xFFFFFFFFFFFFFFFFFF07FFFF
  | 0x12 => if bit8 then 0xFFFFFFFFFFFFFFFF0000000000000000 else 0xFFFFFFFFFFFFFFFFFFFFFFFFFFFFFFFF
  | 0x14 => 0xFFFFFFFFFFFFFFFFFFFFFF1F
  | 0x30 => 0xFFFFFFFF000000FFFFFFFFFFFFFFFFFF
  | 0x40 => 0xFFFFFFFFFFFFFFFFFFFFFFFFFFFF
  | 0x41 | 0x42 => 0xFFFFFFFF
  | 0x50 => 0xFFFFFFFFFFFFFFFFFF
  | 0x51 => 0xFFFFFFFFFFFFFFFFFFFFFFFF
  | 0x100 => 0xFFFFFFFFFFFFFFFF
  | 0x102 | 0x105 => 0xFF
  | 0x104 => 0xFFFFFFFFFFFFFFFF
  | 0x106 => 0xFFFFFFFFFFFFFFFFFFFFFFFFFFFFFFFF
  | _ => 0

/-- Check 4: reserved fields and flags are zero (R11, R85). -/
def reservedOk (r : OpRow) (c : TaskCmd) : Bool :=
  let bit8 := c.flags.getLsbD 8
  let ns := c.flags.getLsbD 1
  let own := r.op == 0x12 || r.op == 0x13 || r.op == 0x30 || r.op == 0x104
  bitsAt c.flags.toNat 5 3 == 0 && decide (c.flags.toNat / 256 ≤ if own then 1 else 0) &&
  (r.target || c.target == 0) && ((r.length && !(r.op == 0x12 && bit8)) || c.length == 0) && (r.haddr || c.haddr == 0) &&
  (c.ops &&& ~~~(BitVec.ofNat 128 (opMask r.op ns bit8))) == 0 && c.rsv == 0 && decide (c.polder.toNat < 256)

/-- Types that an opcode's target may have (R524). -/
def typesOf (op : Nat) (header : Bool) (t : Nat) : Bool :=
  match op with
  | 0x1 => if header then okType t else hasPayload t
  | 0x2 | 0x4 => hasPayload t && t != 4
  | 0x3 | 0x12 | 0x13 => hasPayload t
  | 0x11 => okType t && t != 1
  | 0x14 => okType t
  | 0x101 => t == 1
  | 0x30 => t == 6
  | 0x31 => t == 7
  | 0x40 | 0x41 | 0x42 => t == 5
  | 0x50 | 0x51 => t == 4
  | _ => false

/-- Check 7: 0, or 0x1005 or 0x1006 (R30, R32, R524). A handle that is both of a type the opcode does not accept and of another module, where
only an object of this one is admitted, gets 0x1006: the order of the two is a DESIGN CHOICE (log entry 139). -/
def targetStatus (s : State) (r : OpRow) (c : TaskCmd) : Nat :=
  let t := c.target.toNat
  let ns := c.flags.getLsbD 1
  let header := c.flags.getLsbD 2 && r.op == 1
  if ns then
    if !(r.op == 1 || r.op == 2 || r.op == 3 || r.op == 4) || c.flags.getLsbD 2 then 0x1005
    else if t / 281474976710656 = 0 ∨ 1024 < t / 281474976710656 then 0x1005
    else if r.op = 3 ∧ t % 281474976710656 ≠ 0 then 0x1005
    else 0
  else if !r.target then 0
  else if r.op = 0x10 ∨ r.op = 0x100 then (if numberOf t = 0 then 0 else 0x1005)
  else if r.op = 3 ∧ numberOf t = 0 then 0
  else if numberOf t = 0 ∨ !okType (typeOf t) then 0x1005
  else if !typesOf r.op header (typeOf t) then 0x1006
  else if homeOf t ≠ moduleId s ∧ (header ∨ r.op = 0x11 ∨ r.op = 0x12 ∨ r.op = 0x13 ∨ r.op = 0x14 ∨ r.op = 0x101) then 0x1005
  else 0

/-- The right that an opcode needs of its target (R62, R63, R88). -/
def rightOf (op : Nat) (o : Obj) (p : Nat) : Bool :=
  match op with
  | 0x2 | 0x4 | 0x41 | 0x42 | 0x51 => canStore o p
  | 0x3 => mayWrite o p
  | 0x11 | 0x12 | 0x13 | 0x14 | 0x101 => isOwner o p
  | _ => canRead o p

/-- Check 8: whether the target's dike admits the command (R62-R65). A remote object's home checks it (R64). -/
def dikeOk (s : State) (r : OpRow) (c : TaskCmd) (p : Nat) : Bool :=
  let t := c.target.toNat
  if c.flags.getLsbD 1 then
    (match findFirst (fun (e : Nat × Obj) => match e.2.area with
        | .nspace n _ _ _ => n == t / 281474976710656 && !e.2.leaving
        | _ => false) s.objs with
    | some e => rightOf r.op e.2 p
    | none => false)
  else if !r.target || r.op == 0x10 || r.op == 0x100 || (r.op == 3 && numberOf t == 0) || homeOf t != moduleId s then true
  else match liveObj s t with
    | some o => rightOf r.op o p
    | none => false

/-- Check 9: the power state admits the opcode (R97). A transition under way counts as its target. -/
def powerOk (s : State) (op : Nat) (header : Bool) (p : Nat) : Bool :=
  match s.power.target.getD s.power.ps with
  | 0 | 1 => true
  | 2 => op != 0x30 || (decide (p < 32) && (List.range 32).all fun c => !((od s (0x3000 + p) 1).testBit c) || (clustersIn s 2).getLsbD (c / 4))
  | 3 => op != 0x30 && op != 0x40 && op != 0x50 && op != 0x51
  | 4 => op == 0x102 || op == 0x22 || (op == 1 && header) || op == 0x31
  | _ => op == 0x102

/-! ## Acceptance (R78) -/

/-- The first check that fails, as its status; 0 when all pass. The second component: NEXT_SEQ advances. -/
def acceptance (s : State) (op : Nat) (c : TaskCmd) (pg : PageCond) : Nat × Bool :=
  if crc32 (cmdBytes op c) ≠ c.crc then (0x1001, false)
  else if c.seq ≠ (s.reg c.reg).nextSeq then (0x1002, false)
  else match opRow op with
    | none => (0x1003, true)
    | some r =>
      if !reservedOk r c then (0x1004, true)
      else if c.polder.toNat ≠ pg.polder then (0x5002, true)
      else if r.admin ∧ pg.polder ≠ 0xFF then (0x100C, true)
      else if targetStatus s r c ≠ 0 then (targetStatus s r c, true)
      else if !dikeOk s r c pg.polder then (0x5001, true)
      else if !powerOk s op (c.flags.getLsbD 2 && op == 1) pg.polder then (0x7001, true)
      else if 16384 ≤ (s.execs.filter fun e => decide (e.1 < 1048576)).length then (0x4001, true)
      else (0, true)

/-- What an acceptance failure counts (R65, R78). -/
def countRefusal (s : State) (p status : Nat) : State :=
  match status with
  | 0x1001 => bump s 0x9200 1 1
  | 0x1002 => bump s 0x9200 2 1
  | 0x4001 => bump s 0x9200 4 1
  | 0x5001 => dikeFail s p
  | _ => s

/-! ## Execution -/

/-- The effect of an opcode. -/
def effectOf (op : Nat) (q : Req) (s : State) : Eff :=
  match op with
  | 0x1 => effRead q s
  | 0x2 => effWrite q s
  | 0x3 => effFlush q s
  | 0x4 => effTrim q s
  | 0x10 => effCreate q s
  | 0x11 => effDestroy q s
  | 0x12 => effMap q s
  | 0x13 => effPin q s
  | 0x14 => effSetPolicy q s
  | 0x20 => effTxBegin q s
  | 0x21 => effTxCommit q s
  | 0x22 => effTxAbort q s
  | 0x30 => effJob q s
  | 0x31 => effJobCancel q s
  | 0x40 => effSearch q s
  | 0x41 => effInsert q s
  | 0x42 => effDelete q s
  | 0x50 => effLookup q s
  | 0x51 => effUpdateRows q s
  | 0x100 => effNsCreate q s
  | 0x101 => effNsDelete q s
  | 0x102 => effSetPowerState q s
  | 0x103 => effSanitize q s
  | 0x104 => effFwStage q s
  | 0x105 => effFwActivate q s
  | 0x106 => effScrub q s
  -- what records of other modules ask of an index here
  | 0xF326 => effScanHere q s
  | 0xF327 => effRerankHere q s
  | _ => fails s 0x1003

/-- Opcodes that accept the SGL flag (R525). -/
def takesSgl (op : Nat) : Bool :=
  op == 1 || op == 2 || op == 0x40 || op == 0x41 || op == 0x42 || op == 0x50 || op == 0x51 || op == 0x104

/-- A command accepted fails at once with this status, 0 if its effect goes on: recovery (19 R495), SANITIZE (R98), the SGL flag
(R525), the Tx column (R84), its transaction (04 R102, R114). -/
def preStatus (s : State) (op : Nat) (q : Req) : Nat :=
  let use := match opRow op with | some r => r.tx | none => .no
  if s.sec.boot = .recovery ∧ op ≠ 0x104 ∧ op ≠ 0x105 then 0x8001
  else if s.power.sanitize.pending ∧ op ≠ 0x103 then 0x2003
  else if q.flag 3 && !takesSgl op then 0x1007
  else if use = .no ∧ q.tx ≠ 0 then 0x1007
  else if use = .required ∧ q.tx = 0 then 0x100D
  else if use = .yes then txGate s q.fn q.p q.tx
  else 0

/-- A command that has begun goes on in its transaction whatever is committing it; one whose transaction was aborted meanwhile fails with
the abort's status (R92, 04 R114). -/
def goneStatus (s : State) (q : Req) : Nat :=
  if q.tx = 0 then 0
  else match getTx s q.tx with
    | some t => if t.state = .aborted then t.abort else 0
    | none => 0x100D

/-- Run a command's effect, or try it again. A command that a runtime restart or a boot holds waits (20 R515). Its work never decreases
(R70). -/
def runEffect (s : State) (reg : Nat) (again : Bool) : State :=
  match kget s.execs reg with
  | none => s
  | some e =>
    if s.power.restarting || s.sec.boot == .booting || s.sec.boot == .off then s
    else
      let q : Req := ⟨reg, e.fn, e.polder, e.cmd, again, match e.carried with | some c => some c.payload | none => none⟩
      let st := if e.carried.isSome then 0 else if again || e.begun then goneStatus s q else preStatus s e.opcode q
      let (t, w, n) := if st ≠ 0 then fails s st else effectOf e.opcode q (touchTx s q.tx)
      { t with execs := kmod t.execs reg fun e => { e with wait := w, work := max e.work n, begun := true } }

/-- A trigger (R77-R82, R79). -/
def trigger (op : Nat) (c : TaskCmd) (s : State) : State :=
  withReg s c.fn c.reg fun s pg =>
    let r := s.reg c.reg
    if r.state = .pending ∨ r.state = .executing then
      bump (s.modReg c.reg fun r => { r with overrun := true, lastDropped := c.tag }) 0x9200 3 1
    else
      let (st, seen) := acceptance s op c pg
      let slot := ofBytes (cmdBytes op c ++ toLE 4 c.crc.toNat)
      let s := s.modReg c.reg fun r => { r with
        slot := slot, tag := c.tag, readCount := 0, nextSeq := if seen then r.nextSeq + 1 else r.nextSeq
        state := if st = 0 then .executing else .done, valid := st != 0, status := BitVec.ofNat 16 st, value := 0 }
      if st ≠ 0 then countRefusal s pg.polder st
      else
        let e : Exec := { fn := c.fn, opcode := op, cmd := c, order := s.nextOrder, polder := pg.polder, wait := .retry }
        let s : State := bumpB { s with nextOrder := s.nextOrder + 1, execs := kset s.execs c.reg e } pg.polder 0x9200 5 1
        runEffect s c.reg false

/-! ## Completion (R75, R81) -/

/-- The completion record of a command (R75). -/
def ringRecord (reg : Nat) (e : Exec) (status value : Nat) (phase : Bool) : List Byte :=
  toLE 4 e.cmd.tag.toNat ++ toLE 2 status ++ toLE 2 (if phase then 1 else 0) ++ toLE 8 value ++ toLE 4 reg ++ toLE 2 e.cmd.seq.toNat ++
  toLE 2 e.cmd.polder.toNat ++ toLE 4 (if e.cmd.tx.toNat % 4194304 = 0 then 0 else e.cmd.tx.toNat) ++ toLE 4 0

/-- Write a record to a register's ring: one that is full, or that the host does not serve, drops it (R75). -/
def ringPost (s : State) (reg : Nat) (e : Exec) (status value : Nat) : State :=
  let r := s.reg reg
  let k := r.ring.toNat
  let g := (kget s.rings k).getD {}
  if !r.enable || e.cmd.flags.getLsbD 4 || g.base == 0 then s
  else
    let next := (g.tail + 1) % max 1 g.entries
    let drop := { s with rings := kset s.rings k { g with dropped := g.dropped + 1 } }
    if next = g.head then drop
    else match hostWriteCache s g.fn (g.base + 32 * g.tail) (ringRecord reg e status value g.phase) with
      | none => drop
      | some s =>
        let s := { s with rings := kset s.rings k { g with tail := next, phase := if next = 0 then !g.phase else g.phase } }
        if g.vector = 0xFFFF then s
        else s.modHost fun h => { h with msix := kset h.msix (g.fn * 2048 + g.vector) (kcount h.msix (g.fn * 2048 + g.vector) + 1) }

/-- A command ends: its slot is freed, its result becomes VALID, then its record is written; a commit that waited for it goes on (04
R92). A command carried from another module answers it; one whose function was reset leaves no result (20 R514). -/
def finishCmd (s : State) (reg : Nat) (e : Exec) (status value : Nat) : State :=
  let s := { s with execs := kdel s.execs reg }
  let s : State := match e.carried with
    | some c =>
      (sendPacket s { blankPacket with
        type := Config.messageCode Msg.carried.num, dest := c.src, tclass := 1, tag := c.tag, addr := BitVec.ofNat 64 c.target
        tx := BitVec.ofNat 32 c.tx, polder := c.polder, group := c.group, status := BitVec.ofNat 16 status
        payload := toLE 8 value ++ e.answer }).2
    | none =>
      if e.silent then s
      else
        let s := s.modReg reg fun r => { r with
          state := .done, valid := true, readCount := 0, status := BitVec.ofNat 16 status, value := BitVec.ofNat 64 value }
        ringPost (if status = 0 then s else bumpB s e.polder 0x9200 6 1) reg e status value
  let id := e.cmd.tx.toNat
  if id % 4194304 ≠ 0 ∧ coordOf id = moduleId s then advanceCommit s (localOf id) else s

/-- A FLUSH or FUA WRITE whose pages are durable ends the write-backs it covered: each object's header version advances once (02 R527). -/
def flushed (s : State) (pages : List Nat) : State :=
  let mine := fun (w : WriteBack) => w.pages.any pages.contains
  let objs := nubList ((s.flash.wbs.filter mine).map (·.obj))
  let s := s.modFlash fun f => { f with wbs := f.wbs.filter fun w => !mine w }
  objs.foldl (fun s h => (journalObj (bumpVersion s h) h).2) s

/-- Advance what a command waits for as far as the state allows. -/
def resolve (s : State) (reg : Nat) (e : Exec) : State :=
  match e.wait with
  | .retry => runEffect s reg false
  | .reads l => if s.flash.reads.any (fun r => l.contains r.ppa) then s else runEffect s reg true
  | .pages l st v =>
    if l.all (pageClosed s) then
      setWait (flushed s l) reg (.ready st v)
    else s
  | .journal n st v =>
    if jDurable s n then setWait s reg (.ready st v)
    else if canProgram s then setWait (afterJournal (journalFlush s)) reg (.ready st v)
    else s
  | .destroy h =>
    if destroyReady s reg h then
      let s := finishDestroy s h
      setWait s reg (match s.flash.jpend.getLast? with | some j => .journal j.1 0 0 | none => .ready 0 0)
    else s
  | .snoop lo hi st v =>
    if s.host.snooping.any (fun l => decide (lo < l * 64 + 64) && decide (l * 64 < hi)) then s else setWait s reg (.ready st v)
  | .scrub => if s.dram.scrubbing = some reg then scrubEnd s reg e else s
  | .power b =>
    let was := s.power.ps
    (match powerGo s e.order b e.work with
    | (true, s) => setWait s reg (.ready 0 was)
    | (false, s) => s)
  | .sanitize => sanitizeRun s
  | _ => s

/-- COMMAND_COMPLETE: a command whose wait is over ends; one whose wait can be ended moves on. -/
def commandComplete (s : State) (reg : Nat) : State :=
  match kget s.execs reg with
  | none => s
  | some e =>
    let s := resolve s reg e
    match kget s.execs reg with
    | some e => (match e.wait with
      | .ready st v => finishCmd s reg e st v
      | _ => s)
    | none => s

/-! ## Register accesses -/

/-- ACK (R73). -/
def ackReg (s : State) (reg : Nat) : State :=
  if (s.reg reg).state = .done then
    s.modReg reg fun r => { r with state := .idle, valid := false, readCount := 0, value := 0, status := 0, tag := 0 }
  else s

/-- A read of register bytes: READ_COUNT advances when byte +0x4F of a complete result is read (R71). -/
def readReg (s : State) (fn reg off n : Nat) : State :=
  let give := fun (s : State) (b : List Byte) => s.modHost fun h => { h with bus := .bytes b }
  if s.host.link = .down then s
  else if !cxlUp s then give s (List.replicate n 0)
  else match condOf (wake s) fn reg with
    | none => give (bump (wake s) 0x9500 3 1) (List.replicate n 0)
    | some pg =>
      let s := wake s
      let b := ((registerBytes s reg pg).drop off).take n
      let s := if (s.reg reg).valid ∧ off ≤ 0x4F ∧ 0x4F < off + n then
          s.modReg reg fun r => { r with readCount := if r.readCount = 3 then 3 else r.readCount + 1 }
        else s
      give s b

/-- Write ENABLE and RING (R74). -/
def setRing (s : State) (fn reg : Nat) (enable : Bool) (ring : Nat) : State :=
  let g := (kget s.rings ring).getD {}
  if enable && (g.fn != fn || g.base == 0) then s
  else s.modReg reg fun r => { r with enable := enable, ring := BitVec.ofNat 10 ring }

/-- Write the head of a ring of the register's function (R74): of the ring that the write names, whichever the register uses; a ring whose
base or entries are written again keeps its tail, head and phase. DESIGN CHOICE (log entry 139). -/
def setHead (s : State) (fn ring head : Nat) : State :=
  let g := (kget s.rings ring).getD {}
  if g.fn = fn then { s with rings := kset s.rings ring { g with head := head % 4294967296 } } else s

/-- Write bytes of one register (R69, R73, R77). A write that reaches beyond the command slot acts in the order of its bytes (log entry 37). -/
def writeReg (s : State) (fn reg off : Nat) (b : List Byte) : State :=
  let byte := fun (o : Nat) => if off ≤ o ∧ o < off + b.length then b[o - off]? else none
  let slot := ((List.range 64).filterMap fun o => (byte o).map fun x => (o, x)).foldl (fun m e => mset m e.1 e.2) (s.reg reg).slot
  withReg s fn reg fun s _ =>
    let s := if (byte 0x3F).isSome then
        let t := slotCommand fn reg (mread slot 0 64)
        trigger t.1 t.2 (if (s.reg reg).state = .pending ∨ (s.reg reg).state = .executing
          then s.modReg reg fun r => { r with slot := slot } else s)
      else s.modReg reg fun r => { r with slot := slot }
    let s := match byte 0x53 with
      | some x =>
        let s := if x.getLsbD 7 then s.modReg reg fun r => { r with overrun := false } else s
        if x.getLsbD 6 then ackReg s reg else s
      | none => s
    if (List.range 8).any fun i => (byte (0x58 + i)).isSome then
      let now := toLE 8 (ringControl s (s.reg reg))
      let w := leNat ((List.range 8).map fun i => (byte (0x58 + i)).getD ((now[i]?).getD 0))
      let ring := bitsAt w 50 10
      if bitAt w 62 then setHead s fn ring (w % 4294967296) else setRing s fn reg (bitAt w 63) ring
    else s

/-! ## Commands carried from another module (R526, 02 R64) -/

/-- The right that the masks of an exported object grant to a polder named by a member of its group. -/
def peerRight (s : State) (o : Obj) (src p : Nat) (store : Bool) : Bool :=
  o.exported && (match kget s.fabric.groups o.exportGroup with | some g => g.members.any (fun m => m.1 == src) | none => false) &&
  (if store then maskBit o.writeMask p else maskBit o.readMask p)

/-- Whether the home admits a carried command; a JOB's owner is its polder (06 R183). -/
def carriedOk (s : State) (c : Carried) : Bool :=
  match liveObj s c.target with
  | none => false
  | some o =>
    match c.opcode with
    | 0x30 | 0x31 => o.area.code == 7 && o.owner == c.polder
    | 0x3 => peerRight s o c.src c.polder true
    | 0x2 | 0x4 | 0x41 | 0x42 | 0x51 => peerRight s o c.src c.polder true && !o.readOnly
    | _ => peerRight s o c.src c.polder false

/-- A carried command runs as a command of its own, keyed above the registers, and answers when it ends. -/
def carriedHere (s : State) (c : Carried) : State :=
  let cmd : TaskCmd := { fn := c.src, reg := 0, flags := 0, tag := BitVec.ofNat 32 c.tag, target := BitVec.ofNat 64 c.target
                         length := BitVec.ofNat 64 c.length, haddr := 0, ops := c.ops, tx := BitVec.ofNat 32 c.tx, rsv := 0, seq := 0
                         polder := BitVec.ofNat 16 c.polder, crc := 0 }
  let key := 1048576 + s.nextOrder
  let s := bump s 0x9074 1 1
  let e : Exec := { fn := c.src, opcode := c.opcode, cmd := cmd, order := s.nextOrder, polder := c.polder, wait := .retry
                    carried := some c }
  let s : State := { s with nextOrder := s.nextOrder + 1, execs := kset s.execs key e }
  let serves := [0x1, 0x2, 0x3, 0x4, 0x30, 0x31, 0x40, 0x41, 0x42, 0x50, 0x51, scanCode, rerankCode].contains c.opcode
  let right := carriedOk s c
  if !serves || !right then setWait (if right then s else peerFail s c.polder) key (.ready 0x6002 0)
  else
    match (if c.tx % 4194304 = 0 then some s else openBranch s c.tx c.src c.polder) with
    | none => setWait s key (.ready 0x4004 0)
    | some s =>
      -- a branch that is not OPEN takes no action (04 R117)
      let closed := match kget s.branches c.tx with
        | some t => if c.tx % 4194304 = 0 ∨ t.state = .open then 0 else if t.state = .aborted then t.abort else 0x6002
        | none => 0
      if closed ≠ 0 then setWait s key (.ready closed 0)
      else if c.opcode = 0x30 then
        setWait s key (match kget s.jobs c.target with
          | some _ => .jobEnd c.target
          | none => .ready (jobArea s c.target).finalStatus c.target)
      else
        let id := if c.tx % 4194304 = 0 then 0 else c.tx
        match c.opcode, kget s.objs c.target with
        -- a record of another module asks for the header, or sets the Count of a SET (05 R132)
        | 0x1, some o =>
          let s := if id = 0 then s else trackRead s id c.target (.header c.target)
          setWait { s with execs := kmod s.execs key fun e => { e with answer := headerBytes s c.target o } } key (.ready 0 0)
        | 0x2, some _ => setWait (storeCount s id c.target (bitsAt c.ops.toNat 0 64)) key (.ready 0 0)
        | _, _ => runEffect s key false

/-! ## The commands of the block -/

def execRead (c : TaskCmd) (s : State) : Host.Outcome State Fault Refusal := done s (trigger 0x0001 c s)
def execWrite (c : TaskCmd) (s : State) : Host.Outcome State Fault Refusal := done s (trigger 0x0002 c s)
def execFlush (c : TaskCmd) (s : State) : Host.Outcome State Fault Refusal := done s (trigger 0x0003 c s)
def execTrim (c : TaskCmd) (s : State) : Host.Outcome State Fault Refusal := done s (trigger 0x0004 c s)
def execCreate (c : TaskCmd) (s : State) : Host.Outcome State Fault Refusal := done s (trigger 0x0010 c s)
def execDestroy (c : TaskCmd) (s : State) : Host.Outcome State Fault Refusal := done s (trigger 0x0011 c s)
/-- MAP without UNBIND, and its UNBIND form. -/
def execMap (c : TaskCmd) (s : State) : Host.Outcome State Fault Refusal :=
  done s (trigger 0x0012 { c with flags := c.flags &&& 0xFEFF } s)
def execMapUnbind (c : TaskCmd) (s : State) : Host.Outcome State Fault Refusal :=
  done s (trigger 0x0012 { c with flags := c.flags ||| 0x0100 } s)
/-- PIN without UNPIN, and its UNPIN form. -/
def execPin (c : TaskCmd) (s : State) : Host.Outcome State Fault Refusal :=
  done s (trigger 0x0013 { c with flags := c.flags &&& 0xFEFF } s)
def execUnpin (c : TaskCmd) (s : State) : Host.Outcome State Fault Refusal :=
  done s (trigger 0x0013 { c with flags := c.flags ||| 0x0100 } s)
def execSetPolicy (c : TaskCmd) (s : State) : Host.Outcome State Fault Refusal := done s (trigger 0x0014 c s)
def execTxBegin (c : TaskCmd) (s : State) : Host.Outcome State Fault Refusal := done s (trigger 0x0020 c s)
def execTxCommit (c : TaskCmd) (s : State) : Host.Outcome State Fault Refusal := done s (trigger 0x0021 c s)
def execTxAbort (c : TaskCmd) (s : State) : Host.Outcome State Fault Refusal := done s (trigger 0x0022 c s)
def execJob (c : TaskCmd) (s : State) : Host.Outcome State Fault Refusal := done s (trigger 0x0030 c s)
def execJobCancel (c : TaskCmd) (s : State) : Host.Outcome State Fault Refusal := done s (trigger 0x0031 c s)
def execSearch (c : TaskCmd) (s : State) : Host.Outcome State Fault Refusal := done s (trigger 0x0040 c s)
def execInsert (c : TaskCmd) (s : State) : Host.Outcome State Fault Refusal := done s (trigger 0x0041 c s)
def execDelete (c : TaskCmd) (s : State) : Host.Outcome State Fault Refusal := done s (trigger 0x0042 c s)
def execLookup (c : TaskCmd) (s : State) : Host.Outcome State Fault Refusal := done s (trigger 0x0050 c s)
def execUpdateRows (c : TaskCmd) (s : State) : Host.Outcome State Fault Refusal := done s (trigger 0x0051 c s)
def execNsCreate (c : TaskCmd) (s : State) : Host.Outcome State Fault Refusal := done s (trigger 0x0100 c s)
def execNsDelete (c : TaskCmd) (s : State) : Host.Outcome State Fault Refusal := done s (trigger 0x0101 c s)
def execSetPowerState (c : TaskCmd) (s : State) : Host.Outcome State Fault Refusal := done s (trigger 0x0102 c s)
def execSanitize (c : TaskCmd) (s : State) : Host.Outcome State Fault Refusal := done s (trigger 0x0103 c s)
def execFwStage (c : TaskCmd) (s : State) : Host.Outcome State Fault Refusal := done s (trigger 0x0104 c s)
def execFwActivate (c : TaskCmd) (s : State) : Host.Outcome State Fault Refusal := done s (trigger 0x0105 c s)
def execScrub (c : TaskCmd) (s : State) : Host.Outcome State Fault Refusal := done s (trigger 0x0106 c s)

def execCommandComplete (reg : Nat) (s : State) : Host.Outcome State Fault Refusal := done s (commandComplete s reg)
def execAck (fn reg : Nat) (s : State) : Host.Outcome State Fault Refusal :=
  done s (withReg s fn reg fun s _ => ackReg s reg)
def execOverrunClear (fn reg : Nat) (withAck : Bool) (s : State) : Host.Outcome State Fault Refusal :=
  done s (withReg s fn reg fun s _ =>
    let s := s.modReg reg fun r => { r with overrun := false }
    if withAck then ackReg s reg else s)
def execResultRead (fn reg offset length : Nat) (s : State) : Host.Outcome State Fault Refusal := done s (readReg s fn reg offset length)
def execRingEnable (fn reg : Nat) (enable : Bool) (ring : Nat) (s : State) : Host.Outcome State Fault Refusal :=
  done s (withReg s fn reg fun s _ => setRing s fn reg enable ring)
def execHeadWrite (fn reg ring head : Nat) (s : State) : Host.Outcome State Fault Refusal :=
  done s (withReg s fn reg fun s _ => setHead s fn ring head)
def execRegisterWrite (fn offset : Nat) (data : List Byte) (s : State) : Host.Outcome State Fault Refusal :=
  done s (writeReg s fn (offset / 128) (offset % 128) data)

end Sys2Proof.Machine
end

