-- ==== Sys2Proof/Machine/Engine.lean ====
section
/-! DEFINITION. Machine/Engine.lean: how a context runs a record, and the sums of rows that records and fabric requests add (05 R133,
R138, R147, R150, R151, R158, 02 R56, R57). -/

namespace Sys2Proof.Machine

/-- A field of a record. -/
def fld (r : BitVec 512) (o k : Nat) : Nat := rf r.toNat o k

/-- Flags of a record header (R133). -/
def tracks (r : BitVec 512) : Bool := bitAt (fld r 1 1) 0
def fretAfter (r : BitVec 512) : Bool := bitAt (fld r 1 1) 1
def noRunahead (r : BitVec 512) : Bool := bitAt (fld r 1 1) 2

/-- A context that waits in the middle of a record and may try its next step again: nothing of it is outstanding (R138, R143). -/
def mayRetry (s : State) (x : CtxId) (c : Ctx) : Bool :=
  c.awaiting == 0 && !readsQueued s (.context x) && (match c.wait with | .stall n => decide (n < 64) | _ => false)

/-- A context waits in the middle of a record, for what is given, and causes of a stall that hold already (02 R56). -/
def holdRecord (s : State) (x : CtxId) (causes : List Nat) (w : CtxWait) : State :=
  repick (modCtx s x fun c => { c with
    wait := w, waitSince := s.power.uptime, atFret := false, causes := c.causes ++ causes }) x false

/-- A record waits for page reads (02 R55, R56): they are asked for, and what delays them counts among the causes of the stall; when nothing
does it is charged to cause 1. What the record had begun is begun again when they have ended. -/
def waitPages (s : State) (x : CtxId) (pages causes : List Nat) : State :=
  let s := askMissing s (.context x) (jobPolder s x.job) pages
  let now := causes ++ pages.flatMap (pageCauses s (.context x))
  holdRecord s x (if now.isEmpty then [1] else now) (.stall 1)

/-- A fret falls before the next record: a run of Fret spacing records has completed since the last one (R142). -/
def fretDue (s : State) (x : CtxId) (c : Ctx) : Bool :=
  c.wait == .none && 0 < (jobProgram s x.job).fretSpacing && decide ((jobProgram s x.job).fretSpacing ≤ c.sinceFret)

/-- A record command finds its context issuing, or lets a stalled one try again; the record begins, and the context is at a fret no more
(R142). -/
def readyToRun (s : State) (x : CtxId) : Bool × State :=
  match getCtx s x with
  | none => (false, s)
  | some (_, c) =>
    let begins := fun (s : State) => (issues s x, if issues s x then modCtx s x fun c => { c with atFret := false } else s)
    if fretDue s x c then (false, s)
    else if mayRetry s x c && c.resident.isSome && !c.held && !c.ended then
      begins (repick (modCtx s x fun c => { c with wait := .none }) x false)
    else begins s

/-- A record's stores to other modules are outstanding: the record completes when they are answered (R138). -/
def storesWait (fret : Bool) : CtxWait := .stall (if fret then 65 else 64)

/-- What a record's outcome brings about: its effect completes it, with the fret that FRET_AFTER asks for (R133, R142), or it ends with a
context fault (R150), a scale desync, which halts the job and withholds nothing else (R151, 09 R249), the end of its aborted transaction
(R147), or a wait that leaves its context amid it; page reads begin it again, from the state before it (02 R55). A stall ends when the
record goes on. -/
def recordOutcome (before : State) (x : CtxId) (fret : Bool) (r : Except Stop Unit × State) : State :=
  let completes := fun (s : State) =>
    match getCtx s x with
    | some (_, c) =>
      if 0 < c.awaiting then holdRecord s x [] (storesWait fret)
      else if c.wait = .none then recordDone s x fret
      else repick s x false
    | none => s
  match r with
  | (.ok (), s) => completes (endStall s x)
  | (.error (.fault code off), s) => ctxFault (endStall s x) x code off
  | (.error .desync, s) => completes (beginEnd (endStall s x) x.job 0x1011)
  | (.error (.aborted st), s) => ctxAborted (endStall s x) x st
  | (.error (.waits cause), s) => holdRecord s x (if cause = 0 then [] else [cause]) (.stall cause)
  | (.error (.reads pages causes), _) => waitPages before x pages causes

/-- Run a record (R133), told whether it was stalled before; `start` is what it does once, before it has waited for anything. -/
def runRecordOf (heavy : Bool) (x : CtxId) (r : BitVec 512) (start : State → State) (body : Bool → Eng Unit) (s : State) : State :=
  let stalled := match getCtx s x with | some (_, c) => mayRetry s x c | none => false
  match readyToRun s x with
  | (false, _) => s
  | (true, s) =>
    -- the array drains before a record that is not a heavy record (07 R192)
    let s := if heavy then s else drainOut s x
    let s := if stalled then s else start s
    recordOutcome s x (fretAfter r) ((body stalled).run.run s)

def runHeavy (x : CtxId) (r : BitVec 512) (body : Eng Unit) (s : State) : State := runRecordOf true x r id (fun _ => body) s

def runRecord (x : CtxId) (r : BitVec 512) (body : Eng Unit) (s : State) : State := runRecordOf false x r id (fun _ => body) s

/-! ## Sums of rows (R158) -/

/-- Codes of an element format in a byte list. -/
def rowCodes (elem : Nat) (b : List Byte) : List Nat :=
  (groupsOf (elemBits elem / 8) b.length b).map leNat

/-- Bytes of codes. -/
def codeBytes (elem : Nat) (l : List Nat) : List Byte := l.flatMap (toLE (elemBits elem / 8))

/-- Add one contribution to a running element: FP32 and widened BF16 with one rounding, int32 saturating. -/
def addCode (elem : Nat) (acc : U32) (code : Nat) : U32 :=
  if elem = 11 then BitVec.ofInt 32 (satInt32 (acc.toInt + intOf 11 code)).1
  else if elem = 8 then fadd acc (BitVec.ofNat 32 (code * 65536))
  else fadd acc (BitVec.ofNat 32 code)

/-- The running element that a destination code starts, and the code it ends as: BF16 is rounded once at the end. -/
def startCode (elem code : Nat) : U32 := if elem = 8 then BitVec.ofNat 32 (code * 65536) else BitVec.ofNat 32 code
def endCode (elem : Nat) (acc : U32) : Nat := if elem = 8 then (pack bf16 (ofF32 acc)).1 else acc.toNat

/-- A destination row with contributions added in order. -/
def sumRow (elem : Nat) (dest : List Byte) (adds : List (List Byte)) : List Byte :=
  let start := (rowCodes elem dest).map (startCode elem)
  let sum := adds.foldl (fun acc b => (acc.zip (rowCodes elem b)).map fun p => addCode elem p.1 p.2) start
  codeBytes elem (sum.map (endCode elem))

end Sys2Proof.Machine
end

