-- ==== Sys2Proof/Machine/Control.lean ====
section
/-! DEFINITION. Machine/Control.lean: the sequencing records of a program, frets, barriers, securing, and the placement and eviction of contexts
(05 R139-R147, 06 R175-R181, 10 R264, R272-R274, 15 R418). -/

namespace Sys2Proof.Machine

/-! ## Records that steer a context -/

/-- Run a record that cannot stop: `f` takes the state with its context issuing. -/
def steer (x : CtxId) (f : State → Ctx → State) (s : State) : State :=
  match readyToRun s x with
  | (false, _) => s
  | (true, s) =>
    let s := drainOut s x
    match getCtx s x with | some (_, c) => f s c | none => s

/-- TX_BEGIN (R145): nested it is a context fault; it waits while no slot is free. -/
def txBeginRecord (s : State) (x : CtxId) (c : Ctx) (r : BitVec 512) : State :=
  if c.tx.isSome then ctxFault s x 10 0
  else match beginTx s (.context x.job x.idx (jobPolder s x.job)) with
    | none => repick (modCtx s x fun c => { c with wait := .stall 10, waitSince := s.power.uptime }) x false
    | some (l, s) =>
      let s := modCtx s x fun c => { c with
        tx := some l, onAbort := fld r 6 1, retryLimit := if fld r 4 2 = 0 then od s 0x3400 1 else fld r 4 2
        rpRec := c.recIdx, rpX := c.x }
      recordDone s x (fretAfter r)

/-- The commit that a TX_COMMIT or a SECURE makes (R146, R147): the context waits for the outcome. -/
def commitFrom (s : State) (x : CtxId) (l : Nat) (wait : CtxWait) : State :=
  match kget s.txs l with
  | none => ctxAborted s x 0x100D
  | some _ => repick (startCommit (modCtx s x fun c => { c with wait := wait, waitSince := s.power.uptime, atFret := false }) l) x false

/-- TX_COMMIT (R146). -/
def txCommitRecord (s : State) (x : CtxId) (c : Ctx) : State :=
  match c.tx with
  | none => ctxFault s x 10 0
  | some l => commitFrom s x l (.commit l)

/-- LOOP (R139). -/
def loopRecord (s : State) (x : CtxId) (c : Ctx) (r : BitVec 512) : State :=
  let n := fld r 4 1 - 1
  let v := ((c.x[n]?).getD 0) + BitVec.ofNat 64 (fld r 8 8)
  if v.toNat < fld r 0x10 8 then
    recordTo (modCtx s x fun c => { c with x := c.x.set n v }) x (fld r 0x20 4) (fretAfter r)
  else recordDone (modCtx s x fun c => { c with x := c.x.set n (BitVec.ofNat 64 (fld r 0x18 8)) }) x (fretAfter r)

/-- The number of the group that a GROUP handle names: from its header here, or as its home serves it. -/
def groupNumber (s : State) (h : Nat) : Nat :=
  match kget s.objs h with
  | some o => (match o.area with | .group g => g.number | _ => 0)
  | none => (Config.remoteHeader h 0).toNat

/-- A group that records may use: known here, this module a member, its keeper within reach (15 R413). -/
def groupUsable (s : State) (number : Nat) : Bool :=
  match kget s.fabric.groups number with
  | some g => g.members.any (fun m => m.1 == moduleId s) && reaches s g.keeper
  | none => false

/-- Whether the event that a context waits for has occurred (R140 kinds 2 and 3). An object of another module cannot be seen here:
its home reports the event. -/
def eventSeen (s : State) : CtxWait → Bool
  | .objVersion h v => (match kget s.objs h with | some o => decide (v ≤ o.version) | none => false)
  | .logCount h v => (match kget s.objs h with
    | some o => (match o.area with | .log _ _ _ n => decide (v ≤ n) | _ => false)
    | none => false)
  | _ => false

/-- A context begins to wait at a barrier or for an event: a fret (R140, R142). -/
def waitAt (s : State) (x : CtxId) (w : CtxWait) (timeout target : Nat) : State :=
  repick (doFret (modCtx s x fun c => { c with
    wait := w, waitSince := s.power.uptime, timeout := timeout, timeoutTarget := target }) x) x false

/-- WAIT_EVENT (R140). -/
def waitEventRecord (s : State) (x : CtxId) (r : BitVec 512) : State :=
  let value := fld r 0x10 8
  let timeout := fld r 0x18 4
  let target := fld r 0x1C 4
  let h := match (oref s x (fld r 8 8)).space with | .obj h => h | _ => 0
  let p := jobPolder s x.job
  let watch := fun (w : CtxWait) =>
    if homeOf h ≠ moduleId s then waitAt s x w timeout target
    else match liveObj s h with
      | none => ctxFault (dikeFail s p) x 2 0
      | some o =>
        if !canRead o p then ctxFault (dikeFail s p) x 2 0
        else if eventSeen s w then recordDone s x (fretAfter r)
        else waitAt s x w timeout target
  match fld r 4 1 with
  | 1 => waitAt s x (.jobBarrier value) timeout target
  | 2 => watch (.objVersion h value)
  | 3 => watch (.logCount h value)
  | _ =>
    let g := groupNumber s h
    if !groupUsable s g then ctxFault s x 11 0
    else
      let members : List Nat := match kget s.fabric.groups g with | some d => d.members.map (fun (e : Nat × Nat × Option Nat) => e.1) | none => []
      let s := (members.filter fun m => m != moduleId s).foldl (fun s m => sendMsg s m .barrier 0 0 [g, value] []) s
      waitAt s x (.groupBarrier g value) timeout target

/-- SECURE (10 R264): an open transaction commits first, then the context waits at the barrier. -/
def secureRecord (s : State) (x : CtxId) (c : Ctx) (r : BitVec 512) : State :=
  let step := fld r 0x18 4
  match c.tx with
  | some l => commitFrom s x l (.secureCommit l step)
  | none => secureCheck (waitAt s x (.secureBarrier step false) 0 0) x.job

/-! ## Frets and wakes -/

/-- A step that waits on a stall, or on a pass, a collective or a retry's delay, has not issued: a fret may be taken before it (R143). -/
def CtxWait.beforeStep : CtxWait → Bool
  | .stall _ | .backoff _ | .pass .. | .collective .. => true
  | _ => false

/-- INSERTED_FRET (R143): 64 Ki cycles or more since the last fret, in a context that issues or whose step waits. -/
def insertedFret (s : State) (x : CtxId) : State :=
  match getCtx s x with
  | none => s
  | some (_, c) =>
    if !c.atFret && !c.held && !c.ended && c.resident.isSome && (issues s x || c.wait.beforeStep) &&
       decide (65536 ≤ (s.power.uptime - c.fretAt) * s.power.arr * 125 / 2) then
      doFret (bumpB s (jobPolder s x.job) 0x9700 5 1) x
    else s

/-- FRET_SPACING (R142). -/
def spacingFret (s : State) (x : CtxId) : State :=
  match getCtx s x with
  | none => s
  | some (_, c) => if fretDue s x c && !c.ended then doFret s x else s

/-- RETRY_BACKOFF (R147): the wait before a retry has passed. -/
def retryBackoff (s : State) (x : CtxId) : State :=
  match getCtx s x with
  | some (_, c) => (match c.wait with
    | .backoff t => if t ≤ s.power.uptime then repick (modCtx s x fun c => { c with wait := .none }) x false else s
    | _ => s)
  | none => s

/-- Whether a wait is one of WAIT_EVENT. -/
def CtxWait.ofEvent : CtxWait → Bool
  | .jobBarrier _ | .objVersion .. | .logCount .. | .groupBarrier .. => true
  | _ => false

/-- The header flags of the record a context is at, from its program as admitted (R133). -/
def presentFretAfter (s : State) (x : CtxId) : Bool :=
  match getCtx s x with
  | some (j, c) => (mget j.payload (64 * c.recIdx + 1)).toNat.testBit 1
  | none => false

/-- A context's event has occurred: it goes on with the next record. -/
def wakeCtx (s : State) (x : CtxId) : State :=
  recordDone (modCtx s x fun c => { c with wait := .none, timeout := 0 }) x (presentFretAfter s x)

/-- WAIT_EVENT_TIMEOUT (R140): the record completes at its Timeout target, with the fret that FRET_AFTER asks for. -/
def waitTimeout (s : State) (x : CtxId) : State :=
  match getCtx s x with
  | some (_, c) =>
    if c.wait.ofEvent && c.timeout != 0 && decide (c.waitSince + c.timeout ≤ s.power.uptime) then
      recordTo (modCtx s x fun c => { c with wait := .none, timeout := 0 }) x c.timeoutTarget (presentFretAfter s x)
    else s
  | none => s

/-- WAIT_EVENT_WAKE (R140 kinds 2 and 3). -/
def waitWake (s : State) (x : CtxId) : State :=
  match getCtx s x with
  | some (_, c) => (match c.wait with
    | .objVersion h _ | .logCount h _ => if homeOf h ≠ moduleId s ∨ eventSeen s c.wait then wakeCtx s x else s
    | _ => s)
  | none => s

/-- JOB_BARRIER_COMPLETE (R140 kind 1): every context waits at the barrier or has ended. -/
def jobBarrier (s : State) (h value : Nat) : State :=
  match kget s.jobs h with
  | none => s
  | some j =>
    if j.ctxs.all (fun c => c.ended || c.wait == .jobBarrier value) then
      ((List.range j.ctxs.length).filter fun i => match j.ctxs[i]? with | some c => c.wait == .jobBarrier value | none => false).foldl
        (fun (s : State) (i : Nat) => wakeCtx s ⟨h, i⟩) s
    else s

/-- Contexts of this module that wait at a group barrier. -/
def atGroupBarrier (s : State) (g value : Nat) : List CtxId :=
  s.jobs.flatMap fun e => ((List.range e.2.ctxs.length).zip e.2.ctxs).filterMap fun q =>
    if q.2.wait = .groupBarrier g value then some (CtxId.mk e.1 q.1) else none

/-- GROUP_BARRIER_COMPLETE (15 R418): every member of the installed epoch waits, this module among them, and no change holds the
group (15 R411). -/
def groupBarrier (s : State) (g value : Nat) : State :=
  match kget s.fabric.groups g with
  | some d => if groupUsable s g && !d.held then (atGroupBarrier s g value).foldl wakeCtx s else s
  | none => s

/-! ## Securing (10 R273, R274) -/

/-- Hops to a module by the route a source picks; a topology of tables tells none, a free value. -/
def hopsTo (s : State) (order : Bool) (dest : Nat) : Nat → Nat → Nat
  | 0, _ => 0
  | fuel + 1, m =>
    if m = dest then 0
    else match hopOf s order m dest with
      | some (port, _) => (match neighbour s m port with | some k => 1 + hopsTo s order dest fuel k | none => 0)
      | none => 0

/-- A member in a group record: module, egress port, hops. -/
def memberBytes (s : State) (m : Nat) (pin : Option Nat) : List Byte :=
  let order := (pickRoute s m).getD false
  let port := memberPort s m pin
  let hops := if s.fabric.kind = 5 then (Config.standardByte 0x105 m).toNat else hopsTo s order m 64 (moduleId s)
  if m = moduleId s then toLE 2 m ++ [0, 0] else toLE 2 m ++ [BitVec.ofNat 8 port, BitVec.ofNat 8 hops]

/-- A group record. -/
def groupRecord (s : State) (h : Nat) : List Byte :=
  let n := groupNumber s h
  let ms := sortBy (fun (a b : Nat × Nat × Option Nat) => decide (a.2.1 < b.2.1)) (match kget s.fabric.groups n with | some d => d.members | none => [])
  toLE 8 h ++ toLE 1 n ++ [0] ++ toLE 2 ms.length ++ toLE 4 0 ++
    padTo (roundUp (4 * ms.length) 64) (ms.flatMap fun e => memberBytes s e.1 e.2.2)

/-- Handle that a reference of a job's restore list names. -/
def jobSlot (s : State) (h : Nat) (j : Job) (w : Nat) : Nat :=
  if bitsAt w 52 12 = 1 then (jobArea s h).argument else (j.handles[bitsAt w 52 12]?).getD 0

/-- Data of an entry: its bytes, or a LOG's positions. Bytes that cannot be read are free values. -/
def entryBytes (s : State) (h : Nat) (j : Job) (e : Nat × Nat × Nat × Nat) : List Byte × State :=
  let k := jobSlot s h j e.1
  match kget s.objs k with
  | none => ([], s)
  | some o =>
    if e.2.2.1 ≤ 3 then
      match readPayload s (o.base + bitsAt e.1 0 48) e.2.1 0 with
      | (.ok m, s) => (mread m 0 e.2.1, s)
      | (_, s) =>
        let (d, s) := s.draw
        ((List.range e.2.1).map (Config.rawByte d), s)
    else if e.2.2.1 = 5 then
      match o.area with
      | .log _ head tail n => (toLE 8 head ++ toLE 8 tail ++ toLE 8 n ++ List.replicate 40 0, s)
      | _ => (List.replicate 64 0, s)
    else ([], s)

/-- An image with its CRC (R274). -/
def imageBytes (s : State) (h : Nat) (j : Job) (trigger risk : Nat) : List Byte × State :=
  let blocks := ((List.range j.ctxs.length).zip j.ctxs).flatMap fun q =>
    toLE 4 q.1 ++ toLE 4 (if q.2.ended then q.2.recIdx else q.2.recIdx + 1) ++ q.2.x.flatMap fun v => toLE 8 v.toNat
  let (data, s) := j.entries.foldl (fun (acc : List Byte × State) e =>
    let (b, s) := entryBytes acc.2 h j e
    (acc.1 ++ b, s)) (([] : List Byte), s)
  let carried := bitAt j.area.flags 1
  let groups := if carried then (j.handles.drop 2).filter fun g => typeOf g == 8 else []
  let groupBytes := groups.flatMap (groupRecord s)
  let at' := 64 + blocks.length + data.length
  let head := fun (crc : Nat) => toLE 2 0x100 ++ toLE 2 j.ctxs.length ++ toLE 4 j.entries.length ++
    toLE 8 (at' + groupBytes.length) ++ toLE 8 (jobArea s h).program ++ toLE 8 j.step ++ toLE 4 (jobArea s h).seed ++
    toLE 1 trigger ++ toLE 1 (if carried then 1 else 0) ++ toLE 2 risk ++ toLE 8 (j.secNumber + 1) ++
    toLE 4 (if groups.isEmpty then 0 else at') ++ toLE 2 groups.length ++ toLE 6 0 ++ toLE 4 crc
  let rest := blocks ++ data ++ groupBytes
  (head (crc32 (head 0 ++ rest)).toNat ++ rest, s)

/-- Parcels of a payload range. -/
def rangeParcels (o : Obj) (off n : Nat) : List Nat :=
  (List.range (n / 65536 + 2)).map (fun i => (o.base + off) / 65536 + i) |>.filter fun k => decide (k * 65536 < o.base + off + n)

/-- A securing that cannot store its image is given up: the contexts go on (log entry 21). -/
def secureGiveUp (s : State) (h : Nat) : State :=
  secureRelease (s.modJob h fun j => { j with securing := none, secStaged := none, secRecord := none }) h

/-- Steps 1 and 2: the image is assembled at the staging offset. -/
def secureStage (s : State) (h trigger : Nat) (j : Job) : State :=
  match kget s.objs j.destination with
  | none => secureGiveUp s h
  | some o =>
    match o.area with
    | .log rs _ tail _ =>
      let risk := s.risk.risk
      let (b, s) := imageBytes s h j trigger risk
      let n := roundUp b.length rs
      let off := if o.length - tail < n then 0 else tail
      (match storePlain s j.destination off (padTo n b) 0 with
      | (.ok, s) => s.modJob h fun j => { j with secStaged := some (off, n, risk) }
      | (.waits, s) => s
      | (.fails _, s) => secureGiveUp s h)
    | _ => secureGiveUp s h

/-- Step 3: the staged parcels are written back. True once every one is durable. -/
def secureWriteBack (s : State) (j : Job) (off n : Nat) : Bool × State :=
  match kget s.objs j.destination with
  | none => (true, s)
  | some o =>
    if o.volatile then (true, s)
    else
      let ks := rangeParcels o off n
      let s := ks.foldl (fun (s : State) k => match kget s.parcels k with
        | some p => if p.state = .dramDirty ∧ p.writing.isEmpty then (writeParcel s k false).getD s else s
        | none => s) s
      let s := awaitPages s (ks.flatMap fun k => match kget s.parcels k with | some p => p.writing | none => [])
      (ks.all fun k => match parcelState s k with | .dramDirty | .migDown | .migUp => false | _ => true, s)

/-- Steps 4 and 5: the LOG's positions change and the image is current; the securing is counted by its trigger. -/
def securePublish (s : State) (h trigger off n risk : Nat) : State :=
  match kget s.jobs h with
  | none => s
  | some j =>
    let (k, s) := nextSeq s
    let set := fun (o : Obj) => match o.area with
      | .log rs _ _ count => { o with area := .log rs (j.lastImage.getD off) (off + n) (count + n / rs) }
      | _ => o
    let s := bumpVersion (s.modObj j.destination fun o => { set o with changeStamp := k }) j.destination
    let s := { s with durObjs := kmod s.durObjs j.destination fun o => { set o with version := o.version + 1 } }
    let p := jobPolder s h
    let s := bumpB (bumpB s p 0x9D00 1 1) p 0x9D00 (1 + trigger) 1
    let s := s.modJob h fun j => { j with
      secNumber := j.secNumber + 1, lastImage := some off, step0 := j.step, armed := false, requested := false
      riskAt := if trigger = 2 then risk else j.riskAt, riskTime := if trigger = 2 then some s.power.uptime else j.riskTime
      securing := none, secStaged := none, secRecord := none }
    secureRelease s h

/-- SECURING (10 R273): the steps go on as far as durability allows. -/
def securing (s : State) (h : Nat) : State :=
  -- a barrier that the end of a context completed
  let s := secureCheck s h
  match kget s.jobs h with
  | none => s
  | some j =>
    match j.securing with
    | none => s
    | some t =>
      let s := if j.secStaged.isNone then secureStage s h t j else s
      match kget s.jobs h with
      | none => s
      | some j =>
        match j.secStaged with
        | none => s
        | some (off, n, risk) =>
          let (durable, s) := if j.secRecord.isNone then secureWriteBack s j off n else (true, s)
          if !durable then s
          else
            let s := if j.secRecord.isNone then
                let (k, s) := jadd s (.commit 0 s.seq [] [] [] [] [] [])
                s.modJob h fun j => { j with secRecord := some k }
              else s
            match (kget s.jobs h).bind (·.secRecord) with
            | some k => if jDurable s k then securePublish s h t off n risk else s
            | none => s

/-! ## Time slices and blocked residents -/

/-- TIME_SLICE_EXPIRY (06 R175): the issuing context gives way at a fret. -/
def timeSlice (s : State) (core : Nat) : State :=
  match (s.core core).issuing with
  | some x => (match getCtx s x with
    | some (_, c) =>
      let s := chargeIssue s core
      let turn := match getCtx s x with | some (_, c) => c.turn | none => 0
      if c.atFret && decide (od s 0x3100 1 ≤ turn) then pickIssue s core true else s
    | none => s)
  | none => s

/-- The polder that holds a core. -/
def polderOfCore (s : State) (core : Nat) : Option Nat :=
  findFirst (fun p => (od s (0x3000 + p) 1).testBit core) (List.range 32)

/-- BLOCKED_RESIDENT_THRESHOLD (06 R181): R180 applies to the core, equal priorities included. -/
def blockedThreshold (s : State) (core : Nat) : State :=
  match polderOfCore s core, (noteBlocked s core).core core |>.blockedSince with
  | some p, some t =>
    if decide (t + od s 0x3104 0 * 1000 ≤ s.power.uptime) && (od s (0x3000 + p) 8).testBit 0 then
      -- the first context in queue order that only evictions from this core let be placed, a new job's with all its others
      let plan := fun (w : CtxId) =>
        if (placeList s (placedWith s w)).isSome then none else evictPlan s w (placedWith s w).length (· == core) true
      (((waiting s p).filterMap plan).head?.getD []).foldl (fun s x => evictNow s x 4) s
    else s
  | _, _ => s

/-! ## The commands -/

def execTxBeginRecord (x : CtxId) (r : BitVec 512) (s : State) : Host.Outcome State Fault Refusal :=
  done s (steer x (fun s c => txBeginRecord s x c r) s)
def execTxCommitRecord (x : CtxId) (_r : BitVec 512) (s : State) : Host.Outcome State Fault Refusal :=
  done s (steer x (fun s c => txCommitRecord s x c) s)
/-- FRET (R142). -/
def execFret (x : CtxId) (_r : BitVec 512) (s : State) : Host.Outcome State Fault Refusal :=
  done s (steer x (fun s _ => recordDone s x true) s)
def execLoop (x : CtxId) (r : BitVec 512) (s : State) : Host.Outcome State Fault Refusal :=
  done s (steer x (fun s c => loopRecord s x c r) s)
def execWaitEvent (x : CtxId) (r : BitVec 512) (s : State) : Host.Outcome State Fault Refusal :=
  done s (steer x (fun s _ => waitEventRecord s x r) s)
def execSecure (x : CtxId) (r : BitVec 512) (s : State) : Host.Outcome State Fault Refusal :=
  done s (steer x (fun s c => secureRecord s x c r) s)
def execInsertedFret (x : CtxId) (s : State) : Host.Outcome State Fault Refusal := done s (insertedFret s x)
def execFretSpacing (x : CtxId) (s : State) : Host.Outcome State Fault Refusal := done s (spacingFret s x)
def execRetryBackoff (x : CtxId) (s : State) : Host.Outcome State Fault Refusal := done s (retryBackoff s x)
def execWaitEventTimeout (x : CtxId) (s : State) : Host.Outcome State Fault Refusal := done s (waitTimeout s x)
def execWaitEventWake (x : CtxId) (s : State) : Host.Outcome State Fault Refusal := done s (waitWake s x)
def execJobBarrierComplete (job value : Nat) (s : State) : Host.Outcome State Fault Refusal := done s (jobBarrier s job value)
def execGroupBarrierComplete (group value : Nat) (s : State) : Host.Outcome State Fault Refusal := done s (groupBarrier s group value)
def execSecuring (job : Nat) (s : State) : Host.Outcome State Fault Refusal := done s (securing s job)
/-- CONTEXT_PLACEMENT (06 R179). -/
def execContextPlacement (polder : Nat) (s : State) : Host.Outcome State Fault Refusal := done s (applyStep (placePass s polder))
/-- CONTEXT_EVICTION (06 R180). -/
def execContextEviction (polder : Nat) (s : State) : Host.Outcome State Fault Refusal := done s (evictPass s polder)
def execTimeSliceExpiry (core : Nat) (s : State) : Host.Outcome State Fault Refusal := done s (timeSlice s core)
def execBlockedResidentThreshold (core : Nat) (s : State) : Host.Outcome State Fault Refusal := done s (blockedThreshold s core)

end Sys2Proof.Machine
end

