-- ==== Sys2Proof/Machine/Home.lean ====
section
/-! DEFINITION. Machine/Home.lean: requests of other modules at the home of an object, in the order their source numbered them, and the
branches of transactions that they open (04 R117, 15 R403-R405). -/

namespace Sys2Proof.Machine

/-! ## The check of R64 and R404 -/

/-- Object of this module that a request's DAS address falls in, with its handle. -/
def requestObject (s : State) (p : Packet) : Option (Nat × Obj) :=
  if p.addr.toNat / 18014398509481984 ≠ moduleId s then none
  else match ownerOfAddr s (p.addr.toNat % 18014398509481984) with
    | some e => if e.2.leaving then none else some e
    | none => none

/-- Whether a request passes the dike of an object: the group in its header is the export group, its source a member (R64, R404). -/
def requestRight (s : State) (p : Packet) (o : Obj) : Bool :=
  decide (p.group = o.exportGroup) && peerRight s o p.src p.polder (p.type != 1) && (p.type == 1 || !o.readOnly)

/-- A source that left the group its request names (R404). -/
def leftGroup (s : State) (p : Packet) : Bool :=
  match kget s.fabric.groups p.group with
  | some g => g.former.contains p.src && !(g.members.any fun m => m.1 == p.src)
  | none => false

/-- Element format that a ROW_ADD adds in: a TENSOR's own when it is one of the three, else a free value (R403). -/
def rowAddFormat (h : Nat) (o : Obj) : Nat :=
  let open' := [8, 10, 11][Config.rowFormat h % 3]?
  match o.area with
  | .tensor t => if t.format = 8 ∨ t.format = 10 ∨ t.format = 11 then t.format else open'.getD 10
  | _ => open'.getD 10

/-- Bytes of a request's range and the alignment it needs. A ROW_ADD whose Length is below its payload brings several contributions to one
row, DESIGN CHOICE (log entry 143). -/
def requestSize (p : Packet) : Nat :=
  match p.type with
  | 1 => p.length
  | 3 => if p.length = 0 then p.payload.length else p.length
  | 4 | 5 | 6 => 8
  | _ => p.payload.length
def requestAlign (p : Packet) (h : Nat) (o : Obj) : Nat :=
  match p.type with | 4 | 5 | 6 => 8 | 3 => elemBits (rowAddFormat h o) / 8 | _ => 1

/-- The checks after R64's, in order: 0, or the status of the first that fails (R404). -/
def requestStatus (p : Packet) (h : Nat) (o : Obj) : Nat :=
  let a := p.addr.toNat % 18014398509481984
  let n := requestSize p
  let sized := match p.type with
    | 3 => decide (1 ≤ n) && n % (elemBits (rowAddFormat h o) / 8) == 0 && p.payload.length != 0 && p.payload.length % n == 0
    | 4 | 6 => p.payload.length == 8
    | 5 => p.payload.length == 16
    | _ => decide (1 ≤ n)
  if !sized ∨ 4096 < n ∨ 4096 < a % 4096 + n then 0x1007
  else if o.length < a - o.base + n ∨ a < 4294967296 then 0x1008
  else if a % requestAlign p h o ≠ 0 then 0x1009
  else 0

/-! ## Serving -/

/-- How a request went: its response, or a wait for an outcome, a migration or the host (R404). -/
inductive Served where
  | answer (status : Nat) (b : List Byte)
  | waits
  deriving DecidableEq, Repr

/-- Read bytes for a request: its flash pages are read first (02 R55). -/
def serveLoad (s : State) (p : Packet) (h : Nat) (o : Obj) (off n id : Nat) : Served × State :=
  let a := o.base + off
  let pages := flashPages s a n
  let miss := missingPages s (.peer p.src) pages
  if !miss.isEmpty then (.waits, askMissing s (.peer p.src) p.polder miss)
  else
    let s := usedPages (touchHeat s h a n (whoPeer p.src)) (.peer p.src) pages
    match readPayload s a n id with
    | (.ok m, s) => (.answer 0 (mread m 0 n), s)
    | (.memory, s) => (.answer 0x2006 [], s)
    | (.media, s) => (.answer 0x2001 [], s)

/-- Store bytes for a request: an action of its branch, or a non-transactional store. -/
def serveStore (s : State) (p : Packet) (h off id : Nat) (b out : List Byte) : Served × State :=
  match storeAt s id h off b (whoPeer p.src) with
  | (.ok, s) => (.answer 0 out, s)
  | (.waits, s) => (.waits, s)
  | (.fails st, s) => (.answer st [], s)

/-- What an atomic stores for an old value: none when a CAS64 does not match (R403). -/
def atomicNew (type old : Nat) (b : List Byte) : Option Nat :=
  match type with
  | 4 => some ((old + fieldAt b 0 8) % 18446744073709551616)
  | 5 => if old = fieldAt b 0 8 then some (fieldAt b 8 8) else none
  | _ => some (fieldAt b 0 8)

/-- A read-modify-write, atomic as a whole: what holds the line is dealt with before the old value is read (R404, R112). -/
def serveModify (s : State) (p : Packet) (h : Nat) (o : Obj) (off n id : Nat) (f : List Byte → Option (List Byte) × List Byte) :
    Served × State :=
  match (if id = 0 then meetLines s (o.base + off) n else (.free, s)) with
  | (.waits, s) => (.waits, s)
  | (.free, s) =>
    match serveLoad s p h o off n id with
    | (.answer 0 old, s) =>
      (match f old with
      | (some new, out) => serveStore s p h off id new out
      | (none, out) => (.answer 0 out, s))
    | r => r

/-- Serve a request whose checks have passed. -/
def serveObject (s : State) (p : Packet) (h : Nat) (o : Obj) (id : Nat) : Served × State :=
  let off := p.addr.toNat % 18014398509481984 - o.base
  match p.type with
  | 1 =>
    let s := if id = 0 then s else trackLines s id h (o.base + off) p.length
    serveLoad s p h o off p.length id
  | 2 => serveStore s p h off id p.payload []
  | 3 =>
    let elem := rowAddFormat h o
    let n := requestSize p
    serveModify s p h o off n id fun old => (some (sumRow elem old (groupsOf n p.payload.length p.payload)), [])
  | t =>
    serveModify s p h o off 8 id fun old => ((atomicNew t (leNat old) p.payload).map (toLE 8), old)

/-- Serve a request (R404): R64's check, the checks after it, the branch its transaction id opens or extends, its effect. -/
def serveRequest (s : State) (p : Packet) : Served × State :=
  match requestObject s p with
  | none => (.answer (if leftGroup s p then 0x6003 else 0x6002) [], peerFail s p.polder)
  | some (h, o) =>
    if !requestRight s p o then (.answer (if leftGroup s p then 0x6003 else 0x6002) [], peerFail s p.polder)
    else if requestStatus p h o ≠ 0 then (.answer (requestStatus p h o) [], s)
    else
      let id := if p.tx.toNat % 4194304 = 0 then 0 else p.tx.toNat
      if id = 0 then serveObject s p h o 0
      else if coordOf id = moduleId s then (.answer 0x6002 [], s)
      else match openBranch s id p.src p.polder with
        | none => (.answer 0x4004 [], s)
        | some s =>
          match kget s.branches id with
          | some t =>
            if t.state = .open then serveObject s p h o id
            else (.answer (if t.state = .aborted then t.abort else 0x6002) [], s)
          | none => (.answer 0x6002 [], s)

/-! ## Order (R405) -/

/-- Serve the held requests of a source that come next in its stream; at most `fuel` of them. A request that waits holds those after
it. -/
def serveStream : Nat → State → Nat → State
  | 0, s, _ => s
  | fuel + 1, s, src =>
    match findFirst (fun q => q.src == src && q.streamSeq == kcount s.fabric.recvSeq src % 4294967296) s.fabric.heldReqs with
    | none => s
    | some p =>
      match serveRequest s p with
      | (.waits, s) => s
      | (.answer status b, s) =>
        let s := s.modFab fun f => { f with
          heldReqs := f.heldReqs.filter fun q => q != p, recvSeq := kset f.recvSeq src (kcount f.recvSeq src + 1) }
        let s := if status = 0 then bump s 0x9074 1 1 else s
        serveStream fuel (respond s p status b) src

/-! ## CXL.mem writes (02 R59-R61, 04 R112, 16 R429) -/

/-- Object, payload offset and parcel of a window offset that lies in a binding and within the object's Length (02 R37, R58). -/
def boundAt (s : State) (off : Nat) : Option (Nat × Obj × Nat) :=
  match findFirst (fun e => decide (e.1 ≤ off) && decide (off < e.1 + e.2.length)) s.host.bindings with
  | none => none
  | some e =>
    match kget s.objs e.2.handle with
    | some o =>
      let x := e.2.objOffset + (off - e.1)
      if x < o.length then some (e.2.handle, o, x) else none
    | none => none

/-- A parcel of a bound range that is not in DRAM: logged, counted, queued for up-migration (02 R60). -/
def notResident (s : State) (off h k : Nat) : State :=
  (bump (logHealth s 0x0030 false [off, h]) 0x9300 1 1).modParcel k fun p => { p with queued := true }

/-- A parcel whose payload a CXL.mem access cannot reach. -/
def outOfDram (s : State) (k : Nat) : Bool :=
  match parcelState s k with
  | .flash | .migUp => true
  | _ => false

/-- A CXL.mem write: an ordinary non-transactional store, discarded where R59 and R60 say. True while it must wait. -/
def hostStore (s : State) (off : Nat) (b : List Byte) : Bool × State :=
  match boundAt s off with
  | none => (false, bump s 0x9300 2 1)
  | some (h, o, x) =>
    let k := (o.base + x) / 65536
    if o.readOnly then (false, bump s 0x9300 3 1)
    else if outOfDram s k then (false, notResident s off h k)
    else
      match storeRaw s h x (b.take (o.length - x)) whoHost with
      | (.waits, s) => (true, s)
      | (.ok, s) => (false, s)
      | (.fails _, s) => (false, bump s 0x9300 1 1)

/-- CXL.mem writes that waited go on, in order. -/
def serveHost (s : State) : State :=
  s.host.heldWrites.foldl (fun s w =>
    if s.host.heldWrites.head? = some w then
      match hostStore s w.1 w.2 with
      | (true, s) => s
      | (false, s) => s.modHost fun h => { h with heldWrites := h.heldWrites.drop 1 }
    else s) s

/-- Let every held request that can go go. -/
def serveHeld (s : State) : State :=
  let s := modeStep (serveHost s)
  (nubList (s.fabric.heldReqs.map fun q => q.src)).foldl (fun s src => serveStream (s.fabric.heldReqs.length + 1) s src) s

/-- A request arrives at its home (R405): one that comes after a gap, or that must wait, is held. -/
def requestArrives (s : State) (type : Nat) (p : Packet) : State :=
  if p.dest ≠ moduleId s then s
  else
    let q : Packet := { p with type := type }
    serveHeld (s.modFab fun f => { f with heldReqs := f.heldReqs ++ [q] })

/-- A runtime message of class REQ has taken effect: it had the next number of its source's stream (log entry 36), and the requests
behind it can go (R405). -/
def tookMsg (s : State) (src : Nat) : State :=
  serveHeld (if src = moduleId s then s else s.modFab fun f => { f with recvSeq := kset f.recvSeq src (kcount f.recvSeq src + 1) })

/-- What an end of a transaction, a closed course or a landed page lets go on here: held requests, and commits. -/
def afterOutcome (s : State) : State := serveHeld (afterCourse s)

/-! ## The commands -/

def execRemoteRead (p : Packet) (s : State) : Host.Outcome State Fault Refusal := done s (requestArrives s 1 p)
def execRemoteWrite (p : Packet) (s : State) : Host.Outcome State Fault Refusal := done s (requestArrives s 2 p)
def execRowAdd (p : Packet) (s : State) : Host.Outcome State Fault Refusal := done s (requestArrives s 3 p)
def execFetchAdd64 (p : Packet) (s : State) : Host.Outcome State Fault Refusal := done s (requestArrives s 4 p)
def execCas64 (p : Packet) (s : State) : Host.Outcome State Fault Refusal := done s (requestArrives s 5 p)
def execSwap64 (p : Packet) (s : State) : Host.Outcome State Fault Refusal := done s (requestArrives s 6 p)

/-- A request that carries a transaction id (R117 step 1): a request of its own type, an action of the branch. -/
def execBranchAction (p : Packet) (s : State) : Host.Outcome State Fault Refusal :=
  done s (if p.tx.toNat % 4194304 ≠ 0 ∧ 1 ≤ p.type ∧ p.type ≤ 6 then requestArrives s p.type p else s)

/-- A response ends the request whose tag it carries, if it is still outstanding at its source (R405, R406). -/
def execRemoteResponse (p : Packet) (s : State) : Host.Outcome State Fault Refusal :=
  done s (match kget s.fabric.reqs p.tag with
    | some r => if r.dest = p.src ∧ p.dest = moduleId s then endRequest s p.tag p.status.toNat p.payload else s
    | none => s)

/-- A request with no response after OD 0x4400:01 ends with 0x6004 (R406). -/
def execEndToEndTimeout (tag : Nat) (s : State) : Host.Outcome State Fault Refusal :=
  done s (match kget s.fabric.reqs tag with
    | some r =>
      if r.type ≤ 6 ∧ r.sentAt + od s 0x4400 1 ≤ now s then endRequest (bump s 0x9074 4 1) tag 0x6004 [] else s
    | none => s)

/-- ROW_ADDITION_MESSAGE of another module, or of this one (11 R290, R291). -/
def execRowAdditionMessage (a : RowAdd) (s : State) : Host.Outcome State Fault Refusal := done s (tookMsg (takeRowAdd s a) a.src)

/-- CARRIED_COMMAND_AT_HOME: a command of another module runs here (R524-R526). -/
def execCarriedCommandAtHome (c : Carried) (s : State) : Host.Outcome State Fault Refusal := done s (tookMsg (carriedHere s c) c.src)

end Sys2Proof.Machine
end

