-- ==== Sys2Proof/Machine/Update.lean ====
section
/-! DEFINITION. Machine/Update.lean: stochastic rounding into the adapter weights of a job, and watched statistics (10 R265-R268). -/

namespace Sys2Proof.Machine

/-- Elements with their place in a list. -/
def numbered {α : Type} (l : List α) : List (Nat × α) := (List.range l.length).zip l

/-- A kind-1 entry of the running job's restore list: its position, object, payload offset, bytes and element format (10 R262). -/
structure Kind1 where
  entry : Nat
  h : Nat
  off : Nat
  bytes : Nat
  fmt : Nat
  deriving DecidableEq, Repr

def kind1s (s : State) (x : CtxId) : List Kind1 :=
  match kget s.jobs x.job with
  | none => []
  | some j => (numbered j.entries).filterMap fun e =>
      let r := oref s x e.2.1
      match r.space with
      | .obj h => if e.2.2.2.1 = 1 then some ⟨e.1, h, r.off, e.2.2.1, e.2.2.2.2⟩ else none
      | _ => none

/-- A payload byte lies in an entry. -/
def Kind1.holds (k : Kind1) (h off : Nat) : Bool := k.h == h && decide (k.off ≤ off) && decide (off < k.off + k.bytes)

/-- The finaliser of R266. -/
def mix (z : U64) : U64 :=
  let z := (z ^^^ (z >>> 30)) * 0xBF58476D1CE4E5B9#64
  let z := (z ^^^ (z >>> 27)) * 0x94D049BB133111EB#64
  z ^^^ (z >>> 31)

/-- The 24 random bits of an element (R266). -/
def randomBits (seed step h e : Nat) : Nat :=
  ((mix (mix (mix (BitVec.ofNat 64 seed ^^^ mix (BitVec.ofNat 64 step)) ^^^ BitVec.ofNat 64 h) ^^^ BitVec.ofNat 64 e)) >>> 40).toNat

/-- Where an element of an output lies, if in an object's payload. -/
abbrev Place := Option (Nat × Nat)

/-- The final conversion of an element (R265): stochastic in a kind-1 range, else to nearest even. -/
def finalCode (s : State) (x : CtxId) (ks : List Kind1) (at' : Place) (elem : Nat) (z : Int) (v : Val) : Nat × Event × Bool :=
  let near := toElem elem z v
  match at' with
  | none => (near.1, near.2, false)
  | some (h, off) =>
    if ks.any fun k => k.holds h off then
      let step := match kget s.jobs x.job with | some j => j.step | none => 0
      toElemR elem z (randomBits (jobArea s x.job).seed step h (off / max 1 (elemBits elem / 8))) v
    else (near.1, near.2, false)

/-- An element written: its payload offset, its old and its new code. -/
structure Written where
  off : Nat
  old : Nat
  new : Nat
  deriving DecidableEq, Repr

/-- The watch log of the running job: the LOG that its kind-4 entry names. -/
def watchLog (s : State) (x : CtxId) : Option Nat :=
  match kget s.jobs x.job with
  | none => none
  | some j =>
    match findFirst (fun (e : Nat × Nat × Nat × Nat) => e.2.2.1 == 4) j.entries with
    | none => none
    | some e => (match (oref s x e.1).space with | .obj h => some h | _ => none)

/-- The largest finite magnitude, among codes of an element. -/
def isLargest (elem c : Nat) : Bool :=
  match fmtOf elem with
  | some f => c % 2 ^ (f.eb + f.mb) == maxCode f
  | none => c == (toElem elem 0 (.inf false)).1 || c == (toElem elem 0 (.inf true)).1

/-- The watch record of the elements that a record wrote into an entry (R268), and whether its ratio is above the limit. -/
def watchRecord (s : State) (x : CtxId) (k : Kind1) (l : List Written) : List Byte × Bool :=
  let f := fun (c : Nat) => toF32 (elemVal k.fmt c)
  let step := match kget s.jobs x.job with | some j => j.step | none => 0
  let many := 64 < (kind1s s x).length
  let sq := fun (v : List U32) => rowSum (v.map fun a => fmul a a)
  let dn := fsqrt (sq (l.map fun e => fsub (f e.new) (f e.old)))
  let wn := fsqrt (sq (l.map fun e => f e.old))
  let ratio := if wn = 0 then (if dn = 0 then 0 else f32Inf) else fdiv dn wn
  let above := !many && flt (BitVec.ofNat 32 (od s 0x3C00 1)) ratio
  let count := fun (p : Nat → Bool) => (l.filter fun e => p e.new).length
  let nums := if many then
      [count fun c => (f c).toNat % 2147483648 == 0, count (isLargest k.fmt), count fun c => fIsNan (f c) || fIsInf (f c)]
    else [dn.toNat, wn.toNat, ratio.toNat]
  (toLE 8 step ++ toLE 8 k.h ++ toLE 4 k.entry ++ [if many then 2#8 else 1#8, if above then 1#8 else 0#8] ++ toLE 2 x.idx ++
    toLE 8 (match l with | e :: _ => e.off | [] => 0) ++ toLE 4 l.length ++ nums.flatMap (toLE 4) ++ List.replicate 16 0, above)

/-- The elements of an entry that stores of a record write: their old codes as they stand, and their new ones. -/
def watchRun (x : CtxId) (k : Kind1) (stores : List (Ref × Nat × List Byte)) : Eng (List Written) := do
  let w := elemBits k.fmt / 8
  -- the part of a store that lies in the entry, as elements: first and number
  let pieces := stores.filterMap fun e => match e.1.space with
    | .obj h =>
      let lo := max k.off (e.1.off + e.2.1)
      let hi := min (k.off + k.bytes) (e.1.off + e.2.1 + e.2.2.length)
      if h = k.h ∧ lo < hi then some ((lo - k.off) / w, ceilDiv (hi - k.off) w - (lo - k.off) / w) else none
    | _ => none
  let old ← pieces.foldlM (fun (m : Memory) p => do
    return mwrite m (k.off + p.1 * w) (mread (← loadRef x false ⟨.obj k.h, k.off⟩ (p.1 * w) (p.2 * w)) 0 (p.2 * w))) []
  let all := stores.foldl (fun (m : Memory) e => match e.1.space with
    | .obj h => if h = k.h then mwrite m (e.1.off + e.2.1) e.2.2 else m
    | _ => m) old
  return (sortBy (fun a b => decide (a < b)) (nubList (pieces.flatMap fun p => (List.range p.2).map (p.1 + ·)))).map fun i =>
    ⟨k.off + i * w, mfield old (k.off + i * w) w, mfield all (k.off + i * w) w⟩

/-- The kind-1 entries that stores of a record write, with the elements written in ascending order: what its watch records are of (R268). -/
def watchRuns (x : CtxId) (stores : List (Ref × Nat × List Byte)) : Eng (List (Kind1 × List Written)) := do
  let s ← getThe State
  if (watchLog s x).isNone then return []
  let l ← (kind1s s x).mapM fun k => do return (k, ← watchRun x k stores)
  return l.filter fun e => !e.2.isEmpty

/-- A LOG of 64-byte records as a transaction sees it: length, Head, Tail and Appended. -/
def logNow (s : State) (id g : Nat) : Option (Nat × Nat × Nat × Nat) :=
  match kget s.objs g with
  | none => none
  | some o => match (getTx s id).bind fun t => aget t.logs g, o.area with
    | some p, _ => some (o.length, p)
    | none, .log _ head tail n => some (o.length, head, tail, n)
    | none, _ => none

/-- One record more: where it goes, and Head, Tail and Appended after it. The oldest is overwritten when the LOG is full. -/
def logSlot (l : Nat × Nat × Nat × Nat) : Nat × Nat × Nat × Nat :=
  let (length, head, tail, n) := l
  let next := if length < tail + 128 then 0 else tail + 64
  (tail, if length / 64 ≤ n then next else head, next, n + 1)

/-- The watch log can take `n` records: the stores of R268 are made possible before a record's first store. -/
def watchPrep (x : CtxId) (n : Nat) : Eng Unit := do
  let s ← getThe State
  match watchLog s x with
  | none => return
  | some g =>
    match logNow s (ctxTx s x) g with
    | none => return
    | some l =>
      (List.range n).foldlM (fun (l : Nat × Nat × Nat × Nat) _ => do
        let (at', p) := logSlot l
        prepObj x g at' 64
        return (l.1, p)) l *> pure ()

/-- Append watch records (R268); they are stores of the record, and transactional as such, the LOG's positions too (R141). -/
def watch (x : CtxId) (l : List (Kind1 × List Written)) : Eng Unit := do
  let s ← getThe State
  match watchLog s x with
  | none => return
  | some g =>
    l.forM fun e => do
      let s ← getThe State
      match logNow s (ctxTx s x) g with
      | none => return
      | some l =>
        let (b, above) := watchRecord s x e.1 e.2
        let (at', head, tail, n) := logSlot l
        saveObj x g at' b
        mutate fun s =>
          let s := storeLog s (ctxTx s x) g head tail n
          let s := bumpB s (jobPolder s x.job) 0x9D00 6 1
          if above then bumpB s (jobPolder s x.job) 0x9D00 8 1 else s

/-- Make the stores of a record, which `act` does, with the watch records of what they write (R268). -/
def watching (x : CtxId) (stores : List (Ref × Nat × List Byte)) (act : Eng Unit) : Eng Unit := do
  let l ← watchRuns x stores
  watchPrep x l.length
  act
  watch x l

/-- Write the output lists of a record, each made possible before. -/
def saveLists (x : CtxId) (l : List (OutList × List (List Byte) × Nat)) : Eng Unit :=
  watching x (l.flatMap fun e => e.1.stores e.2.1 e.2.2) (l.forM fun e => saveList x e.1 e.2.1 e.2.2)

/-- Operations for 64 elements that watching adds to an epilogue (R268). -/
def watchOps (s : State) (x : CtxId) (outs : List (Ref × Nat)) : Nat :=
  let ks := kind1s s x
  if (watchLog s x).isSome && ks.any fun k => outs.any fun o => rangesOverlap o.1 o.2 ⟨.obj k.h, k.off⟩ k.bytes then (if 64 < ks.length then 2 else 3)
  else 0

end Sys2Proof.Machine
end

