-- ==== Sys2Proof/Machine/SearchRun.lean ====
section
/-! DEFINITION. Machine/SearchRun.lean: the end of a search pass, shard queries and replies, compaction, and the search records of
programs (12 R311-R331). -/

namespace Sys2Proof.Machine

/-! ## Candidate lists of contexts (R324-R327) -/

/-- Where a list lies, as the key its epoch is recorded under. -/
def listKey (r : Ref) : Nat × Nat :=
  match r.space with
  | .obj h => (h, r.off)
  | .share b _ => (0, b + r.off)
  | .sumps b _ => (0, 1099511627776 + b + r.off)
  | .none => (0, r.off)

/-- Candidate list i of a record lies at this distance from its first (R326). -/
def candSpacing (cap : Nat) : Nat := roundUp (64 + 16 * cap) 64

/-- Where a query of a context writes its list. -/
def candRef (s : State) (x : CtxId) (word cap position : Nat) : Ref :=
  let r := oref s x word
  ⟨r.space, r.off + position * candSpacing cap⟩

/-- Write one candidate list of a record, with the epoch it was produced at. -/
def writeCandList (x : CtxId) (track : Bool) (word cap position epoch : Nat) (elems : List (List Byte)) (truncated : Bool) : Eng Unit := do
  let o ← outList x track (candRef (← getThe State) x word cap position)
  faultIf (o.capacity < cap) 8 o.ref.off
  prepList x o 16 elems true
  saveLists x [(o, elems, if truncated then 1 else 0)]
  mutate fun s => { s with candEpochs := aset s.candEpochs (listKey o.ref) epoch }

/-- Write the candidate lists of a context's queries. -/
def writeCandidates (x : CtxId) (h epoch : Nat) (l : List (Query × Option Answer)) : Eng Unit :=
  l.forM fun e => do
    match e.1.owner, e.2 with
    | .context _ _ word cap i, some a =>
      writeCandList x (e.1.k == 1) word cap i epoch (a.cands.map candElem) a.truncated
      mutate fun s => scanned s (if e.1.k == 1 then ctxTx s x else 0) h epoch a
    | _, _ => stop (.fault 4 0)

/-- A context's queries of a pass end: its lists are written and its record completes. True: a store must wait, and the queries stay
in the pass. -/
def endScan (s : State) (pass : Nat) (x : CtxId) (h epoch : Nat) (l : List (Query × Option Answer)) : Bool × State :=
  match getCtx s x with
  | some (_, c) =>
    (match c.wait with
    | .pass id fret =>
      if id ≠ pass then (false, s)
      else
        let wake := fun (s : State) => repick (modCtx s x fun c => { c with wait := .none }) x false
        match (writeCandidates x h epoch l).run.run s with
        | (.ok (), s) =>
          let left := match getCtx s x with | some (_, c) => c.awaiting | none => 0
          if 0 < left then (false, modCtx s x fun c => { c with wait := storesWait fret })
          else (false, recordDone (wake s) x fret)
        | (.error (.waits _), s) => (true, s)
        | (.error (.reads ps _), s) => (true, askMissing s (.context x) (jobPolder s x.job) ps)
        | (.error (.fault code off), s) => (false, ctxFault s x code off)
        | (.error (.aborted st), s) => (false, ctxAborted (wake s) x st)
        | (.error .desync, s) => (false, s)
    | _ => (false, s))
  | none => (false, s)

/-! ## Passes (R313-R323) -/

/-- Close a pass: every query is answered at its epoch, which the pass then no longer holds. -/
def closePass (s : State) (id : Nat) (p : Pass) : State :=
  let s := { s with passes := kdel s.passes id }
  let s := bumpB s (indexOwner s p.index) 0x9F00 2 1
  let answers := p.queries.map fun q => (q, answerQuery s p.index p.epoch q)
  let s := p.queries.foldl (fun s q => countSketches s (indexOwner s p.index) q.polder 1) s
  let s := answers.foldl (fun (s : State) (e : Query × Option Answer) =>
    match e.1.owner with
    | .register reg =>
      (match kget s.execs reg with
      | some x => if x.wait = .pass id then answerSearch s reg p.index p.epoch e.1 else s
      | none => s)
    | .shard coord tag shard =>
      let s := match e.2 with | some a => countAnswer s p.index e.1.k a | none => s
      giveReply s coord (shardReplyOf s p.index tag shard p.epoch e.2)
    | .record key i => scanAnswer s key p.index p.epoch i e
    | .context .. => s) s
  let owners := nubList (p.queries.filterMap fun q => match q.owner with | .context j i .. => some (CtxId.mk j i) | _ => none)
  let mine := fun (x : CtxId) (q : Query) => match q.owner with | .context j i .. => j == x.job && i == x.idx | _ => false
  let (left, s) := owners.foldl (fun (acc : List CtxId × State) x =>
    let (stay, s) := endScan acc.2 id x p.index p.epoch (answers.filter fun e => mine x e.1)
    (if stay then acc.1 ++ [x] else acc.1, s)) (([] : List CtxId), s)
  if left.isEmpty then
    s.modIdx p.index fun st => { st with snapshots := dropFirst (fun e => e == p.epoch) st.snapshots }
  else { s with passes := kset s.passes id { p with queries := p.queries.filter fun q => left.any fun x => mine x q } }

/-- PASS_BATCH_WINDOW (R323): the pass closes at the end of its window, or when it is full. -/
def passWindow (s : State) (id : Nat) : State :=
  match kget s.passes id with
  | some p =>
    if p.openedAt + od s 0x3E00 1 ≤ now s ∨ od s 0x3E00 2 ≤ p.queries.length then closePass s id p else s
  | none => s

/-- LIST_COMPACTION (R311). -/
def listCompaction (s : State) (h p : Nat) : State := refreshIndex (compactList s h p) h

/-- SHARD_QUERY at a shard home (R330): the coordinator's right is checked under R64. -/
def shardQueryArrives (s : State) (q : ShardQ) : State :=
  let ok := match liveObj s q.index with
    | some o => if q.coord = moduleId s then canRead o q.polder
                else decide (q.group = o.exportGroup) && peerRight s o q.coord q.polder false
    | none => false
  tookMsg (shardQueryHere (if ok then s else peerFail s q.polder) q.coord q.tag q.shard q.index q.polder ok q.query q.k q.cap q.lists) q.coord

/-! ## Records -/

/-- An output list of `n` elements lies over an input list of `m`. -/
def listOverlaps (s : State) (out : OutList) (w n : Nat) (r : Ref) (v m : Nat) : Bool :=
  rangesOverlap out.ref (out.bytes w n) (listRef s r) (listSize s r v m)

/-- The INDEX a record names, with its header area: of this module and readable by the context (R150 code 2), or of another, whose home
checks the right at each access (05 R136). -/
def indexOf (x : CtxId) (word : Nat) : Eng (Nat × IndexArea) := do
  let s ← getThe State
  let p := jobPolder s x.job
  match (oref s x word).space with
  | .obj h =>
    if homeOf h ≠ moduleId s then
      match headerArea s h with
      | some (.index a) => return (h, a)
      | _ => stop (.fault 2 0)
    match liveObj s h, indexArea s h with
    | some o, some a =>
      if canRead o p then return (h, a)
      mutate (dikeFail · p)
      stop (.fault 2 0)
    | _, _ => do
      mutate (dikeFail · p)
      stop (.fault 2 0)
  | _ => stop (.fault 2 0)

/-- The candidate lists of a SKETCH_SCAN: none lies over the query block, and each holds the records asked for. -/
def checkCandidates (x : CtxId) (r : BitVec 512) (stride : Nat) : Eng Unit := do
  let s ← getThe State
  let cap := fld r 0x20 2
  (List.range (fld r 4 2)).forM fun i => do
    let c ← outList x (tracks r) (candRef s x (fld r 0x18 8) cap i)
    faultIf (rangesOverlap c.ref (c.bytes 16 cap) (oref s x (fld r 0x10 8)) (fld r 4 2 * stride)) 7 c.ref.off
    faultIf (c.capacity < cap) 8 c.ref.off

/-- The queries of a SKETCH_SCAN, from its block; `k` says whether the records tested enter the read set (R141). -/
def scanQueries (s : State) (x : CtxId) (r : BitVec 512) (stride : Nat) (block : Memory) : List Query :=
  (List.range (fld r 4 2)).map fun i =>
    Query.mk (.context x.job x.idx (fld r 0x18 8) (fld r 0x20 2) i) (mread block (i * stride) stride) (if tracks r then 1 else 0) (fld r 0x20 2)
      (fld r 6 2) 0 (jobPolder s x.job)

/-- The context's queries open a pass, for which it waits (R323, R326). -/
def scanBegun (s : State) (x : CtxId) (h epoch : Nat) (qs : List Query) (fret : Bool) : State :=
  let (id, s) := openPass s h epoch qs
  modCtx s x fun c => { c with wait := .pass id fret, waitSince := s.power.uptime }

/-- SKETCH_SCAN (R326): its queries open a pass, and the context is blocked while it runs; an index on another module is scanned by its
home. -/
def sketchScan (x : CtxId) (r : BitVec 512) : Eng Unit := do
  let (h, a) ← indexOf x (fld r 8 8)
  let s ← getThe State
  let n := fld r 4 2
  let stride := vectorBytes a + 64
  let cap := fld r 0x20 2
  let block ← loadRef x (tracks r) (oref s x (fld r 0x10 8)) 0 (n * stride)
  checkCandidates x r stride
  if homeOf h ≠ moduleId s then
    let ops := n + cap * 65536 + fld r 6 2 * 4294967296 + (if tracks r then 281474976710656 else 0) + fld r 0x24 4 * 18446744073709551616
    let b ← askHome x (tracks r) h 3 scanCode (n * stride) ops (mread block 0 (n * stride))
    (parseScan n (b.drop 8)).forM fun e =>
      writeCandList x (tracks r) (fld r 0x18 8) cap e.position e.epoch e.elems e.truncated
  else
    let epoch ← runs (scanEpoch · h a (fld r 0x24 4))
    mutate fun t => scanBegun t x h epoch (scanQueries s x r stride block) (fretAfter r)

/-- Epoch recorded with a candidate list; a list that no SKETCH_SCAN wrote has none, a free value (R327). -/
def candEpoch (r : Ref) : Eng Nat := do
  let s ← getThe State
  match aget s.candEpochs (listKey r) with
  | some e => return e
  | none => return Config.candEpoch (← runs State.draw)

/-- The elements that a RERANK writes, as its index's home computes them (R317-R319). -/
def rerankElems (x : CtxId) (r : BitVec 512) (h : Nat) (a : IndexArea) (epoch : Nat) (q : List Byte) (l : Lst) : Eng (List (List Byte)) := do
  let k := fld r 4 2
  let metric := if fld r 6 1 = 0 then a.metric else fld r 6 1
  if homeOf h ≠ moduleId (← getThe State) then
    let ops := k + metric * 65536 + (if tracks r then 16777216 else 0) + epoch * 18446744073709551616
    let b ← askHome x (tracks r) h 4 rerankCode (vectorBytes a) ops (q ++ l.elems.flatten)
    return groupsOf 16 b.length (b.drop 8)
  else
    let rs ← runs fun s => rerankAt s (if tracks r then ctxTx s x else 0) h a metric epoch k q (l.elems.map candOf)
    return rs.map (resultElem 0)

/-- RERANK (R327); an index on another module is read by its home. -/
def rerankRecord (x : CtxId) (r : BitVec 512) : Eng Unit := do
  let (h, a) ← indexOf x (fld r 8 8)
  let s ← getThe State
  let cr := oref s x (fld r 0x18 8)
  let qr := oref s x (fld r 0x10 8)
  let q ← loadRef x (tracks r) qr 0 (vectorBytes a)
  let l ← loadList x (tracks r) cr 16
  let out ← outList x (tracks r) (oref s x (fld r 0x20 8))
  let n := fld r 4 2
  faultIf (listOverlaps s out 16 n cr 16 l.elems.length || rangesOverlap out.ref (out.bytes 16 n) qr (vectorBytes a)) 7 out.ref.off
  let epoch ← candEpoch (listRef s cr)
  let elems ← rerankElems x r h a epoch (mread q 0 (vectorBytes a)) l
  prepList x out 16 elems false
  saveLists x [(out, elems, l.flags % 2)]

/-- The result lists of a TOPK_MERGE: every element with the number of its list, and whether a list was cut; none lies under the output. -/
def topkLists (x : CtxId) (r : BitVec 512) (out : OutList) : Eng (List (Nat × Nat × U32) × Bool) := do
  let s ← getThe State
  let first := oref s x (fld r 8 8)
  (List.range (fld r 6 2)).foldlM (fun (acc : List (Nat × Nat × U32) × Bool) i => do
    let ri : Ref := ⟨first.space, (first.off + i * fld r 0x10 8) % 18446744073709551616⟩
    let l ← loadList x (tracks r) ri 16
    faultIf (listOverlaps s out 16 (fld r 4 2) ri 16 l.elems.length) 7 out.ref.off
    return (acc.1 ++ l.elems.map fun b => (i, fieldAt b 0 8, BitVec.ofNat 32 (fieldAt b 8 4)), acc.2 || l.flags % 2 == 1)) ([], false)

/-- TOPK_MERGE (R327): result lists at a spacing, merged into one. -/
def topkMerge (x : CtxId) (r : BitVec 512) : Eng Unit := do
  let out ← outList x (tracks r) (oref (← getThe State) x (fld r 0x18 8))
  let (elems, trunc) ← topkLists x r out
  let merged := (mergeTop (fld r 4 2) elems).map fun e => resultElem e.1 e.2
  prepList x out 16 merged false
  saveLists x [(out, merged, if trunc then 1 else 0)]

/-! ## The commands -/

def execPassBatchWindow (pass : Nat) (s : State) : Host.Outcome State Fault Refusal := done s (passWindow s pass)
def execListCompaction (index partition : Nat) (s : State) : Host.Outcome State Fault Refusal := done s (listCompaction s index partition)
def execShardQuery (q : ShardQ) (s : State) : Host.Outcome State Fault Refusal := done s (shardQueryArrives s q)
/-- A shard's reply at the coordinator (R330). -/
def execShardReply (r : ShardR) (s : State) : Host.Outcome State Fault Refusal := done s (shardAnswer s r)
def execSketchScan (x : CtxId) (r : BitVec 512) (s : State) : Host.Outcome State Fault Refusal := done s (runRecord x r (sketchScan x r) s)
def execRerank (x : CtxId) (r : BitVec 512) (s : State) : Host.Outcome State Fault Refusal := done s (runRecord x r (rerankRecord x r) s)
def execTopkMerge (x : CtxId) (r : BitVec 512) (s : State) : Host.Outcome State Fault Refusal := done s (runRecord x r (topkMerge x r) s)

end Sys2Proof.Machine
end

