-- ==== Sys2Proof/Machine/Groups.lean ====
section
/-! DEFINITION. Machine/Groups.lean: communication groups, their membership changes, collectives, and jobs forwarded here (06 R183, 15 R408-R418). -/

namespace Sys2Proof.Machine

abbrev Members := List (Nat × Nat × Option Nat)

def State.modGroup (s : State) (number : Nat) (f : Group → Group) : State :=
  s.modFab fun b => { b with groups := kmod b.groups number f }

def isMember (l : Members) (m : Nat) : Bool := l.any fun e => e.1 == m

/-! ## The directory (R409) -/

/-- Take an entry of the directory: numbering begins again, members that left are remembered. -/
def takeEntry (s : State) (e : GroupEntry) (held : Bool) : State :=
  let old : Group := (kget s.fabric.groups e.number).getD { keeper := e.keeper, epoch := 0, members := [] }
  let left := nubList ((old.former ++ old.members.map (·.1)).filter fun m => !isMember e.members m)
  let new : Group := { keeper := e.keeper, epoch := e.epoch, members := e.members, former := left, held := held, autoOut := old.autoOut }
  s.modFab fun f => { f with groups := kset f.groups e.number new }

/-- GROUP_CLAIM: acknowledged unless a keeper is known or a pending claim comes from a lower id; an own pending claim gives way to
a lower id. -/
def groupClaim (s : State) (src number : Nat) : State :=
  let answer := fun (s : State) (status : Nat) => sendMsg s src .claimAnswer 0 status [number] []
  let lower := s.fabric.claims.any fun c => c.number == number && c.handle == 0 && decide (c.reg < src)
  let own := s.fabric.claims.any fun c => c.number == number && c.handle != 0
  if (kget s.fabric.groups number).isSome || lower || (own && decide (moduleId s < src)) then answer s 0x1007
  else
    let s := if own then endClaim s number src 0x1007 else s
    answer (s.modFab fun f => { f with
      claims := (f.claims.filter fun c => !(c.number == number && c.handle == 0 && c.reg == src)) ++ [⟨number, 0, src, []⟩] }) 0

/-- GROUP_RELEASE: the entry of a keeper that let the number go is cleared. -/
def groupRelease (s : State) (src number : Nat) : State :=
  let s := s.modFab fun f => { f with claims := f.claims.filter fun c => !(c.number == number && c.handle == 0 && c.reg == src) }
  match kget s.fabric.groups number with
  | some g =>
    if g.keeper = src then
      failColls (s.modFab fun f => { f with groups := kdel f.groups number }) fun c => c.group == number
    else s
  | none => s

/-- DIRECTORY_EXCHANGE: entries unknown here, or of the same keeper at a higher epoch, are taken; the keeper of an entry that can be
reached is asked for the current one. -/
def directoryExchange (s : State) (port : Nat) (l : List GroupEntry) : State :=
  if !(s.port port).state.carries then s
  else
    let s := l.foldl (fun s e =>
      if e.keeper = moduleId s then s
      else match kget s.fabric.groups e.number with
        | none => takeEntry s e false
        | some g => if g.keeper = e.keeper ∧ g.epoch < e.epoch then takeEntry s e false else s) s
    (s.fabric.groups.filter fun e => e.2.keeper != moduleId s && reaches s e.2.keeper).foldl (fun s e =>
      sendMsg s e.2.keeper .directoryAsk 0 0 [e.1, e.2.epoch] []) s

/-- Send the directory to the neighbour on a port that comes up. -/
def sendDirectory (s : State) (port : Nat) : State :=
  let peer := (s.port port).peer
  s.fabric.groups.foldl (fun s e => sendMsg s peer .directory 0 0
    ([e.1, e.2.keeper, e.2.epoch] ++ e.2.members.flatMap fun m => [m.1, m.2.1, m.2.2.getD 255]) []) s

/-! ## Membership changes (R410, R411) -/

/-- Indices without EXPLICIT_INDEX: the rank in ascending module id. -/
def ranked (l : Members) : Members :=
  let l := sortBy (fun (a b : Nat × Nat × Option Nat) => decide (a.1 < b.1)) l
  ((List.range l.length).zip l).map fun p => (p.2.1, p.1, p.2.2.2)

/-- How a write to OD 0x4300:04-06 is decided on the keeper (R410): a status at once, or new members. -/
inductive MemberEnd where
  | ends (status : Nat)
  | change (l : Members)
  deriving DecidableEq, Repr

def decideMember (s : State) (g : Group) (explicit : Bool) (r : MemberReq) : MemberEnd × State :=
  match r with
  | .add m idx =>
    let (ok, s) := acceptsJoin s m
    let had := findFirst (fun e => e.1 == m) g.members
    if !ok then (.ends 0x6002, s)
    else match had with
      | some e => (.ends (if explicit ∧ e.2.1 ≠ idx then 0x1007 else if !explicit ∧ idx ≠ 0 then 0x1007 else 0), s)
      | none =>
        if explicit ∧ g.members.any (fun e => e.2.1 == idx) then (.ends 0x1007, s)
        else if explicit then (.change (g.members ++ [(m, idx, none)]), s)
        else (.change (ranked (g.members ++ [(m, 0, none)])), s)
  | .remove m =>
    if m = g.keeper then (.ends 0x1007, s)
    else if !isMember g.members m then (.ends 0, s)
    else
      let l := g.members.filter fun e => e.1 != m
      (.change (if explicit then l else ranked l), s)
  | .pin m port =>
    let (ok, s) := acceptsJoin s m
    if !isMember g.members m ∨ (3 < port ∧ port ≠ 7) then (.ends 0x1007, s)
    else if !ok then (.ends 0x6002, s)
    else (.change (g.members.map fun e => if e.1 = m then (m, e.2.1, if port = 7 then none else some port) else e), s)

/-- The module a request removes. -/
def MemberReq.removes : MemberReq → Option Nat
  | .remove m => some m
  | _ => none

/-- The answer to who asked. -/
def changeAnswer (s : State) (c : GroupChange) (status : Nat) : State :=
  match c.path with
  | some p => answerPath s p 0x91 c.tag status []
  | none => s

def isChange (number : Nat) (c : GroupChange) : Bool := c.number == number && c.running

/-- Change the running change of a group. -/
def modChange (s : State) (number : Nat) (f : GroupChange → GroupChange) : State :=
  s.modFab fun b => { b with changes := b.changes.map fun c => if isChange number c then f c else c }

def dropChange (s : State) (number : Nat) : State :=
  s.modFab fun b => { b with changes := b.changes.filter fun c => !isChange number c }

/-- Whether this module has run its collectives up to N to the end (R411 step 4). -/
def drainedHere (s : State) (number : Nat) (g : Group) (n : Nat) : Bool :=
  decide (n ≤ g.started) && !(s.fabric.colls.any fun c => c.group == number && c.ctx.isSome && decide (c.number ≤ n))

/-- Start the next change of a group in the order received, deciding it now (R410, R411 steps 1-3); at most `fuel` decided. -/
def startChange : Nat → State → Nat → State
  | 0, s, _ => s
  | fuel + 1, s, number =>
    if s.fabric.changes.any (isChange number) then s
    else match findFirst (fun c => c.number == number) s.fabric.changes, kget s.fabric.groups number with
      | some c, some g =>
        let rest := s.fabric.changes.erase c
        let explicit := match keptGroup s number with | some (_, a) => a.explicit | none => false
        if g.keeper ≠ moduleId s then startChange fuel (changeAnswer (s.modFab fun b => { b with changes := rest }) c 0x1007) number
        else match decideMember s g explicit c.req with
          | (.ends st, s) => startChange fuel (changeAnswer (s.modFab fun b => { b with changes := rest }) c st) number
          | (.change l, s) =>
            let out := match c.req.removes with | some m => if reaches s m then none else some m | none => none
            let others := (g.members.map (·.1)).filter fun m => m != moduleId s && some m != out
            let s := s.modGroup number fun g => { g with held := true, drainTo := none, drained := false }
            let run : GroupChange := { c with
              running := true, step := .hold, newMembers := l, waiting := others, highest := g.started, since := s.power.uptime }
            let s := s.modFab fun b => { b with changes := run :: rest }
            others.foldl (fun s m => sendMsg s m .hold 0 0 [number, g.epoch] []) s
      | some c, none => startChange fuel (changeAnswer (s.modFab fun b => { b with changes := b.changes.erase c }) c 0x1007) number
      | none, _ => s

/-- Step 6: the epoch is written to the GROUP header, RESUME is sent, the write completes and the next change starts. -/
def finishChange (s : State) (number : Nat) (c : GroupChange) : State :=
  match kget s.fabric.groups number with
  | none => dropChange s number
  | some g =>
    let s := match keptGroup s number with
      | some (h, _) =>
        let s := s.modObj h fun o => match o.area with
          | .group a => { o with area := .group { a with members := g.members.length, epoch := g.epoch }, version := o.version + 1 }
          | _ => o
        (journalObj s h).2
      | none => s
    let s := (g.members.filter fun m => m.1 != moduleId s).foldl (fun s m => sendMsg s m.1 .resume 0 0 [number, g.epoch] []) s
    let s := bump (s.modGroup number fun g => { g with held := false, drainTo := none, drained := false }) 0x9074 7 1
    startChange (s.fabric.changes.length + 1) (changeAnswer (dropChange s number) c 0) number

/-- Move the running change on while nobody's reply is awaited (R411 steps 4-6); at most `fuel` steps. -/
def advanceChange : Nat → State → Nat → State
  | 0, s, _ => s
  | fuel + 1, s, number =>
    match findFirst (isChange number) s.fabric.changes, kget s.fabric.groups number with
    | some c, some g =>
      if !c.waiting.isEmpty then s
      else
        let out := match c.req.removes with | some m => if reaches s m then none else some m | none => none
        match c.step with
        | .hold =>
          let others := (g.members.map (·.1)).filter fun m => m != moduleId s && some m != out
          let done' := drainedHere s number g c.highest
          let s := s.modGroup number fun g => { g with drainTo := some c.highest, drained := done' }
          let s := modChange s number fun c => { c with
            step := .drain, waiting := others ++ (if done' then [] else [moduleId s]), since := s.power.uptime }
          let s := others.foldl (fun s m => sendMsg s m .drain 0 0 [number, c.highest] []) s
          advanceChange fuel s number
        | .drain =>
          let both := nubList ((g.members ++ c.newMembers).map (·.1))
          let told := (nubList (both ++ otherModules s)).filter fun m => m != moduleId s && reaches s m
          let s := takeEntry s ⟨number, g.keeper, g.epoch + 1, c.newMembers⟩ true
          let s := modChange s number fun c => { c with
            step := .install, waiting := told.filter fun m => both.contains m, since := s.power.uptime }
          let s := told.foldl (fun s m => sendMsg s m .install 0 0 ([number, g.keeper, g.epoch + 1] ++
            c.newMembers.flatMap fun e => [e.1, e.2.1, e.2.2.getD 255]) []) s
          advanceChange fuel s number
        | .install => finishChange s number c
    | _, _ => s

/-- A reply, or this module's own end of a step: the change moves on with the last one. -/
def changeReply (s : State) (src number highest : Nat) : State :=
  advanceChange 4 (modChange s number fun c => { c with
    waiting := c.waiting.filter (· != src), highest := if c.step = .hold then max c.highest highest else c.highest }) number

/-- Reply to the keeper, which may be this module. -/
def replyKeeper (s : State) (keeper number highest : Nat) : State :=
  if keeper = moduleId s then changeReply s (moduleId s) number highest
  else sendMsg s keeper .changeReply 0 0 [number, highest] []

/-- A DRAIN is answered once the collectives up to N have ended. -/
def drainCheck (s : State) (number : Nat) : State :=
  match kget s.fabric.groups number with
  | some g => (match g.drainTo with
    | some n =>
      if !g.drained && drainedHere s number g n then
        replyKeeper (s.modGroup number fun g => { g with drained := true }) g.keeper number n
      else s
    | none => s)
  | none => s

/-- GROUP_HOLD at a member: no collective or barrier starts, and the highest number started is reported. -/
def groupHold (s : State) (src number epoch : Nat) : State :=
  match kget s.fabric.groups number with
  | some g =>
    if g.keeper = src ∧ g.epoch = epoch ∧ isMember g.members (moduleId s) then
      replyKeeper (s.modGroup number fun g => { g with held := true, drainTo := none, drained := false }) src number g.started
    else s
  | none => s

/-- GROUP_DRAIN at a member. -/
def groupDrain (s : State) (src number upTo : Nat) : State :=
  match kget s.fabric.groups number with
  | some g =>
    if g.keeper = src ∧ g.held then
      drainCheck (s.modGroup number fun g => { g with drainTo := some upTo, drained := false }) number
    else s
  | none => s

/-- GROUP_INSTALL: a newer entry of the keeper is installed; a module of either epoch replies, repeated or not. -/
def groupInstall (s : State) (src : Nat) (e : GroupEntry) : State :=
  let me := moduleId s
  match kget s.fabric.groups e.number with
  | some g =>
    if g.keeper ≠ src ∨ e.keeper ≠ src ∨ e.epoch < g.epoch then s
    else
      let mine := isMember g.members me || isMember e.members me || g.former.contains me
      let s := if g.epoch < e.epoch then
          failColls (takeEntry s e (isMember e.members me)) fun c => c.group == e.number && decide (c.epoch < e.epoch)
        else s
      if mine then sendMsg s src .changeReply 0 0 [e.number, 0] [] else s
  | none =>
    if e.keeper = src then
      let s := s.modFab fun f => { f with claims := f.claims.filter fun c => !(c.number == e.number && c.handle == 0) }
      let s := takeEntry s e (isMember e.members me && decide (1 < e.epoch))
      if isMember e.members me then sendMsg s src .changeReply 0 0 [e.number, 0] [] else s
    else s

/-- GROUP_RESUME at a member. -/
def groupResume (s : State) (src number epoch : Nat) : State :=
  match kget s.fabric.groups number with
  | some g =>
    if g.keeper = src ∧ g.epoch = epoch then s.modGroup number fun g => { g with held := false, drainTo := none, drained := false }
    else s
  | none => s

/-- MEMBERSHIP_REPLY_TIMEOUT: before INSTALL a silent member fails the change, a member being removed is passed over. -/
def replyTimeout (s : State) (number m : Nat) : State :=
  match findFirst (isChange number) s.fabric.changes, kget s.fabric.groups number with
  | some c, some g =>
    if c.step = .install ∨ !c.waiting.contains m ∨ s.power.uptime < c.since + 100000 then s
    else if c.req.removes = some m then changeReply s m number 0
    else
      let s := (g.members.filter fun e => e.1 != moduleId s).foldl (fun s e => sendMsg s e.1 .resume 0 0 [number, g.epoch] []) s
      let s := s.modGroup number fun g => { g with held := false, drainTo := none, drained := false }
      startChange (s.fabric.changes.length + 1) (changeAnswer (dropChange s number) c 0x6001) number
  | _, _ => s

/-- INSTALL_REPEAT: every 100 ms INSTALL goes again to those that have not replied; one without a route is no longer awaited. -/
def installRepeat (s : State) (number : Nat) : State :=
  match findFirst (isChange number) s.fabric.changes, kget s.fabric.groups number with
  | some c, some g =>
    if c.step ≠ .install ∨ s.power.uptime < c.since + 100000 then s
    else
      let left := c.waiting.filter (reaches s)
      let s := left.foldl (fun s m => sendMsg s m .install 0 0 ([number, g.keeper, g.epoch] ++
        g.members.flatMap fun e => [e.1, e.2.1, e.2.2.getD 255]) []) s
      advanceChange 4 (modChange s number fun c => { c with waiting := left, since := s.power.uptime }) number
  | _, _ => s

/-- A write to OD 0x4300:04-06 on this module (R410): a status at once, or none while the change runs or waits its turn. -/
def memberWrite (s : State) (number : Nat) (req : MemberReq) (path : OdPath) (tag : Nat) : Option Nat × State :=
  match kget s.fabric.groups number with
  | none => (some 0x1007, s)
  | some g =>
    if g.keeper ≠ moduleId s then (some 0x1007, s)
    else (none, startChange (s.fabric.changes.length + 2)
      (s.modFab fun b => { b with changes := b.changes ++ [({ number := number, req := req, path := some path, tag := tag } : GroupChange)] }) number)

/-- GROUP_FAILURE_TIMEOUT (R412): an AUTO group loses a member without a route for its failure timeout. -/
def failureTimeout (s : State) (number m : Nat) : State :=
  match keptGroup s number, kget s.fabric.groups number, kget s.fabric.lost (number * 1024 + m) with
  | some (_, a), some g, some t =>
    if a.auto && isMember g.members m && m != g.keeper && !reaches s m && decide (t + a.failTimeout * 1000 ≤ s.power.uptime) &&
       !(s.fabric.changes.any fun c => c.number == number && c.req == .remove m) then
      let idx := match findFirst (fun e => e.1 == m) g.members with | some e => e.2.1 | none => 0
      let s := s.modGroup number fun g => { g with autoOut := g.autoOut ++ [(m, idx)] }
      startChange (s.fabric.changes.length + 2)
        (s.modFab fun b => { b with changes := b.changes ++ [({ number := number, req := .remove m, path := none } : GroupChange)] }) number
    else s
  | _, _, _ => s

/-- After links changed: drains that lost a collective are answered, INSTALLs no longer wait for modules out of reach, and AUTO groups
add back members that have a route again (R411, R412). -/
def settleGroups (s : State) : State :=
  (s.fabric.groups.map (·.1)).foldl (fun s number =>
    let s := drainCheck s number
    let s := match findFirst (isChange number) s.fabric.changes with
      | some c => if c.step = .install ∧ c.waiting.any (fun m => !reaches s m) then
          advanceChange 4 (modChange s number fun c => { c with waiting := c.waiting.filter (reaches s) }) number else s
      | none => s
    match kget s.fabric.groups number with
    | some g =>
      let back := g.autoOut.filter fun e => reaches s e.1 && !isMember g.members e.1
      if g.keeper ≠ moduleId s ∨ back.isEmpty then s
      else
        let rest := g.autoOut.filter fun e => !back.contains e
        let s := s.modGroup number fun g => { g with autoOut := rest }
        startChange (s.fabric.changes.length + back.length + 1) (s.modFab fun b =>
          let add : List GroupChange := back.map fun e => { number := number, req := .add e.1 0, path := none }
          { b with changes := b.changes ++ add }) number
    | none => s) s

/-! ## Collectives (R414-R417) -/

/-- Elements of a sum-reduce: a float format, a sum in FP32; int32 saturates and counts. -/
def sumElem (elem : Nat) (a b : U32) : U32 × Nat :=
  if elem = 11 then
    let (v, sat) := satInt32 (a.toInt + b.toInt)
    (BitVec.ofInt 32 v, if sat then 1 else 0)
  else (fadd a b, 0)

/-- One level of the fixed tree over member indices: pairs (0, 1), (2, 3) and so on; a contribution without a partner passes on. -/
def sumLevel (elem : Nat) : List (Option (List U32)) → List (Option (List U32)) × Nat
  | some a :: some b :: r =>
    let l := (a.zip b).map fun p => sumElem elem p.1 p.2
    let (rest, n) := sumLevel elem r
    (some (l.map (·.1)) :: rest, n + (l.map (·.2)).foldl (· + ·) 0)
  | a :: b :: r =>
    let (rest, n) := sumLevel elem r
    ((match a with | some x => some x | none => b) :: rest, n)
  | [a] => ([a], 0)
  | [] => ([], 0)

/-- The tree, at most `fuel` levels. -/
def sumTree (elem : Nat) : Nat → List (Option (List U32)) → List U32 × Nat
  | 0, _ => ([], 0)
  | _ + 1, [a] => (a.getD [], 0)
  | fuel + 1, l =>
    let (l, n) := sumLevel elem l
    let (r, k) := sumTree elem fuel l
    (r, n + k)

/-- Contributions by member index, gaps none. -/
def byIndex (parts : List CollPart) : List (Option CollPart) :=
  let top := (parts.map (·.member)).foldl max 0
  (List.range (top + 1)).map fun i => findFirst (fun p => p.member == i) parts

/-- Bytes of a result on a member that receives it (R414 operations 1-3), and the saturations of a sum. -/
def collResult (op elem root bytes : Nat) (parts : List CollPart) : List Byte × Nat :=
  match op with
  | 1 => ((match findFirst (fun p => p.member == root) parts with | some p => p.data | none => []), 0)
  | 2 =>
    let (v, n) := sumTree elem 12 ((byIndex parts).map fun p => p.map fun p => (rowCodes elem p.data).map (startCode elem))
    (codeBytes elem (v.map (endCode elem)), n)
  | _ => ((byIndex parts).flatMap fun p => match p with | some p => p.data | none => List.replicate bytes 0, 0)

/-- The elements of a member's result list (R414 operation 4, 12 R324). -/
def listOfBytes (b : List Byte) : List (Nat × U32) :=
  (List.range (fieldAt b 0 8)).map fun i => (fieldAt b (64 + 16 * i) 8, BitVec.ofNat 32 (fieldAt b (64 + 16 * i + 8) 4))

/-- Whether a member receives a result (R414). -/
def receives (op root index : Nat) : Bool := op == 1 || root == 0xFFFF || root == index

/-- Write the result of a collective for the context that issued it. -/
def writeColl (x : CtxId) (r : BitVec 512) (index : Nat) (parts : List CollPart) : Eng Unit := do
  let op := fld r 4 1
  if !receives op (fld r 6 2) index then return
  let s ← getThe State
  let out := oref s x (fld r 0x18 8)
  if op = 4 then
    let all := (byIndex parts).flatMap fun p => match p with
      | some p => (listOfBytes p.data).map fun e => (p.member, e.1, e.2)
      | none => []
    let merged := mergeTop (fld r 0x28 2) all
    let trunc := parts.any fun p => (fieldAt p.data 16 4) % 2 == 1
    let o ← outList x (tracks r) out
    let elems := merged.map fun e => resultElem e.1 e.2
    prepList x o 16 elems false
    saveLists x [(o, elems, if trunc then 1 else 0)]
  else
    let (b, n) := collResult op (fld r 5 1) (fld r 6 2) (fld r 0x20 8) parts
    prepRef x out 0 b.length
    watching x [(out, 0, b)] (saveRef x out 0 b)
    mutate fun s => if n = 0 then s else bump s 0x9074 9 n

/-- This module's index in a group. -/
def myIndex (s : State) (number : Nat) : Nat :=
  match kget s.fabric.groups number with
  | some g => (match findFirst (fun e => e.1 == moduleId s) g.members with | some e => e.2.1 | none => 0)
  | none => 0

def dropColl (s : State) (number n : Nat) : State :=
  drainCheck (s.modFab fun f => { f with colls := f.colls.filter fun c => !(c.group == number && c.number == n) }) number

/-- The parts of a collective agree (R415). -/
def collAgrees (parts : List CollPart) : Bool :=
  match parts with
  | p :: r => r.all fun q => q.op == p.op && q.format == p.format && q.root == p.root && q.bytes == p.bytes && q.k == p.k
  | [] => true

/-- End a collective of this module if every member's part is here: its result is written and its record completes; parts that differ
are a fault on every participant (R415). A store that must wait stalls the context, which tries again. -/
def finishColl (s : State) (number n : Nat) : State :=
  match findFirst (fun c => c.group == number && c.number == n) s.fabric.colls, kget s.fabric.groups number with
  | some c, some g =>
    match c.ctx with
    | none => s
    | some (x, r) =>
      if !(g.members.all fun m => c.parts.any fun p => p.member == m.2.1) then s
      else
        let there := match getCtx s x with
          | some (_, k) => (match k.wait with | .collective a b _ => a == number && b == n | .none => issues s x | _ => false)
          | none => false
        if !there then dropColl s number n
        else if !collAgrees c.parts then ctxFault (dropColl (bump s 0x9074 8 1) number n) x 11 0
        else
          let res := (writeColl x r (myIndex s number) c.parts).run.run s
          -- the collective stays while its context waits to write its output
          let res := match res with
            | (.ok (), t) => (.ok (), modCtx (dropColl (bump t 0x9074 5 1) number n) x fun k => { k with wait := .none })
            | (.error (.waits c), t) => (.error (.waits c), t)
            | (.error (.reads p c), t) => (.error (.reads p c), t)
            | (.error e, t) => (.error e, dropColl t number n)
          recordOutcome s x (fretAfter r) res
  | _, _ => s

/-- Put a part into its collective. -/
def addPartOf (s : State) (p : CollPart) (ctx : Option (CtxId × BitVec 512)) : State :=
  s.modFab fun f =>
    let old := findFirst (fun (c : Coll) => c.group == p.group && c.number == p.number) f.colls
    let others := f.colls.filter fun c => !(c.group == p.group && c.number == p.number)
    let c : Coll := old.getD ⟨p.group, p.epoch, p.number, [], none⟩
    let c : Coll := { c with
      parts := (c.parts.filter fun q => q.member != p.member) ++ [p], ctx := match ctx with | some x => some x | none => c.ctx }
    { f with colls := others ++ [c] }

/-- The packets of a part, cut to what a packet holds. -/
def partPackets (s : State) (m : Nat) (p : CollPart) : State :=
  let fields := fun (off : Nat) => [p.group, p.epoch, p.number, p.member, p.op, p.format, p.root, p.bytes, p.k, off]
  let l := groupsOf 4000 (p.data.length + 1) p.data
  ((List.range (max 1 l.length)).foldl (fun s i => sendMsg s m .collective 0 0 (fields (4000 * i)) ((l[i]?).getD [])) s)

/-- Number of the group that a COLLECTIVE names; 256, which none has, where it names none. -/
def collGroup (s : State) (x : CtxId) (r : BitVec 512) : Nat :=
  match (oref s x (fld r 8 8)).space with | .obj h => groupNumber s h | _ => 256

/-- A member of the group that this module cannot reach. -/
def unreached (s : State) (g : Group) : Bool := g.members.any fun m => !reaches s m.1 || !(m.1 == moduleId s || egressUp s m.1)

/-- A held group begins no collective but those that its drain asks for (R411). -/
def collHeld (g : Group) : Bool := g.held && !(match g.drainTo with | some k => decide (g.started + 1 ≤ k) | none => false)

/-- The first check of a COLLECTIVE's operands that fails: the context fault's code (R414, R415, 05 R150). -/
def collFault (s : State) (x : CtxId) (r : BitVec 512) (number : Nat) (g : Group) : Option Nat :=
  let (op, root, bytes, i) := (fld r 4 1, fld r 6 2, fld r 0x20 8, myIndex s number)
  let out := oref s x (fld r 0x18 8)
  let top := (g.members.map (·.2.1)).foldl max 0
  let need := match op with | 1 | 2 => bytes | 3 => (top + 1) * bytes | _ => 64
  let known := match out.space with | .obj h => homeOf h == moduleId s | _ => true
  if (if root = 0xFFFF then op == 1 else !(g.members.any fun m => m.2.1 == root)) then some 5
  else if 8 ≤ elemBits (fld r 5 1) && bytes % (elemBits (fld r 5 1) / 8) != 0 then some 5
  else if receives op root i && known && decide (refLength s out < out.off + need) then some 5
  else if receives op root i && rangesOverlap out need (oref s x (fld r 0x10 8)) bytes then some 7
  else none

/-- This module's part of the next collective of a group. -/
def collPart (s : State) (r : BitVec 512) (number : Nat) (g : Group) (m : Memory) : CollPart :=
  ⟨number, g.epoch, g.started + 1, myIndex s number, fld r 4 1, fld r 5 1, fld r 6 2, fld r 0x20 8, fld r 0x28 2, mread m 0 (fld r 0x20 8)⟩

/-- A collective begins: it takes the next number of the epoch, this module's part goes to every other member, and the context waits for the
parts of the others (R414). -/
def collBegun (s : State) (x : CtxId) (r : BitVec 512) (g : Group) (p : CollPart) : State :=
  let s := addPartOf (s.modGroup p.group fun g => { g with started := p.number }) p (some (x, r))
  let s := (g.members.filter fun m => m.1 != moduleId s).foldl (fun s m => partPackets s m.1 p) s
  modCtx s x fun c => { c with wait := .collective p.group p.number (fretAfter r), waitSince := s.power.uptime, atFret := false }

/-- Begin a collective (R414, R415). -/
def beginColl (x : CtxId) (r : BitVec 512) : Eng Unit := do
  let s ← getThe State
  let number := collGroup s x r
  match kget s.fabric.groups number with
  | none => stop (.fault 11 0)
  | some g =>
    faultIf (!groupUsable s number) 11 0
    if unreached s g then do
      mutate (bump · 0x9074 6 1)
      stop (.fault 11 0)
    if collHeld g then stop (.waits 0)
    match collFault s x r number g with
    | some code => stop (.fault code (oref s x (fld r 0x18 8)).off)
    | none =>
      let m ← loadRef x (tracks r) (oref s x (fld r 0x10 8)) 0 (fld r 0x20 8)
      mutate fun t => collBegun t x r g (collPart s r number g m)

/-- A collective that a context waits for ends if every part is here. -/
def collNow (s : State) (x : CtxId) : State :=
  match getCtx s x with
  | some (_, c) => (match c.wait with
    | .collective g n _ => finishColl s g n
    | _ => s)
  | none => s

/-- A record's collective, once it has begun. -/
def collOf (s : State) (x : CtxId) (r : BitVec 512) : Option Coll :=
  findFirst (fun (c : Coll) => match c.ctx with | some (y, q) => y == x && q == r | none => false) s.fabric.colls

/-- COLLECTIVE: a record that was stalled at the end of its collective goes on there. -/
def collective (x : CtxId) (r : BitVec 512) (s : State) : State :=
  match collOf s x r with
  | some c =>
    (match readyToRun s x with
    | (true, s) => finishColl s c.group c.number
    | (false, s) => s)
  | none => collNow (runRecord x r (beginColl x r) s) x

/-- COLLECTIVE_PACKET: a member's part of the installed epoch arrives whole. -/
def collectivePacket (s : State) (p : CollPart) : State :=
  match kget s.fabric.groups p.group with
  | some g =>
    if g.epoch = p.epoch ∧ g.members.any (fun m => m.2.1 == p.member) ∧ isMember g.members (moduleId s) then
      finishColl (addPartOf s p none) p.group p.number
    else s
  | none => s

/-! ## Jobs forwarded to this module (06 R183) -/

/-- JOB_FORWARD_REQUEST: admitted here, or refused. -/
def jobForwardRequest (s : State) (j : FwdJob) : State :=
  let answer := fun (s : State) (status : Nat) (b : List Byte) =>
    respond s { blankPacket with src := j.src, tag := j.tag, type := Config.messageCode Msg.jobForward.num } status b
  let p := j.polder
  if !polderDefined s p || !((od s (0x3000 + p) 8).testBit 1) || od s (0x3000 + p) 0xB != j.group then answer s 0x6002 []
  else match admitJob s j.program j.argument p j.priority j.seed.toNat with
    | (.job h, s) => answer (schedBump s p 0xA 1) 0 (toLE 8 h)
    | (.fails e _, s) => answer s e []
    | (.waits, s) => answer s 0x6002 []

/-! ## Group messages during a runtime restart (20 R516) -/

/-- A group message takes effect, or is held until the runtime is ready. -/
def whenReady (s : State) (i : Instr) (f : State → State) : State :=
  if s.power.restarting then s.modFab fun b => { b with heldMsgs := b.heldMsgs ++ [i] } else f s

/-- The effect of a group message that was held. -/
def groupMessage (s : State) (i : Instr) : State :=
  match i with
  | .groupClaim src number => groupClaim s src number
  | .groupRelease src number => groupRelease s src number
  | .directoryExchange port l => directoryExchange s port l
  | .groupHold src number epoch => groupHold s src number epoch
  | .groupDrain src number k => groupDrain s src number k
  | .groupInstall src e => groupInstall s src e
  | .groupResume src number epoch => groupResume s src number epoch
  | .groupChangeReply src number k => changeReply s src number k
  | _ => s

/-- The runtime is ready: what was held takes effect in the order of arrival. -/
def heldMessages (s : State) : State :=
  s.fabric.heldMsgs.foldl groupMessage (s.modFab fun b => { b with heldMsgs := [] })

/-! ## The commands -/

def execCollective (x : CtxId) (r : BitVec 512) (s : State) : Host.Outcome State Fault Refusal := done s (collective x r s)
def execCollectivePacket (p : CollPart) (s : State) : Host.Outcome State Fault Refusal := done s (collectivePacket s p)
def execGroupClaim (src number : Nat) (s : State) : Host.Outcome State Fault Refusal :=
  done s (whenReady s (.groupClaim src number) (groupClaim · src number))
def execGroupRelease (src number : Nat) (s : State) : Host.Outcome State Fault Refusal :=
  done s (whenReady s (.groupRelease src number) (groupRelease · src number))
def execDirectoryExchange (port : Nat) (entries : List GroupEntry) (s : State) : Host.Outcome State Fault Refusal :=
  done s (whenReady s (.directoryExchange port entries) (directoryExchange · port entries))
def execGroupHold (src number epoch : Nat) (s : State) : Host.Outcome State Fault Refusal :=
  done s (whenReady s (.groupHold src number epoch) (groupHold · src number epoch))
def execGroupDrain (src number upTo : Nat) (s : State) : Host.Outcome State Fault Refusal :=
  done s (whenReady s (.groupDrain src number upTo) (groupDrain · src number upTo))
def execGroupInstall (src : Nat) (e : GroupEntry) (s : State) : Host.Outcome State Fault Refusal :=
  done s (whenReady s (.groupInstall src e) (groupInstall · src e))
def execGroupResume (src number epoch : Nat) (s : State) : Host.Outcome State Fault Refusal :=
  done s (whenReady s (.groupResume src number epoch) (groupResume · src number epoch))
/-- GROUP_CHANGE_REPLY at the keeper. -/
def execGroupChangeReply (src number highest : Nat) (s : State) : Host.Outcome State Fault Refusal :=
  done s (whenReady s (.groupChangeReply src number highest) (changeReply · src number highest))
def execMembershipReplyTimeout (number module' : Nat) (s : State) : Host.Outcome State Fault Refusal :=
  done s (replyTimeout s number module')
def execInstallRepeat (number : Nat) (s : State) : Host.Outcome State Fault Refusal := done s (installRepeat s number)
def execGroupFailureTimeout (number module' : Nat) (s : State) : Host.Outcome State Fault Refusal :=
  done s (failureTimeout s number module')
def execJobForwardRequest (j : FwdJob) (s : State) : Host.Outcome State Fault Refusal := done s (tookMsg (jobForwardRequest s j) j.src)

end Sys2Proof.Machine
end

