-- ==== Sys2Proof/Machine/FabricLink.lean ====
section
/-! DEFINITION. Machine/FabricLink.lean: flits, training, light and failures of the fabric ports, link-state floods and packets in transit
(15 R388-R406, R420). -/

namespace Sys2Proof.Machine

/-! ## Flits (R390-R392, R394) -/

/-- Every flit up to an acknowledged sequence leaves the replay buffer; an acknowledgement of no flit held changes nothing. -/
def ackFlits (t : Port) (acked : Nat) : Port :=
  if t.replay.any fun r => r.1 == acked then
    { t with replay := (t.replay.dropWhile fun r => r.1 != acked).drop 1 }
  else t

/-- Credits returned on a virtual channel. -/
def takeCredits (t : Port) (vc n : Nat) : Port :=
  let left := kcount t.used vc - n
  { t with used := if left = 0 then kdel t.used vc else kset t.used vc left }

/-- What a flit that passed its checks says of the flits this port sent: acknowledgements, credits, and a NAK that makes it replay every
flit still unacknowledged. -/
def flitControl (s : State) (n : Nat) (f : Flit) : State :=
  let s := s.modPort n fun t => takeCredits (ackFlits t f.acked) f.creditVc f.credits
  let again := if f.nak then (s.port n).replay.length else 0
  serveEgress 64 (bump (bump s (0x9070 + n) 3 again) (0x9070 + n) 6 again) n

/-- FLIT_RECEIVE: corrected and uncorrectable codewords are counted (R390); a flit that fails its check or follows a gap is dropped and
answered with NAK, one received twice is discarded, and the next in order is accepted (R392). The packets of an accepted flit take effect
by their own commands. -/
def flitReceive (s : State) (n : Nat) (f : Flit) : State :=
  let t := s.port n
  if !t.state.carries && t.state != .miswired then s
  else
    let s := bump (bump s (0x9070 + n) 1 f.corrected) (0x9070 + n) 2 f.badWords
    let ahead := (f.seq + 65536 - t.rxSeq) % 65536
    let nak := fun (s : State) => s.modPort n fun t => { t with nak := true }
    if !f.intact || decide (0 < f.badWords) then nak s
    else if f.idle then flitControl s n f
    else if ahead = 0 then
      flitControl (bump (s.modPort n fun t => { t with rxSeq := (t.rxSeq + 1) % 65536, nak := false }) (0x9070 + n) 7 1) n f
    else if 32768 ≤ ahead then s
    else nak s

/-- RETRY_TIMER: a flit unacknowledged OD 0x4400:02 after its first transmission fails the port (R392). The lower guarantee, the fabric
deadline, yields (01 R29). -/
def retryTimer (s : State) (n : Nat) : State :=
  let late := (s.port n).replay.any fun r => decide (r.2.1 + od s 0x4400 2 ≤ s.power.uptime)
  if late && ((s.port n).state.carries || (s.port n).state == .miswired) then
    settleGroups (yielded (portFail s n) 2 4 (.link n) (.unit (17 + n / 2)))
  else s

/-! ## Training and light (R388, R389, R393, R397, R420) -/

/-- A port the topology gives a link to, enabled and powered. -/
def portWanted (s : State) (n : Nat) : Bool :=
  portAllowed s n && (s.fabric.kind == 5 || (neighbour s (moduleId s) n).isSome)

/-- FAILED_RETRAIN: retraining starts after 1 ms. -/
def failedRetrain (s : State) (n : Nat) : State :=
  let t := s.port n
  if t.state = .failed ∧ t.failedAt + 1000 ≤ s.power.uptime ∧ portWanted s n then startTraining s n false else s

/-- TRAINING_RETRY: a port that met another fabric id, or its own module id, tries again every 100 ms. -/
def trainingRetry (s : State) (n : Nat) : State :=
  let t := s.port n
  if t.state = .training ∧ t.trainAt + 100000 ≤ s.power.uptime then
    s.modPort n fun t => { t with trainAt := s.power.uptime }
  else s

/-- The lanes a port comes up on: all eight, the healthy half, or none (R393). -/
def lanesUp (locked : BitVec 8) : BitVec 8 :=
  if locked = 0xFF then 0xFF
  else if locked &&& 0x0F = 0x0F then 0x0F
  else if locked &&& 0xF0 = 0xF0 then 0xF0
  else 0

/-- An entry into UP or UP_NARROW is a retrain, counted in c5 unless a power transition commanded it; a commanded training into UP_LOW is
counted with the commanded ones (R389, R420). -/
def countTraining (s : State) (n : Nat) (commanded low : Bool) : State :=
  if commanded then bump s (0x9070 + n) 8 1
  else if low then s
  else (bump s (0x9070 + n) 5 1).modRisk fun r => { r with retrains := r.retrains ++ [s.power.uptime] }

/-- PORT_TRAINING_COMPLETE: the port's peer and lanes decide its state. -/
def trainingDone (s : State) (n : Nat) (p : PeerIdent) : State :=
  let t := s.port n
  let lanes := lanesUp p.lanes
  if t.state ≠ .training ∨ !portWanted s n then s
  else if lanes = 0 then settleGroups (portDown s n false)
  else if p.fabricId.toNat ≠ od s 0x4000 2 ∨ p.module = moduleId s then
    s.modPort n fun t => { t with trainAt := s.power.uptime }
  else
    let want := neighbour s (moduleId s) n
    if s.fabric.kind ≠ 5 ∧ (want ≠ some p.module ∨ p.port ≠ meets n) then
      logHealth (s.modPort n fun t => { t with
        state := .miswired, lanes := lanes, peer := p.module, peerPort := p.port, commanded := false }) 0x001C false
        [n, moduleId s, p.module, p.port, want.getD 0xFFFF]
    else
      let low := decide (s.power.ps = 4)
      let s := countTraining s n t.commanded low
      let s := changePort s n fun t => { t with
        state := if low then .upLow else if lanes = 0xFF then .up else .upNarrow
        lanes := if low then lowLanes lanes else lanes
        peer := p.module, peerPort := p.port, commanded := false }
      settleGroups (serveEgress 64 (sendDirectory s n) n)

/-- PORT_SIGNAL_LOSS (R21, R389). -/
def signalLost (s : State) (n : Nat) : State :=
  if !(s.port n).signal then s
  else settleGroups (portDown (s.modPort n fun t => { t with signal := false }) n false)

/-- PORT_RECEIVE_SIGNAL: a port that is wanted lights its lanes and trains (R21, R388, R389). -/
def signalFound (s : State) (n : Nat) : State :=
  let t := s.port n
  if t.signal then s
  else
    let s := s.modPort n fun t => { t with signal := true }
    if t.state = .down ∧ portWanted s n then startTraining s n false else s

/-- LASER_DARK_TIMEOUT: DOWN without a receive signal for more than 1 s (R388). -/
def laserDark (s : State) (n : Nat) : State :=
  let t := s.port n
  if t.state = .down ∧ !t.signal ∧ t.lit ∧ t.dark0 + 1000000 < s.power.uptime then s.modPort n fun t => { t with lit := false } else s

/-- Spare emitter of a port (R388). -/
def spareEmitter (n : Nat) : Nat := if n < 2 then 4 else 5

/-- EMITTER_FAILOVER: the spare of the port that the emitter feeds is switched in, unless it is in use or below its limit too, and the
port retrains (R388). -/
def emitterFailover (s : State) (e : Nat) : State :=
  let s := s.modFab fun f => { f with badEmitters := if f.badEmitters.contains e then f.badEmitters else f.badEmitters ++ [e] }
  match findFirst (fun n => (s.port n).emitter == e) [0, 1, 2, 3] with
  | none => s
  | some n =>
    let spare := spareEmitter n
    if s.fabric.badEmitters.contains spare || s.fabric.ports.any (fun t => t.emitter == spare) then s
    else
      let s := s.modPort n fun t => { t with emitter := spare }
      if (s.port n).state = .down then s else settleGroups (startTraining s n false)

/-- PEER_UP_LOW: the port follows its peer into two-lane low power (R420). -/
def peerLow (s : State) (n : Nat) : State := portLow s n

/-! ## Floods and transit (R399, R401, R406) -/

/-- LINK_STATE_FLOOD: the highest number of each module and port is kept; a change applied advances the link epoch. -/
def linkFlood (s : State) (m n : Nat) (up : Bool) (number : Nat) : State :=
  let key := m * 4 + n
  let seen := match kget s.fabric.links key with | some (_, k) => k | none => 0
  if m = moduleId s ∨ number ≤ seen then s
  else
    let s := bump (s.modFab fun f => { f with links := kset f.links key (up, number) }) 0x4000 8 1
    settleGroups (afterLinks s)

/-- PACKET_TRANSIT: forwarded on the route it carries; dropped at the hop limit; without a port that carries it, handled as held packets
of a failed port are. -/
def packetTransit (s : State) (n : Nat) (p : Packet) : State :=
  if p.dest = moduleId s ∨ !((s.port n).state.carries || ((s.port n).state == .miswired && p.tclass == 3)) then s
  else if od s 0x4000 6 ≤ p.hops then
    let s := bump s 0x9074 3 1
    if p.tclass = 0 then respond s p 0x6001 [] else s
  else match egressOf s p (some n) with
    | some (port, d) =>
      if (s.port port).state.carries || ((s.port port).state == .miswired && p.tclass == 3) then
        enqueue (bump s 0x9074 2 1) port { p with hops := p.hops + 1, dateline := d }
      else if p.tclass = 0 then respond s p 0x6004 [] else s
    | none => if p.tclass = 0 then respond s p 0x6004 [] else s

def execFlitReceive (port : Nat) (f : Flit) (s : State) : Host.Outcome State Fault Refusal := done s (flitReceive s port f)
def execRetryTimer (port : Nat) (s : State) : Host.Outcome State Fault Refusal := done s (retryTimer s port)
def execFailedRetrain (port : Nat) (s : State) : Host.Outcome State Fault Refusal := done s (failedRetrain s port)
def execTrainingRetry (port : Nat) (s : State) : Host.Outcome State Fault Refusal := done s (trainingRetry s port)
def execPortTrainingComplete (port : Nat) (p : PeerIdent) (s : State) : Host.Outcome State Fault Refusal := done s (trainingDone s port p)
def execPortSignalLoss (port : Nat) (s : State) : Host.Outcome State Fault Refusal := done s (signalLost s port)
def execPortReceiveSignal (port : Nat) (s : State) : Host.Outcome State Fault Refusal := done s (signalFound s port)
def execLaserDarkTimeout (port : Nat) (s : State) : Host.Outcome State Fault Refusal := done s (laserDark s port)
def execEmitterFailover (e : Nat) (s : State) : Host.Outcome State Fault Refusal := done s (emitterFailover s e)
def execPeerUpLow (port : Nat) (s : State) : Host.Outcome State Fault Refusal := done s (peerLow s port)
def execLinkStateFlood (m n : Nat) (up : Bool) (number : Nat) (s : State) : Host.Outcome State Fault Refusal :=
  done s (linkFlood s m n up number)
def execPacketTransit (port : Nat) (p : Packet) (s : State) : Host.Outcome State Fault Refusal := done s (packetTransit s port p)

end Sys2Proof.Machine
end

