-- ==== Sys2Proof/Machine/Media.lean ====
section
/-! DEFINITION. Machine/Media.lean: what happens on the flash tier by itself: programs, erases and reads that end, suspends, the
close timer, the journal's interval, checkpoints, garbage collection, wear levelling, refresh, patrol and berm grants (13). -/

namespace Sys2Proof.Machine

/-! ## References to pages -/

/-- Staged units of every live transaction and branch (R364). -/
def stagedUnits (s : State) : List (Nat × Option Nat) := (allTxs s).flatMap fun e => e.2.units

/-- The newest checkpoint record of each segment, its sequence number, newest first (R360). -/
def checkpoints (s : State) : List (Nat × Nat × List Nat) :=
  ((s.flash.journal ++ s.flash.jpend).reverse.filterMap fun r => match r.2 with
    | .checkpoint g l => some (r.1, g, l)
    | _ => none).foldl (fun acc c => if acc.any (fun d => d.2.1 == c.2.1) then acc else acc ++ [c]) []

/-- A page holds valid data: it is the current page of a unit, a page that an undecided transaction staged, or part of the newest
checkpoint of a segment (R360, R364). -/
def validPage (s : State) (ppa : Nat) (p : Page) : Bool :=
  match p.kind with
  | .data => kget s.flash.map p.lu == some ppa || (stagedUnits s).any (fun u => u.2 == some ppa) ||
      (p.partCopy && s.parcels.any fun e => e.2.state == .migDown && e.2.writing.contains ppa)
  | .checkpoint => (checkpoints s).any fun c => c.2.2.contains ppa
  | _ => false

/-- Valid pages of a block, in page order. -/
def validPages (s : State) (b : Nat) : List (Nat × Page) :=
  s.flash.pages.filter fun e => ppaBlock e.1 == b && validPage s e.1 e.2

/-- A block is still referenced: by the map, by durable map state, by a staged page, by a record not yet durable, or because it
holds a page of a PREPARED branch (R364, R365). -/
def referenced (s : State) (b : Nat) : Bool :=
  let here := fun (ppa : Nat) => ppaBlock ppa == b
  s.flash.map.any (fun e => here e.2) || s.flash.durMap.any (fun e => here e.2) ||
  (stagedUnits s).any (fun u => match u.2 with | some ppa => here ppa | none => false) ||
  s.flash.jpend.any (fun r => match r.2 with
    | .commit _ _ units .. => units.any fun u => match u.2 with | some ppa => here ppa | none => false
    | .map _ ppa => here ppa
    | _ => false) ||
  (checkpoints s).any (fun c => c.2.2.any here) ||
  s.parcels.any (fun e => e.2.state == .migDown && e.2.writing.any here) ||
  s.branches.any (fun e => e.2.state == .prepared && s.flash.pages.any fun q => here q.1 && q.2.tx == e.1) ||
  s.flash.courses.any fun c => here (c.1 * 4)

/-- Courses that wait for their die, and victims that nothing refers to any more, start on the dies that are free (R337, R352, R365). -/
def startDies (s : State) : State :=
  if !canProgram s then s
  else
    let s := s.flash.courses.foldl (fun s e => courseGo s e.1) s
    ((s.flash.blocks.filter fun e => e.2.state == .erasing).map (·.1)).foldl (fun s b =>
      if referenced s b then s else dieStart s (b / 8192) true b) s

/-- Every reference to a page goes to the page that now holds its data (R347, R365). -/
def rename (s : State) (lu old new : Nat) : State :=
  let unit := fun (u : Nat × Option Nat) => if u.2 = some old then (u.1, some new) else u
  let tx := fun (t : Tx) => { t with units := t.units.map unit }
  let pages := fun (l : List Nat) => l.map fun x => if x = old then new else x
  let s := match kget s.flash.pages old with
    | some q =>
      let mark := fun (p : Page) => { p with partCopy := q.partCopy, undone := q.undone, top := q.top }
      let wb := fun (w : WriteBack) => { w with pages := pages w.pages }
      s.modFlash fun f => { f with pages := kmod f.pages new mark, wbs := f.wbs.map wb }
    | none => s
  let s := s.modFlash fun f => { f with map := if kget f.map lu = some old then kset f.map lu new else f.map }
  let jp := s.flash.jpend.map fun r => match r.2 with
    | .prepared i b lines rows => (r.1, JRec.prepared i (tx b) lines rows)
    | .commit i q units lines parts rows idx trims => (r.1, JRec.commit i q (units.map unit) lines parts rows idx trims)
    | .checkpoint g l => (r.1, JRec.checkpoint g (pages l))
    | x => (r.1, x)
  let s := s.modFlash fun f => { f with jpend := jp }
  { s with
    txs := kmap s.txs fun _ t => tx t
    branches := kmap s.branches fun _ t => tx t
    parcels := kmap s.parcels fun _ p => { p with writing := pages p.writing }
    execs := kmap s.execs fun _ e => match e.wait with
      | .pages l st v => { e with wait := .pages (pages l) st v }
      | _ => e }

/-- Move one valid page to a course of a stream, as a copy that keeps its unit and transaction id (R365 steps 3 and 4). A page that cannot
be decoded stays where it is (R29). -/
def movePage (s : State) (stream : BlockState) (ppa user : Nat) (p : Page) : State :=
  if p.bad then s
  else match placePage s stream p.lu p.kind p.tx true user p.data with
    | (none, s) => s
    | (some new, s) =>
      -- a checkpoint page moves by a new checkpoint record of its segment
      let moved := (checkpoints s).filter fun c => c.2.2.contains ppa
      let s := moved.foldl (fun s c => (jadd s (.checkpoint c.2.1 (c.2.2.map fun x => if x = ppa then new else x))).2) s
      rename s p.lu ppa new

/-- Read the valid pages of a block into berm buffers, in the class of the work; each is copied when its read ends (R365 steps 1 and 2). -/
def readValid (s : State) (b cls : Nat) (gc : Bool) : State :=
  (validPages s b).foldl (fun s e =>
    if s.flash.reads.any (fun r => r.ppa == e.1 && r.use == .copy gc) then s else askRead s e.1 cls 0xFF (.copy gc)) s

/-- Issue class of the GC of a plane: class 4 at or below the floor (R338, R365). -/
def gcClass (s : State) (plane : Nat) : Nat := if (freeBlocks s plane).length ≤ od s 0x2240 1 then 4 else 6

/-- Have a block's valid pages copied away and queue it for erase (R365 steps 1 and 2); `gc` false: refresh or wear levelling. -/
def clearBlock (s : State) (b : Nat) (gc : Bool) : State :=
  let s := readValid s b (if gc then gcClass s (b / 2048) else 6) gc
  startDies (s.modFlash fun f => { f with
    blocks := kset f.blocks b { blockOf s b with state := .erasing }
    refreshQ := f.refreshQ.filter (· != b) })

/-- A valid page has been read for a copy: it moves, if it is still valid. -/
def copyPage (s : State) (ppa user : Nat) : State :=
  match kget s.flash.pages ppa with
  | some p => if validPage s ppa p then startDies (movePage s .openGc ppa user p) else s
  | none => s

/-! ## Retirement (R368, R369) -/

/-- Fewest spares that any plane has (OD 0x2200:02). -/
def fewestSpares (s : State) : Nat :=
  ((List.range (planeCount s)).map fun k => sparesLeft s (planeBits s k)).foldl min 56

/-- The module becomes read-only: recorded, and every open course padded (R369). -/
def becomeReadOnly (s : State) (plane : Nat) : State :=
  if s.flash.readOnly then s
  else padAll (logHealth (s.modFlash fun f => { f with readOnly := true }) 0x0012 false [plane, kcount s.flash.retirements plane])

/-- Retire a block: its plane gives a spare, and its other valid pages move at class 4. `cause`: 1 a program failure, 2 an erase
failure, 3 an unrecovered read with a failed block test (R347, R368). -/
def retireBlock (s : State) (b cause : Nat) : State :=
  let plane := b / 2048
  let k := blockOf s b
  if k.state = .retired then s
  else
    let left := sparesLeft s plane - 1
    let r : Block := { k with state := .retired }
    let s := s.modFlash fun f => { f with
      blocks := kset f.blocks b r
      retirements := kset f.retirements plane (kcount f.retirements plane + 1)
      spares := kset f.spares plane left }
    let s := bump (logHealth (jadd s (.block b r)).2 0x0011 false [(b * 4096 : Nat), cause, left]) 0x9050 0xA 1
    let s := if left + 1 = od s 0x2200 3 then logHealth s 0x001A false [plane, left, 0] else s
    let s := if s.flash.readOnly then s else readValid s b 4 true
    startDies (if left = 0 then becomeReadOnly s plane else s)

/-! ## Programs -/

/-- The die of an operation is free again. -/
def dieFree (s : State) (die : Nat) : State := s.modFlash fun f => { f with dies := kdel f.dies die }

/-- Write-backs that have completed advance the header version once each, unless a FLUSH or FUA command covers them: it advances the
version once when it ends (02 R527). -/
def landVersions (s : State) : State :=
  let covered := fun (w : WriteBack) => s.execs.any fun e => match e.2.wait with | .pages l .. => w.pages.any l.contains | _ => false
  (s.flash.wbs.filter fun w => w.pages.all (pageClosed s) && !covered w).foldl (fun s w =>
    (journalObj (bumpVersion (s.modFlash fun f => { f with wbs := f.wbs.erase w }) w.obj) w.obj).2) s

/-- A demotion's copy whose pages are all durable: the map refers to it from now on (02 R53). -/
def landCopies (s : State) : State :=
  (s.parcels.filter fun e => e.2.state == .migDown && e.2.writing.all (pageClosed s)).foldl (fun s e =>
    e.2.writing.foldl (fun s x => match kget s.flash.pages x with
      | some p => if !p.partCopy then s
        else (jadd (mapUnit (s.modFlash fun f => { f with pages := kmod f.pages x fun p => { p with partCopy := false } }) p.lu x)
          (.map p.lu x)).2
      | none => s) s) s

/-- Parcels whose write-back has become durable: clean, unless a live transaction has stores in them (02 R43, R528); the staging
copy of a PINNED_FLASH parcel is released (02 R46). A demotion switches by itself (02 R52 step 6). -/
def landParcels (s : State) : State :=
  let s := landVersions (landCopies s)
  (s.parcels.filter fun e => e.2.state == .dramDirty && !e.2.writing.isEmpty && e.2.writing.all (pageClosed s)).foldl (fun s e =>
    let held := !(openLines s e.1).isEmpty
    let release := match kget s.objs e.2.obj with | some o => o.policy == 2 && o.pinCount == 0 | none => false
    if held then s.modParcel e.1 fun p => { p with writing := [] }
    else
      let s := s.modParcel e.1 fun p => { p with state := .dramClean, hasFlash := true, writing := [] }
      if release then dropDram s e.1 .flash else s) s

/-- A course closes: its pages are durable, their map deltas enter the journal, and what waited on them goes on (R345, R348, R359). -/
def closeCourse (s : State) (c : Nat) : State :=
  let ppas := (List.range 4).map (c * 4 + ·)
  let s := s.modFlash fun f => { f with
    courses := kdel f.courses c
    pages := ppas.foldl (fun m x => kmod m x fun p => { p with closed := true }) f.pages
    blocks := kmod f.blocks (c / 1024) fun k => { k with closedAt := s.seq } }
  let s := ppas.foldl (fun s x => match kget s.flash.pages x with
    | some p => if p.kind = .data ∧ kget s.flash.map p.lu = some x ∧ kget s.flash.durMap p.lu ≠ some x
        then (jadd s (.map p.lu x)).2 else s
    | none => s) s
  afterOutcome (startDies (landParcels s))

/-- COURSE_PROGRAM_COMPLETE: the program of the last position closes the course; before it, a pass of open-course mode ends (R345). -/
def courseDone (s : State) (c : Nat) : State :=
  match kget s.flash.courses c with
  | some k =>
    if dieRuns s (ppaDie (c * 4)) false c then
      let s := dieFree s (ppaDie (c * 4))
      if k.sent = 4 then closeCourse s c else startDies s
    else s
  | none => s

/-- What waits on pages that will never be durable fails with 0x2002 (R369). -/
def failPages (s : State) (ppas : List Nat) : State :=
  let s := { s with execs := kmap s.execs fun _ e => match e.wait with
    | .pages l _ _ => if l.any ppas.contains then { e with wait := .ready 0x2002 0 } else e
    | _ => e }
  let lost := fun (t : Tx) => t.units.any fun u => match u.2 with | some x => ppas.contains x | none => false
  let s := (s.txs.filter fun e => e.2.state == .committing && lost e.2).foldl (fun s e => failCommit s e.1 0x2002) s
  (s.branches.filter fun e => e.2.state == .prepared && e.2.preparedAt.isNone && lost e.2).foldl (fun s e =>
    sendMsg (rollBranch s e.1) (coordOf e.1) .vote e.1 0x3001 [0] []) s

/-- PROGRAM_FAILURE: the course's pages are written again elsewhere and its block is retired (R347); in the read-only state nothing is
written again (R369). -/
def programFails (s : State) (c : Nat) : State :=
  match kget s.flash.courses c with
  | some k =>
    if ¬ dieRuns s (ppaDie (c * 4)) false c then s
    else
      let s := courseSent (bump (dieFree s (ppaDie (c * 4))) 0x9050 9 1) c
      let old := (List.range 4).filterMap fun i => (kget s.flash.pages (c * 4 + i)).map fun p => (c * 4 + i, p)
      let s := s.modFlash fun f => { f with courses := kdel f.courses c }
      let ro := s.flash.readOnly
      -- the block takes no more courses
      let s := s.modFlash fun f => { f with blocks := kmod f.blocks (c / 1024) fun b => { b with state := .full } }
      let s := if ro then failPages s (old.map (·.1))
        else
          let s := old.foldl (fun s e =>
            if e.2.kind = .padding then s
            else match placePage s k.stream e.2.lu e.2.kind e.2.tx e.2.copy ((k.users.getD (e.1 % 4) none).getD 0) e.2.data with
              | (some new, s) => rename s e.2.lu e.1 new
              | (none, s) => s) s
          let s := s.modFlash fun f => { f with pages := kfilter f.pages fun x _ => x / 4 != c }
          -- the rewritten pages take over the durable events of the course
          if k.waitedSince.isSome then
            awaitPages s ((s.flash.courses.filter fun e => e.2.stream == k.stream).map fun e => e.1 * 4)
          else s
      afterOutcome (startDies (retireBlock s (c / 1024) 1))
  | none => s

/-- BLOCK_ERASE_COMPLETE (R365 step 7); a failed erase retires the block (R368). -/
def eraseDone (s : State) (b : Nat) (ok : Bool) : State :=
  if !dieRuns s (b / 8192) true b then s
  else
    let s := dieFree s (b / 8192)
    let s := s.modFlash fun f => { f with pages := kfilter f.pages fun x _ => ppaBlock x != b }
    if ok then
      let k : Block := { eraseCount := (blockOf s b).eraseCount + 1 }
      startDies (jadd (s.modFlash fun f => { f with blocks := kset f.blocks b k }) (.block b k)).2
    else retireBlock s b 2

/-! ## Suspend and resume (R350) -/

/-- Reads queued for a die that may suspend it. -/
def suspenders (s : State) (die : Nat) : Nat :=
  (s.flash.reads.filter fun r => ppaDie r.ppa == die && (r.cls == 2 || r.cls == 3)).length

/-- SUSPEND_RUN_TIME: a held request is issued. -/
def suspendHeld (s : State) (die : Nat) : State :=
  match kget s.flash.dies die with
  | none => s
  | some d =>
    if !d.held || d.suspended || decide (s.power.uptime < d.startedAt + od s 0x2250 1) then s
    else
      let s := s.modFlash fun f => { f with dies := kset f.dies die { d with held := false } }
      if suspenders s die = 0 then s else askSuspend s die

/-- DIE_RESUME: reads still queued request the next suspend. -/
def dieResumes (s : State) (die : Nat) : State :=
  match kget s.flash.dies die with
  | none => s
  | some d =>
    if !d.suspended || (decide (0 < suspenders s die) && decide (d.reads < 16)) then s
    else
      let s := s.modFlash fun f => { f with
        dies := kset f.dies die { d with suspended := false, startedAt := s.power.uptime, reads := 0 } }
      if suspenders s die = 0 then s else askSuspend s die

/-! ## Timers of the translation layer -/

/-- CLOSE_TIMER (R349). -/
def closeTimer (s : State) (c : Nat) : State :=
  match kget s.flash.courses c with
  | some k =>
    (match k.waitedSince with
    | some t => if t + od s 0x2231 0 ≤ s.power.uptime then padCourse 4 s c else s
    | none => s)
  | none => s

/-- JOURNAL_INTERVAL (R359): victims whose remaps are durable now can be erased (R365). -/
def journalInterval (s : State) : State :=
  match s.flash.jsince with
  | some t =>
    if t + od s 0x2210 0 ≤ s.power.uptime ∧ canProgram s then startDies (serveHeld (afterJournal (journalFlush s))) else s
  | none => s

/-- Segments of the map: 65,536 entries each (R360). -/
def segmentCount (s : State) : Nat := ceilDiv (od s 0x2000 3 / pageBytes) 65536

/-- Journal records older than every segment's newest checkpoint are released. What a rebuild still needs of them beside the map
stays: branches, outcomes, objects, high marks and states. -/
def releaseJournal (s : State) : State :=
  let cs := (checkpoints s).filter fun c => decide (c.1 ≤ s.flash.jdone)
  if cs.length < segmentCount s then s
  else match cs.getLast? with
    | none => s
    | some c =>
      let keep := fun (r : Nat × JRec) => decide (c.1 ≤ r.1) || (match r.2 with
        | .map .. | .unmap .. | .block .. | .stream | .checkpoint .. | .health .. => false
        | _ => true)
      s.modFlash fun f => { f with journal := f.journal.filter keep }

/-- MAP_CHECKPOINT: the next segment's 20 pages go to the checkpoint stream (R345, R360), while the flash quadrants run (01 R23). -/
def mapCheckpoint (s : State) : State :=
  if !flashOn s then s
  else
  let g := s.flash.ckptNext
  let (ppas, s) := (List.range 20).foldl (fun acc _ =>
    let (x, s) := placePage acc.2 .openMeta 0xFFFFFFFFFF .checkpoint 0 false 0 []
    (acc.1 ++ x.toList, s)) (([] : List Nat), s)
  let s := (jadd s (.checkpoint g ppas)).2
  releaseJournal (s.modFlash fun f => { f with ckptNext := if segmentCount s ≤ g + 1 then 0 else g + 1 })

/-! ## Garbage collection, wear levelling, refresh, patrol (R364-R367, R371) -/

/-- Full blocks of a plane none of whose courses is still open. -/
def fullBlocks (s : State) (plane : Nat) : List Nat :=
  (planeBlocks s plane).filter fun b => (blockOf s b).state == .full && !s.flash.courses.any fun c => c.1 / 1024 == b

/-- GC_START: the victim is the block with the fewest valid pages, among equals the one that closed first. -/
def gcStart (s : State) (plane : Nat) : State :=
  if s.flash.readOnly || !canProgram s || decide (od s 0x2240 2 < (freeBlocks s plane).length) then s
  else
    let key := fun (b : Nat) => ((validPages s b).length, (blockOf s b).closedAt)
    match bestBy (fun a b => decide ((key a).1 < (key b).1) || (decide ((key a).1 = (key b).1) && decide ((key a).2 < (key b).2)))
        (fullBlocks s plane) with
    | none => s
    | some b => clearBlock s b true

/-- WEAR_LEVEL (13 R366): the coldest full block is the one that closed first (DESIGN CHOICE, log entry 156). -/
def wearLevel (s : State) (plane : Nat) : State :=
  let counts := (planeBlocks s plane).map fun b => (blockOf s b).eraseCount
  let top := counts.foldl max 0
  if s.flash.readOnly || !canProgram s || decide (top - counts.foldl min top ≤ od s 0x2200 7) then s
  else match bestBy (fun a b => decide ((blockOf s a).closedAt < (blockOf s b).closedAt)) (fullBlocks s plane) with
    | none => s
    | some b => clearBlock s b false

/-- BLOCK_REFRESH. -/
def blockRefresh (s : State) (b : Nat) : State :=
  if s.flash.readOnly || !canProgram s || !s.flash.refreshQ.contains b || !(fullBlocks s (b / 2048)).contains b then s
  else clearBlock s b false

/-- Queue a block for refresh. -/
def queueRefresh (s : State) (b : Nat) : State :=
  s.modFlash fun f => { f with refreshQ := if f.refreshQ.contains b then f.refreshQ else f.refreshQ ++ [b] }

/-- PATROL_READ: at a power-up within the first second every block is read by samples, later the blocks programmed hot; `slow` are
those whose sample pages needed step 2 of R343. -/
def patrolRead (s : State) (slow : List Nat) : State :=
  let first := decide (s.power.uptime ≤ 1000000)
  if !first && s.flash.patrolQ.isEmpty then s
  else
    let found := (nubList slow).filter fun b => (first || s.flash.patrolQ.contains b) && s.flash.pages.any fun e => ppaBlock e.1 == b
    let s := bump (bump s 0x9050 1 found.length) 0x9050 6 found.length
    let s := found.foldl (fun s _ => retriedPage s) s
    (found.foldl queueRefresh s).modFlash fun f => { f with patrolQ := [] }

/-- BERM_BUFFER_GRANT: the first waiting request of a channel that can draw a buffer gets one, in issue-class order (R338, R339). -/
def bermGrant (s : State) (channel : Nat) : State :=
  let l := sortBy (fun a b => decide (a.cls < b.cls)) (s.flash.bermWait.filter fun w => w.channel == channel)
  match findFirst (fun w => (bermDraw s channel w.user w.cls).isSome) l with
  | none => s
  | some w => startDies (((bermDraw s channel w.user w.cls).getD s).modFlash fun f => { f with bermWait := f.bermWait.erase w })

/-! ## Page reads (R343) -/

/-- A page read needed steps beyond the first: counted, its block queued for refresh, the retried codewords fed to c1 (R367, 10 R269). -/
def readSteps (s : State) (ppa : Nat) (soft : Bool) : State :=
  let s := bump (bump s 0x9050 6 1) 0x9050 7 (if soft then 1 else 0)
  retriedPage (queueRefresh s (ppaBlock ppa))

/-- A page read of a context: what delayed it counts among the causes of its stall, a reread as 3, a soft decode as 6 (02 R56, R343). -/
def noteReadCauses (s : State) (r : PageRead) (o : ReadOutcome) : State :=
  match r.use with
  | .context x => modCtx s x fun c => { c with causes := c.causes ++ pageCauses s r.use r.ppa ++
      (match o with | .hard => [] | .reread => [3] | .soft | .failed => [3, 6]) }
  | _ => s

/-- What a page read served goes on with its page: a copy is programmed, a context or a peer finds it in its buffer, and read-ahead keeps
the buffer (R365, 02 R50, R55). -/
def readServed (s : State) (r : PageRead) (ok : Bool) : State :=
  match r.use with
  | .copy _ => if ok then copyPage s r.ppa (readUser r.cls r.use) else s
  | .context _ | .peer _ => s.modFlash fun f => { f with arrived := f.arrived ++ [(r.use, r.ppa)] }
  | .ahead => if ok then s.modFlash fun f => { f with ahead := f.ahead ++ [r.ppa] } else bermDone s (ppaChannel r.ppa) 6 6
  | _ => s

/-- The page decodes from now on, or does not. -/
def setBad (s : State) (ppa : Nat) (bad : Bool) : State :=
  s.modFlash fun f => { f with pages := kmod f.pages ppa fun p => { p with bad := bad } }

/-- NAND_PAGE_READ_COMPLETE: the oldest read queued for the page ends. A die busy with a program or erase reads only while it is
suspended (R350), and no quadrant reads while it does not run (01 R23). Prefetches end by their own command (05 R153). -/
def pageRead (s : State) (ppa : Nat) (o : ReadOutcome) : State :=
  let free := flashOn s && (match kget s.flash.dies (ppaDie ppa) with | some d => d.suspended | none => true)
  match findFirst (fun r => r.ppa == ppa && r.use != .prefetch) s.flash.reads with
  | none => s
  | some r =>
    if !free then s
    else
      let s := s.modFlash fun f => { f with
        reads := f.reads.erase r
        dies := kmod f.dies (ppaDie ppa) fun d => { d with reads := d.reads + 1 } }
      let s := noteReadCauses s r o
      let s := countRead s ppa
      let s := if r.use = .ahead then s else bermDone s (ppaChannel ppa) (readUser r.cls r.use) r.cls
      let s := match o with
        | .hard => setBad s ppa false
        | .reread => readSteps (setBad s ppa false) ppa false
        | .soft => readSteps (setBad s ppa false) ppa true
        | .failed =>
          let s := unrecovered (setBad (readSteps s ppa true) ppa true) ppa
          if Config.blockTest (ppaBlock ppa) then s else retireBlock s (ppaBlock ppa) 3
      serveHeld (readServed s r (o != .failed))

/-! ## The commands -/

def execNandPageReadComplete (ppa : Nat) (o : ReadOutcome) (s : State) : Host.Outcome State Fault Refusal := done s (pageRead s ppa o)
def execCourseProgramComplete (c : Nat) (s : State) : Host.Outcome State Fault Refusal := done s (courseDone s c)
def execProgramFailure (c : Nat) (s : State) : Host.Outcome State Fault Refusal := done s (programFails s c)
def execBlockEraseComplete (b : Nat) (ok : Bool) (s : State) : Host.Outcome State Fault Refusal := done s (eraseDone s b ok)
def execSuspendRunTime (die : Nat) (s : State) : Host.Outcome State Fault Refusal := done s (suspendHeld s die)
def execDieResume (die : Nat) (s : State) : Host.Outcome State Fault Refusal := done s (dieResumes s die)
def execCloseTimer (c : Nat) (s : State) : Host.Outcome State Fault Refusal := done s (closeTimer s c)
def execJournalInterval (s : State) : Host.Outcome State Fault Refusal := done s (journalInterval s)
def execMapCheckpoint (s : State) : Host.Outcome State Fault Refusal := done s (mapCheckpoint s)
def execGcStart (plane : Nat) (s : State) : Host.Outcome State Fault Refusal := done s (gcStart s plane)
def execWearLevel (plane : Nat) (s : State) : Host.Outcome State Fault Refusal := done s (wearLevel s plane)
def execBlockRefresh (b : Nat) (s : State) : Host.Outcome State Fault Refusal := done s (blockRefresh s b)
def execPatrolRead (slow : List Nat) (s : State) : Host.Outcome State Fault Refusal := done s (patrolRead s slow)
def execBermBufferGrant (channel : Nat) (s : State) : Host.Outcome State Fault Refusal := done s (bermGrant s channel)

end Sys2Proof.Machine
end

