-- ==== Sys2Proof/Machine/Upkeep.lean ====
section
/-! DEFINITION. Machine/Upkeep.lean: the health monitor's risk, heat, migration between the tiers and the write-backs that no
command asks for (10 R269-R271, 02 R46-R53, R528). -/

namespace Sys2Proof.Machine

/-! ## Risk -/

/-- c1 (R269): corrections in the last 10 s against their mean per 10 s over the last hour, or over the uptime so far. -/
def riskTrend (s : State) : Nat :=
  let hour := 3600000000
  let w := min s.power.uptime hour
  let n10 := (within s 10000000 s.risk.corrected).length
  let sum := (within s hour s.risk.corrected).length * 10000000
  if sum ≤ w then 8192 * (n10 - 1)
  else 8192 * (n10 * w - sum) / sum

/-- The six components (R269), saturating. -/
def riskComps (s : State) : List Nat :=
  let minute := 60000000
  let h := if s.power.healthZero then 0 else s.power.health
  [ riskTrend s
  , 16384 * (within s minute s.risk.uncorrectable).length
  , 2048 * (s.power.sensors.die - (od s 0x7003 1 : Int)).toNat
  , 8192 * (within s minute s.risk.droops).length
  , 4096 * (within s minute s.risk.retrains).length
  , 1024 * (100 - h) ].map (min 65535)

/-- The risk of six components (R270). -/
def riskOf (s : State) (cs : List Nat) : Nat :=
  min 65535 ((((List.range 6).map fun i => od s 0x7001 (i + 1) * (cs[i]?).getD 0).foldl (· + ·) 0) / 16)

/-- The health monitor runs: it stops while PD19 is in retention (20 R510). -/
def monitorOn (s : State) : Bool := s.power.pd[19]? != some .ret

/-- RISK_RECOMPUTE, every 100 ms of uptime: the risk, its crossings of the threshold, and the triggers it arms (R269-R271). -/
def riskRecompute (s : State) (t : Sensors) : State :=
  if s.power.uptime % 100000 ≠ 0 ∨ !monitorOn s then s
  else
    let s := s.modPower fun p => { p with sensors := t, highest := max p.highest t.die }
    let c := riskComps s
    let new := riskOf s c
    let old := s.risk.risk
    let th := od s 0x7002 1
    let minute := 60000000
    let hour := 3600000000
    let s := s.modRisk fun r => { r with
      risk := new, highest := max r.highest new, comps := c
      corrected := within s hour r.corrected
      uncorrectable := within s minute r.uncorrectable
      droops := within s minute r.droops
      retrains := within s minute r.retrains }
    let s := if decide (old < th) && decide (th ≤ new) then logHealth s 0x0020 false ((1 : Int) :: c.map Int.ofNat)
      else if decide (th ≤ old) && decide (new < th) then logHealth s 0x0020 false ((0 : Int) :: c.map Int.ofNat) else s
    if new < th then s
    else { s with jobs := kmap s.jobs fun _ j =>
      if j.stepBound = 0 then j
      else if old < th ∨ (j.riskTime.isSome ∧ j.riskAt + od s 0x7002 2 ≤ new) then { j with armed := true }
      else j }

/-- RISK_REARM_INTERVAL (R271). -/
def riskRearm (s : State) (h : Nat) : State :=
  if s.risk.risk < od s 0x7002 1 ∨ !monitorOn s then s
  else s.modJob h fun j => match j.riskTime with
    | some t => if j.stepBound ≠ 0 ∧ t + od s 0x7002 3 * 1000 ≤ s.power.uptime then { j with armed := true } else j
    | none => j

/-! ## Heat and migration -/

/-- HEAT_DECAY, every decay interval (R48). -/
def heatDecay (s : State) : State :=
  if od s 0x3200 4 = 0 ∨ s.power.uptime % (od s 0x3200 4 * 1000) ≠ 0 then s
  else { s with parcels := kmap s.parcels fun _ p => { p with heat := p.heat / 2 } }

/-- Room in the owner's quota for a promotion, its own coldest unpinned parcel demoted first when there is none (R49). -/
def roomToPromote (s : State) (o : Obj) : Bool × State :=
  if o.volatile || decide (0 < o.pinCount) || quotaAllows s o.owner 65536 then (true, s)
  else match bestBy colder (demotable s o.owner) with
    | none => (false, s)
    | some e =>
      let s := demote s e.1
      (quotaAllows s o.owner 65536, s)

/-- PARCEL_PROMOTION: step 1 of R52, and the reads of step 2. -/
def promoteParcel (s : State) (k : Nat) : State :=
  match kget s.parcels k with
  | none => s
  | some p =>
    match kget s.objs p.obj with
    | none => s
    | some o =>
      if !flashOn s ∨ p.state ≠ .flash ∨ ¬ (p.queued || decide (0 < o.pinCount) || o.policy == 1) then s
      else
        let (room, s) := roomToPromote s o
        if !room then s
        else
          let (f, s) := allocFrame s
          let s := s.modParcel k fun p => { p with state := .migUp, frame := f, queued := false }
          let pages := ((List.range 4).filterMap fun q => pageOf s (parcelLu k q)).filter (pageClosed s)
          pages.foldl (fun s x => askRead s x 5 o.owner .tier) s

/-- A bound parcel is resident again (16 R428). -/
def nowResident (s : State) (k : Nat) (p : Parcel) : State :=
  match kget s.objs p.obj with
  | some o => (match windowOf s p.obj (k * 65536 - o.base) with
    | some w => s.modHost fun h => { h with nonResident := h.nonResident.filter (· != w / 65536) }
    | none => s)
  | none => s

/-- A parcel of a VOLATILE object that goes to flash is a spill: SPILLED is set (R45), and the version does not advance (R527). -/
def spilledNow (s : State) (h : Nat) : State := s.modObj h fun o => { o with spilled := o.spilled || o.volatile }

/-- MIGRATION_COMPLETE: the descriptor switches, up once its pages have been read, down once they are durable (R52 steps 3, 6). -/
def migrated (s : State) (k : Nat) : State :=
  match kget s.parcels k with
  | none => s
  | some p =>
    match p.state with
    | .migUp =>
      let pages := (List.range 4).filterMap fun q => pageOf s (parcelLu k q)
      if s.flash.reads.any fun r => r.use == .tier && pages.contains r.ppa then s
      else
        (match parcelFlash s k with
        | none => serveHeld (dropDram s k .flash)
        | some m =>
          let s := s.modDram fun d => { d with mem := mcopy m 0 65536 d.mem (k * 65536) }
          let s := s.modParcel k fun p => { p with state := .dramClean, hasFlash := true }
          serveHeld (nowResident (bump s 0x3201 3 1) k p))
    | .migDown =>
      if p.writing.all (pageClosed s) then
        serveHeld (overcommitEnded (bump (dropDram (spilledNow s p.obj) k .flash) 0x3201 4 1))
      else s
    | _ => s

/-- Parcels in the DRAM tier that a demotion under way does not free (OD 0x3201:02). -/
def tierParcels (s : State) : Nat :=
  (s.parcels.filter fun e => e.2.state.inDram && e.2.state != .migDown).length

/-- Parcels of VOLATILE objects that the runtime may spill (R45): in DRAM, of an object that is neither pinned nor PINNED_DRAM. -/
def spillable (s : State) : List (Nat × Parcel) :=
  s.parcels.filter fun e =>
    (e.2.state == .dramClean || e.2.state == .dramDirty) &&
    (match kget s.objs e.2.obj with
      | some o => o.volatile && o.pinCount == 0 && o.policy != 1 && decide (o.base + o.area.kept ≤ e.1 * 65536)
      | none => false) &&
    (openLines s e.1).isEmpty && !(s.dram.poison.any fun n => n / 1024 == e.1)

/-- Demote a parcel, or spill it where the unreserved part of the pool has room for its copy (R36). -/
def demoteOrSpill (s : State) (k : Nat) : State :=
  match kget s.parcels k with
  | some p =>
    (match kget s.objs p.obj with
    | some o =>
      if o.volatile && p.state == .dramDirty && !poolAllows s 65536 then s
      else if o.volatile && p.state == .dramClean then demote (spilledNow s p.obj) k
      else demote s k
    | none => s)
  | none => s

/-- PARCEL_DEMOTION: above the high watermark, the coldest parcels at or below the threshold go, down to the low one (R48), those of
VOLATILE objects as spills (R45). -/
def demoteCold (s : State) : State :=
  if !flashOn s then s
  else
  let cap := dramCapacity s
  if tierParcels s * 65536 * 100 ≤ od s 0x3200 5 * cap then s
  else
    let excess := ceilDiv (tierParcels s * 65536 * 100 - od s 0x3200 6 * cap) 6553600
    let l := (((0xFF :: List.range 32).flatMap fun p => demotable s p) ++ spillable s).filter fun e => decide (e.2.heat ≤ od s 0x3200 3)
    ((sortBy colder l).take excess).foldl (fun s e => demoteOrSpill s e.1) s

/-! ## Write-backs without a command -/

/-- Start a write-back of a dirty persistent parcel (R43, R349). -/
def startWriteBack (s : State) (k : Nat) : State :=
  match kget s.parcels k with
  | none => s
  | some p =>
    if !flashOn s ∨ p.state ≠ .dramDirty ∨ !p.writing.isEmpty ∨ s.flash.readOnly then s
    else match writeParcel s k false with
      | none => s
      | some s => awaitPages s (match kget s.parcels k with | some p => p.writing | none => [])

/-- Object of a parcel. -/
def parcelObj (s : State) (k : Nat) : Option (Parcel × Obj) :=
  match kget s.parcels k with
  | none => none
  | some p => (kget s.objs p.obj).map fun o => (p, o)

/-- BACKGROUND_WRITE_BACK (R528). -/
def backgroundWriteBack (s : State) (k : Nat) : State :=
  match parcelObj s k with
  | none => s
  | some (p, o) =>
    let ms := od s 0x3200 0xA
    if o.volatile ∨ ms = 0 ∨ s.power.uptime < p.lastStore + ms * 1000 then s else startWriteBack s k

/-- STAGED_WRITE_BACK_DELAY (R46). -/
def stagedWriteBack (s : State) (k : Nat) : State :=
  match parcelObj s k with
  | none => s
  | some (p, o) =>
    if o.volatile ∨ ¬ (o.policy = 2 ∨ o.policy = 4) ∨ s.power.uptime < p.lastStore + od s 0x3200 9 then s else startWriteBack s k

/-! ## The commands -/

def execRiskRecompute (t : Sensors) (s : State) : Host.Outcome State Fault Refusal := done s (riskRecompute s t)
def execRiskRearmInterval (h : Nat) (s : State) : Host.Outcome State Fault Refusal := done s (riskRearm s h)
def execHeatDecay (s : State) : Host.Outcome State Fault Refusal := done s (heatDecay s)
def execParcelPromotion (k : Nat) (s : State) : Host.Outcome State Fault Refusal := done s (promoteParcel s k)
def execParcelDemotion (s : State) : Host.Outcome State Fault Refusal := done s (demoteCold s)
def execMigrationComplete (k : Nat) (s : State) : Host.Outcome State Fault Refusal := done s (migrated s k)
def execBackgroundWriteBack (k : Nat) (s : State) : Host.Outcome State Fault Refusal := done s (backgroundWriteBack s k)
def execStagedWriteBackDelay (k : Nat) (s : State) : Host.Outcome State Fault Refusal := done s (stagedWriteBack s k)

end Sys2Proof.Machine
end

