-- ==== Sys2Proof/Machine/CxlMem.lean ====
section
/-! DEFINITION. Machine/CxlMem.lean: host accesses to the window, line repair, the merge buffer's age, frames, refresh, snoops, and the
host's configuration of its link (02 R58-R61, 14, 16 R426-R433). -/

namespace Sys2Proof.Machine

/-- Host accesses to the window arrive: a CXL link, a whole IDE stream and a committed decoder (R422, R423, R427, R437). -/
def memUp (s : State) : Bool := cxlUp s && s.host.ide && s.host.hdm.isSome

/-- A line that the host may hold from now on; a full filter back-invalidates its oldest line first (R429). -/
def snoopNote (s : State) (n : Nat) : State :=
  if s.host.snoop.contains n then s
  else
    let s := if s.host.snoop.length < 4194304 then s
      else match s.host.snoop with
        | old :: _ => backInvalidate s (old * 64) (old * 64 + 64)
        | [] => s
    s.modHost fun h => { h with snoop := h.snoop ++ [n] }

/-- The bytes that a host read of part of one window line gives, none for poison (02 R59, R60, 14 R381). A transaction's stores are
not seen before its commit (04 R107). -/
def memLine (s : State) (off n : Nat) : Option (List Byte) × State :=
  match boundAt s off with
  | none => (none, bump s 0x9300 2 1)
  | some (h, o, x) =>
    let a := o.base + x
    let k := a / 65536
    if outOfDram s k then (none, notResident s off h k)
    else
      let s := snoopNote (touchHeat s h a n whoHost) (off / 64)
      if parcelState s k = .unbacked then (some (List.replicate n 0), s)
      else
        let (b, s) := readLine s (a / 64)
        match b with
        | none => (none, bump s 0x9300 7 1)
        | some b =>
          let b := match undoCopy s (a / 64) 0 with | some u => u | none => b
          let b := (b.drop (a % 64)).take n
          -- bytes at or beyond Length hold nothing (02 R37)
          (some ((List.range b.length).map fun i => if x + i < o.length then (b[i]?).getD 0 else 0), s)

/-- CXL_MEM_READ (R430): every read completes, with data or poison, within 2 µs. -/
def memRead (s : State) (off n : Nat) : State :=
  if !memUp s then s
  else
    let s := wake s
    let (r, s) := (linesOf off n).foldl (fun acc p =>
      let (b, s) := memLine acc.2 (p.1 * 64 + p.2.1) p.2.2
      ((match acc.1, b with | some x, some y => some (x ++ y) | _, _ => none), s)) ((some [] : Option (List Byte)), s)
    let (v, s) := s.draw
    let t := Config.readNs v % 2001
    (bump s 0x9300 4 1).modHost fun h => { h with
      longest := max h.longest t
      bus := match r with | some b => .bytes b | none => .poison }

/-- CXL_MEM_WRITE (02 R59-R61). -/
def memWrite (s : State) (off : Nat) (b : List Byte) : State :=
  if !memUp s then s
  else serveHost ((wake s).modHost fun h => { h with heldWrites := h.heldWrites ++ [(off, b)] })

/-- LINE_REPAIR (14 R380). -/
def lineRepair (s : State) (n : Nat) : State := serveHeld (repairLine s n)

/-- MERGE_ENTRY_AGE: an entry aged 1,067 DMC cycles, 1 µs (14 R377). -/
def mergeAge (s : State) (n : Nat) : State :=
  match findFirst (fun m => m.line == n) s.dram.merge with
  | some m => if m.since + 1 ≤ s.power.uptime then drainEntry s m else s
  | none => s

/-- FRAME_RETIREMENT: bound lines are back-invalidated, and the frame switches once the host has answered (14 R382, 16 R429). Inside a
run of the window map the entry becomes a sub-map (R428). -/
def frameRetirement (s : State) (k : Nat) : State :=
  if !s.dram.retireQ.contains k then s
  else match ownerOfAddr s (k * 65536) with
    | none => retireFrame s k
    | some (h, o) =>
      match windowOf s h (k * 65536 - o.base) with
      | none => retireFrame s k
      | some w =>
        let s := backInvalidate s w (w + 65536)
        if s.host.snooping.any fun l => decide (w < l * 64 + 64) && decide (l * 64 < w + 65536) then s
        else splitRun (retireFrame s k) w

/-- DRAM_REFRESH: a bank is refreshed; what decayed in it since is damage to symbols of its lines (14 R373, 16 R432). -/
def dramRefresh (s : State) (decay : List (Nat × Nat × Byte)) : State :=
  decay.foldl (fun s d =>
    if d.2.2 = 0 ∨ s.dram.poison.contains d.1 ∨ ¬ (parcelState s (d.1 / 1024)).inDram then s
    else s.modDram fun m => { m with damage := kset m.damage d.1 (((kget m.damage d.1).getD []) ++ [(d.2.1, d.2.2)]) }) s

/-- BISNP_RESPONSE: what waited for the answer goes on (16 R429). -/
def bisnpResponse (s : State) (line : Nat) : State :=
  serveHeld (s.modHost fun h => { h with snooping := h.snooping.filter (· != line) })

/-- ATS_INVALIDATION: translations of the range go before the request completes (16 R426). -/
def atsInvalidate (s : State) (fn addr length : Nat) : State :=
  if s.host.link = .down then s
  else s.modHost fun h => { h with
    ats := h.ats.filter fun t => !(t.1 == fn && decide (addr < t.2 * 4096 + 4096) && decide (t.2 * 4096 < addr + length))
    bus := .status 0 [] }

/-- HDM_DECODER_COMMIT: the window becomes reachable at its base (16 R427). -/
def hdmCommit (s : State) (base : U64) : State :=
  if !cxlUp s then s else (wake s).modHost fun h => { h with hdm := some base.toNat }

/-- The values of R433, in the order of its table: range, handle, persistence; read and write latency in ns; read and write
bandwidth in MB/s; memory type (log entry 9). -/
def cdatBytes : List Byte :=
  toLE 8 549755813888 ++ toLE 1 0 ++ toLE 1 0 ++ toLE 4 2000 ++ toLE 4 400 ++ toLE 4 3600 ++ toLE 4 20000 ++ toLE 1 0

/-- CDAT_READ (16 R433). -/
def cdatRead (s : State) : State :=
  if s.host.link = .down then s else s.modHost fun h => { h with bus := .bytes cdatBytes }

/-! ## The commands -/

def execCxlMemRead (off n : Nat) (s : State) : Host.Outcome State Fault Refusal := done s (memRead s off n)
def execCxlMemWrite (off : Nat) (b : List Byte) (s : State) : Host.Outcome State Fault Refusal := done s (memWrite s off b)
def execLineRepair (n : Nat) (s : State) : Host.Outcome State Fault Refusal := done s (lineRepair s n)
def execMergeEntryAge (n : Nat) (s : State) : Host.Outcome State Fault Refusal := done s (mergeAge s n)
def execFrameRetirement (k : Nat) (s : State) : Host.Outcome State Fault Refusal := done s (frameRetirement s k)
def execDramRefresh (_bank : Nat) (decay : List (Nat × Nat × Byte)) (s : State) : Host.Outcome State Fault Refusal :=
  done s (dramRefresh s decay)
def execBisnpResponse (n : Nat) (s : State) : Host.Outcome State Fault Refusal := done s (bisnpResponse s n)
def execAtsInvalidation (fn addr n : Nat) (s : State) : Host.Outcome State Fault Refusal := done s (atsInvalidate s fn addr n)
def execHdmDecoderCommit (base : U64) (s : State) : Host.Outcome State Fault Refusal := done s (hdmCommit s base)
def execCdatRead (s : State) : Host.Outcome State Fault Refusal := done s (cdatRead s)

end Sys2Proof.Machine
end

