-- ==== Sys2Proof/Machine/OdRead.lean ====
section
/-! DEFINITION. Machine/OdRead.lean: what the object dictionary shows: views, path state, and the value of every entry (18 R457-R475 and
the entry tables of the chapters). -/

namespace Sys2Proof.Machine

/-! ## Path state (R467) -/

def pathSt (s : State) (path : OdPath) : PathSt := (aget s.od.paths path).getD {}

def modPath (s : State) (path : OdPath) (f : PathSt → PathSt) : State :=
  s.modOd fun o => { o with paths := aset o.paths path (f ((aget o.paths path).getD {})) }

/-- A value staged by a path. -/
def staged (s : State) (path : OdPath) (index sub : Nat) : Option Nat := kget (pathSt s path).staged (odKey index sub)

/-! ## Views (R466, R472, R473) -/

/-- A path's view: the module's, or that of a VF set to a polder (0xFF for none). -/
inductive OdView where
  | module
  | vf (fn polder : Nat)
  deriving DecidableEq, Repr

def viewOf (s : State) : OdPath → OdView
  | .vf n => .vf n (od s 0x3112 n)
  | _ => .module

/-- Whether core c belongs to polder p. -/
def coreOfPolder (s : State) (p c : Nat) : Bool := bitAt (od s (0x3000 + p) 1) c

/-- The NAMESPACE that a namespace id is in use by. -/
def namespaceOf (s : State) (nsid : Nat) : Option (Nat × Obj) :=
  findFirst (fun e => match e.2.area with | .nspace n _ _ _ => n == nsid && !e.2.leaving | _ => false) s.objs

/-- Entries that a polder view shows (R472). -/
def polderSees (s : State) (fn p index sub : Nat) : Bool :=
  if 0x1000 ≤ index ∧ index ≤ 0x1101 then true
  else if index = 0x3112 then sub == 0 || sub == fn
  else if 0x3800 ≤ index ∧ index ≤ 0x3BFF then ((kget s.rings (index - 0x3800)).getD {}).fn == fn
  else if 0x3000 ≤ index ∧ index ≤ 0x301F then index == 0x3000 + p
  else if 0x9101 ≤ index ∧ index ≤ 0x9120 then index == 0x9101 + p
  else if 0x9801 ≤ index ∧ index ≤ 0x9820 then index == 0x9801 + p
  else if 0x9A01 ≤ index ∧ index ≤ 0x9A20 then coreOfPolder s p (index - 0x9A01)
  else if 0x8001 ≤ index ∧ index ≤ 0x8400 then
    (match namespaceOf s (index - 0x8000) with | some e => maskBit e.2.readMask p || maskBit e.2.writeMask p | none => false)
  else if [0x2300, 0x2310, 0x2500, 0x3301, 0x4601, 0x9300, 0x9400].contains index then false
  else if index = 0x9600 ∧ sub = 0x0B then false
  else (decide (0x2000 ≤ index) && decide (index ≤ 0x4FFF)) || (decide (0x6000 ≤ index) && decide (index ≤ 0x7FFF)) ||
    (decide (0x9000 ≤ index) && decide (index ≤ 0x9FFF))

/-- What a view lets a path reach: a VF writes only :01, :02 and :04 of its own rings (R472, R473). -/
def viewAllows (s : State) (v : OdView) (write : Bool) (index sub : Nat) : Bool :=
  match v with
  | .module => true
  | .vf fn p =>
    let ring := decide (0x3800 ≤ index) && decide (index ≤ 0x3BFF) && ((kget s.rings (index - 0x3800)).getD {}).fn == fn
    if write then ring && (sub == 1 || sub == 2 || sub == 4)
    else if p = 0xFF then ring || (decide (0x1000 ≤ index) && decide (index ≤ 0x1101))
    else polderSees s fn p index sub

/-- Counters that read, in a polder's view, only what is charged to the polder (R57, R127, R163, R186, R211, R233, R256, R278, R300,
R333, R475). -/
def polderScoped (index sub : Nat) : Bool :=
  [0x9200, 0x9700, 0x9B00, 0x9C00, 0x9D00, 0x9E00, 0x9F00].contains index ||
  (decide (0x9100 ≤ index) && decide (index ≤ 0x9120)) || (decide (0x9800 ≤ index) && decide (index ≤ 0x9820)) ||
  (decide (0x9A00 ≤ index) && decide (index ≤ 0x9A20)) || (index == 0x9600 && sub != 0xB) || (index == 0x9500 && sub == 2)

/-! ## Records -/

/-- A signed number in `k` bytes, two's complement. -/
def toLEi (k : Nat) (i : Int) : List Byte := toLE k (i % (256 ^ k : Nat)).toNat

/-- Detail of a health-log record: its fields in the order of their table, 8 bytes each for up to four, else 4 bytes each (log entry
9). -/
def detailBytes (l : List Int) : List Byte := padTo 32 (l.flatMap (toLEi (if l.length ≤ 4 then 8 else 4)))

/-- A health-log record (13 R370). -/
def healthBytes (h : Health) : List Byte :=
  toLE 4 h.number ++ toLE 2 h.type ++ toLE 2 (if h.adminOnly then 1 else 0) ++ toLE 8 h.uptime ++ toLE 4 h.cycle ++ toLE 12 0 ++
  detailBytes h.detail

/-- An entry of the temperature history in 16 bytes, its fields in the order of R371 (log entry 9). -/
def tempBytes (t : TempHour) : List Byte :=
  padTo 16 (toLE 4 t.hour ++ toLEi 1 t.min ++ toLEi 1 t.max ++ toLEi 1 t.mean ++ toLEi 1 t.nand ++ toLE 1 t.throttled ++ toLE 2 t.hotPages)

/-- The vendor string (R475). -/
def vendorName : List Byte :=
  [0x4F, 0x64, 0x64, 0x65, 0x78, 0x20, 0x4D, 0x69, 0x63, 0x72, 0x6F, 0x73, 0x79, 0x73, 0x74, 0x65, 0x6D, 0x73]

/-- The ordering codes "OXP2-256T-A" and "OXP2-128T-A" (00 R1). -/
def orderingCode (s : State) : List Byte :=
  let mid : List Byte := if s.ident.small then [0x31, 0x32, 0x38] else [0x32, 0x35, 0x36]
  ([0x4F, 0x58, 0x50, 0x32, 0x2D] : List Byte) ++ mid ++ [0x54, 0x2D, 0x41]

/-- A fixed string or bytes entry whose value the manual does not give. -/
def constBytes (index sub n : Nat) : List Byte := (List.range n).map fun i => Config.constByte (odKey index sub) i

/-- The serial number, 16 bytes (R475). -/
def serialNumber : List Byte := constBytes 0x1002 0 16

/-- The maintenance key and the owner debug key (19 R486). -/
def maintKey (s : State) : List Byte := (s.sec.maintKey).getD (padTo 388 (Config.oddexKey 1))
def ownerKey (s : State) : List Byte := (s.sec.ownerKey).getD (List.replicate 388 0)

/-- The member bitmap of a group (15 R409). -/
def memberBits (g : Group) : List Byte :=
  toLE 128 ((nubList (g.members.map (·.1))).foldl (fun n m => n + 2 ^ m) 0)

/-- The value of a string, bytes or record entry. The nonce and the raw page are read elsewhere. -/
def rawValue (s : State) (path : OdPath) (index sub size : Nat) : List Byte :=
  padTo size (match index, sub with
    | 0x1000, 1 => vendorName
    | 0x1001, 0 => orderingCode s
    | 0x1002, 0 => serialNumber
    | 0x1005, 0 => constBytes 0x1005 0 32
    | 0x2300, 5 => (match findFirst (fun h => h.number == (pathSt s path).selHealth) s.health with | some h => healthBytes h | none => [])
    | 0x2310, 3 => (match s.power.temps[(pathSt s path).selTemp]? with | some t => tempBytes t | none => [])
    | 0x4300, 7 => (match kget s.fabric.groups (pathSt s path).selGroup with | some g => memberBits g | none => [])
    | 0x4400, 4 => toLE 128 s.fabric.allow.toNat
    | 0x5010, 1 => maintKey s
    | 0x5010, 2 => ownerKey s
    | 0x5010, 3 => Config.sha256 (maintKey s)
    | 0x5010, 4 => Config.sha256 (ownerKey s)
    | _, _ => [])

/-! ## Scalars -/

/-- The count held three times in PD0, by the vote (14 R385). -/
def criticalWord (s : State) (n : Nat) : Nat :=
  match kget s.power.critical n with
  | some (a, b, c) => ((a &&& b) ||| (a &&& c) ||| (b &&& c)).toNat
  | none => 0

/-- Mean and highest erase counts of QLC blocks, and life used in % (13 R366): an SLC block has number 1,022 or 1,023 in its plane. -/
def qlcBlocks (s : State) : List (Nat × Block) :=
  s.flash.blocks.filter fun e => e.1 % 2048 != 1022 && e.1 % 2048 != 1023

def meanErase (s : State) : Nat :=
  let l := qlcBlocks s
  let total := planeCount s * 1022
  ((l.map fun e => e.2.eraseCount).foldl (· + ·) 0 + (total - l.length) * s.flash.baseErases) / total

def highestErase (s : State) : Nat := ((qlcBlocks s).map fun e => e.2.eraseCount).foldl max s.flash.baseErases

/-- Condition of the page a path selected (06 R170): its function and polder, or unassigned. -/
def selectedPage (s : State) (path : OdPath) : Nat × Nat :=
  match kget s.pages (pathSt s path).selPage with
  | some c => (c.fn, c.polder)
  | none => (0, 0xFE)

/-- Cable rating in W that the sense pins give (17 R444). -/
def cableRating (p : SensePins) : Nat :=
  if !p.present then 0 else if p.sense1 then (if p.sense0 then 600 else 450) else if p.sense0 then 300 else 150

/-- An unsigned image of a temperature (i8). -/
def celsius (i : Int) : Nat := (i % 256).toNat

/-- A port's state code (15 R389). -/
def PortState.code : PortState → Nat
  | .down => 0
  | .training => 1
  | .up => 2
  | .upNarrow => 3
  | .miswired => 4
  | .failed => 5
  | .upLow => 6

def flag (b : Bool) : Nat := if b then 1 else 0

/-- Entries that report a measurement the manual gives no value for. -/
def isMeasured (index sub : Nat) : Bool :=
  (decide (0x4010 ≤ index) && decide (index ≤ 0x4013) && sub == 4) || (index == 0x6101 && (sub == 1 || sub == 2)) ||
  (index == 0x6105 && sub == 2)

/-- Identity, media and host-side entries that report the machine's state, none where the entry is a setting or a counter. -/
def derivedLow (s : State) (path : OdPath) (index sub : Nat) : Option Nat :=
  let ps := pathSt s path
  match index, sub with
  | 0x1000, 2 => some (Config.constValue (odKey 0x1000 2) % 65536)
  | 0x1003, 0 => some (steppingByte s)
  | 0x1004, 1 => some (flag s.sec.active)
  | 0x1004, 2 => some s.sec.slotA.version
  | 0x1004, 3 => some s.sec.slotB.version
  | 0x1100, 1 => some s.power.uptime
  | 0x1101, 1 => some (criticalWord s 0)
  | 0x2000, 1 => some (if s.ident.small then 8 else 16)
  | 0x2000, 3 => some (od s 0x2000 3)
  | 0x2100, 7 => some s.flash.shared.length
  | 0x2200, 1 => some (flag s.flash.readOnly)
  | 0x2200, 2 => some (fewestSpares s)
  | 0x2200, 4 => some (min 65535 (highestErase s))
  | 0x2200, 5 => some (min 65535 (meanErase s))
  | 0x2200, 6 => some (min 255 (meanErase s * 100 / 1500))
  | 0x2300, 1 => some s.health.length
  | 0x2300, 2 => some (match s.health with | h :: _ => h.number | [] => 0)
  | 0x2300, 3 => some (match s.health.getLast? with | some h => h.number | none => 0)
  | 0x2300, 4 => some ps.selHealth
  | 0x2310, 1 => some s.power.temps.length
  | 0x2310, 2 => some ps.selTemp
  | 0x2310, 4 => some (celsius s.power.highest)
  | 0x2400, 3 => some s.dram.retired.length
  | 0x2400, 5 => some (flag s.dram.scrubbing.isSome)
  | 0x2400, 6 => some (overcommit s)
  | 0x2500, 3 => some s.flash.rawStatus
  | 0x3110, 1 => some ps.selPage
  | 0x3110, 2 => some ((staged s path 0x3110 2).getD (selectedPage s path).1)
  | 0x3110, 3 => some ((staged s path 0x3110 3).getD (selectedPage s path).2)
  | 0x3201, 1 => some (dramCapacity s)
  | 0x3201, 2 => some ((s.parcels.filter fun e => e.2.state.inDram).length * 65536)
  | 0x3301, 1 => some s.txs.length
  | 0x3301, 2 => some s.branches.length
  | 0x4601, 1 => some (s.branches.filter fun e => e.2.state == .prepared).length
  | 0x4601, 2 => some 0
  | 0x7000, 1 => some s.risk.risk
  | 0x7000, 2 => some s.risk.highest
  | 0x7003, 2 => some s.power.health
  | 0x9000, 1 => some (flag ps.snapshot.isSome)
  | 0x9300, 5 => some s.host.longest
  | 0x9400, 1 => some 0
  | 0x9500, 2 => some (cnt s 0x9500 1)
  | _, _ =>
    if 0x3000 ≤ index ∧ index ≤ 0x301F then
      let p := index - 0x3000
      if sub = 2 then some (flag (polderDefined s p))
      else if sub = 0xD then some (charged s p)
      else some ((staged s path index sub).getD (od s index sub))
    else if 0x3800 ≤ index ∧ index ≤ 0x3BFF then
      let r := (kget s.rings (index - 0x3800)).getD {}
      [0, r.base, r.entries, r.fn, r.vector, r.tail, r.head, r.dropped][sub]?
    else if index = 0x7000 then s.risk.comps[sub - 3]?
    else if 0x8001 ≤ index ∧ index ≤ 0x8400 then
      match namespaceOf s (index - 0x8000) with
      | none => some 0
      | some (h, o) =>
        match o.area with
        | .nspace _ size blocks units =>
          if sub ≤ 4 then [0, h, size, blocks, units][sub]? else some (cnt s index sub)
        | _ => some 0
    else none

/-- Fabric, security and power entries that report the machine's state. -/
def derivedHigh (s : State) (path : OdPath) (index sub : Nat) : Option Nat :=
  let ps := pathSt s path
  let p := s.power
  let group := kget s.fabric.groups ps.selGroup
  match index, sub with
  | 0x4000, 3 => some ((staged s path 0x4000 3).getD s.fabric.kind)
  | 0x4000, 4 => some ((staged s path 0x4000 4).getD s.fabric.sizeX)
  | 0x4000, 5 => some ((staged s path 0x4000 5).getD s.fabric.sizeY)
  | 0x4000, 6 => some ((staged s path 0x4000 6).getD (od s 0x4000 6))
  | 0x4000, 8 => some (cnt s 0x4000 8)
  | 0x4100, 5 => some (4096 - 4 * (od s 0x4100 1 + od s 0x4100 2 + od s 0x4100 3 + od s 0x4100 4))
  | 0x4200, 1 => some ps.selDest
  | 0x4200, 2 => some (match kget s.fabric.routes ps.selDest with | some r => r.1 | none => 0xFF)
  | 0x4200, 3 => some (match kget s.fabric.routes ps.selDest with | some r => r.2 | none => 0)
  | 0x4300, 1 => some ps.selGroup
  | 0x4300, 2 => some (match group with | some g => g.keeper | none => 0xFFFF)
  | 0x4300, 3 => some (match group with | some g => g.epoch | none => 0)
  | 0x4300, 8 => some (match group with | some g => g.members.length | none => 0)
  | 0x5001, 1 => some (flag s.od.maint.isSome)
  | 0x5001, 5 => some (match s.od.maint with | some m => pathCode m | none => 0)
  | 0x5200, 1 => some s.sec.bootKind
  | 0x5200, 2 => some s.sec.floor
  | 0x5200, 3 => some s.sec.slotA.security
  | 0x5200, 4 => some s.sec.slotB.security
  | 0x5200, 5 => some (
      -- the inactive slot, activated and not yet run (19 R497)
      let k := s.inactive
      let t := s.slot k
      if t.activation ≠ 0 ∧ !t.ran ∧ !t.rejected ∧ (s.slot (1 - k)).activation < t.activation then k else 0xFF)
  | 0x5400, 1 => some (flag (s.sec.lock.scope != 0))
  | 0x5400, 2 => some s.sec.lock.scope
  | 0x5400, 3 => some (match s.sec.lock.reopen with | some r => r.uses | none => 0)
  | 0x5500, 1 => some s.sec.keyGen
  | 0x5500, 2 => some s.sec.keys.length
  | 0x6000, 3 => some p.ps
  | 0x6000, 4 => some (p.target.getD 0xFF)
  | 0x6002, 1 => some (p.arr * 125 / 2)
  | 0x6002, 2 => some (flag p.thrTemp + 2 * flag p.thrPower)
  | 0x6004, 1 => some (cnt s 0x6004 1 / 1000)
  | 0x6004, 2 => some (cnt s 0x6004 2 / 1000)
  | 0x6010, 2 => some p.cause
  | 0x6030, 1 => some (flag p.sanitize.pending)
  | 0x6030, 2 => some p.sanitize.erased
  | 0x6030, 3 => some p.sanitize.total
  | 0x6100, 1 => some (cableRating p.pins)
  | 0x6100, 2 => some (admittedState p.pins)
  | 0x6101, 3 => some p.sensors.power
  | 0x6102, 1 => some (celsius p.sensors.die)
  | 0x6102, 2 => some (celsius p.sensors.nand)
  | 0x6102, 3 => some (celsius p.sensors.inlet)
  | 0x6105, 1 => some (flag p.holdup)
  | _, _ =>
    if 0x4010 ≤ index ∧ index ≤ 0x4013 then
      let t := s.port (index - 0x4010)
      (match sub with
      | 1 => some t.state.code
      | 2 => some t.peer
      | 3 => some t.peerPort
      | 6 => some t.emitter
      | _ => none)
    else if index = 0x6003 then
      some ((cnt s 0x6003 sub + (if sub = p.ps + 1 then p.uptime - p.psSince else 0)) / 1000)
    else none

/-- Whether an entry's value is a counter held in `od.cnt`: the read-only entries that report nothing else (R471). -/
def scalarNow (s : State) (path : OdPath) (e : OdEntry) (index sub : Nat) : Nat :=
  if e.access = .wo then 0
  else
    match derivedLow s path index sub with
    | some v => v
    | none =>
      match derivedHigh s path index sub with
      | some v => v
      | none =>
        match e.access with
        | .ro => cnt s index sub
        | .const => e.dflt
        | _ => od s index sub

/-- Value of a scalar entry as a path sees it: the path's snapshot of the counters first (R471), then a polder's own share (R472). -/
def scalarValue (s : State) (path : OdPath) (e : OdEntry) (index sub : Nat) : Nat :=
  let counter := decide (0x9000 < index) && decide (index ≤ 0x9FFF)
  let key := odKey index sub
  let own : Option Nat := match viewOf s path with
    | .vf _ p => if p ≠ 0xFF ∧ polderScoped index sub then some p else none
    | .module => none
  match (if counter then (pathSt s path).snapshot else none), own with
  | some snap, some p => kcount snap ((p + 1) * 16777216 + key)
  | some snap, none => kcount snap (if key = odKey 0x9500 2 then odKey 0x9500 1 else key)
  | none, some p => kcount s.od.pcnt (p * 16777216 + key)
  | none, none => scalarNow s path e index sub

/-- Every counter of 0x9000-0x9FFF at one instant, the polders' shares among them (R471). -/
def snapshotNow (s : State) : KMap Nat :=
  let all := (s.od.cnt.filter fun e => decide (0x900100 ≤ e.1) && decide (e.1 < 0xA00000)) ++
    s.od.pcnt.map fun e => (e.1 + 16777216, e.2)
  kset all (odKey 0x9300 5) s.host.longest

end Sys2Proof.Machine
end

