-- ==== Sys2Proof/Machine/OdWrite.lean ====
section
/-! DEFINITION. Machine/OdWrite.lean: writes of the object dictionary: access checks, settings, staging and applies, maintenance mode, and
the entries that act when they are written (18 R459-R473 and the chapters' entry tables). -/

namespace Sys2Proof.Machine

/-- How a write ends: with a status at once, or answered later by what it waits for. -/
inductive OdEnd where
  | now (status : Nat)
  | later
  deriving DecidableEq, Repr

abbrev Put := OdEnd × State

def okPut (s : State) : Put := (.now 0, s)
def badPut (s : State) : Put := (.now 0x1007, s)

/-- A write that persists is answered when it has been programmed (R464). -/
def keep (s : State) (items : List (Nat × Nat)) (path : OdPath) (tag : Nat) : Put := (.later, storeWrite s items (some path) tag)

def stage (s : State) (path : OdPath) (index sub v : Nat) : Put :=
  okPut (modPath s path fun p => { p with staged := kset p.staged (odKey index sub) v })

def unstage (s : State) (path : OdPath) (f : Nat → Bool) : State :=
  modPath s path fun p => { p with staged := p.staged.filter fun e => !f e.1 }

/-! ## Polders (06 R166-R168) -/

/-- A polder field as an apply of a path would leave it. -/
def polderField (s : State) (path : OdPath) (p k : Nat) : Nat := (staged s path (0x3000 + p) k).getD (od s (0x3000 + p) k)

/-- The quota an apply would leave, in bytes. -/
def newQuota (s : State) (path : OdPath) (p : Nat) : Nat :=
  match staged s path (0x3000 + p) 3 with
  | some g => g * gib
  | none => quota s p

/-- Whether an apply is refused (R167). -/
def polderRefused (s : State) (path : OdPath) (p : Nat) : Bool :=
  let mask := polderField s path p 1
  let others := (List.range 32).filter fun q => q != p && polderDefined s q
  let sum := (others.map (quota s)).foldl (· + ·) 0 + (if mask = 0 then 0 else newQuota s path p)
  -- reservations are summed over all polders, defined or not
  let reserved := fun (k limit : Nat) =>
    decide (limit < (((List.range 32).filter (· != p)).map fun q => od s (0x3000 + q) k).foldl (· + ·) 0 + polderField s path p k)
  others.any (fun q => mask &&& od s (0x3000 + q) 1 != 0) ||
  (decide (dramCapacity s < sum) && decide (quotaSum s < sum)) ||
  decide (newQuota s path p < charged s p) ||
  reserved 4 4000 || reserved 5 1600 || reserved 6 160 || reserved 7 6400 ||
  decide (4294967295 < mask) || decide (3 < polderField s path p 8) || decide (polderField s path p 9 < 1) ||
  decide (4 < polderField s path p 9) || decide (7 < polderField s path p 0xA) || decide (255 < polderField s path p 0xB) ||
  (mask == 0 && polderDefined s p && (
    s.pages.any (fun e => e.2.polder == p) || s.objs.any (fun e => e.2.owner == p) ||
    s.objs.any (fun e => match e.2.area with | .job j => j.polder == p | _ => false) ||
    -- a transaction stays the polder's until its slot is freed, at its coordinator or here
    (allTxs s).any fun e => e.2.polder == p))

/-- Every context resident on a core is evicted, whatever its priority (R168): at once at a fret, else at its next
fret; one that is committing goes on to its outcome (R180). -/
def clearCore (s : State) (k : Nat) : State :=
  (s.core k).residents.foldl (fun s x => match getCtx s x with
    | some (_, c) =>
      let committing := match c.wait with | .commit _ | .secureCommit _ _ => true | _ => false
      if committing then modCtx s x fun c => { c with evictWhy := some 5 } else evictNow s x 5
    | none => s) s

/-- POLDER_APPLY: every staged value of the polder at once, or none (R166-R168, 14 R383). -/
def polderApply (s : State) (path : OdPath) (p tag : Nat) : Put :=
  if polderRefused s path p then badPut s
  else
    let mine := fun (key : Nat) => key / 256 == 0x3000 + p
    let items := ((pathSt s path).staged.filter fun e => mine e.1)
    let gone := (List.range 32).filter fun k => coreOfPolder s p k && !(polderField s path p 1).testBit k
    let s := items.foldl (fun s e => odSet s (e.1 / 256) (e.1 % 256) e.2) s
    let s := unstage s path mine
    let s := overcommitEnded (gone.foldl clearCore s)
    (.later, storeWriteFor s items (some path) tag (gone.foldl (fun n k => n + 2 ^ k) 0))

/-! ## Queue pages (03 R67, 06 R170) -/

/-- The store keys of the assignment of a page, of the routes to a module, and of the keys outside the index range. -/
def pageKey (k : Nat) : Nat := 16777216 + k
def routeKey (dest sub : Nat) : Nat := 33554432 + dest * 4 + sub

def pageAssign (s : State) (path : OdPath) (tag : Nat) : Put :=
  let k := (pathSt s path).selPage
  let fn := (staged s path 0x3110 2).getD (selectedPage s path).1
  let p := (staged s path 0x3110 3).getD (selectedPage s path).2
  let busy := s.regs.any fun e => e.1 / 32 == k && e.2.state != .idle
  if k = 0 ∨ busy ∨ (p = 0xFF ∧ fn ≠ 0) ∨ (p < 32 ∧ !polderDefined s p) then badPut s
  else
    let pages := if p = 0xFE then kdel s.pages k else kset s.pages k ⟨fn, p⟩
    -- NEXT_SEQ of the page's registers returns to 0 (03 R72)
    let regs := kmap s.regs fun r t => if r / 32 = k then { t with nextSeq := 0 } else t
    let s := unstage { s with pages := pages, regs := regs } path fun key => key / 256 == 0x3110
    keep s [(pageKey k, fn * 256 + p)] path tag

/-! ## Fabric (15 R388, R396, R397, R400, R410, R419) -/

/-- A port is lit or trains as its settings and its signal allow; one that may not be lit is DOWN and dark. -/
def portStart (s : State) (n : Nat) : State :=
  if !portAllowed s n || (s.fabric.kind != 5 && (neighbour s (moduleId s) n).isNone) then portDown s n true
  else if (s.port n).signal then startTraining s n false
  else s.modPort n fun t => { t with lit := true, dark0 := s.power.uptime }

/-- TOPOLOGY_APPLY: the sizes of R396 and this module's id in them; every port retrains. -/
def topologyApply (s : State) (path : OdPath) (tag : Nat) : Put :=
  let now := fun (k cur : Nat) => (staged s path 0x4000 k).getD cur
  let kind := now 3 s.fabric.kind
  let x := now 4 s.fabric.sizeX
  let y := now 5 s.fabric.sizeY
  let hop := now 6 (od s 0x4000 6)
  let fits := match kind with
    | 0 | 5 => true
    | 1 | 2 => decide (2 ≤ x) && decide (x ≤ 64) && decide (moduleId s < x)
    | _ => decide (2 ≤ x) && decide (x ≤ 32) && decide (2 ≤ y) && decide (y ≤ 32) && decide (moduleId s < x * y)
  if !fits then badPut s
  else
    let items := [(odKey 0x4000 3, kind), (odKey 0x4000 4, x), (odKey 0x4000 5, y), (odKey 0x4000 6, hop)]
    let s := items.foldl (fun s e => odSet s 0x4000 (e.1 % 256) e.2) s
    let s := unstage (s.modFab fun f => { f with kind := kind, sizeX := x, sizeY := y }) path fun key => key / 256 == 0x4000
    let s := (List.range 4).foldl (fun s n => portStart (portDown s n false) n) s
    keep (settleGroups (afterLinks s)) items path tag

/-- PORT_ENABLE_WRITE. -/
def portEnable (s : State) (path : OdPath) (n v tag : Nat) : Put :=
  let was := od s (0x4010 + n) 5
  let s := odSet s (0x4010 + n) 5 v
  let s := if was = v then s else settleGroups (if v = 0 then portDown s n true else portStart s n)
  keep s [(odKey (0x4010 + n) 5, v)] path tag

/-- A route of kind 5 (R400): egress port, or dateline flag, of the selected destination. -/
def routeWrite (s : State) (path : OdPath) (sub v tag : Nat) : Put :=
  let d := (pathSt s path).selDest
  let r := (kget s.fabric.routes d).getD (0xFF, 0)
  if sub = 2 ∧ 3 < v ∧ v ≠ 0xFF then badPut s
  else
    let r : Nat × Nat := if sub = 2 then (v, r.2) else (r.1, v)
    keep (s.modFab fun f => { f with routes := if r = (0xFF, 0) then kdel f.routes d else kset f.routes d r })
      [(routeKey d sub, v)] path tag

/-- A membership change of the selected group (R410, R411). -/
def groupWrite (s : State) (path : OdPath) (req : MemberReq) (tag : Nat) : Put :=
  match memberWrite s (pathSt s path).selGroup req path tag with
  | (some st, s) => (.now st, s)
  | (none, s) => (.later, s)

/-! ## Rings (03 R74, 16 R425) -/

/-- A ring that a register names with ENABLE set keeps its base, entries and function. -/
def ringBusy (s : State) (n : Nat) : Bool := s.regs.any fun e => e.2.enable && e.2.ring.toNat == n

def ringWrite (s : State) (n sub v : Nat) : Put :=
  let g := (kget s.rings n).getD {}
  let put := fun (g : Ring) => okPut { s with rings := kset s.rings n g }
  if sub ≤ 3 ∧ ringBusy s n then badPut s
  else match sub with
    | 1 => if v % 4096 ≠ 0 then badPut s else put { g with base := v }
    | 2 => if v &&& (v - 1) ≠ 0 then badPut s else put { g with entries := v }
    | 3 => put { g with fn := v }
    | _ => if v ≠ 0xFFFF ∧ (v < 1 ∨ (if g.fn = 0 then 2048 else 64) ≤ v) then badPut s else put { g with vector := v }

/-! ## Maintenance mode (R462, R463), defaults (R465) and requests -/

/-- MAINTENANCE_ENTRY: a signature over the path's nonce and the serial number, by the maintenance key; the nonce is used up. -/
def enterMaint (s : State) (path : OdPath) (signature : List Byte) : Put :=
  if (match s.od.maint with | some h => h != path | none => false) then (.now 0x5005, s)
  else match (pathSt s path).nonce with
    | none => (.now 0x5003, s)
    | some nonce =>
      let s := modPath s path fun p => { p with nonce := none }
      if !Config.rsaVerify (maintKey s) (nonce ++ serialNumber) signature then (.now 0x5003, s)
      else
        let s := s.modOd fun o => { o with maint := some path, maintAt := s.power.uptime }
        okPut (bump (logHealth s 0x001B false [pathCode path, 1, 0]) 0x9500 6 1)

/-- Entries that RESTORE_DEFAULTS sets: persistent settings of 0x2000-0x3FFF and 0x6000-0x7FFF, less those R465 keeps. -/
def restored (key : Nat) : Bool :=
  let index := key / 256
  let sub := key % 256
  ((decide (0x2000 ≤ index) && decide (index ≤ 0x3FFF)) || (decide (0x6000 ≤ index) && decide (index ≤ 0x7FFF))) &&
  !(decide (0x3000 ≤ index) && decide (index ≤ 0x301F)) && index != 0x3110 && index != 0x3112 && key != odKey 0x2230 0 &&
  key != odKey 0x2000 3 &&
  (match odEntry index sub with | some e => e.persistent && (e.access == .rw || e.access == .rws) | none => false)

/-- RESTORE_DEFAULTS, in ascending order. -/
def restoreDefaults (s : State) (path : OdPath) (tag : Nat) : Put :=
  let keys := (s.od.vals.filter fun e => restored e.1).map (·.1)
  if keys.isEmpty then okPut s
  else
    let items := keys.map fun k => (k, odDefault s (k / 256) (k % 256))
    keep (s.modOd fun o => { o with vals := o.vals.filter fun e => !restored e.1 }) items path tag

/-- POWER_LOSS_MODE_WRITE: every open course is closed by padding, then the mode switches (13 R353); a background command of a mailbox
(16 R436). -/
def modeWrite (s : State) (path : OdPath) (v tag : Nat) : Put :=
  let s := padAll s
  let s := s.modOd fun o => { o with modes := o.modes ++ [{ value := v, courses := s.flash.courses.map (·.1), path := path, tag := tag }] }
  let s := match mailboxOf path with
    | some k => s.modHost fun h =>
        let m := (kget h.mailboxes k).getD {}
        { h with mailboxes := kset h.mailboxes k { m with
            control := m.control &&& 6#3, bgOp := true, bgOpcode := 0xC001, bgPercent := 0, returnCode := 1, extStatus := 0, length := 0 } }
    | none => s
  (.later, modeStep s)

/-- Exported capacity (13 R336): never below half the raw nominal capacity or above the default, and only while nothing is reserved. -/
def capacityWrite (s : State) (path : OdPath) (v tag : Nat) : Put :=
  let nominal := if s.ident.small then 128 * tib else 256 * tib
  if v < nominal / 2 ∨ exportedDefault s < v ∨ s.reserved ≠ 0 then badPut s
  else keep (odSet s 0x2000 3 v) [(odKey 0x2000 3, v)] path tag

/-- IN_DOUBT_ROLLBACK (04 R121): a level 2 yield; no guarantee of R27 prevails, the operator does. -/
def doubtRollback (s : State) (id : Nat) : Put :=
  match kget s.branches id with
  | some t =>
    if t.state ≠ .prepared then badPut s
    else
      -- the rollback itself is logged by its type too (13 R370); DESIGN CHOICE (log entry 140)
      okPut (afterOutcome (rollBranch (logHealth (yielded s 0 2 (.polder t.polder) (.unit 19)) 0x0032 false [id]) id))
  | none => badPut s

/-- SECURE_REQUEST (10 R272): the job named must run here. -/
def secureRequest (s : State) (h : Nat) : Put :=
  match kget s.jobs h with
  | some _ => okPut (s.modJob h fun j => { j with requested := true })
  | none => badPut s

/-- The module id (02 R33): only while the module holds no object but NAMESPACEs, else 0x4007 (03, table of class 4). -/
def idWrite (s : State) (path : OdPath) (v tag : Nat) : Put :=
  if v ≠ moduleId s ∧ s.objs.any (fun e => match e.2.area with | .nspace _ _ _ _ => false | _ => true) then
    (.now 0x4007, s)
  else keep (odSet s 0x4000 1 v) [(odKey 0x4000 1, v)] path tag

/-- Order of two settings that R51 pairs: the low one must stay below the high one. -/
def pairBroken (s : State) (sub v : Nat) : Bool :=
  match sub with
  | 5 => decide (v ≤ od s 0x3200 6)
  | 6 => decide (od s 0x3200 5 ≤ v)
  | 2 => decide (v ≤ od s 0x3200 3)
  | 3 => decide (od s 0x3200 2 ≤ v)
  | _ => false

/-- Bits set in a byte. -/
def popCount (v : Nat) : Nat := ((List.range 8).filter fun i => v.testBit i).length

/-! ## A write that its access rights and range admit -/

/-- Entries whose only value is 1, the order to act. -/
def isOrder (index sub : Nat) : Bool :=
  (decide (0x3000 ≤ index) && decide (index ≤ 0x301F) && sub == 0xC) ||
  [(0x3110, 4), (0x4000, 7), (0x5002, 1), (0x5400, 5), (0x6010, 1), (0x6010, 3)].contains (index, sub)

/-- Orders (R460: any value but 1 is out of range). A reset that a write requests begins after the write is answered. -/
def orderWrite (s : State) (path : OdPath) (index sub tag : Nat) : Put :=
  match index, sub with
  | 0x3110, _ => pageAssign s path tag
  | 0x4000, _ => topologyApply s path tag
  | 0x5002, _ => restoreDefaults s path tag
  | 0x5400, _ => keep s [(odKey 0x5400 5, 1)] path tag
  | 0x6010, 1 => okPut (requestReset s 8)
  | 0x6010, _ => (.later, beginRestart (answerPath s path odWriteType tag 0 []) none)
  | _, _ => polderApply s path (index - 0x3000) tag

/-- Scalar entries with a behaviour of their own; none for a plain setting. -/
def specialWrite (s : State) (path : OdPath) (index sub v tag : Nat) : Option Put :=
  match index, sub with
  | 0x2000, 3 => some (capacityWrite s path v tag)
  | 0x2230, 0 => some (modeWrite s path v tag)
  | 0x2300, 4 => some (okPut (modPath s path fun p => { p with selHealth := v }))
  | 0x2310, 2 => some (okPut (modPath s path fun p => { p with selTemp := v }))
  | 0x2500, 1 => if 34359738368 ≤ v ∨ 1080 ≤ v / 4096 % 2048 then some (badPut s) else none
  | 0x3110, 1 => some (okPut (modPath s path fun p => { p with selPage := v }))
  | 0x3110, 2 => some (stage s path 0x3110 2 v)
  | 0x3110, 3 => some (if 32 ≤ v ∧ v < 0xFE then badPut s else stage s path 0x3110 3 v)
  | 0x4000, 1 => some (idWrite s path v tag)
  | 0x4200, 1 => some (okPut (modPath s path fun p => { p with selDest := v }))
  | 0x4300, 1 => some (okPut (modPath s path fun p => { p with selGroup := v }))
  | 0x4300, 4 => some (groupWrite s path (.add (bitsAt v 0 10) (bitsAt v 16 10)) tag)
  | 0x4300, 5 => some (groupWrite s path (.remove v) tag)
  | 0x4300, 6 => some (groupWrite s path (.pin (bitsAt v 0 10) (bitsAt v 16 3)) tag)
  | 0x4601, 2 => some (doubtRollback s v)
  | 0x5001, 1 => some (okPut (leaveMaint s 0))
  | 0x6000, 2 => if 4 < popCount v then some (badPut s) else none
  | 0x6020, 1 => some (okPut (logHealth s 0x0052 false [v]))
  | 0x7010, 1 => some (secureRequest s v)
  | 0x9000, 1 => some (okPut (modPath s path fun p => { p with snapshot := if v = 0 then none else some (snapshotNow s) }))
  | _, _ =>
    if 0x3000 ≤ index ∧ index ≤ 0x301F then some (stage s path index sub v)
    else if index = 0x4000 ∧ 3 ≤ sub ∧ sub ≤ 6 then some (stage s path index sub v)
    else if index = 0x3112 then (if v ≠ 0xFF ∧ (31 < v ∨ !polderDefined s v) then some (badPut s) else none)
    else if index = 0x3200 then (if pairBroken s sub v then some (badPut s) else none)
    else if 0x3800 ≤ index ∧ index ≤ 0x3BFF then some (ringWrite s (index - 0x3800) sub v)
    else if 0x4010 ≤ index ∧ index ≤ 0x4013 then some (portEnable s path (index - 0x4010) v tag)
    else if index = 0x4100 then
      -- the dedicated credits of the 16 virtual channels, four of each class (15 R394)
      let sum := ([1, 2, 3, 4].map fun k => if k = sub then v else od s 0x4100 k).foldl (· + ·) 0
      (if 2048 < 4 * sum then some (badPut s) else none)
    else if index = 0x4200 then some (routeWrite s path sub v tag)
    else none

/-- Put a value into a scalar entry. -/
def scalarWrite (s : State) (path : OdPath) (e : OdEntry) (index sub v tag : Nat) : Put :=
  if isOrder index sub then (if v = 1 then orderWrite s path index sub tag else badPut s)
  else if v < e.lo ∨ e.hi < v then badPut s
  else match specialWrite s path index sub v tag with
    | some r => r
    | none =>
      let s := odSet s index sub v
      if e.persistent then keep s [(odKey index sub, v)] path tag else okPut s

/-- Put a string, bytes or record entry. -/
def rawWrite (s : State) (path : OdPath) (index sub tag : Nat) (data : List Byte) : Put :=
  match index, sub with
  | 0x4400, 4 => keep (s.modFab fun f => { f with allow := BitVec.ofNat 1024 (leNat data) }) [(odKey 0x4400 4, leNat data)] path tag
  | 0x5001, 2 => enterMaint s path data
  | 0x5010, k => keep s [(odKey 0x5010 k, leNat data)] path tag
  | _, _ => badPut s

/-- A local write: access code, length, then range and effect (R459, R460). A write of the path that holds maintenance mode puts off
its end (R463). -/
def localWrite (s : State) (r : OdReq) (tag : Nat) (data : List Byte) : Put :=
  match odEntry r.index r.sub with
  | none => badPut s
  | some e =>
    if e.access = .ro ∨ e.access = .const then badPut s
    else if e.access = .rws ∧ s.od.maint ≠ some r.path then (.now 0x5005, s)
    else if r.offset ≠ 0 ∨ r.length ≠ e.size ∨ data.length ≠ e.size then badPut s
    else
      let s := if s.od.maint = some r.path then s.modOd fun o => { o with maintAt := s.power.uptime } else s
      match e.kind with
      | .scalar => scalarWrite s r.path e r.index r.sub (leNat data) tag
      | .raw => rawWrite s r.path r.index r.sub tag data

/-! ## A local read -/

/-- A page's tag (13 R357). -/
def tagBytes (ppa : Nat) (p : Page) : List Byte :=
  let kind := match p.kind with
    | .data => 1
    | .journal => 2
    | .checkpoint => 3
    | .padding => 4
    | .metadata => 5
    | .levee => 6
  let b := toLE 5 (if p.kind = .data then p.lu else 0xFFFFFFFFFF) ++ toLE 1 kind ++ toLE 6 p.seq ++ toLE 4 p.tx ++
    toLE 1 (ppa % 4 + (if p.copy then 4 else 0)) ++ toLE 3 0 ++ toLE 4 p.keyGen ++ toLE 4 0
  b ++ toLE 4 (crc32 b).toNat

/-- A raw page and its tag (13 R344, OD 0x2500): data under a media key the module no longer holds, and what a page without data
holds, are free. -/
def rawPage (s : State) (ppa : Nat) : List Byte :=
  match kget s.flash.pages ppa with
  | some p =>
    (if p.kind = .data ∧ s.sec.keys.contains p.keyGen then mread p.data 0 pageBytes else (List.range pageBytes).map (Config.rawByte ppa)) ++
      tagBytes ppa p
  | none => (List.range 16416).map (Config.rawByte ppa)

/-- RAW_DIAGNOSTIC_READ: a block that is being erased, and a page that cannot be decoded, give no data and a status in OD 0x2500:03. -/
def rawRead (s : State) (path : OdPath) (offset length : Nat) (o : ReadOutcome) : (Nat × List Byte) × State :=
  let ppa := od s 0x2500 1
  let set := fun (s : State) (st : Nat) => s.modFlash fun f => { f with rawStatus := st }
  if s.od.maint ≠ some path then ((0x5005, []), s)
  else if (kget s.flash.dies (ppaDie ppa)).any (fun d => d.erase && d.target == ppaBlock ppa) then ((0, []), set s 0x2004)
  else
    let s := countRead s ppa
    let s := match o with
      | .reread => retriedPage (bump s 0x9050 6 1)
      | .soft => retriedPage (bump (bump s 0x9050 6 1) 0x9050 7 1)
      | .failed => bump (retriedPage (bump (bump s 0x9050 6 1) 0x9050 7 1)) 0x9050 8 1
      | .hard => s
    if o = .failed then ((0, []), set s 0x2001)
    else ((0, ((rawPage s ppa).drop offset).take length), set s 0)

/-- A local read (R457-R460). Subindex 0 of an index with several values gives the highest in use. -/
def localRead (s : State) (r : OdReq) (o : ReadOutcome) : (Nat × List Byte) × State :=
  match odEntry r.index r.sub with
  | none =>
    (match odHighest r.index with
    | some h => if r.sub = 0 ∧ r.offset = 0 ∧ r.length = 1 then ((0, toLE 1 h), s) else ((0x1007, []), s)
    | none => ((0x1007, []), s))
  | some e =>
    match e.kind with
    | .scalar =>
      if r.offset ≠ 0 ∨ r.length ≠ e.size then ((0x1007, []), s)
      else if isMeasured r.index r.sub then
        let (k, s) := s.draw
        ((0, toLE e.size (Config.measured (odKey r.index r.sub) k)), s)
      else ((0, toLE e.size (scalarValue s r.path e r.index r.sub)), s)
    | .raw =>
      if r.length = 0 ∨ e.size < r.offset + r.length then ((0x1007, []), s)
      else if e.access = .wo then ((0, List.replicate r.length 0), s)
      else if r.index = 0x5001 then
        let n := s.sec.draws
        let nonce := (List.range 32).map (Config.randomByte n)
        ((0, (nonce.drop r.offset).take r.length),
          modPath (s.modSec fun c => { c with draws := n + 1 }) r.path fun p => { p with nonce := some nonce })
      else if r.index = 0x2500 then rawRead s r.path r.offset r.length o
      else ((0, ((rawValue s r.path r.index r.sub e.size).drop r.offset).take r.length), s)

end Sys2Proof.Machine
end

