-- ==== Sys2Proof/Machine/OdServe.lean ====
section
/-! DEFINITION. Machine/OdServe.lean: the commands of the management paths: mailboxes, MCTP, the fabric management class, and the
entries that have a command of their own (16 R434-R436, 17 R443, 18 R466-R473, 19 R500). -/

namespace Sys2Proof.Machine

/-! ## One access -/

/-- Largest Length of a path (R466). -/
def pathLimit : OdPath → Nat
  | .mctp _ => 1024
  | .fabric _ => 4080
  | _ => 32752

/-- The OD_READ or OD_WRITE payload with Flags and Module zero (16 R435, 18 R470). -/
def odPayload (r : OdReq) (data : List Byte) : List Byte :=
  toLE 2 r.index ++ toLE 1 r.sub ++ toLE 1 0 ++ toLE 2 0 ++ toLE 2 0 ++ toLE 4 r.offset ++ toLE 4 r.length ++ data

/-- An access to another module (R468, R470): a management request, answered by its response or its timeout. -/
def odRemote (s : State) (r : OdReq) (m : Nat) (write : Bool) (data : List Byte) : State :=
  let type := if write then odWriteType else odReadType
  let tag := s.fabric.nextTag
  let (ok, t) := sendPacket s { blankPacket with type := type, dest := m, tclass := 3, tag := tag, payload := odPayload r data }
  if ok then
    (t.modFab fun f => { f with
      nextTag := tag + 1
      reqs := kset f.reqs tag { owner := .mailbox r.path write, dest := m, type := type, sentAt := s.power.uptime, length := r.length }
      }).modOd fun o => { o with remote := o.remote ++ [(tag, r.path, write)] }
  else answerOd s r.path (sendStatus s m) []

/-- Whether an entry, or subindex 0 of an index with several values, exists (R457, R474). -/
def odExists (index sub : Nat) : Bool := (odEntry index sub).isSome || (sub == 0 && (odHighest index).isSome)

/-- One access at the OD server (R459-R473). -/
def odAccess (s : State) (r : OdReq) (tag : Nat) (write : Bool) (data : List Byte) (o : ReadOutcome) : State :=
  let type := if write then odWriteType else odReadType
  let fail := fun (s : State) (st : Nat) => answerPath s r.path type tag st []
  let vf := match r.path with | .vf _ => true | _ => false
  let away : Option Nat := match r.path, r.remote with
    | .fabric _, _ => none
    | _, some m => if m = moduleId s then none else some m
    | _, none => none
  if vf && r.remote.isSome then fail s 0x5001
  else if pathLimit r.path < r.length then fail s 0x1007
  else match away with
    | some m => odRemote s r m write data
    | none =>
      if !odExists r.index r.sub then fail s 0x1007
      else if !viewAllows s (viewOf s r.path) write r.index r.sub then fail (bump s 0x9500 5 1) 0x5001
      else if write then
        match localWrite s r tag data with
        | (.now st, s) => fail s st
        | (.later, s) => s
      else
        let ((st, b), s) := localRead s r o
        answerPath s r.path odReadType tag st b

/-! ## The paths -/

/-- The runtime serves the OD: powered, booted, and not restarting (19 R495, 20 R515). -/
def odUp (s : State) : Bool := s.power.phase == .running && s.sec.boot == .ready && !s.power.restarting

/-- The identity range (17 R443, 19 R495). -/
def inIdentity (index : Nat) : Bool := decide (0x1000 ≤ index) && decide (index ≤ 0x10FF)

/-- An OD access in PS5 wakes PD19 (20 R510). -/
def wakeManagement (s : State) : State :=
  if s.power.ps = 5 then s.modPower fun p => { p with odAt := p.uptime, pd := p.pd.set 19 .on } else s

/-- A function's mailbox can be reached: the link is up, a VF's only on a CXL link (16 R422, R423). -/
def mailboxUp (s : State) (fn : Nat) : Bool :=
  !s.host.perst && s.host.link != .down && (fn == 0 || s.host.link != .pcie) && s.power.phase == .running

/-- Answer a mailbox command (16 R434). -/
def mailboxAnswer (s : State) (fn code ext : Nat) (out : List Byte) : State :=
  s.modHost fun h =>
    let m := (kget h.mailboxes fn).getD {}
    signalMailbox { h with mailboxes := kset h.mailboxes fn (m.finish code ext out), bus := .status ext out } fn (m.control.getLsbD 1)

/-- A command is written to a mailbox and its doorbell set; one that finds the doorbell set is busy (16 R434). -/
def mailboxBegin (s : State) (fn opcode length : Nat) (run : State → State) : State :=
  if !mailboxUp s fn then s
  else
    let m := (kget s.host.mailboxes fn).getD {}
    if m.control.getLsbD 0 then s.modHost fun h => { h with
      mailboxes := kset h.mailboxes fn { m with returnCode := 6, extStatus := 0 }, bus := .status 6 [] }
    else run (s.modHost fun h => { h with
      mailboxes := kset h.mailboxes fn { m with opcode := opcode, length := length, control := m.control ||| 1#3 } })

/-- OD_READ and OD_WRITE of a mailbox. In recovery the boot ROM serves identity reads of the PF's (19 R495). A second background write is
busy. -/
def mailboxOd (s : State) (fn : Nat) (write : Bool) (r : OdReq) (data : List Byte) (o : ReadOutcome) : State :=
  mailboxBegin s fn (if write then 0xC001 else 0xC000) (16 + data.length) fun s =>
    if s.sec.boot = .recovery then
      if !write && fn == 0 && r.remote.isNone && inIdentity r.index then odAccess s r 0 false data o
      else answerOd s r.path 0x8001 []
    else if !odUp s || (((kget s.host.mailboxes fn).getD {}).bgOp && write && r.index == 0x2230) then mailboxAnswer s fn 6 0 []
    else odAccess (wakeManagement s) r 0 write data o

/-- OD access over MCTP (17 R443, 18 R469, 19 R495). -/
def mctpOd (s : State) (vendor : Nat) (secured : Bool) (r : OdReq) (write : Bool) (data : List Byte) (o : ReadOutcome) : State :=
  let identity := !write && r.remote.isNone && inIdentity r.index
  if !s.power.aux || vendor != scalarNow s r.path ⟨0x1000, 1, 2, 2, .scalar, .const, 0, false, 0, 65535⟩ 0x1000 2 then s
  else if s.power.phase != .running then
    if identity then odAccess s r 0 false data o else s.modHost fun h => { h with bus := .notReady }
  else if s.sec.boot = .recovery then (if identity then odAccess s r 0 false data o else answerOd s r.path 0x8001 [])
  else if !odUp s then s.modHost fun h => { h with bus := .notReady }
  else if write && od s 0x5001 6 == 1 && !(secured && s.sec.sessions.any fun q => !q.1) then answerOd s r.path 0x5001 []
  else odAccess (wakeManagement s) r 0 write data o

/-- OD access by the fabric management class (15 R419, 18 R470). -/
def fabricOd (s : State) (port : Nat) (tag : Nat) (r : OdReq) (write : Bool) (data : List Byte) (o : ReadOutcome) : State :=
  match r.path with
  | .fabric m =>
    let st := (s.port port).state
    let r : OdReq := { r with remote := none }
    if !odUp s || !(st.carries || st == .miswired) then s
    else if write && (st == .upLow || !s.fabric.allow.getLsbD m) then answerPath s r.path odWriteType tag 0x6002 []
    else odAccess (wakeManagement s) r tag write data o
  | _ => s

/-- An access that a command of its own spells: by its path's transport, outside a secured session, through a port that admits it (log
entry 35). -/
def odBy (s : State) (path : OdPath) (write : Bool) (index sub length : Nat) (data : List Byte) (o : ReadOutcome) (offset : Nat) : State :=
  let r : OdReq := ⟨path, index, sub, none, offset, length⟩
  match path with
  | .pf => mailboxOd s 0 write r data o
  | .vf n => mailboxOd s n write r data o
  | .mctp _ => mctpOd s (Config.constValue (odKey 0x1000 2) % 65536) false r write data o
  | .fabric m =>
    if !odUp s then s
    else if write && !s.fabric.allow.getLsbD m then answerPath s path odWriteType 0 0x6002 []
    else odAccess (wakeManagement s) r 0 write data o

def odPut (s : State) (path : OdPath) (index sub : Nat) (data : List Byte) : State := odBy s path true index sub data.length data .hard 0

/-! ## The generic mailbox commands (16 R435) -/

/-- Bytes of a mailbox answer that CXL 3.1 defines, by opcode. -/
def standardBytes (opcode n : Nat) : List Byte := (List.range n).map (Config.standardByte opcode)

/-- The command effects log: an opcode and its effects for each of the six commands. -/
def effectsLog : List Byte :=
  [0x0001, 0x0400, 0x0401, 0x4000, 0xC000, 0xC001].flatMap fun (c : Nat) => toLE 2 c ++ [Config.standardByte 0xCE1 c, Config.standardByte 0xCE2 c]

/-- A generic command, on the PF's mailbox only; a VF's carries the Oddex commands alone (R434). -/
def generic (s : State) (fn opcode length code : Nat) (out : List Byte) : State :=
  mailboxBegin s fn opcode length fun s =>
    if fn ≠ 0 then mailboxAnswer s fn 3 0 []
    else if !odUp s then mailboxAnswer s fn (if s.sec.boot = .recovery then 3 else 6) 0 []
    else mailboxAnswer s fn code 0 out

def execIdentify (fn : Nat) (s : State) : Host.Outcome State Fault Refusal := done s (generic s fn 0x0001 0 0 (standardBytes 0x0001 18))
def execGetSupportedLogs (fn : Nat) (s : State) : Host.Outcome State Fault Refusal :=
  done s (generic s fn 0x0400 0 0 (standardBytes 0x0400 24 ++ toLE 4 24))
/-- GET_LOG: the command effects log only, within its length. -/
def execGetLog (fn : Nat) (effects : Bool) (offset length : Nat) (s : State) : Host.Outcome State Fault Refusal :=
  done s (if effects && decide (offset + length ≤ 24) then generic s fn 0x0401 24 0 ((effectsLog.drop offset).take length)
    else generic s fn 0x0401 24 2 [])
def execIdentifyMemoryDevice (fn : Nat) (s : State) : Host.Outcome State Fault Refusal :=
  done s (generic s fn 0x4000 0 0 (standardBytes 0x4000 69))
/-- SET_TIMESTAMP and GET_TIMESTAMP: unsupported, the module has no time base. -/
def execSetTimestamp (fn : Nat) (_value : U64) (s : State) : Host.Outcome State Fault Refusal := done s (generic s fn 0x0301 8 3 [])
def execGetTimestamp (fn : Nat) (s : State) : Host.Outcome State Fault Refusal := done s (generic s fn 0x0300 0 3 [])

/-! ## OD_READ, OD_WRITE and the other paths -/

/-- OD_READ of the function of a mailbox path (R435). -/
def execOdRead (r : OdReq) (s : State) : Host.Outcome State Fault Refusal :=
  done s (match mailboxOf r.path with | some k => mailboxOd s k false r [] .hard | none => s)
def execOdWrite (r : OdReq) (data : List Byte) (s : State) : Host.Outcome State Fault Refusal :=
  done s (match mailboxOf r.path with | some k => mailboxOd s k true r data .hard | none => s)

/-- REMOTE_OD_TIMEOUT (R468). -/
def execRemoteOdTimeout (tag : Nat) (s : State) : Host.Outcome State Fault Refusal :=
  done s (match kget s.fabric.reqs tag with
    | some r =>
      (match r.owner with
      | .mailbox _ _ => if r.sentAt + od s 0x4400 1 ≤ s.power.uptime then endRequest s tag 0x6004 [] else s
      | _ => s)
    | none => s)

def execMctpOdRead (vendor : U16) (secured : Bool) (r : OdReq) (s : State) : Host.Outcome State Fault Refusal :=
  done s (match r.path with | .mctp _ => mctpOd s vendor.toNat secured r false [] .hard | _ => s)
def execMctpOdWrite (vendor : U16) (secured : Bool) (r : OdReq) (data : List Byte) (s : State) : Host.Outcome State Fault Refusal :=
  done s (match r.path with | .mctp _ => mctpOd s vendor.toNat secured r true data .hard | _ => s)

/-- MCTP_CONTROL (17 R443): answered whenever 3.3Vaux is present, as DMTF defines. -/
def execMctpControl (_eid : Nat) (code : Byte) (s : State) : Host.Outcome State Fault Refusal :=
  done s (if s.power.aux then s.modHost fun h => { h with
      bus := .bytes (standardBytes (0x20000 + code.toNat) (Config.standardByte 0x30000 code.toNat).toNat) } else s)

/-- I3C_ADDRESS_ASSIGN (17 R443): an I3C target from now on, until 3.3Vaux is next lost. -/
def execI3cAddressAssign (addr : BitVec 7) (s : State) : Host.Outcome State Fault Refusal :=
  done s (if s.power.aux then s.modPower fun p => { p with i3c := some addr } else s)

def execFabricOdRead (port tag : Nat) (r : OdReq) (s : State) : Host.Outcome State Fault Refusal :=
  done s (fabricOd s port tag r false [] .hard)
def execFabricOdWrite (port tag : Nat) (r : OdReq) (data : List Byte) (s : State) : Host.Outcome State Fault Refusal :=
  done s (fabricOd s port tag r true data .hard)

/-! ## Entries with a command of their own -/

/-- POLDER_APPLY: 1 to OD 0x3000+p:0C. -/
def execPolderApply (path : OdPath) (p : Nat) (s : State) : Host.Outcome State Fault Refusal :=
  done s (odPut s path (0x3000 + p) 0xC [1])
/-- QUEUE_PAGE_ASSIGN: 1 to OD 0x3110:04. -/
def execQueuePageAssign (path : OdPath) (s : State) : Host.Outcome State Fault Refusal := done s (odPut s path 0x3110 4 [1])
/-- TOPOLOGY_APPLY: 1 to OD 0x4000:07. -/
def execTopologyApply (path : OdPath) (s : State) : Host.Outcome State Fault Refusal := done s (odPut s path 0x4000 7 [1])
def execPortEnableWrite (path : OdPath) (port : Nat) (value : Byte) (s : State) : Host.Outcome State Fault Refusal :=
  done s (odPut s path (0x4010 + port) 5 [value])
/-- GROUP_ADD, GROUP_REMOVE, GROUP_PIN: OD 0x4300:04-06. -/
def execGroupAdd (path : OdPath) (value : U32) (s : State) : Host.Outcome State Fault Refusal :=
  done s (odPut s path 0x4300 4 (toLE 4 value.toNat))
def execGroupRemove (path : OdPath) (value : U16) (s : State) : Host.Outcome State Fault Refusal :=
  done s (odPut s path 0x4300 5 (toLE 2 value.toNat))
def execGroupPin (path : OdPath) (value : U32) (s : State) : Host.Outcome State Fault Refusal :=
  done s (odPut s path 0x4300 6 (toLE 4 value.toNat))
/-- IN_DOUBT_ROLLBACK: OD 0x4601:02. -/
def execInDoubtRollback (path : OdPath) (tx : U32) (s : State) : Host.Outcome State Fault Refusal :=
  done s (odPut s path 0x4601 2 (toLE 4 tx.toNat))
/-- NONCE_READ: OD 0x5001:03 whole. -/
def execNonceRead (path : OdPath) (s : State) : Host.Outcome State Fault Refusal := done s (odBy s path false 0x5001 3 32 [] .hard 0)
/-- MAINTENANCE_ENTRY and MAINTENANCE_EXIT: OD 0x5001:02 and :01. -/
def execMaintenanceEntry (path : OdPath) (signature : List Byte) (s : State) : Host.Outcome State Fault Refusal :=
  done s (odPut s path 0x5001 2 signature)
def execMaintenanceExit (path : OdPath) (s : State) : Host.Outcome State Fault Refusal := done s (odPut s path 0x5001 1 [0])
/-- RESTORE_DEFAULTS: OD 0x5002:01. -/
def execRestoreDefaults (path : OdPath) (s : State) : Host.Outcome State Fault Refusal := done s (odPut s path 0x5002 1 [1])
/-- COUNTER_SNAPSHOT: OD 0x9000:01. -/
def execCounterSnapshot (path : OdPath) (value : Byte) (s : State) : Host.Outcome State Fault Refusal :=
  done s (odPut s path 0x9000 1 [value])
/-- POWER_LOSS_MODE_WRITE: OD 0x2230:00. -/
def execPowerLossModeWrite (path : OdPath) (value : Byte) (s : State) : Host.Outcome State Fault Refusal :=
  done s (odPut s path 0x2230 0 [value])
/-- OWNER_KEY_WRITE: OD 0x5010:01 or :02 (19 R483, R486). -/
def execOwnerKeyWrite (path : OdPath) (sub : Nat) (key : List Byte) (s : State) : Host.Outcome State Fault Refusal :=
  done s (odPut s path 0x5010 sub key)
/-- RAW_DIAGNOSTIC_READ: OD 0x2500:02. -/
def execRawDiagnosticRead (path : OdPath) (offset length : Nat) (outcome : ReadOutcome) (s : State) : Host.Outcome State Fault Refusal :=
  done s (odBy s path false 0x2500 2 length [] outcome offset)
/-- MODULE_RESET_REQUEST and RUNTIME_RESTART_REQUEST: OD 0x6010:01 and :03. -/
def execModuleResetRequest (path : OdPath) (s : State) : Host.Outcome State Fault Refusal := done s (odPut s path 0x6010 1 [1])
def execRuntimeRestartRequest (path : OdPath) (s : State) : Host.Outcome State Fault Refusal := done s (odPut s path 0x6010 3 [1])
/-- HOST_MARKER: OD 0x6020:01 (20 R522). -/
def execHostMarker (path : OdPath) (value : U64) (s : State) : Host.Outcome State Fault Refusal :=
  done s (odPut s path 0x6020 1 (toLE 8 value.toNat))
/-- SECURE_REQUEST: OD 0x7010:01. -/
def execSecureRequest (path : OdPath) (job : U64) (s : State) : Host.Outcome State Fault Refusal :=
  done s (odPut s path 0x7010 1 (toLE 8 job.toNat))
/-- DESTROY_REOPEN_PASSWORD: OD 0x5400:05 (19 R502). -/
def execDestroyReopenPassword (path : OdPath) (s : State) : Host.Outcome State Fault Refusal := done s (odPut s path 0x5400 5 [1])

/-- MAINTENANCE_IDLE_TIMEOUT (R463). -/
def execMaintenanceIdleTimeout (s : State) : Host.Outcome State Fault Refusal :=
  done s (if s.od.maint.isSome && decide (s.od.maintAt + od s 0x5001 4 * 1000 ≤ s.power.uptime) then leaveMaint s 1 else s)

/-! ## SPDM (19 R500) -/

/-- The SPDM responder can be reached, over DOE or MCTP. -/
def spdmUp (s : State) (onDoe : Bool) : Bool :=
  s.power.phase == .running && (s.sec.boot == .ready || s.sec.boot == .recovery) && (if onDoe then mailboxUp s 0 else s.power.aux)

/-- An answer of the SPDM responder; `none` is an SPDM error response. -/
def spdm (s : State) (onDoe : Bool) (b : Option (List Byte)) : State :=
  if !spdmUp s onDoe then s
  else s.modHost fun h => { h with bus := match b with | some b => .bytes b | none => .status 1 [] }

/-- A certificate chain: slot 0 the identity chain, slot 1 the owner's. -/
def chainOf (s : State) (slot : Nat) : Option (List Byte) :=
  match slot with
  | 0 => some (Config.certChain 0)
  | 1 => if s.sec.ownerChain.isEmpty then none else some s.sec.ownerChain
  | _ => none

def execSpdmGetCertificate (onDoe : Bool) (slot offset length : Nat) (s : State) : Host.Outcome State Fault Refusal :=
  done s (spdm s onDoe ((chainOf s slot).map fun c => (c.drop offset).take length))

/-- A fresh responder nonce. -/
def responderNonce (s : State) : List Byte × State :=
  ((List.range 32).map (Config.randomByte s.sec.draws), s.modSec fun c => { c with draws := c.draws + 1 })

/-- SPDM_CHALLENGE: the chain's hash, the responder's nonce, and the identity key's signature over them and the requester's nonce. -/
def execSpdmChallenge (onDoe : Bool) (slot : Nat) (nonce : List Byte) (s : State) : Host.Outcome State Fault Refusal :=
  done s (match chainOf s slot with
    | none => spdm s onDoe none
    | some c =>
      if !spdmUp s onDoe then s
      else
      let (n, s) := responderNonce s
      let m := Config.sha256 c ++ n
      spdm s onDoe (some (m ++ Config.deviceSign (nonce ++ m))))

/-- Persistent values of OD 0x5001-0x5FFF, in ascending order. -/
def securityValues (s : State) : List Byte :=
  (odRows5a.filter fun e => e.persistent && decide (0x5001 ≤ e.base)).flatMap fun e =>
    match e.kind with
    | .scalar => toLE e.size (scalarNow s .pf e e.base e.sub)
    | .raw => rawValue s .pf e.base e.sub e.size

/-- A measurement block. -/
def measurement (s : State) (index : Nat) : Option (List Byte) :=
  match index with
  | 1 => some (toLE 4 (Config.constValue 1))
  | 2 => some (Config.sha256 (if s.sec.activeSlot.shipped then (List.range 4096).map (Config.constByte 2) else s.sec.activeSlot.bytes 0 4096))
  | 3 => some (toLE 4 s.sec.activeSlot.security ++ toLE 4 s.sec.floor)
  | 4 => some (Config.sha256 (securityValues s))
  | 5 => some [if s.sec.lock.scope = 0 then 0 else 1, BitVec.ofNat 8 s.sec.lock.scope]
  | 6 => some (toLE 1 (steppingByte s) ++ padTo 16 (orderingCode s))
  | _ => none

/-- SPDM_GET_MEASUREMENTS: a block, the responder's nonce and the signature. -/
def execSpdmGetMeasurements (onDoe : Bool) (index : Nat) (nonce : List Byte) (s : State) : Host.Outcome State Fault Refusal :=
  done s (match measurement s index with
    | none => spdm s onDoe none
    | some b =>
      if !spdmUp s onDoe then s
      else
      let (n, s) := responderNonce s
      spdm s onDoe (some (b ++ n ++ Config.deviceSign (nonce ++ b ++ n))))

/-- SPDM_KEY_EXCHANGE: up to four sessions; the IDE_KM session is on DOE, and one of them. -/
def execSpdmKeyExchange (onDoe : Bool) (ideKm : Bool) (exchange : List Byte) (s : State) : Host.Outcome State Fault Refusal :=
  done s (if 4 ≤ s.sec.sessions.length ∨ (ideKm ∧ (!onDoe ∨ s.sec.sessions.any fun q => q.2)) then spdm s onDoe none
    else if !spdmUp s onDoe then s
    else (spdm s onDoe (some (Config.exchangeReply exchange))).modSec fun c => { c with sessions := c.sessions ++ [(onDoe, ideKm)] })

end Sys2Proof.Machine
end

