-- ==== Sys2Proof/Machine/Loss.lean ====
section
/-! DEFINITION. Machine/Loss.lean: what a power loss and a module reset leave of the state (04 R122, R124, 13 R346, R351-R363, R370, 17
R451-R453, 18 R464, R471, 20 R513, R516). -/

namespace Sys2Proof.Machine

/-- How the media lost their programs: ended on hold-up energy with levee pages, cut, or quiesced by a module reset. -/
inductive Loss where
  | levee
  | cut
  | reset
  deriving DecidableEq, Repr

/-! ## The media -/

/-- Nothing was open: every course closed, every record in the journal, no operation running (13 R362). -/
def mediaQuiet (s : State) : Bool := s.flash.courses.isEmpty && s.flash.dies.isEmpty && s.flash.jpend.isEmpty

/-- Whether a page of a course not closed can be read at the next tag scan (13 R346, R352, R354, R362). In levee mode a course is on the
media only while its program runs, and levee pages name it as cut; in open-course mode each page sent is, and only an interrupted pass may
damage those before it. -/
def pageUsable (s : State) (how : Loss) (n c ppa : Nat) : Bool :=
  let each := od s 0x2230 0 == 1
  let running := s.flash.dies.any fun e => !e.2.erase && e.2.target == c
  match how with
  | .levee => false
  | .reset => each
  | .cut => if running then Config.pageSurvives n ppa else each

/-- The levee pages, one per quadrant: courses whose program was cut, and map deltas of closed courses not yet journaled (13 R354). -/
def writeLevees (s : State) : State :=
  let quadrant := fun (ppa : Nat) => ppaChannel ppa / 16
  let cut := (s.flash.courses.filter fun e => s.flash.dies.any fun d => !d.2.erase && d.2.target == e.1).map (·.1)
  let deltas := (s.flash.jpend.map (·.2)).filter fun r => match r with | .map .. => true | _ => false
  let page := fun (q : Nat) => (⟨q, cut.filter fun c => quadrant (c * 4) == q,
    deltas.filter fun r => match r with | .map _ ppa => quadrant ppa == q | _ => false⟩ : Levee)
  s.modFlash fun f => { f with levees := (List.range 4).map page }

/-- In open-course mode a loss of power may find the page of queued records programmed and its course not closed: as many of them as then read
back complete, a free number, are in the journal, and what they commit is committed (04 R125, 13 R362). -/
def recordsSurvive (s : State) (how : Loss) (n : Nat) : State :=
  if how ≠ .cut ∨ od s 0x2230 0 ≠ 1 then s
  else
    let l := s.flash.jpend.take (Config.recordsRead n % (s.flash.jpend.length + 1))
    let s := l.foldl (fun s e => journalApply s e.1 e.2) s
    let s := s.modFlash fun f => { f with journal := f.journal ++ l, jpend := f.jpend.drop l.length }
    l.foldl (fun s e => match e.2 with
      | .commit id _ _ _ _ _ idx _ =>
        if id = 0 then hardenObjs s (nubList (idx.map (·.1)))
        else (match kget s.txs (localOf id) with
        | some t => hardenObjs (applyTx s id (t.commitSeq.getD e.1) t) (changedBy t)
        | none => s)
      | _ => s) s

/-- The media at a loss. Pages of closed courses stay; of the others those that the tag scan will find usable. Records not in a journal
page, health records among them, are lost, but for the map deltas that levee pages or the tags of closed pages give back; numbering goes on
above the recorded mark (13 R362, R370). Erases cut are due again (R351). -/
def mediaLoss (s : State) (how : Loss) (fallback : Bool) : State :=
  let (n, s) := s.draw
  let s := recordsSurvive (if how = .levee then writeLevees s else s) how n
  let f := s.flash
  let usable := f.courses.flatMap fun e =>
    ((List.range e.2.sent).map (e.1 * 4 + ·)).filter (pageUsable s how n e.1)
  let closed := f.jpend.filterMap fun r => match r.2 with | .map _ ppa => some ppa | _ => none
  let lost := f.jpend.filterMap fun r => match r.2 with | .health k => some k | _ => none
  let pages := kfilter f.pages fun x _ => usable.contains x || !(f.courses.any fun c => c.1 == x / 4)
  let s : State := { s with
    health := s.health.filter fun h => !lost.contains h.number
    healthHigh := max s.healthHigh s.healthMark }
  s.modFlash fun f => { f with
    pages := pages, courses := [], dies := [], reads := [], arrived := [], ahead := [], wbs := [], bermWait := [], shared := []
    reservedUsed := [], jpend := [], jsince := none, blocked := false, parked := false
    scan := f.scan ++ closed ++ usable
    rebuild := match f.rebuild with
      | some (p, b) => some (p || decide (how ≠ .reset), b || fallback)
      | none => some (decide (how ≠ .reset), fallback) }

/-! ## Settings and counters (18 R464, R471) -/

/-- Give one entry of the OD store its value. -/
def restoreEntry (s : State) (key v : Nat) : State :=
  if 33554432 ≤ key then
    let d := (key - 33554432) / 4
    let r := (kget s.fabric.routes d).getD (0xFF, 0)
    let r : Nat × Nat := if key % 4 = 2 then (v, r.2) else (r.1, v)
    s.modFab fun f => { f with routes := if r = (0xFF, 0) then kdel f.routes d else kset f.routes d r }
  else if 16777216 ≤ key then
    let k := key - 16777216
    { s with pages := if v % 256 = 0xFE then kdel s.pages k else kset s.pages k ⟨v / 256, v % 256⟩ }
  else if key = odKey 0x4400 4 then s.modFab fun f => { f with allow := BitVec.ofNat 1024 v }
  else
    let s := odSet s (key / 256) (key % 256) v
    if key = odKey 0x4000 3 then s.modFab fun f => { f with kind := v }
    else if key = odKey 0x4000 4 then s.modFab fun f => { f with sizeX := v }
    else if key = odKey 0x4000 5 then s.modFab fun f => { f with sizeY := v }
    else s

/-- Every entry at its default, then those of the OD store at their values. -/
def restoreStore (s : State) : State :=
  let s : State := { s with pages := [(0, ⟨0, 0xFF⟩)] }
  let s := (s.modOd fun o => { o with vals := [] }).modFab fun f =>
    { f with routes := [], kind := 0, sizeX := 0, sizeY := 0, allow := BitVec.allOnes 1024 }
  s.sec.store.foldl (fun s e => restoreEntry s e.1 e.2) s

/-- Counters that persist. -/
def persists (key : Nat) : Bool := match odEntry (key / 256) (key % 256) with | some e => e.persistent | none => false

/-! ## The rest of the module -/

/-- Bytes that an object reserves in the exported pool (02 R36). -/
def Obj.pool (o : Obj) : Nat :=
  match o.area with
  | .nspace _ b k _ => b * k
  | a => if hasPayload a.code && !o.volatile then o.length else 0

/-- A port after its domain lost its state: DOWN; emitter and incoming light are outside it. -/
def Port.lost (t : Port) (now : Nat) : Port := { emitter := t.emitter, signal := t.signal, dark0 := now }

/-- A group after its runtime lost its state: the installed epoch stays, from the journal (15 R409, 20 R516). -/
def Group.lost (g : Group) : Group := { keeper := g.keeper, epoch := g.epoch, members := g.members, autoOut := g.autoOut }

/-- The pending sanitize as the journal gives it (20 R517-R519). -/
def journaledSanitize (s : State) : Sanitize :=
  match findFirst (fun _ => true) (s.flash.journal.reverse.filterMap fun r => match r.2 with | .sanitize k n => some (k, n) | _ => none) with
  | some (k, n) => if k < 5 then ⟨true, k, n, allBlocks s⟩ else {}
  | none => {}

/-- DRAM and everything that lives in it (20 R516): retired frames stay retired. -/
def loseDram (s : State) : State :=
  let back := (s.parcels.filter fun e => e.2.state.inDram).map fun e => e.2.frame
  let s := s.modDram fun d => {
    retired := d.retired, nextFrame := d.nextFrame, overcommitted := d.overcommitted
    freeFrames := d.freeFrames ++ back.filter fun k => !d.freeFrames.contains k && !d.retired.contains k }
  { s with spad := [], sump := [], parcels := [], cores := kmap s.cores fun _ c => { c with regs := {} } }

/-- Task registers, commands, jobs, transactions and objects (04 R122, 20 R516). Objects are as the durable journal gives them. -/
def loseWork (s : State) : State :=
  let objs := kmap s.durObjs fun _ o => { o with maps := 0, leaving := false, spilled := false }
  let valid := s.objs.foldl (fun m e => match e.2.area with
    | .blob v => kset m e.1 (max v (kcount m e.1))
    | _ => m) s.heldValid
  { s with
    heldValid := valid, walks := []
    regs := [], rings := [], execs := [], jobs := [], cores := [], passes := [], candEpochs := [], versions := []
    txs := [], branches := [], outcomes := []
    objs := objs, reserved := (objs.map fun e => e.2.pool).foldl (· + ·) 0 }

/-- The host side: the link is down, decoder and bindings are gone (16 R427); host memory is the host's. -/
def loseHost (s : State) : State :=
  s.modHost fun h => {
    mem := h.mem, faults := h.faults, perst := h.perst, cxlMode := h.cxlMode, link := .down
    msix := h.msix, bus := h.bus }

def loseFabric (s : State) : State :=
  s.modFab fun f => { f with
    ports := f.ports.map fun t => t.lost s.power.uptime
    links := [], reqs := [], heldReqs := [], heldMsgs := [], lastRoute := [], waiting := [], changes := [], claims := [], colls := [], lost := []
    shardWaits := [], groups := kmap f.groups fun _ g => g.lost }

/-- Path states, counters and settings that do not persist. -/
def loseOd (s : State) : State :=
  let s := leaveMaint s 2
  restoreStore (s.modOd fun o => { o with
    cnt := kfilter o.cnt fun k _ => persists k
    pcnt := kfilter o.pcnt fun k _ => persists (k % 16777216)
    paths := [], remote := [], modes := [], applies := [] })

/-- Sessions, the staging session, writes not programmed, and the debug lock, which closes. -/
def loseSec (s : State) : State :=
  s.modSec fun c => { c with
    session := false, sessions := [], storeQ := [], op := none, boot := .off
    lock := { c.lock with scope := 0, bySignature := false, challenge := none } }

/-- Transitions, throttling and the monitor's windows. -/
def losePower (s : State) : State :=
  let z := journaledSanitize s
  let s := s.modPower fun p => { p with
    target := none, restarting := false, resetReq := none, arr := 16, thrTemp := false, thrPower := false, episode := none
    dieLimit := none, sanitize := z, resetAt := p.uptime, psSince := p.uptime, odAt := p.uptime, stepAt := p.uptime }
  s.modRisk fun _ => {}

/-- Everything that a power loss or a module reset takes, after the media. -/
def loseState (s : State) : State := loseSec (loseOd (loseFabric (loseHost (losePower (loseWork (loseDram s))))))

end Sys2Proof.Machine
end

