-- ==== Sys2Proof/Machine/Rebuild.lean ====
section
/-! DEFINITION. Machine/Rebuild.lean: the rebuild of the map and of what lives on it after a power loss or a module reset (02 R42, R45, R46,
04 R122-R125, 12 R308, 13 R361-R363, 20 R516). -/

namespace Sys2Proof.Machine

/-! ## The map (13 R361 steps 3 and 4, R362, 04 R124) -/

/-- Transactions with a commit record in the journal, or a PREPARED record whose outcome was COMMIT (04 R124). -/
def committedIds (s : State) : List Nat :=
  s.flash.journal.filterMap fun r => match r.2 with | .commit id .. => some id | .outcome id false => some id | _ => none

/-- A record of the journal, after a sequence number, that unmaps a unit. -/
def unmappedAfter (s : State) (lu n : Nat) : Bool :=
  s.flash.journal.any fun r => decide (n < r.1) && match r.2 with
    | .unmap k => k == lu
    | .commit _ _ units _ _ _ _ trims => units.any (fun u => u.1 == lu && u.2.isNone) || trims.any fun k => lu / 8 == k && lu % 2 == 1
    | .outcome id false => (match preparedRec s id with
      | some (b, _, _) => b.units.any (fun u => u.1 == lu && u.2.isNone) || b.trims.any fun k => lu / 8 == k && lu % 2 == 1
      | none => false)
    | _ => false

/-- A scanned page becomes current if it counts as data and is newer than the mapped page. -/
def adoptPage (s : State) (ids : List Nat) (ppa : Nat) : State :=
  match kget s.flash.pages ppa with
  | none => s
  | some p =>
    let counts := p.kind == .data && !p.bad && !p.partCopy && (p.tx == 0 || ids.contains p.tx) && !unmappedAfter s p.lu p.seq
    let older := match kget s.flash.map p.lu with
      | some x => (match kget s.flash.pages x with | some q => decide (q.seq < p.seq) | none => true)
      | none => true
    if counts && older then mapUnit s p.lu ppa else s

/-- Object that a unit belongs to; a VOLATILE object has no copy on flash (02 R45). -/
def unitOwner (s : State) (lu : Nat) : Option (Nat × Obj) :=
  if lu % 2 = 1 then
    match ownerOfAddr s (lu / 8 * 65536) with
    | some e => if e.2.volatile then none else some e
    | none => none
  else findFirst (fun e => match e.2.area with
    | .nspace n _ _ _ => n == lu / 2 / 1099511627776
    | _ => false) s.objs

/-- The map: the journal's, the scanned pages, and only units that an object still has. -/
def rebuildMap (s : State) : State :=
  let ids := committedIds s
  let s := s.modFlash fun f => { f with map := f.durMap }
  let s := s.flash.scan.foldl (fun s x => adoptPage s ids x) s
  let s := s.modFlash fun f => { f with
    map := kfilter f.map fun lu _ => (unitOwner s lu).isSome
    durMap := kfilter f.durMap fun lu _ => (unitOwner s lu).isSome }
  -- what the journal does not hold yet
  (s.flash.map.filter fun e => kget s.flash.durMap e.1 != some e.2).foldl (fun s e => (jadd s (.map e.1 e.2)).2) s

/-! ## Parcels (02 R41, R42, R46, 11 R280) -/

/-- Bring a parcel's flash copy into DRAM at once; one without a copy reads as zeros. -/
def loadParcel (s : State) (k h : Nat) : State :=
  match kget s.parcels k with
  | some p => if p.state.inDram then s
    else match parcelFlash s k with
      | none => s
      | some m =>
        let (f, s) := allocFrame s
        let s := s.modDram fun d => { d with mem := mcopy m 0 65536 d.mem (k * 65536) }
        s.modParcel k fun p => { p with state := .dramClean, frame := f, queued := false }
  | none =>
    let (f, s) := allocFrame s
    let p : Parcel := { state := .dramDirty, obj := h, frame := f }
    { s with parcels := kset s.parcels k p }

/-- A parcel with a flash copy: read from flash; parcels of PINNED_DRAM and pinned objects are queued for DRAM, and what an object keeps
in DRAM whatever its policy is loaded. -/
def rebuildParcel (s : State) (k : Nat) : State :=
  match ownerOfAddr s (k * 65536) with
  | none => s
  | some e =>
    if (kget s.parcels k).isSome then s
    else
      let p : Parcel := { state := .flash, obj := e.1, hasFlash := true, queued := e.2.policy == 1 || decide (0 < e.2.pinCount) }
      let s : State := { s with parcels := kset s.parcels k p }
      if k * 65536 < e.2.base + e.2.area.kept then loadParcel s k e.1 else s

def rebuildParcels (s : State) : State :=
  ((s.flash.map.filter fun e => e.1 % 2 == 1).map fun e => e.1 / 8).foldl rebuildParcel s

/-- Put bytes into a line of a parcel, loaded first: DRAM holds what flash does not. -/
def redoLine (s : State) (h n : Nat) (b : List Byte) : State :=
  let s := loadParcel s (n / 1024) h
  if (parcelState s (n / 1024)).inDram then
    (s.modDram fun d => { d with mem := mwrite d.mem (n * 64) (padTo 64 b) }).modParcel (n / 1024) fun p => { p with state := .dramDirty }
  else s

/-- Whether the page that holds a line on flash lacks what a transaction committed there at a sequence number: it is older, or it carries
the line's undo copy of that transaction (02 R43, R44). -/
def lineLacks (s : State) (n seq id : Nat) : Bool :=
  match kget s.flash.map (lineLu n) with
  | some x => (match kget s.flash.pages x with
    | some p => decide (p.seq ≤ seq) || p.undone.contains (n, id)
    | none => true)
  | none => true

/-- Lines of commit records that their page on flash lacks (02 R42, 04 R116, R122). -/
def redoLines (s : State) : State :=
  let s := { s with durLines := kfilter s.durLines fun n e => lineLacks s n e.1 e.2.1 && (ownerOfAddr s (n * 64)).isSome }
  s.durLines.foldl (fun s e => match ownerOfAddr s (e.1 * 64) with
    | some o => redoLine s o.1 e.1 e.2.2.2
    | none => s) s

/-- Valid bytes of a BLOB after a loss (02 R529): at least what the durable stores imply, the header and the pages on flash, at most what
it was before the loss; in between a free value. -/
def rebuildValid (s : State) (h held : Nat) : State :=
  match kget s.objs h with
  | none => s
  | some o =>
    match o.area with
    | .blob v =>
      let tops := s.flash.map.filterMap fun e =>
        if e.1 % 2 = 1 ∧ o.base ≤ e.1 / 8 * 65536 ∧ e.1 / 8 * 65536 < o.base + o.extent then (kget s.flash.pages e.2).map (·.top) else none
      let low := min (max v held) (tops.foldl max v)
      let (n, s) := s.draw
      let new := low + Config.validAfter n % (max v held - low + 1)
      if new = v then s else (journalObj (s.modObj h fun o => { o with area := .blob new }) h).2
    | _ => s

/-! ## Branches and outcomes (04 R119, R120, R122) -/

/-- Whether the journal holds an outcome record of a transaction: of a branch applied (false), of a commit acknowledged by all or a
branch rolled back (true). -/
def ended (s : State) (id : Nat) (released : Bool) : Bool :=
  s.flash.journal.any fun r => match r.2 with
    | .outcome k b => k == id && b == released
    | _ => false

/-- A row addition of a record, pending again unless its step has been applied (11 R295). -/
def redoRow (s : State) (tx : Nat) (a : RowAdd) : State :=
  match kget s.objs a.table, a.row with
  | some o, some row =>
    (match o.area with
    | .table t =>
      if a.step ≤ t.applied ∨ o.volatile then s
      else
        let s : State := { s with arrivals := s.arrivals + 1 }
        let x : Addition := ⟨row, a.step, a.src, a.pos, s.arrivals, tx, a.values⟩
        s.modTbl a.table fun b => { b with
          pend := b.pend ++ [x], closed := kset b.closed a.src (max (kcount b.closed a.src) a.step) }
    | _ => s)
  | _, _ => s

/-- A PREPARED branch is rebuilt from its record: in doubt, its lines stored with undo copies, its additions staged. -/
def rebuildBranch (s : State) (n id : Nat) (b : Tx) (lines : List (Nat × List Byte)) (rows : List RowAdd) : State :=
  let s := lines.foldl (fun s l => match ownerOfAddr s (l.1 * 64) with | some o => loadParcel s (l.1 / 1024) o.1 | none => s) s
  let undo := lines.map fun l => (l.1, lineBytes s l.1)
  let s := lines.foldl (fun s l => match ownerOfAddr s (l.1 * 64) with | some o => redoLine s o.1 l.1 l.2 | none => s) s
  let now := s.power.uptime
  let t : Tx := { b with units := b.units.map (stagedNow s id), undo := undo, recordSeq := some n, preparedAt := some now, lastNamed := now, repeatAt := now }
  rows.foldl (fun s a => redoRow s id a) { s with branches := kset s.branches id t }

/-- Branches in doubt, outcomes not acknowledged, and additions of committed transactions, from the journal. -/
def rebuildTxs (s : State) : State :=
  s.flash.journal.foldl (fun s r => match r.2 with
    | .prepared id b lines rows => 
      if ended s id false then rows.foldl (fun s a => redoRow s 0 a) s
      else if ended s id true then s
      else rebuildBranch s r.1 id b lines rows
    | .commit id _ _ _ parts rows _ _ =>
      let s := rows.foldl (fun s a => redoRow s 0 a) s
      if parts.isEmpty || ended s id true then s
      else { s with outcomes := s.outcomes ++ [⟨localOf id, parts, s.power.uptime⟩] }
    | _ => s) s

/-! ## Indexes, tables and jobs (05 R152, 11 R288, R289, 12 R302, R308) -/

/-- An index as its durable header gives it: versions of later epochs were never visible. A VOLATILE index is empty. -/
def rebuildIndex (s : State) (h : Nat) (st : IndexSt) : State :=
  match kget s.objs h with
  | some o =>
    (match o.area with
    | .index a =>
      if o.volatile then
        { s with indexes := kset s.indexes h {}, objs := kset s.objs h { o with area := .index { a with live := 0 } } }
      else
        let recs := (st.recs.filter fun r => decide (r.insEpoch ≤ a.epoch)).map fun r => if a.epoch < r.delEpoch then { r with delEpoch := 0 } else r
        { s with indexes := kset s.indexes h { st with recs := recs, snapshots := [] } }
    | _ => { s with indexes := kdel s.indexes h })
  | none => { s with indexes := kdel s.indexes h }

/-- The slot area as the directory's entries (class and offset) use it: a parcel with an entry is carved in its class. -/
def carvedSlots (a : TableArea) (length : Nat) (es : List (Nat × Nat)) : List (Nat × Nat) × Nat :=
  let parcelOf := fun (off : Nat) => (off - a.slotOffset) / 65536
  let top := (es.map fun e => parcelOf e.2 + 1).foldl max 0
  let free := (List.range top).flatMap fun i =>
    let base := a.slotOffset + i * 65536
    match findFirst (fun e => parcelOf e.2 == i) es with
    | none => [(base, 4)]
    | some e => (carve a.dim e.1 base (min 65536 (length - base))).filter fun f => !es.any fun x => x.2 == f.1
  (free, min (top * 65536) (length - a.slotOffset))

/-- A table: no readers and no migrations, the slots its directory does not name free, additions from commit records alone. -/
def rebuildTable (s : State) (h : Nat) : State :=
  match kget s.objs h with
  | some o =>
    (match o.area with
    | .table a =>
      let es := (presentRows s o a).map fun r => (entryClass (rowEntry s o r), entrySlot (rowEntry s o r))
      let (free, carved) := carvedSlots a o.length es
      { s with tables := kset s.tables h { freeSlots := free, carved := carved } }
    | _ => { s with tables := kdel s.tables h })
  | none => { s with tables := kdel s.tables h }

/-- Jobs that had not ended show State 3 and 0x3004 (20 R516). -/
def endJobs (s : State) : State :=
  let open' := (s.objs.filter fun e => match e.2.area with | .job j => decide (j.state ≠ 3) | _ => false).map (·.1)
  open'.foldl (fun s h => (journalObj (bumpVersion (s.modObj h fun o => match o.area with
    | .job j => { o with area := .job { j with state := 3, finalStatus := 0x3004, resident := 0 } }
    | _ => o) h) h).2) s

/-! ## Relocation (13 R361 step 5, R363) -/

/-- Copy the usable pages of courses that did not close to fresh courses, which close at once. Answers how many. -/
def relocate (s : State) : Nat × State :=
  let staged := stagedUnits s
  let move := (s.flash.scan.filterMap fun x => match kget s.flash.pages x with
    | some p => if !p.closed && p.kind == .data && (kget s.flash.map p.lu == some x || staged.any fun u => u.2 == some x) then some (x, p) else none
    | none => none)
  let s := move.foldl (fun s e => match placePage s .openGc e.2.lu e.2.kind e.2.tx true 4 e.2.data with
    | (some new, s) =>
      let s := rename s e.2.lu e.1 new
      if kget s.flash.map e.2.lu = some new then (jadd s (.map e.2.lu new)).2 else s
    | (none, s) => s) s
  let s := padAll s
  let opened := s.flash.courses.map (·.1)
  (move.length, s.modFlash fun f => { f with
    pages := kmap f.pages fun x p => if opened.contains (x / 4) then { p with closed := true } else p
    courses := [], dies := [], bermWait := [], shared := [], reservedUsed := [], scan := [] })

/-- The rebuild (13 R361): its log record and its count after a power loss, and hold-up health taken as 0 after a fallback that no
core-undervoltage cut explains (R362). -/
def rebuild (s : State) : State :=
  match s.flash.rebuild with
  | none => s
  | some (powerLoss, fallback) =>
    let s := redoLines (rebuildParcels (rebuildMap s))
    let s := s.heldValid.foldl (fun s e => rebuildValid s e.1 e.2) { s with heldValid := [] }
    let s := (s.tables.map (·.1)).foldl rebuildTable s
    let s := s.indexes.foldl (fun s e => rebuildIndex s e.1 e.2) s
    let s := endJobs (rebuildTxs s)
    let (n, s) := relocate s
    let s := if powerLoss then
        let (d, s) := s.draw
        bump (logHealth s 0x0013 false [od s 0x2230 0, s.flash.levees.length, n, Config.rebuildMs d]) 0x9050 0xE 1
      else s
    let s := if fallback ∧ s.power.cause ≠ 9 then s.modPower fun p => { p with healthZero := true } else s
    journalFlush (s.modFlash fun f => { f with rebuild := none, levees := [] })

end Sys2Proof.Machine
end

