-- ==== Sys2Proof/Machine/Reset.lean ====
section
/-! DEFINITION. Machine/Reset.lean: function resets, module resets and runtime restarts (20 R504, R512-R516, 19 R498). -/

namespace Sys2Proof.Machine

/-! ## Function reset (R514) -/

/-- A command of a reset function that ends without effect: it has not passed its point of effect. A JOB, a SANITIZE, a SET_POWER_STATE
and an accepted TX_COMMIT go on; a FW_STAGE chunk in progress is abandoned. -/
def Exec.dropped (e : Exec) : Bool :=
  match e.wait with
  | .reads _ | .retry | .remote .. | .scrub | .destroy _ | .pages .. | .claim .. => true
  | .pass _ | .shards _ => !e.effect
  | _ => e.opcode == 0x104

/-- Queries of a command leave the passes and the sharded queries. -/
def dropQueries (s : State) (reg : Nat) : State :=
  let s := { s with passes := kmap s.passes fun _ p => { p with queries := p.queries.filter fun q => q.owner != QOwner.register reg } }
  s.modFab fun f => { f with shardWaits := kfilter f.shardWaits fun _ w => w.reg != reg }

/-- Drop one command: what it had begun is undone; a committing transaction that waits for it is rolled back with 0x3004. -/
def dropExec (s : State) (reg : Nat) (e : Exec) : State :=
  let s := match e.wait with
    | .destroy h => s.modObj h fun o => { o with leaving := false }
    | .claim number _ => endClaim s number 0 0x1007
    | _ => s
  let s := if e.opcode = 0x104 then
      let gone := chunkSectors (bitsAt e.cmd.ops.toNat 0 64) e.cmd.length.toNat
      s.modSlot s.inactive fun t => { t with written := t.written.filter fun k => !gone.contains k, verified := false }
    else s
  let s := dropQueries { s with execs := kdel s.execs reg } reg
  let s := if s.dram.scrubbing = some reg then nextScrub s else s
  let id := e.cmd.tx.toNat
  if id % 4194304 ≠ 0 ∧ coordOf id = moduleId s then
    match kget s.txs (localOf id) with
    | some t => if t.state = .committing ∧ t.recordSeq.isNone then failCommit s (localOf id) 0x3004 else s
    | none => s
  else s

/-- A command past its point of effect runs on inside the module: it leaves its register and gives no result. -/
def silence (s : State) (reg : Nat) (e : Exec) : State :=
  let key := 1048576 + e.order
  let owner := fun (q : Query) => if q.owner = QOwner.register reg then { q with owner := QOwner.register key } else q
  let s : State := { s with
    execs := kset (kdel s.execs reg) key { e with silent := true }
    passes := kmap s.passes fun _ p => { p with queries := p.queries.map owner } }
  s.modFab fun f => { f with shardWaits := kmap f.shardWaits fun _ w => if w.reg = reg then { w with reg := key } else w }

/-- FLR of the PF, which resets every function, or of one VF (R514, R516). -/
def functionReset (s : State) (fn : Nat) : State :=
  let inFn := fun (f : Nat) => fn == 0 || f == fn
  let mine := fun (s : State) => s.execs.filter fun e => inFn e.2.fn && !e.2.silent && e.2.carried.isNone
  let s := ((mine s).filter fun e => e.2.dropped).foldl (fun s e => dropExec s e.1 e.2) s
  let s := (mine s).foldl (fun s e => silence s e.1 e.2) s
  let s := ((s.txs.filter fun e => (match e.2.owner with | .page f _ => inFn f | _ => false) &&
    (e.2.state == .open || e.2.state == .aborted))).foldl (fun s e =>
      freeTx (if e.2.state = .open then bumpB s e.2.polder 0x9600 5 1 else s) (txIdOf s e.1)) s
  let s : State := { s with
    regs := kfilter s.regs fun r _ => !(match kget s.pages (pageOfReg r) with | some pg => inFn pg.fn | none => false)
    rings := kfilter s.rings fun _ g => !inFn g.fn }
  let s := s.modHost fun h => { h with
    mailboxes := kfilter h.mailboxes fun k _ => !inFn k, ats := h.ats.filter fun t => !inFn t.1 }
  let s := if fn = 0 ∧ s.od.maint = some .pf then leaveMaint s 2 else s
  bump s 0x1101 3 1

/-! ## Module reset (R513, R516) -/

/-- The power state of a power-up or module reset (R504). -/
def powerUpState (s : State) : Nat :=
  let a := admittedState s.power.pins
  let b := max (od s 0x6000 1) a
  if s.power.sanitize.pending ∧ 4 ≤ b then (if a = 4 then 4 else 3) else b

/-- Enter it, its domains set; a pending sanitize keeps the flash quadrants of PS4 powered. -/
def enterPowerUp (s : State) : State :=
  let b := powerUpState s
  let on := clustersIn s b
  let quads := fun (l : List PdState) => if s.power.sanitize.pending then (((l.set 11 .on).set 12 .on).set 13 .on).set 14 .on else l
  s.modPower fun p => { p with ps := b, clusters := on, pd := quads (domainsIn b on), psSince := p.uptime }

/-- The link trains from reset unless PERST# is held (16 R423, 17 R449 step 7). -/
def linkTrains (s : State) : State :=
  if s.host.perst then s else s.modHost fun h => { h with link := if h.cxlMode then .l0 else .pcie }

/-- The configuration-flash operation in progress has ended, or has run its maximum time (19 R478, R498). -/
def cfgQuiet (s : State) : Bool :=
  match s.sec.op with
  | none => true
  | some o => !o.suspended && decide (o.startedAt + (if o.erase then 200000 else 800) ≤ s.power.uptime)

/-- A watchdog's reset is logged with the operation that held it off, and a hold-off is counted (19 R498). -/
def logHeld (s : State) : State :=
  match s.sec.heldReset with
  | none => s
  | some (dog, op, since) =>
    let s := logHealth (s.modSec fun c => { c with heldReset := none }) 0x0016 false [dog, op, (s.power.uptime - since : Nat)]
    if op = 0 then s else bump s 0x5100 4 1

/-- MODULE_RESET: the media quiesce, the journal page is programmed, and the reset applies. -/
def moduleReset (s : State) : State :=
  match s.power.resetReq with
  | none => s
  | some cause =>
    if !s.flash.dies.isEmpty || !cfgQuiet s then s
    else
      let s := if s.power.holdup then afterJournal (journalFlush s) else s
      let s := loseState (mediaLoss s .reset false)
      let s := (logHeld s).modPower fun p => { p with cause := cause }
      enterPowerUp (linkTrains (bump s 0x1101 2 1))

/-! ## What asks for one (R512, 19 R498) -/

/-- PERST# is asserted: the link goes down at once. -/
def perstAssert (s : State) : State :=
  if s.host.perst then s
  else
    let s := s.modHost fun h => { h with perst := true, link := .down }
    if s.power.phase = .running then requestReset s 4 else s

/-- PERST# is deasserted: link training starts, for CXL or for PCIe alone (16 R423, 17 R449 step 7). -/
def perstDeassert (s : State) (cxl : Bool) : State :=
  if !s.host.perst then s
  else
    let s := s.modHost fun h => { h with perst := false, cxlMode := cxl }
    if s.power.phase = .running then linkTrains s else s

/-- A CXL hot reset or link disable takes the link down. -/
def hotReset (s : State) : State :=
  if s.host.link = .down then s else requestReset (s.modHost fun h => { h with link := .down }) 5

/-- A watchdog expires: `dog` 0 runtime, 1 boot. -/
def watchdog (s : State) (dog : Nat) : State :=
  let held := match s.sec.op with | none => 0 | some o => if o.erase then 2 else 1
  let s := bump s 0x5100 3 1
  let s := s.modSec fun c => { c with heldReset := some (dog, held, s.power.uptime) }
  requestReset s (6 + dog)

/-- RUNTIME_WATCHDOG: it stands still while PD19 is in retention (R510) and while the boot watchdog applies. -/
def runtimeWatchdog (s : State) : State :=
  if s.power.phase = .running ∧ s.sec.boot = .ready ∧ s.power.resetReq.isNone ∧ s.power.pd[19]? ≠ some .ret ∧
      s.sec.dogAt + 1000 * od s 0x5100 1 ≤ s.power.uptime then watchdog s 0
  else s

/-- BOOT_WATCHDOG. -/
def bootWatchdog (s : State) : State :=
  if s.power.phase = .running ∧ s.sec.boot = .booting ∧ s.power.resetReq.isNone ∧ s.sec.dogAt + 1000 * od s 0x5100 2 ≤ s.power.uptime then
    watchdog s 1
  else s

/-- RUNTIME_RESTART: a runtime fault (14 R381). -/
def runtimeRestart (s : State) : State :=
  if s.power.phase = .running ∧ s.sec.boot = .ready ∧ !s.power.restarting then beginRestart s none else s

def execPerstAssert (s : State) : Host.Outcome State Fault Refusal := done s (perstAssert s)
def execPerstDeassert (cxl : Bool) (s : State) : Host.Outcome State Fault Refusal := done s (perstDeassert s cxl)
def execHotReset (s : State) : Host.Outcome State Fault Refusal := done s (hotReset s)
def execModuleReset (s : State) : Host.Outcome State Fault Refusal := done s (moduleReset s)
def execFlr (fn : Nat) (s : State) : Host.Outcome State Fault Refusal := done s (functionReset s fn)
def execRuntimeRestart (s : State) : Host.Outcome State Fault Refusal := done s (runtimeRestart s)
def execRuntimeWatchdog (s : State) : Host.Outcome State Fault Refusal := done s (runtimeWatchdog s)
def execBootWatchdog (s : State) : Host.Outcome State Fault Refusal := done s (bootWatchdog s)

end Sys2Proof.Machine
end

