-- ==== Sys2Proof/Machine/Boot.lean ====
section
/-! DEFINITION. Machine/Boot.lean: the choice of the slot, the boot chain, and the runtime becoming ready (19 R490-R498, 20 R512, R515-R517,
17 R449 steps 6-10). -/

namespace Sys2Proof.Machine

/-! ## The slot to boot (19 R492, R493) -/

/-- A candidate: VERIFIED set, REJECTED clear, its stepping this module's, its status words as they should be. -/
def bootCandidate (s : State) (n : Nat) : Bool :=
  let t := s.slot n
  t.verified && !t.rejected && t.usable && (t.shipped || leNat (t.bytes 6 1) == steppingByte s)

def otherCandidate (s : State) (n : Nat) : Option Nat := if bootCandidate s (1 - n) then some (1 - n) else none

/-- The candidate with the highest ACTIVATION; none activated: slot A if a candidate. -/
def firstSlot (s : State) : Option Nat :=
  let l := ([0, 1].filter fun n => bootCandidate s n && decide (0 < (s.slot n).activation))
  match bestBy (fun a b => decide ((s.slot b).activation < (s.slot a).activation)) l with
  | some n => some n
  | none => if bootCandidate s 0 then some 0 else none

/-- A slot is rejected: REJECTED set, the fallback logged with slot, reason (0 two attempts, else the status of R491) and the slot that
boots, 0xFF for none. -/
def rejectSlot (s : State) (n reason : Nat) : Option Nat × State :=
  let s := setStatus (s.modSlot n fun t => { t with rejected := true }) n 6 0
  let o := otherCandidate s n
  let s := logHealth (s.modSec fun c => { c with bootKind := 1 }) 0x0017 false [n, reason, o.getD 0xFF]
  (o, s)

/-- A slot that has not run takes an attempt. -/
def attemptSlot (s : State) (n : Nat) : State :=
  if (s.slot n).ran then s
  else setStatus (s.modSlot n fun t => { t with attempts := t.attempts + 1 }) n (3 + (s.slot n).attempts) 0

/-- Try a slot, and the other after it: two attempts without RAN reject it, an image that does not verify too. At most `fuel` slots. -/
def trySlot : Nat → State → Nat → Option Nat × State
  | 0, s, _ => (none, s)
  | fuel + 1, s, n =>
    let t := s.slot n
    if !t.ran && decide (2 ≤ t.attempts) then
      (match rejectSlot s n 0 with
      | (some o, s) => trySlot fuel s o
      | (none, s) => (none, s))
    else
      let s := attemptSlot s n
      let v := verifyImage s t
      if v = 0 then (some n, s)
      else match rejectSlot s n v with
        | (some o, s) => trySlot fuel s o
        | (none, s) => (none, s)

/-- The boot ROM's choice. -/
def chooseSlot (s : State) : Option Nat × State :=
  let s := s.modSec fun c => { c with bootKind := 0 }
  match firstSlot s with
  | some n => trySlot 2 s n
  | none => (none, s)

/-! ## The boot chain (19 R494, R495) -/

/-- A FW_ACTIVATE of mode 1, or in recovery, waits for the restart it made. -/
def activates (s : State) : Bool := s.execs.any fun e => e.2.wait == .restart

/-- The PUF is read: the secret is that of the die whatever the noise, its keys are derived, and the check value must be the identity region's
(19 R487). -/
def readPuf (s : State) : Bool × State :=
  let (k, s) := s.draw
  let p : PufKeys := { array := k }
  ((match s.sec.pufCheck with | none => true | some c => p.check == c), s.modSec fun c => { c with puf := some p })

/-- BOOT_CHAIN: after a power-up, a module reset or a runtime restart. A restart that no activation asked for boots the slot in use. With
no slot to boot, recovery (R495). -/
def bootChain (s : State) : State :=
  let powerUp := decide (s.power.phase = .rails)
  if !powerUp && !(s.power.phase == .running && s.sec.boot == .off) then s
  else
    let s := s.modPower fun p => { p with phase := .running, stable := true }
    let s := if powerUp then enterPowerUp (linkTrains s) else s
    let (fits, s) := readPuf s
    if !fits then s.modSec fun c => { c with boot := .stopped }
    else if s.power.restarting && s.sec.bootKind != 2 && !activates s then
      s.modSec fun c => { c with boot := .booting, dogAt := s.power.uptime }
    else match chooseSlot s with
      | (some n, s) => s.modSec fun c => { c with active := n == 1, boot := .booting, dogAt := s.power.uptime }
      -- commands end with 0x8001 from here on, so the event is logged (03 R100)
      | (none, s) => ((logHealth s 0x0040 false [Config.faultUnit, 0x8001]).modSec fun c => { c with boot := .recovery, bootKind := 2 }).modPower fun p => { p with restarting := false }

/-! ## Runtime ready (19 R494 steps 5 and 6) -/

/-- A FW_ACTIVATE that waited ends with the slot that booted: 0x5003 if it is not the one activated (R497). -/
def endActivate (s : State) : State :=
  let slot := if s.sec.active then 1 else 0
  let st := if s.sec.bootKind = 1 then 0x5003 else 0
  { s with execs := kmap s.execs fun _ e => if e.wait = .restart then { e with wait := .ready st slot } else e }

/-- OPT and LASER rise and the ports the topology gives a link to train (17 R449 step 8); in PS5 they stay dark (15 R420). -/
def lightPorts (s : State) : State :=
  let s := s.modPower fun p => { p with rails := 10 }
  (List.range 4).foldl (fun s n =>
    if !portWanted s n then s
    else if (s.port n).signal then startTraining s n false
    else s.modPort n fun t => { t with lit := true, dark0 := s.power.uptime }) s

/-- After a power-up or a module reset: the power-cycle count is made persistent, the map is rebuilt, the reset is logged, a pending
sanitize resumes, and the channels are parked where the power state has them so. -/
def firstReady (s : State) : State :=
  let word := match kget s.power.critical 0 with | some (a, b, c) => ((a &&& b) ||| (a &&& c) ||| (b &&& c)).toNat | none => 0
  let s := rebuild (setCnt s 0x1101 1 word)
  let s := logHealth s 0x0053 false [s.power.cause, s.power.resetAt]
  let s := lightPorts s
  let s := sanitizeRun s
  if 4 ≤ s.power.ps then
    (parkFlash s s.power.ps).modPower fun p => { p with pd := domainsIn p.ps p.clusters }
  else s

/-- RUNTIME_READY: RAN is set and the floor raised to the image's security version; what a restart held goes on. -/
def runtimeReady (s : State) : State :=
  if !(s.power.phase == .running && s.sec.boot == .booting) then s
  else
    let n := if s.sec.active then 1 else 0
    let s := if (s.slot n).ran then s else setStatus (s.modSlot n fun t => { t with ran := true }) n 5 0
    let s := raiseFloor (s.modSec fun c => { c with boot := .ready, dogAt := s.power.uptime }) s.sec.activeSlot.security
    let s := if s.flash.rebuild.isSome then firstReady s else s
    let s := heldMessages (endActivate (s.modPower fun p => { p with restarting := false }))
    if s.power.target.isSome then s else startDies (releaseJobs s)

def execBootChain (s : State) : Host.Outcome State Fault Refusal := done s (bootChain s)
def execRuntimeReady (s : State) : Host.Outcome State Fault Refusal := done s (runtimeReady s)

end Sys2Proof.Machine
end

