-- ==== Sys2Proof/Machine/Debug.lean ====
section
/-! DEFINITION. Machine/Debug.lean: the debug header, the debug lock and the operations of the configuration flash (17 R447, 19 R478-R485,
R501, R502). -/

namespace Sys2Proof.Machine

def State.modDebug (s : State) (f : Debug → Debug) : State := s.modSec fun c => { c with lock := f c.lock }

/-- The security block answers the header: its domain PD19 is powered and its clocks run (01 R22, R23). -/
def debugUp (s : State) : Bool := s.power.phase == .running && s.power.pd[19]? == some .on

/-- DEBUG_CHALLENGE: a fresh 32-byte nonce, then the serial number; it voids the last. -/
def debugChallenge (s : State) (tap : Bool) : State :=
  if !debugUp s then s
  else
    let b := (List.range 32).map (Config.randomByte s.sec.draws) ++ serialNumber
    let s := s.modSec fun c => { c with draws := c.draws + 1 }
    (s.modDebug fun d => { d with challenge := some (tap, b) }).modHost fun h => { h with bus := .bytes b }

/-- The outstanding challenge of an interface. Each is answered once: a response on its interface uses it up. -/
def takeChallenge (s : State) (tap : Bool) : Option (List Byte × State) :=
  match s.sec.lock.challenge with
  | some (t, b) => if t == tap && debugUp s then some (b, s.modDebug fun d => { d with challenge := none }) else none
  | none => none

/-- Uses left of the reopen password, 0 if none. -/
def usesLeft (s : State) : Nat := match s.sec.lock.reopen with | some r => r.uses | none => 0

/-- The lock opens: logged, counted (R502). -/
def openLock (s : State) (tap : Bool) (scope : Nat) (signature : Bool) : State :=
  let s := s.modDebug fun d => { d with scope := scope, bySignature := signature, onTap := tap }
  bump (logHealth s 0x0018 false [scope, if signature then 0 else 1, usesLeft s]) 0x5400 4 1

/-- Key that debug unlock responses are checked with: the owner's if set, else the debug authority's (R486, R501). -/
def debugKey (s : State) : List Byte := match s.sec.ownerKey with | some k => k | none => Config.oddexKey 2

/-- DEBUG_UNLOCK_RESPONSE: a signature over the challenge and the scope byte. -/
def debugUnlock (s : State) (tap : Bool) (scope : Byte) (signature : List Byte) : State :=
  match takeChallenge s tap with
  | none => s
  | some (b, s) =>
    let known := scope.toNat == 1 || scope.toNat == 2 || scope.toNat == 3
    if known && Config.rsaVerify (debugKey s) (b ++ [scope]) signature then openLock s tap scope.toNat true else s

/-- The owner-key region is programmed: the reopen record changed (R481, R502). -/
def keepReopen (s : State) (r : Option Reopen) : State := 
  cfgStart (rewriteSector (s.modDebug fun d => { d with reopen := r }) reopenSector (reopenWords r)) false reopenSector 3

/-- DEBUG_PASSWORD: a CLOSED lock opens with the stored scope or less, and a use is consumed; three failures in a row destroy the
record. -/
def debugPassword (s : State) (tap : Bool) (scope : Byte) (password : List Byte) : State :=
  if s.sec.lock.scope ≠ 0 then s
  else match takeChallenge s tap with
  | none => s
  | some (_, s) =>
    match s.sec.lock.reopen with
    | none => s
    | some r =>
      let fits := decide (0 < scope.toNat) && (scope.toNat ||| r.scope) == r.scope
      if fits && Config.sha256 (r.salt ++ password) == r.hash then
        let left : Option Reopen := if r.uses ≤ 1 then none else some { r with uses := r.uses - 1 }
        openLock (keepReopen (s.modDebug fun d => { d with failures := 0 }) left) tap scope.toNat false
      else
        let n := s.sec.lock.failures + 1
        if 3 ≤ n then keepReopen (s.modDebug fun d => { d with failures := 0 }) none
        else s.modDebug fun d => { d with failures := n }

/-- DEBUG_SET_PASSWORD: while open by signature, on the interface that opened it, 8-64 bytes. -/
def debugSetPassword (s : State) (tap : Bool) (password : List Byte) : State :=
  let d := s.sec.lock
  if d.scope = 0 ∨ !d.bySignature ∨ d.onTap ≠ tap ∨ password.length < 8 ∨ 64 < password.length then s
  else
    let salt := (List.range 16).map (Config.randomByte s.sec.draws)
    let s := (s.modSec fun c => { c with draws := c.draws + 1 }).modDebug fun d => { d with failures := 0 }
    keepReopen s (some ⟨salt, Config.sha256 (salt ++ password), d.scope, 16⟩)

/-- DEBUG_CLOSE: on the interface that opened it. -/
def debugClose (s : State) (tap : Bool) : State :=
  if s.sec.lock.scope ≠ 0 ∧ s.sec.lock.onTap = tap then s.modDebug fun d => { d with scope := 0, bySignature := false } else s

/-- TAP_INSTRUCTION: IDCODE and BYPASS always; any other only while the lock is open with the TAP in its scope. The bus shows what IDCODE
or BYPASS shifts out; the manual says nothing of the others' data. -/
def tapInstruction (s : State) (code : Byte) : State :=
  let give := fun (b : BusOut) => (s.modDebug fun d => { d with tapAnswer := code.toNat }).modHost fun h => { h with bus := b }
  if !s.power.aux then s
  else if code.toNat = Config.tapIdcode then give (.bytes ((List.range 4).map (Config.constByte 0x447)))
  else if code.toNat = Config.tapBypass then give (.bytes [0])
  else if s.sec.lock.scope / 2 % 2 = 1 then give (.status 0 [])
  else s.modHost fun h => { h with bus := .none }

def execDebugChallenge (tap : Bool) (s : State) : Host.Outcome State Fault Refusal := done s (debugChallenge s tap)
def execDebugUnlockResponse (tap : Bool) (scope : Byte) (signature : List Byte) (s : State) : Host.Outcome State Fault Refusal :=
  done s (debugUnlock s tap scope signature)
def execDebugPassword (tap : Bool) (scope : Byte) (password : List Byte) (s : State) : Host.Outcome State Fault Refusal :=
  done s (debugPassword s tap scope password)
def execDebugSetPassword (tap : Bool) (password : List Byte) (s : State) : Host.Outcome State Fault Refusal :=
  done s (debugSetPassword s tap password)
def execDebugClose (tap : Bool) (s : State) : Host.Outcome State Fault Refusal := done s (debugClose s tap)
def execTapInstruction (code : Byte) (s : State) : Host.Outcome State Fault Refusal := done s (tapInstruction s code)
def execCfgFlashOpComplete (s : State) : Host.Outcome State Fault Refusal := done s (cfgComplete s)
def execCfgSuspendHold (s : State) : Host.Outcome State Fault Refusal := done s (cfgHold s)
def execCfgEarlyWarningRefresh (sector corrected : Nat) (s : State) : Host.Outcome State Fault Refusal :=
  done s (cfgWarning s sector corrected)
def execOdStoreCompaction (s : State) : Host.Outcome State Fault Refusal := done s (storeCompact s)

end Sys2Proof.Machine
end

