-- ==== Sys2Proof/Machine/Irregular.lean ====
section
/-! DEFINITION. Machine/Irregular.lean: run-ahead, gathers and scatters, sets, sorts and graph expansion (05 R153-R162, 11 R287,
R295-R299). -/

namespace Sys2Proof.Machine

/-! ## Rows of a source or destination (R157, R158) -/

/-- The TABLE that an operand names at offset 0, here. -/
def tableOf (s : State) (r : Ref) : Option (Nat × Obj × TableArea) :=
  match r.space with
  | .obj h => (match kget s.objs h with
    | some o => (match o.area with | .table a => some (h, o, a) | _ => none)
    | none => none)
  | _ => none

/-- A TABLE of another module, by its handle's type. -/
def remoteTable (s : State) (r : Ref) : Option Nat :=
  match r.space with
  | .obj h => if homeOf h ≠ moduleId s ∧ typeOf h = 4 then some h else none
  | _ => none

/-- Dimension of the TABLE that an operand names, of this module or of another. -/
def tableDim (s : State) (r : Ref) : Option Nat := match refArea s r with | some (.table a) => some a.dim | _ => none

/-- Rows of an object: a TABLE's Rows, a TENSOR's rows, else the whole rows inside the extent (R133, Row limit 0). -/
def rowLimit (s : State) (r : Ref) (field bytes stride : Nat) : Nat :=
  match refArea s r with
  | some (.table a) => if field = 0 then a.rows else min field a.rows
  | some (.tensor t) => if field = 0 then (t.dims.take 3).foldl (· * ·) 1 else field
  | _ =>
    if field ≠ 0 then field
    else if refLength s r < r.off + bytes ∨ stride = 0 then 0 else (refLength s r - r.off - bytes) / stride + 1

/-- The all-ones index of an index width. -/
def allOnes (w : Nat) : Nat := 256 ^ w - 1

/-- Destination pitch of rows (R133). -/
def pitch (bytes : Nat) : Nat := roundUp bytes 64

/-! ## Run-ahead (R153-R156, 11 R299) -/

/-- Bytes of an operand without any effect of a load: none where the load would fault (R154). -/
def peekRef (s : State) (x : CtxId) (r : Ref) (off n : Nat) : Option Memory :=
  match r.space with
  | .none => none
  | .share b size => if size < r.off + off + n then none else some (mcopy s.spad (b + r.off + off) n [] 0)
  | .sumps b size => if size < r.off + off + n then none else some (mcopy s.sump (b + r.off + off) n [] 0)
  | .obj h =>
    match liveObj s h with
    | none => none
    | some o =>
      if !canRead o (jobPolder s x.job) || decide (o.length < r.off + off + n) then none
      else match (readPayload s (o.base + r.off + off) n (ctxTx s x)).1 with
        | .ok m => some m
        | _ => none

/-- The core a context is resident on. -/
def coreOf (s : State) (x : CtxId) : Nat := match getCtx s x with | some (_, c) => (match c.resident with | some r => r.1 | none => 0) | none => 0

/-- A prefetch that would fault or fail a check is dropped (R154). -/
def prefetchDropped (s : State) (x : CtxId) : State := bumpB s (jobPolder s x.job) 0x9700 4 1

/-- A prefetch of a context. -/
def prefetchOf (x : CtxId) (p : Prefetch) : Bool := p.job == x.job && p.idx == x.idx

/-- Whether another prefetch may be in flight on a core, pages and remote rows together (R153). -/
def prefetchRoom (s : State) (k : Nat) : Bool := decide (((s.core k).prefetches.filter fun p => !p.arrived).length < od s 0x3400 2)

/-- Bytes that a polder's remote rows take in its run-ahead staging area (R153, OD 0x3400:03). -/
def stagingUsed (s : State) (p : Nat) : Nat :=
  ((s.cores.flatMap fun e => e.2.prefetches).map fun f => if jobPolder s f.job = p then f.bytes else 0).foldl (· + ·) 0

/-- Enter a prefetch on the core of its context. -/
def addPrefetch (s : State) (x : CtxId) (f : Prefetch) : State :=
  let k := coreOf s x
  let id := ((s.core k).prefetches.map fun p => p.id + 1).foldl max 1
  bumpB (s.modCore k fun c => { c with prefetches := c.prefetches ++ [{ f with id := id, job := x.job, idx := x.idx }] })
    (jobPolder s x.job) 0x9700 1 1

/-- Prefetch a page into a shared berm buffer: one read of class 6 (R153, 13 R338, R341). `entry` is the directory entry followed. False: it
waits, for room or for a buffer. -/
def prefetchPage (s : State) (x : CtxId) (ppa entry : Nat) (list : Bool) : Bool × State :=
  let k := coreOf s x
  match kget s.flash.pages ppa with
  | none => (true, s)
  | some page =>
    if (s.core k).prefetches.any fun p => prefetchOf x p && p.forNext && p.remote.isNone && p.key == page.lu && p.stamp == ppa then (true, s)
    else if !prefetchRoom s k || decide (userCeiling s 6 ≤ (s.flash.shared.filter fun b => b.user == 6).length) then (false, s)
    else match findFirst (fun q => decide ((s.flash.shared.filter fun b => b.quadrant == q).length < 640))
        ((List.range 4).map fun i => (ppaChannel ppa / 16 + i) % 4) with
      | none => (false, s)
      | some q =>
        (true, addPrefetch (s.modFlash fun f => { f with
          shared := f.shared ++ [⟨ppaChannel ppa, 6, q⟩], reads := f.reads ++ [⟨ppa, 6, jobPolder s x.job, .prefetch⟩] })
          x ⟨0, 0, 0, none, page.lu, ppa, false, toLE 8 entry, true, list, 0⟩)

/-- Prefetch pages, those that can be; false while one waits. -/
def prefetchPages (s : State) (x : CtxId) (l : List Nat) (entry : Nat) (list : Bool) : Bool × State :=
  l.foldl (fun acc ppa => let (ok, s) := prefetchPage acc.2 x ppa entry list; (acc.1 && ok, s)) (true, s)

/-- Read bytes of another module ahead, into the staging area: a request of a type, for an address and length, with a payload. False:
it waits for room (R153). A request that cannot leave is dropped (R154). -/
def prefetchRemote (s : State) (x : CtxId) (h key type addr n : Nat) (payload : List Byte) (list : Bool) : Bool × State :=
  let p := jobPolder s x.job
  if (s.core (coreOf s x)).prefetches.any fun f => prefetchOf x f && f.forNext && f.remote == some (homeOf h) && f.key == key then (true, s)
  else if !prefetchRoom s (coreOf s x) || decide (od s 0x3400 3 * 1048576 < stagingUsed s p + n) then (false, s)
  else match sendRequest s .runtime (homeOf h) type addr (if type = 1 then n else 0) key 0 p (Config.remoteGroup h) payload with
    | (some _, s) => (true, addPrefetch s x ⟨0, 0, 0, some (homeOf h), key, 0, false, [], true, list, n⟩)
    | (none, s) => (true, prefetchDropped s x)

/-- Payload of a request that a record carries to the home of an object. -/
def carriedFields (op h length ops : Nat) : List Byte := [op, h, 0, length].flatMap (toLE 8) ++ toLE 16 ops

/-- Key of a row of a TABLE of another module. -/
def rowKey (h row : Nat) : Nat := askKey h (16 + row)

/-- Prefetch one row that the next list names: its pages in FLASH parcels, or a row of another module with its version; nothing for a row in
DRAM (R153, 11 R299). False while it waits. -/
def prefetchRow (s : State) (x : CtxId) (src : Ref) (fmt limit stride bytes idx : Nat) : Bool × State :=
  if limit ≤ idx then (true, prefetchDropped s x)
  else match remoteTable s src, tableOf s src, src.space with
    | some h, _, _ =>
      prefetchRemote s x h (rowKey h idx) (Config.messageCode Msg.carried.num) h (pitch bytes)
        (carriedFields 0x50 h 8 (fmt * 18446744073709551616) ++ toLE 8 idx) false
    | none, some (_, o, a), _ =>
      let e := rowEntry s o idx
      if !canRead o (jobPolder s x.job) then (true, prefetchDropped s x)
      else if !entryPresent e then (true, s)
      else prefetchPages s x (flashPages s (o.base + entrySlot e) (slotBytes a.dim (entryClass e))) e false
    | none, none, .obj h =>
      if homeOf h ≠ moduleId s then
        (remotePieces h (src.off + idx * stride) bytes).foldl (fun acc q =>
          let (ok, s) := prefetchRemote acc.2 x h q.1 1 q.1 q.2 [] false
          (acc.1 && ok, s)) (true, s)
      else (match liveObj s h with
        | none => (true, prefetchDropped s x)
        | some o =>
          if !canRead o (jobPolder s x.job) || decide (o.length < src.off + idx * stride + bytes) then (true, prefetchDropped s x)
          else prefetchPages s x (flashPages s (o.base + src.off + idx * stride) bytes) 0 false)
    | _, _, _ => (true, s)

/-- Bytes of the next index list as run-ahead finds them: at hand, to be read first from these pages or from the home of an object, or of an
access that would fault (R153, R154). -/
inductive Peek where
  | bytes (m : Memory)
  | pages (l : List Nat)
  | remote (h key type addr n : Nat) (payload : List Byte)
  | bad
  deriving DecidableEq, Repr

/-- What a prefetch of another module's bytes has brought. -/
def broughtHere (s : State) (x : CtxId) (h : Nat) : List (Nat × List Byte) :=
  ((s.core (coreOf s x)).prefetches.filter fun p => prefetchOf x p && p.forNext && p.list && p.arrived && p.remote == some (homeOf h)).map
    fun p => (p.key, p.data)

/-- A range of the next list's operand, beyond its effective offset. -/
def peekRange (s : State) (x : CtxId) (r : Ref) (off n : Nat) : Peek :=
  match r.space with
  | .none => .bad
  | .share b size => if size < r.off + off + n then .bad else .bytes (mcopy s.spad (b + r.off + off) n [] 0)
  | .sumps b size => if size < r.off + off + n then .bad else .bytes (mcopy s.sump (b + r.off + off) n [] 0)
  | .obj h =>
    if homeOf h ≠ moduleId s then
      match getCtx s x with
      | none => .bad
      | some (_, c) =>
        let got := broughtHere s x h
        (match stagedBytes { c with staged := got } (remoteAddr h (r.off + off)) n with
        | some m => .bytes m
        | none => match findFirst (fun q => got.all fun e => e.1 != q.1) (remotePieces h (r.off + off) n) with
          | some q => .remote h q.1 1 q.1 q.2 []
          | none => .bad)
    else match liveObj s h with
    | none => .bad
    | some o =>
      let a := o.base + r.off + off
      let have' := (s.core (coreOf s x)).prefetches.filter fun p => prefetchOf x p && p.forNext && p.list && p.arrived && p.remote.isNone
      let miss := (flashPages s a n).filter fun ppa => have'.all fun p => p.stamp != ppa
      if !canRead o (jobPolder s x.job) || decide (o.length < r.off + off + n) then .bad
      else if !miss.isEmpty then .pages miss
      else match (readPayload s a n (ctxTx s x)).1 with
        | .ok m => .bytes m
        | _ => .bad

/-- The ids of the next list, once its bytes are at hand; what they wait for otherwise. A list that a demand load would turn away is bad. -/
def peekIds (s : State) (x : CtxId) (r : Ref) (w : Nat) : Sum Peek (List Nat) :=
  let elems := fun (r : Ref) (off w n : Nat) => match peekRange s x r off (n * w) with
    | .bytes m => .inr ((List.range n).map fun i => mfield m (w * i) w)
    | p => .inl p
  match setOf s r with
  | some (h, k) =>
    let count : Sum Peek Nat :=
      if homeOf h = moduleId s then
        .inr (match (getTx s (ctxTx s x)).bind fun t => aget t.counts h, headerArea s h with
          | some n, _ => n
          | none, some (.set n _) => n
          | none, _ => 0)
      else match findFirst (fun e => e.1 == askKey h 0) (broughtHere s x h) with
        | some e => .inr (fieldAt e.2 72 8)
        | none => .inl (.remote h (askKey h 0) (Config.messageCode Msg.carried.num) h 136 (carriedFields 1 h 0 0))
    (match count with
    | .inl p => .inl p
    | .inr n => if w ≠ 8 ∨ k < n then .inl .bad else elems ⟨r.space, 0⟩ 0 8 n)
  | none =>
    match peekRange s x r 0 64 with
    | .bytes h => if mfield h 8 8 < mfield h 0 8 ∨ (mget h 20).toNat ≠ w then .inl .bad else elems r 64 w (mfield h 0 8)
    | p => .inl p

/-- The fields of a GATHER that its rows and its run-ahead need: index width, format, sentinel, source, row bytes, stride, limit. -/
structure GatherUse where
  w : Nat
  fmt : Nat
  sentinel : Bool
  src : Ref
  bytes : Nat
  stride : Nat
  limit : Nat
  deriving DecidableEq, Repr

def gatherUse (s : State) (x : CtxId) (r : BitVec 512) : GatherUse :=
  let src := oref s x (fld r 8 8)
  let bytes := match tableDim s src with
    | some d => d * (elemBits (fld r 5 1) / 8)
    | none => fld r 0x20 4
  let stride := if fld r 0x24 4 = 0 then fld r 0x20 4 else fld r 0x24 4
  ⟨fld r 4 1, fld r 5 1, bitAt (fld r 6 1) 0, src, bytes, stride, rowLimit s src (fld r 0x28 8) bytes stride⟩

/-- One ask of the run-ahead: what remains of it, and the state. The list, once read, asks for its rows. -/
def serveAsk (s : State) (a : PrefAsk) : List PrefAsk × State :=
  let x : CtxId := ⟨a.job, a.idx⟩
  -- operand references as they were when the GATHER started
  let t := modCtx s x fun c => { c with x := a.x }
  let g := gatherUse t x a.record
  match a.row with
  | some i =>
    let (ok, s) := prefetchRow s x g.src g.fmt g.limit g.stride g.bytes i
    (if ok then [] else [a], s)
  | none =>
    match peekIds s x (oref t x (fld a.record 0x30 8)) g.w with
    | .inr ids =>
      ((ids.filter fun i => !(g.sentinel && i == allOnes g.w)).map fun i => { a with row := some i },
        dropPrefetches s (coreOf s x) fun p => prefetchOf x p && p.forNext && p.list)
    | .inl (.pages l) => ([a], (prefetchPages s x l 0 true).2)
    | .inl (.remote h key type addr n b) => ([a], (prefetchRemote s x h key type addr n b true).2)
    | .inl _ => ([], prefetchDropped s x)

/-- Every ask of a core goes on as far as there is room (R153). -/
def pumpOnce (s : State) (k : Nat) : State :=
  let (left, s) := (s.core k).asks.foldl (fun (acc : List PrefAsk × State) a =>
    let (more, s) := serveAsk acc.2 a
    (acc.1 ++ more, s)) ([], s)
  s.modCore k fun c => { c with asks := left }

/-- The list first, then the rows it asks for. -/
def pumpPrefetch (s : State) (k : Nat) : State := pumpOnce (pumpOnce s k) k

/-- A GATHER starts: what was prefetched for it is its own now, and the next index list is read and its rows prefetched (R153). -/
def gatherStart (s : State) (x : CtxId) (r : BitVec 512) : State :=
  match getCtx s x with
  | none => s
  | some (_, c) =>
    let k := coreOf s x
    let s := dropPrefetches s k fun p => prefetchOf x p && !p.forNext
    let s := s.modCore k fun q => { q with
      prefetches := q.prefetches.map fun p => if prefetchOf x p then { p with forNext := false } else p
      asks := q.asks.filter fun a => !(a.job == x.job && a.idx == x.idx) }
    if fld r 0x30 8 = 0 ∨ noRunahead r ∨ bitAt (jobProgram s x.job).flags 2 then s
    else pumpPrefetch (s.modCore k fun q => { q with asks := q.asks ++ [⟨x.job, x.idx, r, c.x, none⟩] }) k

/-- PREFETCH_COMPLETE: a page or remote row arrived, with the version its home gave; one that failed is dropped (R153, R154). The asks that
waited go on. -/
def prefetchComplete (s : State) (k id : Nat) (ok : Bool) (data : List Byte) (version : Nat) : State :=
  match findFirst (fun p => p.id == id) (s.core k).prefetches with
  | none => s
  | some p =>
    if p.arrived then s
    else if !ok then pumpPrefetch (prefetchDropped (dropPrefetches s k fun q => q.id == id) ⟨p.job, p.idx⟩) k
    else
      let s := s.modFlash fun t => { t with reads := if p.remote.isSome then t.reads
                                                     else dropFirst (fun r => r.ppa == p.stamp && r.use == .prefetch) t.reads }
      let upd := fun (q : Prefetch) => if q.id ≠ id then q
        else if q.remote.isSome then { q with arrived := true, data := data, stamp := version } else { q with arrived := true }
      pumpPrefetch (s.modCore k fun c => { c with prefetches := c.prefetches.map upd }) k

/-- Use prefetched pages (R155, 11 R299): the pages of these that need no read now. A copy whose unit was mapped elsewhere since, or
whose directory entry changed, is stale. -/
def usePrefetched (s : State) (x : CtxId) (pages : List (Nat × Nat)) : List Nat × State :=
  let k := coreOf s x
  let mine := fun (p : Prefetch) => prefetchOf x p && !p.forNext && p.remote.isNone && p.arrived
  let good := fun (p : Prefetch) => pages.any fun e => e.1 == p.stamp && e.2 == fieldAt p.data 0 8
  let lus := pages.filterMap fun e => (kget s.flash.pages e.1).map (·.lu)
  let stale := fun (p : Prefetch) => mine p && !good p && lus.contains p.key
  let used := ((s.core k).prefetches.filter fun p => mine p && good p).map (·.stamp)
  let n := ((s.core k).prefetches.filter stale).length
  (used, bumpB (dropPrefetches s k stale) (jobPolder s x.job) 0x9700 3 n)

/-! ## GATHER (R157) -/

/-- Codes of values in an output format, in whole bytes each, with how many of the conversions saturated or were of a NaN (09 R237). -/
def convertVals (out : Nat) (l : List U32) : List Byte × Nat × Nat :=
  let es := l.map fun v => toElem out 0 (ofF32 v)
  (es.flatMap fun e => toLE (ceilDiv (elemBits out) 8) e.1, (es.filter fun e => e.2 == .ovf).length, (es.filter fun e => e.2 == .nonfin).length)

/-- Count conversions to unscaled formats (09 R237, R256). -/
def countConverted (x : CtxId) (ovf nonfin : Nat) : Eng Unit :=
  mutate fun s => bumpB (bumpB s (jobPolder s x.job) 0x9C00 2 ovf) (jobPolder s x.job) 0x9C00 4 nonfin

/-- Elements of a source row at a payload offset: of a TENSOR those inside its row, of other bytes one each. -/
def rowElems (s : State) (src : Ref) (off bytes : Nat) : Nat :=
  match refArea s src with
  | some (.tensor t) =>
    let k := elemBits (t.format % 64)
    if k = 0 then bytes else min (bytes * 8 / k) ((t.dims[3]?).getD 1 - off % t.stride * 8 / k)
  | _ => bytes

/-- A source row at a payload offset in the elements of an output format: a TENSOR's elements by their real values, its scales included (09
R241); bytes of an object without a format have no values, free ones here (log entry 12). -/
def rowValues (s : State) (src : Ref) (off out bytes : Nat) (scale : Memory) (row : List Byte) : List U32 :=
  let raw := (List.range bytes).map fun i =>
    Config.openValue 3 (BitVec.ofNat 32 out) (BitVec.ofNat 32 ((row[i]?).getD 0).toNat)
  match refArea s src with
  | some (.tensor t) =>
    let k := elemBits (t.format % 64)
    if k = 0 then raw
    else
      let m := matRef s ⟨src.space, off⟩ t.format 1 (bytes * 8 / k)
      let mat : Mat := ⟨m, mwrite [] (off % max 1 t.stride / (max 1 (k / 8)) * (max 1 (k / 8))) row, scale, []⟩
      (List.range (rowElems s src off bytes)).map fun i => mat.value 0 i
  | _ => raw

/-- Source rows of a GATHER, by their payload offsets, in its output format (R157): format 0 copies them. -/
def convertRows (x : CtxId) (track : Bool) (src : Ref) (out bytes : Nat) (rows : List (Nat × List Byte)) : Eng (List (List Byte)) := do
  if out = 0 then return rows.map (·.2)
  let s ← getThe State
  let scale ← match refArea s src with
    | some (.tensor t) =>
      if t.format / 64 = 0 then pure [] else do
        let m := matRef s src t.format 1 1
        let head ← loadRef x track m.scale 0 64
        loadRef x track m.scale 0 (scaleBytes t.format m.units (max 1 (mget head 2).toNat))
    | _ => pure []
  let l := rows.map fun r => convertVals out (rowValues s src r.1 out bytes scale r.2)
  countConverted x ((l.map (·.2.1)).foldl (· + ·) 0) ((l.map (·.2.2)).foldl (· + ·) 0)
  return l.map (·.1)

/-- Ask for the ranges of a remote object that have not arrived, all at once; the record waits for them (R138). -/
def fetchRemote (x : CtxId) (track : Bool) (h : Nat) (ranges : List (Nat × Nat)) : Eng Unit := do
  let s ← getThe State
  match getCtx s x with
  | none => stop (.waits 5)
  | some (_, c) =>
    let need := nubList ((ranges.filter fun e => (stagedBytes c (remoteAddr h e.1) e.2).isNone).flatMap fun e => remotePieces h e.1 e.2)
    if need.isEmpty then return
    let id := if track then ctxTx s x else 0
    let (ok, s) := need.foldl (fun (acc : Bool × State) q =>
      if !acc.1 then acc
      else match sendRequest acc.2 (.context x.job x.idx) (homeOf h) 1 q.1 q.2 q.1 id (jobPolder s x.job) (Config.remoteGroup h) [] with
        | (some _, s) => (true, s)
        | (none, s) => (false, s)) (true, if track then addPart s id (homeOf h) else s)
    if !ok then stop (.fault 11 0)
    set (modCtx s x fun c => { c with awaiting := c.awaiting + need.length })
    stop (.waits 5)

/-- Prefetched rows of another module are used only once their home confirms the staged versions, in one request per home (R155). With TRACK
it names the transaction, whose read set at the home takes the versions confirmed. -/
def confirmRemote (x : CtxId) (track : Bool) (home : Nat) : Eng Unit := do
  let s ← getThe State
  let k := coreOf s x
  let mine := (s.core k).prefetches.filter fun p => prefetchOf x p && p.remote == some home && p.arrived && !p.forNext
  if mine.isEmpty then return
  match sendRequest s (.context x.job x.idx) home (Config.messageCode Msg.action.num) 0 1 0 (if track then ctxTx s x else 0) (jobPolder s x.job) 0
      (mine.flatMap fun p => toLE 8 p.key ++ toLE 8 p.stamp) with
  | (none, _) => stop (.fault 11 0)
  | (some _, s) => do
    set (modCtx (if track then addPart s (ctxTx s x) home else s) x fun c => { c with awaiting := c.awaiting + 1 })
    stop (.waits 5)

/-- Rows of a source object of this module by their payload ranges, read in place as one group once the pages that were not prefetched
have been read: heat and the read set (R55-R57, R155). -/
def loadRows (x : CtxId) (track : Bool) (h : Nat) (o : Obj) (ranges : List (Nat × Nat)) (entry : Nat → Nat) : Eng (List (List Byte)) := do
  let s ← getThe State
  let pages := nubList (ranges.flatMap fun e => (flashPages s (o.base + e.1) e.2).map fun p => (p, entry e.1))
  let used ← runs (usePrefetched · x pages)
  readFirst x (ranges.map fun e => (o.base + e.1, e.2)) used
  let rowsUsed := (ranges.filter fun e => (flashPages s (o.base + e.1) e.2).any used.contains).length
  mutate fun s => bumpB s (jobPolder s x.job) 0x9700 2 rowsUsed
  ranges.mapM fun e => do
    return mread (← inPlace x (track && o.area.code != 4) h o e.1 e.2) 0 e.2

/-- Rows of a TABLE on another module (R157, 11 R285, R299): those staged, once its home has confirmed them, and the others as it reads
them for a LOOKUP. -/
def remoteRows (x : CtxId) (track : Bool) (h fmt bytes : Nat) (rows : List Nat) : Eng (List (List Byte)) := do
  confirmRemote x track (homeOf h)
  let s ← getThe State
  let staged := match getCtx s x with | some (_, c) => c.staged | none => []
  let at' := fun (r : Nat) => (findFirst (fun e => e.1 == rowKey h r) staged).map (·.2)
  let rest := rows.filter fun r => (at' r).isNone
  let b ← if rest.isEmpty then pure [] else
    askHome x track h 2 0x50 (8 * rest.length) (fmt * 18446744073709551616) (rest.flatMap (toLE 8))
  let asked := (numbered rest).map fun e => (e.2, padTo bytes ((b.drop (8 + e.1 * pitch bytes)).take bytes))
  return rows.map fun r => match at' r with
    | some d => padTo bytes (d.take bytes)
    | none => ((findFirst (fun e => e.1 == r) asked).map (·.2)).getD []

/-- Rows of a TABLE of this module, each through its directory entry (R157, 11 R287). -/
def tableRows (x : CtxId) (track : Bool) (fmt bytes : Nat) (h : Nat) (o : Obj) (a : TableArea) (rows : List Nat) : Eng (List (List Byte)) := do
  let p := jobPolder (← getThe State) x.job
  if !canRead o p ∨ o.leaving then do mutate (dikeFail · p); stop (.fault 2 0)
  let s ← getThe State
  let es := rows.map fun r => rowEntry s o r
  mutate fun s => rows.foldl (fun s r => heatUp s h r) s
  if track && ctxTx s x != 0 then mutate fun s => rows.foldl (fun s r => trackRead s (ctxTx s x) h (.row h r)) s
  let present := es.filter entryPresent
  let entryAt := fun (off : Nat) => (findFirst (fun e => entrySlot e == off) present).getD 0
  let got ← loadRows x track h o (present.map fun e => (entrySlot e, slotBytes a.dim (entryClass e))) entryAt
  let vals := (es.foldl (fun (acc : List (List U32) × List (List Byte)) e => match entryPresent e, acc.2 with
    | true, b :: rest => (acc.1 ++ [decodeRow (entryClass e) a.dim b], rest)
    | _, l => (acc.1 ++ [List.replicate a.dim 0], l)) (([] : List (List U32)), got)).1
  let l := vals.map fun v => convertVals fmt v
  countConverted x ((l.map (·.2.1)).foldl (· + ·) 0) ((l.map (·.2.2)).foldl (· + ·) 0)
  return vals.map fun v => (outRow fmt v).take bytes

/-- The source rows of a GATHER, by index, in its output format; `none` is the sentinel's zero row. -/
def gatherRows (x : CtxId) (track : Bool) (g : GatherUse) (ids : List (Option Nat)) : Eng (List (List Byte)) := do
  let s ← getThe State
  let rows := ids.filterMap id
  let p := jobPolder s x.job
  let place := fun (got : List (List Byte)) (zero : List Byte) =>
    (ids.foldl (fun (acc : List (List Byte) × List (List Byte)) i => match i, acc.2 with
      | some _, r :: rest => (acc.1 ++ [r], rest)
      | _, l => (acc.1 ++ [zero], l)) (([] : List (List Byte)), got)).1
  let zeros := fun (n : Nat) => List.replicate n (0 : Byte)
  match remoteTable s g.src, tableOf s g.src with
  | some h, _ => return place (← remoteRows x track h g.fmt g.bytes rows) (zeros g.bytes)
  | none, some (h, o, a) => return place (← tableRows x track g.fmt g.bytes h o a rows) (zeros g.bytes)
  | none, none =>
    let ranges := rows.map fun r => (g.src.off + r * g.stride, g.bytes)
    let one := fun (r : Nat) => do return mread (← loadRef x track g.src (r * g.stride) g.bytes) 0 g.bytes
    let got ← (match g.src.space with
      | .obj h =>
        if homeOf h ≠ moduleId s then do
          confirmRemote x track (homeOf h)
          fetchRemote x track h ranges
          rows.mapM one
        else (match liveObj s h with
          | none => do mutate (dikeFail · p); stop (.fault 2 0)
          | some o => do
            if !canRead o p then do mutate (dikeFail · p); stop (.fault 2 0)
            match findFirst (fun e => decide (o.length < e.1 + e.2)) ranges with
            | some e => stop (.fault 1 e.1)
            | none => loadRows x track h o ranges fun _ => 0)
      | _ => rows.mapM one)
    let out ← convertRows x track g.src g.fmt g.bytes ((ranges.zip got).map fun e => (e.1.1, e.2))
    return place out (zeros (if g.fmt = 0 then g.bytes else rowElems s g.src g.src.off g.bytes * ceilDiv (elemBits g.fmt) 8))

/-- The index list of a record: sentinels as `none`; an index at or above the limit is a context fault with code 5. -/
def indices (x : CtxId) (track : Bool) (r : Ref) (w limit : Nat) (sentinel : Bool) : Eng (List (Option Nat)) := do
  let l ← loadList x track r w
  ((List.range l.elems.length).zip l.ids).mapM fun e => do
    if sentinel && e.2 == allOnes w then return none
    faultIf (limit ≤ e.2) 5 (r.off + 64 + e.1 * w)
    return some e.2

/-- Bytes from the first destination row to the end of the last, rows of `bytes` bytes. -/
def rowsSpan (n bytes : Nat) : Nat := (n - 1) * pitch bytes + bytes

/-- The destination of a GATHER overlaps its list or a row that it reads (R150 code 7). -/
def gatherClash (s : State) (x : CtxId) (r : BitVec 512) (ids : List (Option Nat)) : Bool :=
  let g := gatherUse s x r
  let ix := oref s x (fld r 0x10 8)
  let dst := oref s x (fld r 0x18 8)
  let total := rowsSpan ids.length g.bytes
  rangesOverlap dst total (listRef s ix) (listSize s ix g.w ids.length) ||
  (if (tableDim s g.src).isNone then ids.any fun i => match i with
      | some i => rangesOverlap dst total ⟨g.src.space, g.src.off + i * g.stride⟩ g.bytes
      | none => false
    else dst.space == g.src.space)

/-- The stores of a GATHER's rows: each at its pitch. -/
def gatherStores (dst : Ref) (bytes : Nat) (rows : List (List Byte)) : List (Ref × Nat × List Byte) :=
  let each := (rows.map (·.length)).foldl max bytes
  (numbered rows).map fun e => (dst, e.1 * pitch each, e.2)

/-- A staged copy that a GATHER has not used by its end is discarded (R155). -/
def gatherEnd (s : State) (x : CtxId) : State := dropPrefetches s (coreOf s x) fun p => prefetchOf x p && !p.forNext

/-- Do stores of a record. -/
def saveAll (x : CtxId) (stores : List (Ref × Nat × List Byte)) : Eng Unit := watching x stores (stores.forM fun e => saveRef x e.1 e.2.1 e.2.2)

/-- GATHER. -/
def gather (x : CtxId) (r : BitVec 512) : Eng Unit := do
  let s ← getThe State
  let g := gatherUse s x r
  let dst := oref s x (fld r 0x18 8)
  let ids ← indices x (tracks r) (oref s x (fld r 0x10 8)) g.w g.limit g.sentinel
  if 0 < ids.length then
    faultIf (gatherClash s x r ids) 7 dst.off
    let rows ← gatherRows x (tracks r) g ids
    prepRef x dst 0 (rowsSpan ids.length ((rows.map (·.length)).foldl max g.bytes))
    saveAll x (gatherStores dst g.bytes rows)
  mutate (gatherEnd · x)

/-! ## SCATTER_ADD (R158, R159) -/

/-- Contributions of each destination row, in ascending list position. -/
def byRow (l : List (Nat × List Byte)) : List (Nat × List (List Byte)) :=
  (nubList (l.map (·.1))).map fun i => (i, (l.filter fun e => e.1 == i).map (·.2))

/-- Codes of a destination row with contributions added in order, how many of its BF16 roundings were stochastic, and how many converted a
NaN (R158, 09 R237, 10 R265). -/
def sumCodes (s : State) (x : CtxId) (elem : Nat) (at' : Place) (dest : List Byte) (adds : List (List Byte)) : List Nat × Nat × Nat :=
  let start := (rowCodes elem dest).map (startCode elem)
  let sum := adds.foldl (fun acc b => (acc.zip (rowCodes elem b)).map fun p => addCode elem p.1 p.2) start
  let ks := kind1s s x
  let codes := (numbered sum).map fun e =>
    if elem = 8 then
      let (c, ev, more) := finalCode s x ks (at'.map fun p => (p.1, p.2 + 2 * e.1)) 8 0 (ofF32 e.2)
      (c, more, ev == .nonfin)
    else (endCode elem e.2, false, false)
  (codes.map (·.1), (codes.filter (·.2.1)).length, (codes.filter (·.2.2)).length)

/-- A source row's elements as the combiner takes them (11 R298): FP32 and BF16 exact; int32 has no exact FP32, its value is open. -/
def rowF32 (elem : Nat) (b : List Byte) : List U32 :=
  (rowCodes elem b).map fun c =>
    if elem = 8 then BitVec.ofNat 32 (c * 65536)
    else if elem = 11 then Config.openValue 4 (BitVec.ofNat 32 c) 0
    else BitVec.ofNat 32 c

/-- Additions to a TABLE of another module travel as messages in stream order, with a marker when no index names a row. -/
def sendRows (s : State) (x : CtxId) (h step id : Nat) (rows : List (Nat × Nat × List U32)) : State :=
  let send := fun (s : State) (row pos : Nat) (v : List U32) =>
    sendMsg s (homeOf h) .rowAddition id 0 [h, row, step, moduleId s, pos, jobPolder s x.job, Config.remoteGroup h] (v.flatMap fun e => toLE 4 e.toNat)
  if rows.isEmpty then send s noRow 0 [] else rows.foldl (fun s e => send s e.1 e.2.1 e.2.2) s

/-- Additions to a TABLE of another module: actions of the transaction, if there is one (R159, 04 R104). -/
def scatterRemoteTable (x : CtxId) (h step : Nat) (rows : List (Nat × Nat × List U32)) : Eng Unit := do
  let s ← getThe State
  let id := ctxTx s x
  if !reaches s (homeOf h) then stop (.fault 11 0)
  if id ≠ 0 then
    let fresh := (nubList (rows.map (·.1))).filter fun r => match getTx s id with | some t => !t.writes.contains (.row h r) | none => true
    match rowActions s id h fresh ((fresh.map fun r => Config.remoteRowBytes h r).foldl (· + ·) 0) with
    | some s => set (addPart s id (homeOf h))
    | none => do
      set (abortTx s id 0x3002)
      stop (.aborted 0x3002)
  mutate (sendRows · x h step id rows)

/-- Additions to a TABLE of this module (R159, 11 R295, R296). `again`: the record has waited for the window before. -/
def scatterTable (x : CtxId) (again : Bool) (h step : Nat) (a : TableArea) (rows : List (Nat × Nat × List U32)) : Eng Unit := do
  match ← storeTarget x h 0 0 with
  | none => return
  | some _ =>
    let s ← getThe State
    match stepWindow s a step with
    | .late | .fails _ => stop (.fault 5 0)
    | .waits => do
      mutate fun s =>
        let s := noteStep s h (moduleId s) step
        if again then s else tblBump s h 0xB 1
      stop (.waits 9)
    | .ok =>
      match ← runs (addRows · (ctxTx s x) h (moduleId s) step rows) with
      | .ok => mutate fun s => noteStep s h (moduleId s) step
      | .waits => stop (.waits 0)
      | .late => stop (.fault 5 0)
      | .fails e => storeStop (.fails e) 0 0

/-- The fields of a SCATTER_ADD: destination, index width, list and source, element format, row bytes, stride and limit. -/
structure ScatterUse where
  dst : Ref
  w : Nat
  ix : Ref
  src : Ref
  elem : Nat
  bytes : Nat
  stride : Nat
  limit : Nat
  deriving DecidableEq, Repr

def scatterUse (s : State) (x : CtxId) (r : BitVec 512) : ScatterUse :=
  let dst := oref s x (fld r 8 8)
  let bytes := match tableDim s dst with
    | some d => if fld r 0x20 4 = 0 then d * (elemBits (fld r 5 1) / 8) else fld r 0x20 4
    | none => fld r 0x20 4
  let stride := if fld r 0x24 4 = 0 then fld r 0x20 4 else fld r 0x24 4
  ⟨dst, fld r 4 1, oref s x (fld r 0x10 8), oref s x (fld r 0x18 8), fld r 5 1, bytes, stride, rowLimit s dst (fld r 0x28 8) bytes stride⟩

/-- The contributions: destination row, position in the list and source row, for the positions that hold `ids`. -/
def scatterRows (x : CtxId) (track : Bool) (u : ScatterUse) (ids : List (Option Nat)) : Eng (List (Nat × Nat × List Byte)) :=
  ((numbered ids).filterMap fun e => e.2.map fun i => (e.1, i)).mapM fun e => do
    return (e.2, e.1, mread (← loadRef x track u.src (e.1 * pitch u.bytes) u.bytes) 0 u.bytes)

/-- A destination row overlaps the list or a source row (R150 code 7). -/
def scatterClash (s : State) (u : ScatterUse) (n : Nat) (adds : List (Nat × Nat × List Byte)) : Bool :=
  let inputs := [(listRef s u.ix, listSize s u.ix u.w n), (u.src, n * pitch u.bytes)]
  adds.any fun e => inputs.any fun i => rangesOverlap ⟨u.dst.space, u.dst.off + e.1 * u.stride⟩ u.bytes i.1 i.2

/-- Additions to rows of an object of another module: each contribution is a ROW_ADD, split at 4 KiB boundaries (15 R403, R404); BF16, rounded
once at the end of the record, takes all contributions to a row in one, DESIGN CHOICE (log entry 143). -/
def scatterAway (x : CtxId) (u : ScatterUse) (h : Nat) (adds : List (Nat × Nat × List Byte)) : Eng Unit := do
  let id := ctxTx (← getThe State) x
  let parts : List (Nat × List (List Byte)) := if u.elem = 8 then byRow (adds.map fun e => (e.1, e.2.2)) else adds.map fun e => (e.1, [e.2.2])
  parts.forM fun e => do
    let off := u.dst.off + e.1 * u.stride
    if id ≠ 0 then
      match remoteActions (← getThe State) id h off u.bytes with
      | some s => set (addPart s id (homeOf h))
      | none => do
        mutate (abortTx · id 0x3002)
        stop (.aborted 0x3002)
    let s ← getThe State
    let ps := remotePieces h off u.bytes
    let (_, ok, s) := ps.foldl (fun (acc : List (List Byte) × Bool × State) q =>
      match sendRequest acc.2.2 (.context x.job x.idx) (homeOf h) 3 q.1 q.2 q.1 id (jobPolder s x.job) (Config.remoteGroup h)
          (acc.1.flatMap (·.take q.2)) off with
      | (some _, s) => (acc.1.map (·.drop q.2), acc.2.1, s)
      | (none, s) => (acc.1, false, s)) (e.2, true, s)
    if !ok then stop (.fault 11 off)
    set (modCtx s x fun c => { c with awaiting := c.awaiting + ps.length })

/-- The sums of destination rows of this module or of the core's memories: how many roundings of each were stochastic, and its store. -/
def scatterSums (x : CtxId) (track : Bool) (u : ScatterUse) (rows : List (Nat × List (List Byte))) : Eng (List (Nat × Ref × Nat × List Byte)) :=
  rows.mapM fun e => do
    let old ← loadRef x track u.dst (e.1 * u.stride) u.bytes
    let s ← getThe State
    let place : Place := match u.dst.space with | .obj h => some (h, u.dst.off + e.1 * u.stride) | _ => none
    let (codes, n, bad) := sumCodes s x u.elem place (mread old 0 u.bytes) e.2
    countConverted x 0 bad
    return (n, u.dst, e.1 * u.stride, codeBytes u.elem codes)

/-- Additions to rows here: each row is written once (R158). -/
def scatterHere (x : CtxId) (track : Bool) (u : ScatterUse) (adds : List (Nat × Nat × List Byte)) : Eng Unit := do
  let rows := byRow (adds.map fun e => (e.1, e.2.2))
  rows.forM fun e => prepRef x u.dst (e.1 * u.stride) u.bytes
  let all ← scatterSums x track u rows
  saveAll x (all.map (·.2))
  mutate fun s => bumpB s (jobPolder s x.job) 0x9D00 7 ((all.map (·.1)).foldl (· + ·) 0)

/-- The contributions as a combiner takes them: row, position and elements (R159). -/
def combinerRows (s : State) (x : CtxId) (r : BitVec 512) (adds : List (Nat × Nat × List Byte)) : List (Nat × Nat × List U32) :=
  adds.map fun e => (e.1, xreg s x (fld r 7 1) + e.2.1, rowF32 (fld r 5 1) e.2.2)

/-- SCATTER_ADD. -/
def scatterAdd (x : CtxId) (r : BitVec 512) (again : Bool) : Eng Unit := do
  let s ← getThe State
  let u := scatterUse s x r
  let ids ← indices x (tracks r) u.ix u.w u.limit (bitAt (fld r 6 1) 0)
  let adds ← scatterRows x (tracks r) u ids
  match remoteTable s u.dst, tableOf s u.dst with
  | some h, _ => scatterRemoteTable x h (fld r 0x30 4) (combinerRows s x r adds)
  | none, some (h, _, a) =>
    scatterTable x again h (fld r 0x30 4) a
      ((combinerRows s x r adds).map fun e => (e.1, e.2.1, (e.2.2 ++ List.replicate a.dim 0).take a.dim))
  | none, none =>
    faultIf (scatterClash s u ids.length adds) 7 u.dst.off
    match u.dst.space with
    | .obj h => if homeOf h ≠ moduleId s then scatterAway x u h adds else scatterHere x (tracks r) u adds
    | _ => scatterHere x (tracks r) u adds

/-! ## Sets and sorts (R160, R161) -/

/-- A list of ids as a list operand's elements. -/
def idElems (w : Nat) (l : List Nat) : List (List Byte) := l.map (toLE w)

/-- A strictly ascending input list; one that is not is a context fault with code 6. -/
def loadSet (x : CtxId) (track : Bool) (r : Ref) (w : Nat) : Eng (List Nat) := do
  let l ← loadList x track r w
  faultIf (!ascending l.ids) 6 r.off
  return l.ids

/-- Merge of two strictly ascending lists: 0 intersection, 1 union, 2 difference. -/
def combine (op : Nat) (a b : List Nat) : List Nat :=
  match op with
  | 0 => a.filter fun i => b.contains i
  | 1 => nubList (sortBy (fun x y => decide (x < y)) (a ++ b))
  | _ => a.filter fun i => !b.contains i

/-- INTERSECT (R160). -/
def intersect (x : CtxId) (r : BitVec 512) : Eng Unit := do
  let s ← getThe State
  let w := fld r 5 1
  let ra := oref s x (fld r 8 8)
  let rb := oref s x (fld r 0x10 8)
  let a ← loadSet x (tracks r) ra w
  let b ← loadSet x (tracks r) rb w
  let out ← outList x (tracks r) (oref s x (fld r 0x18 8))
  let l := combine (fld r 4 1) a b
  faultIf (listOverlaps s out w l.length ra w a.length || listOverlaps s out w l.length rb w b.length) 7 out.ref.off
  prepList x out w (idElems w l) false
  saveLists x [(out, idElems w l, 2)]

/-- The key of a sort element as a number that orders as the key does (R161). -/
def sortKey (type : Nat) (b : List Byte) : Int :=
  match type with
  | 1 => (fieldAt b 0 4 : Int)
  | 2 => (fieldAt b 0 8 : Int)
  | 3 => (BitVec.ofNat 64 (fieldAt b 0 8)).toInt
  | _ => totalKey 32 (fieldAt b 0 4)

/-- Keep the first of equal keys in an ordered list. -/
def uniqueKeys (type : Nat) (l : List (List Byte)) : List (List Byte) :=
  l.foldl (fun acc b => match acc.getLast? with
    | some a => if sortKey type a = sortKey type b then acc else acc ++ [b]
    | none => [b]) []

/-- The elements of a SORT in its order: ascending or descending by their keys, equal keys in input order, the first of each key alone where
UNIQUE asks for it. -/
def sorted (r : BitVec 512) (l : List (List Byte)) : List (List Byte) :=
  let type := fld r 4 1
  let less := fun (a b : List Byte) =>
    if fld r 5 1 = 0 then decide (sortKey type a < sortKey type b) else decide (sortKey type b < sortKey type a)
  if bitAt (fld r 7 1) 0 then uniqueKeys type (sortBy less l) else sortBy less l

/-- A merge area is written only by an input larger than the share; what it then holds is open (log entry 12). -/
def useTemp (x : CtxId) (tmp : Ref) (bytes : Nat) : Eng Unit := do
  prepRef x tmp 0 bytes
  let k ← runs State.draw
  saveRef x tmp 0 ((List.range bytes).map fun i => BitVec.ofNat 8 (Config.openValue 5 (BitVec.ofNat 32 k) (BitVec.ofNat 32 i)).toNat)

/-- SORT (R161): stable; an input larger than the share needs Temp. -/
def sort (x : CtxId) (r : BitVec 512) : Eng Unit := do
  let s ← getThe State
  let w := fld r 6 1
  let rin := oref s x (fld r 8 8)
  let tmp := oref s x (fld r 0x18 8)
  let l ← loadList x (tracks r) rin w
  let out ← outList x (tracks r) (oref s x (fld r 0x10 8))
  let bytes := l.elems.length * w
  faultIf ((shareOf s x).2 < bytes && fld r 0x18 8 == 0) 8 out.ref.off
  let res := sorted r l.elems
  faultIf (listOverlaps s out w res.length rin w l.elems.length) 7 out.ref.off
  if (shareOf s x).2 < bytes then
    faultIf (rangesOverlap tmp bytes (listRef s rin) (listSize s rin w l.elems.length)) 7 tmp.off
    useTemp x tmp bytes
  prepList x out w res false
  saveLists x [(out, res, if bitAt (fld r 7 1) 0 && fld r 5 1 == 0 then 2 else 0)]

/-! ## NEIGHBOURS (R162) -/

/-- The header area of the GRAPH that a record names, of this module or of another. -/
def graphOf (s : State) (r : Ref) : Option GraphArea := match refArea s r with | some (.graph g) => some g | _ => none

/-- What a NEIGHBOURS has read: the frontier, the excluded ids, its output lists, and for each frontier position the place of its row pointers,
the bounds of its run, and the run's ids, each with the frontier position and its weight's code. -/
structure GraphIn where
  frontier : Lst
  exclude : List Nat
  out : OutList
  sources : Option OutList
  weights : Option OutList
  runs : List ((Nat × Nat × Nat) × List (Nat × Nat × List Byte))
  deriving DecidableEq, Repr

/-- Bytes of a weight, 0 where the graph has none. -/
def GraphArea.weightBytes (g : GraphArea) : Nat := if g.weightFormat = 0 then 0 else elemBits g.weightFormat / 8

/-- The run of neighbours of a vertex at a frontier position. -/
def graphRun (x : CtxId) (track weighted : Bool) (gr : Ref) (g : GraphArea) (fr : Ref) (e : Nat × Nat) :
    Eng ((Nat × Nat × Nat) × List (Nat × Nat × List Byte)) := do
  let (w, wb) := (g.idWidth, g.weightBytes)
  faultIf (g.vertices ≤ e.2) 5 (fr.off + 64 + e.1 * w)
  let p ← loadRef x track ⟨gr.space, g.rowPtr⟩ (8 * e.2) 16
  let lo := mfield p 0 8
  let hi := mfield p 8 8
  let cols ← loadRef x track ⟨gr.space, g.column⟩ (w * lo) (w * (hi - lo))
  let ws ← if wb = 0 ∨ !weighted then pure [] else loadRef x track ⟨gr.space, g.weight⟩ (wb * lo) (wb * (hi - lo))
  return ((8 * e.2, lo, hi), (List.range (hi - lo)).map fun i => (mfield cols (w * i) w, e.1, mread ws (wb * i) wb))

/-- Read the operands of a NEIGHBOURS. Sources and Weights, "one value per output", are lists: DESIGN CHOICE (log entry 142). -/
def graphIn (x : CtxId) (r : BitVec 512) (g : GraphArea) : Eng GraphIn := do
  let s ← getThe State
  let mode := fld r 4 1
  let w := g.idWidth
  let fr := oref s x (fld r 0x10 8)
  let f ← loadList x (tracks r) fr w
  let ex ← if fld r 0x20 8 = 0 then pure [] else loadSet x (tracks r) (oref s x (fld r 0x20 8)) w
  let out ← outList x (tracks r) (oref s x (fld r 0x18 8))
  let src ← if bitAt mode 1 then pure (some (← outList x (tracks r) (oref s x (fld r 0x28 8)))) else pure none
  let wts ← if bitAt mode 2 then pure (some (← outList x (tracks r) (oref s x (fld r 0x30 8)))) else pure none
  -- every list operand has the graph's id width
  faultIf (out.width != w) 6 out.ref.off
  let runs' ← (numbered f.ids).mapM (graphRun x (tracks r) (bitAt mode 2) (oref s x (fld r 8 8)) g fr)
  return ⟨f, ex, out, src, wts, runs'⟩

/-- The outputs in order, each with its frontier position and its weight's code: without the excluded ids; ascending and without repeats where
SORT_UNIQUE asks for it. -/
def GraphIn.found (l : GraphIn) (unique : Bool) : List (Nat × Nat × List Byte) :=
  let all := ((l.runs.map (·.2)).flatten).filter fun e => !l.exclude.contains e.1
  if unique then (nubList (sortBy (fun (a b : Nat) => decide (a < b)) (all.map (·.1)))).map fun i => (i, 0, ([] : List Byte)) else all

/-- The outputs that are kept, cut to the Capacity of the output list (R162). -/
def GraphIn.kept (l : GraphIn) (unique : Bool) : List (Nat × Nat × List Byte) := (l.found unique).take l.out.capacity

/-- An output list of `n` elements of `v` bytes lies over an input: the frontier, the excluded ids, the parts of the graph that were read. -/
def GraphIn.clash (l : GraphIn) (s : State) (x : CtxId) (r : BitVec 512) (g : GraphArea) (o : OutList) (v n : Nat) : Bool :=
  let gr := oref s x (fld r 8 8)
  listOverlaps s o v n (oref s x (fld r 0x10 8)) g.idWidth l.frontier.elems.length ||
  (fld r 0x20 8 != 0 && listOverlaps s o v n (oref s x (fld r 0x20 8)) g.idWidth l.exclude.length) ||
  l.runs.any fun q => let (p, lo, hi) := q.1
    rangesOverlap o.ref (o.bytes v n) ⟨gr.space, g.rowPtr + p⟩ 16 ||
    rangesOverlap o.ref (o.bytes v n) ⟨gr.space, g.column + g.idWidth * lo⟩ (g.idWidth * (hi - lo)) ||
    (bitAt (fld r 4 1) 2 && rangesOverlap o.ref (o.bytes v n) ⟨gr.space, g.weight + g.weightBytes * lo⟩ (g.weightBytes * (hi - lo)))

/-- The lists that a NEIGHBOURS writes, with the widths of their elements and whether an input lies under them: Sources, Weights, Out. -/
def GraphIn.lists (l : GraphIn) (r : BitVec 512) (g : GraphArea) : List (Nat × OutList × List (List Byte) × Nat) :=
  let unique := bitAt (fld r 4 1) 0
  let kept := l.kept unique
  let trunc := if kept.length < (l.found unique).length then 1 else 0
  (l.sources.toList.map fun o => (4, o, kept.map fun e => toLE 4 e.2.1, trunc)) ++
  (l.weights.toList.map fun o => (g.weightBytes, o, kept.map fun e => e.2.2, trunc)) ++
  [(g.idWidth, l.out, idElems g.idWidth (kept.map (·.1)), trunc + if unique then 2 else 0)]

/-- NEIGHBOURS. -/
def neighbours (x : CtxId) (r : BitVec 512) : Eng Unit := do
  let s ← getThe State
  match graphOf s (oref s x (fld r 8 8)) with
  | none => stop (.fault 2 0)
  | some g =>
    let l ← graphIn x r g
    let lists := l.lists r g
    lists.forM fun e => faultIf (l.clash s x r g e.2.1 e.1 (l.kept (bitAt (fld r 4 1) 0)).length) 7 e.2.1.ref.off
    lists.forM fun e => prepList x e.2.1 e.1 e.2.2.1 true
    saveLists x (lists.map (·.2))

/-! ## The commands -/

def execGather (x : CtxId) (r : BitVec 512) (s : State) : Host.Outcome State Fault Refusal :=
  done s (runRecordOf false x r (gatherStart · x r) (fun _ => gather x r) s)
def execScatterAdd (x : CtxId) (r : BitVec 512) (s : State) : Host.Outcome State Fault Refusal :=
  done s (runRecordOf false x r id (scatterAdd x r) s)
def execIntersect (x : CtxId) (r : BitVec 512) (s : State) : Host.Outcome State Fault Refusal := done s (runRecord x r (intersect x r) s)
def execSort (x : CtxId) (r : BitVec 512) (s : State) : Host.Outcome State Fault Refusal := done s (runRecord x r (sort x r) s)
def execNeighbours (x : CtxId) (r : BitVec 512) (s : State) : Host.Outcome State Fault Refusal := done s (runRecord x r (neighbours x r) s)
def execPrefetchComplete (core id : Nat) (ok : Bool) (data : List Byte) (version : Nat) (s : State) :
    Host.Outcome State Fault Refusal := done s (prefetchComplete s core id ok data version)

end Sys2Proof.Machine
end

