-- ==== Sys2Proof/Machine/Chains.lean ====
section
/-! DEFINITION. Machine/Chains.lean: the stages of fused chains and the statistics of whole rows, on rows of FP32 (08 R212-R226). -/

namespace Sys2Proof.Machine

/-! ## Conversions inside a chain -/

/-- Round to a format and widen back exactly (R216 `CAST`, R229 match formats). A format byte names an element; a scale is chosen only
by `QUANT`. -/
def castTo (fmt : Nat) (x : U32) : U32 :=
  let e := fmt % 64
  toF32 (elemVal e (toElem e 0 (ofF32 x)).1)

/-- Events of converting a value to an unscaled format: saturations and non-finite values (09 R237). -/
def castEvents (fmt : Nat) (l : List U32) : Nat × Nat :=
  let es := l.map fun x => (toElem (fmt % 64) 0 (ofF32 x)).2
  ((es.filter (· == .ovf)).length, (es.filter (· == .nonfin)).length)

/-- What a chain counted beside its rows. -/
structure Tally where
  ovf : Nat := 0
  nonfin : Nat := 0
  empty : Nat := 0
  clamped : Nat := 0
  deriving DecidableEq, Repr

/-- Rows in a chain: their values, rows that an online statistic made NaN, the tally. -/
structure Rows where
  vals : List (List U32)
  bad : List Nat := []
  tally : Tally := {}
  deriving DecidableEq, Repr

/-! ## Operands of stages -/

/-- What a stage's slot names, loaded: a vector, a matrix widened exactly, or bytes for each row. -/
structure Arg where
  vec : List U32 := []
  mat : List (List U32) := []
  mems : List Memory := []
  deriving DecidableEq, Repr

/-- An element widened to FP32: floats exactly, integers with the zero point subtracted, scales left out; an element of a non-finite
block reads as NaN (R218, 09 R239). -/
def Mat.raw (m : Mat) (r c : Nat) : U32 :=
  if m.ref.fmt / 64 = 3 then
    (if m.exponent (m.unit r c) = 255 then f32Nan else toF32 (elemVal (m.ref.fmt % 64) (m.code r c)))
  else toF32 (m.entry r c)

/-- The scale of an element's block or channel, and the value of a degenerate channel's elements (R216 `DEQUANT`, 09 R241, R247). -/
def Mat.scaleFor (m : Mat) (r c : Nat) : U32 × Option U32 :=
  let u := m.unit r c
  match m.ref.fmt / 64 with
  | 0 => (f32One, none)
  | 3 => (f32Pow2 ((m.exponent u : Int) - 127), none)
  | _ => if m.degenerate u then (f32One, some (m.chanZero u)) else (m.chanScale u, none)

/-- All elements of a matrix under a reading of one. -/
def Mat.all (m : Mat) (f : Nat → Nat → U32) : List (List U32) :=
  (List.range m.ref.rows).map fun r => (List.range m.ref.cols).map fun c => f r c

/-- The elements of `n` consecutive places of a matrix operand that starts at a TENSOR's place, or of a dense row (`ELEMWISE`). -/
def flatRef (s : State) (r : Ref) (fmt n : Nat) : MatRef × Nat :=
  let one := matRef s r fmt 1 1
  match r.space with
  | .obj h => (match kget s.objs h with
    | some o => (match o.area with
      | .tensor _ =>
        let lead := one.c0
        let c := max 1 one.allCols
        ({ one with rows := ceilDiv (lead + n) c, cols := c, c0 := 0 }, lead)
      | _ => (matRef s r fmt 1 n, 0))
    | none => (matRef s r fmt 1 n, 0))
  | _ => (matRef s r fmt 1 n, 0)

/-- The format a slot's matrix is read in (R216: its own): a TENSOR's header gives it; any other operand has none, and it is a free
value among the formats. -/
def slotFormat (s : State) (r : Ref) : Nat :=
  let any := fun (h : Nat) =>
    let l := (List.range 256).filter okFormat
    (l[Config.slotFormat h r.off % max 1 l.length]?).getD 10
  match r.space with
  | .obj h => (match kget s.objs h with
    | some o => (match o.area with | .tensor t => t.format | _ => any h)
    | none => any h)
  | _ => any 0

/-- FP32 values from bytes. -/
def f32s (m : Memory) (n : Nat) : List U32 := (List.range n).map fun i => BitVec.ofNat 32 (mfield m (4 * i) 4)

/-- What an operand of stages is evaluated on: rows and columns of the data, or `flat` for `ELEMWISE` with its B. -/
structure Shape where
  rows : Nat
  cols : Nat
  flat : Bool := false
  b : Option (Ref × Nat) := none
  deriving DecidableEq, Repr

/-- Blocks of an operand whose sequences differ. -/
def badBlocks (m : Mat) : Nat :=
  ((List.range m.ref.rows).map fun r =>
    ((m.blocksFor (List.range m.ref.cols)).filter fun b => m.desynced r b).length).foldl (· + ·) 0

/-- An operand of the vector unit whose scale stream disagrees with its data stops the record: nothing of it is used in a result (R249, R245,
05 R151). -/
def checkSync (x : CtxId) (m : Mat) : Eng Unit := do
  let n := badBlocks m
  if n ≠ 0 ∨ m.streamWrong then
    mutate fun s => bumpB s (jobPolder s x.job) 0x9C00 5 n
    stop .desync

/-- Load what a stage's slot names. -/
def loadArg (x : CtxId) (track : Bool) (z : Shape) (t : Stage) : Eng Arg := do
  let s ← getThe State
  let r := oref s x t.slot
  let n := xreg s x t.aux
  match t.code with
  | 1 | 2 =>
    if t.mode = 0 then return {}
    let k := if t.mode = 1 then z.cols else z.rows
    return { vec := f32s (← loadRef x track r 0 (4 * k)) k }
  | 3 | 4 =>
    let (ref, fmt) := if t.slot = 0 then (match z.b with | some b => b | none => (⟨.none, 0⟩, 10)) else (r, slotFormat s r)
    if z.flat then
      let (m, lead) := flatRef s ref fmt z.cols
      let m ← loadMat x track m
      checkSync x m
      return { mat := [((m.all m.value).flatten.drop lead).take z.cols] }
    let m ← loadMat x track (matRef s ref fmt z.rows z.cols)
    checkSync x m
    return { mat := m.all m.value }
  | 9 =>
    let ms ← (List.range z.rows).mapM fun m =>
      let p := if bitAt t.mode 1 then n else n + m
      loadRef x track r (p * roundUp (4 * z.cols) 64) (8 * (z.cols / 2))
    return { mems := ms }
  | 10 =>
    if t.mode = 1 then
      return { mems := [← loadRef x track r 0 (4 * z.rows)] }
    if t.mode = 2 then
      let ms ← (List.range z.rows).mapM fun m => loadRef x track r (m * (ceilDiv z.cols 512 * 64)) (ceilDiv z.cols 8)
      return { mems := ms }
    return {}
  | _ => return {}

def loadArgs (x : CtxId) (track : Bool) (z : Shape) (l : List Stage) : Eng (List (Stage × Arg)) :=
  l.mapM fun t => do return (t, ← loadArg x track z t)

/-! ## Stages (R216) -/

/-- Rotate the pairs of a row by its row of the cosine-sine table. -/
def ropeRow (half : Bool) (tab : Memory) (row : List U32) : List U32 :=
  let d := row.length
  let at' := fun (i : Nat) => (row[i]?).getD 0
  (numbered row).map fun e =>
    let i := e.1
    let (k, second, other) := if half then (if i < d / 2 then (i, false, i + d / 2) else (i - d / 2, true, i - d / 2))
      else (i / 2, i % 2 == 1, if i % 2 = 1 then i - 1 else i + 1)
    if d / 2 ≤ k then e.2
    else
      let c := BitVec.ofNat 32 (mfield tab (8 * k) 4)
      let n := BitVec.ofNat 32 (mfield tab (8 * k + 4) 4)
      -- for pair (a, b): a′ = fma(a, cos, −round(b × sin)), b′ = fma(a, sin, round(b × cos))
      if second then ffma (at' other) n (fmul e.2 c) else ffma e.2 c (fneg (fmul (at' other) n))

/-- Where an element is masked. -/
def masked (t : Stage) (xn : Nat) (a : Arg) (m j : Nat) : Bool :=
  match t.mode with
  | 0 => decide (xn + m < j)
  | 1 => decide (mfield ((a.mems[0]?).getD []) (4 * m) 4 ≤ j)
  | _ => (mget ((a.mems[m]?).getD []) (j / 8)).getLsbD (j % 8)

/-- A stage on a row of FP32. `scale` gives an input element's scale, and its value when its channel is degenerate; it is missing where the
input has no codes. -/
def stageRow (xn : Nat) (scale : Option (Nat → Nat → U32 × Option U32)) (t : Stage) (a : Arg) (m : Nat) (row : List U32) : List U32 :=
  let imm := BitVec.ofNat 32 t.imm
  let pick := fun (j : Nat) => match t.mode with | 0 => imm | 1 => (a.vec[j]?).getD 0 | _ => (a.vec[m]?).getD 0
  let other := fun (j : Nat) => (((a.mat[m]?).getD [])[j]?).getD 0
  let each := fun (f : Nat → U32 → U32) => (numbered row).map fun e => f e.1 e.2
  match t.code with
  | 1 => each fun j v => fmul v (pick j)
  | 2 => each fun j v => fadd v (pick j)
  | 3 => each fun j v => fadd v (other j)
  | 4 => each fun j v => fmul v (other j)
  | 5 => row.map (fact t.mode imm)
  | 6 => row.map fun v => fmin (fmax v (BitVec.ofNat 32 (bitsAt t.slot 0 32))) (BitVec.ofNat 32 (bitsAt t.slot 32 32))
  | 8 => (match scale with
    | none => row
    | some f => each fun j v => match f m j with
      | (k, none) => fmul v k
      | (k, some z) => fadd (fmul v k) z)
  | 9 => ropeRow (bitAt t.mode 0) ((a.mems[m]?).getD []) row
  | 10 => each fun j v => if masked t xn a m j then imm else v
  | 11 => row.map (castTo t.aux)
  | _ => row

/-- Rounding to a match format in bit-match mode (08, before R230). -/
def matchRound (on : Bool) (fmt : Nat) (v : U32) : U32 := if on && fmt != 0 then castTo fmt v else v

/-- Run stages on rows. The events of `CAST` stages are counted (09 R237). -/
def runStages (bitMatch : Bool) (xn : Nat → Nat) (scale : Option (Nat → Nat → U32 × Option U32)) (l : List (Stage × Arg)) (z : Rows) :
    Rows :=
  l.foldl (fun z e =>
    let out := (numbered z.vals).map fun r => (stageRow (xn e.1.aux) scale e.1 e.2 r.1 r.2).map (matchRound bitMatch e.1.matchF)
    let (o, n) := if e.1.code = 11 then castEvents e.1.aux z.vals.flatten else (0, 0)
    { z with vals := out, tally := { z.tally with ovf := z.tally.ovf + o, nonfin := z.tally.nonfin + n } }) z

/-! ## Whole rows (R223-R226) -/

def f32Sq (l : List U32) : List U32 := l.map fun v => fmul v v

/-- The k-th largest of a row: a row that holds a NaN has no stated order. -/
def kthLargest (k : Nat) (row : List U32) : U32 :=
  if row.any fIsNan then Config.openValue 6 (BitVec.ofNat 32 k) ((row.head?).getD 0)
  else ((sortBy (fun a b => flt b a) row)[k - 1]?).getD 0

/-- A two-sweep statistic (R224): its sums are over the row of sweep 1, and it is applied to the row as parked; and whether its variance was clamped
to 0. -/
def twoSweepRow (stat k : Nat) (param : U32) (row parked : List U32) : List U32 × Bool :=
  let n := f32OfInt row.length
  let sum := rowSum row
  let sq := rowSum (f32Sq row)
  match stat with
  | 1 =>
    let mu := fdiv sum n
    let raw := fsub (fdiv sq n) (fmul mu mu)
    let rho := frsqrt (fadd (fmax raw 0) param)
    (parked.map fun v => fmul (fsub v mu) rho, flt raw 0)
  | 2 => let rho := frsqrt (fadd (fdiv sq n) param); (parked.map fun v => fmul v rho, false)
  | 3 => let rho := frsqrt (fmax sq param); (parked.map fun v => fmul v rho, false)
  | _ => let t := kthLargest k parked; (parked.map fun v => if flt v t then param else v, false)

/-- Running maximum and sum of a row over its groups of 64 (R226), of the scaled values. A group that leaves the maximum at −∞ adds
nothing. -/
def onlineStat (l : List U32) : U32 × U32 :=
  (groupsOf 64 (l.length + 1) l).foldl (fun (acc : U32 × U32) g =>
    let m := fmax acc.1 (treeMax g)
    if m = 0xFF800000#32 then (m, acc.2)
    else (m, ffma (fexp (fsub acc.1 m)) acc.2 (treeSum (g.map fun v => fexp (fsub v m))))) (0xFF800000#32, 0)

/-- The exponent scale of a `ROW_ONLINE` stage. -/
def expScale (t : Stage) : U32 := if t.imm = 0 then f32One else BitVec.ofNat 32 t.imm

/-- What a `ROW_ONLINE` in modes 1-3 does with a row: its values, the value for the slot's vector, whether it is empty, and whether it turns
NaN. -/
def onlineRow (t : Stage) (row : List U32) : List U32 × U32 × Bool × Bool :=
  let cx := row.map fun v => fmul (expScale t) v
  let (m, l) := onlineStat cx
  let out := if t.mode = 1 then m else logSum m l
  if fIsNan m || m == f32Inf || row.any fIsNan then (row.map fun _ => f32Nan, out, false, true)
  else if m = 0xFF800000#32 then (row.map fun _ => 0, out, true, false)
  else if t.mode = 3 then (cx.map fun v => fdiv (fexp (fsub v m)) l, out, false, false)
  else (row, out, false, false)

/-- An epilogue with at most one whole-row construct, on whole rows: the rows, and the per-row vector of a `ROW_ONLINE`. A row is parked between two
sweeps rounded to the entry match format (R224), in a `ROWFN` too, whose result is the fused one's (R230). -/
def runEpilogue (bitMatch : Bool) (xn : Nat → Nat) (scale : Option (Nat → Nat → U32 × Option U32)) (c : Chain) (l : List (Stage × Arg))
    (z : Rows) : Rows × List U32 :=
  if c.twoSweep then
    let z := runStages bitMatch xn scale (l.take c.split) z
    let rs := z.vals.map fun row => twoSweepRow c.stat c.k (BitVec.ofNat 32 c.param) row (row.map (matchRound bitMatch c.entry))
    let n := (rs.filter (·.2)).length
    (runStages bitMatch xn scale (l.drop c.split)
      { z with vals := rs.map (·.1), tally := { z.tally with clamped := z.tally.clamped + n } }, [])
  else match findFirst (fun (e : Stage × Arg) => e.1.code == 12) l with
    | none => (runStages bitMatch xn scale l z, [])
    | some e =>
      let k := (l.takeWhile fun q => q.1.code != 12).length
      let z := runStages bitMatch xn scale (l.take k) z
      let rs := z.vals.map (onlineRow e.1)
      let n := (rs.filter (·.2.2.1)).length
      let bad := ((numbered rs).filter (·.2.2.2.2)).map (·.1)
      let vals := (rs.map (·.1)).map fun r => r.map (matchRound bitMatch e.1.matchF)
      (runStages bitMatch xn scale (l.drop (k + 1))
        { z with vals := vals, bad := z.bad ++ bad, tally := { z.tally with empty := z.tally.empty + n } }, rs.map (·.2.1))

/-- Vector operations for 64 elements of a stage (R216). -/
def Stage.ops (t : Stage) : Nat :=
  match t.code with
  | 5 => ([1, 1, 9, 8, 7, 6, 6, 5, 7, 2, 2, 1, 10, 8][t.mode]?).getD 0
  | 6 | 8 => 2
  | 7 => 4
  | 9 => 3
  | 10 => if t.mode = 2 then 2 else 1
  | 12 => ([9, 2, 8, 11][t.mode]?).getD 0
  | _ => 1

/-- Operations of an epilogue: a `CAST` is appended when neither it nor `QUANT` ends it (R222). -/
def epilogueOps (l : List Stage) : Nat :=
  (l.map Stage.ops).foldl (· + ·) 0 + (match l.getLast? with
    | some t => if t.code = 11 ∨ t.code = 7 then 0 else 1
    | none => 1)

/-- The chain a record of a job names; chain 0 is empty. -/
def jobChain (s : State) (x : CtxId) (c : Nat) : Chain :=
  match kget s.jobs x.job with
  | some j => if c = 0 then ⟨[], [], 0, 0, 0, 0, 16, 0, 0⟩ else parseChain j.payload (mfield j.payload (j.area.chainOffset + 4 * c) 4)
  | none => ⟨[], [], 0, 0, 0, 0, 16, 0, 0⟩

end Sys2Proof.Machine
end

