-- ==== Sys2Proof/Machine/Quant.lean ====
section
/-! DEFINITION. Machine/Quant.lean: the choice of scales, and the writing of a record's output with its scale stream (09 R236-R251). -/

namespace Sys2Proof.Machine

/-! ## An output before it is written -/

/-- Values of consecutive columns of one row. -/
structure Span where
  row : Nat
  col : Nat
  vals : List U32
  deriving DecidableEq, Repr

/-- What an output holds before a record writes it: its scale stream and outlier block, and the bytes of the rows it writes. -/
structure Old where
  mat : Mat
  deriving DecidableEq, Repr

/-- Load what writing an output needs of what it holds: sequence trailers, a last nibble; its scale stream and outliers when it is
quantised. -/
def loadOld (x : CtxId) (o : MatRef) (quant : Bool) : Eng Old := do
  let bits := elemBits (o.fmt % 64)
  let data ← if o.fmt / 64 == 3 || bits == 4 then loadRef x false o.data 0 o.bytes else pure []
  if !quant then return ⟨⟨o, data, [], []⟩⟩
  let out ← loadOutliers x false o
  if o.fmt / 64 = 0 then return ⟨⟨o, data, [], out⟩⟩
  let head ← loadRef x false o.scale 0 64
  let s ← getThe State
  let h := if mget head 0 = 0 then od s 0x3700 1 else (mget head 2).toNat
  let scale ← loadRef x false o.scale 0 (scaleBytes o.fmt o.units (max 1 h))
  return ⟨⟨o, data, scale, out⟩⟩

/-! ## Statistics and scales (R242, R243) -/

/-- Statistics and flags of a unit in this write. -/
structure UnitStat where
  lo : U32 := 0
  hi : U32 := 0
  any : Bool := false
  ovf : Bool := false
  nonfin : Bool := false
  deriving DecidableEq, Repr

def UnitStat.see (u : UnitStat) (v : U32) : UnitStat :=
  if fIsNan v then u
  else if u.any then { u with lo := fmin u.lo v, hi := fmax u.hi v }
  else { u with lo := v, hi := v, any := true }

def UnitStat.maxAbs (u : UnitStat) : U32 := fmax (fabs u.lo) (fabs u.hi)

/-- a ≤ b for exact values that are finite. -/
def Val.le (a b : Val) : Bool :=
  match b.add a.neg with
  | .fin neg m _ => !neg || m == 0
  | _ => false

/-- What a block records of its max-abs (R242): the smallest a with max-abs ≤ 2^(a − 127), 0 below 2⁻¹²⁷. An infinite max-abs has none. -/
def blockStat (u : Nat) (v : U32) : Nat :=
  if fIsInf v then (Config.openValue 7 (BitVec.ofNat 32 u) v).toNat % 256
  else if (ofF32 v).add (.fin true 1 (-127)) |> fun d => (match d with | .fin neg m _ => neg && m != 0 | _ => false) then 0
  else (findFirst (fun (a : Nat) => (ofF32 v).le (.fin false 1 ((a : Int) - 127))) (List.range 256)).getD 255

/-- Largest finite value of an element (R243, maxf). -/
def elemMax (elem : Nat) : Val :=
  match fmtOf elem with
  | some f => unpack f (maxCode f)
  | none => .fin false (2 ^ (elemBits elem - 1) - 1) 0

/-- The scale chosen for a unit: a block's exponent byte; a channel's scale and zero point; DEGEN; codes forced to zero. -/
structure UnitScale where
  e : Nat := 127
  s : U32 := f32One
  zero : U32 := 0
  z : Int := 0
  degen : Bool := false
  flat : Bool := false
  deriving DecidableEq, Repr

/-- The scale of a block (R243, R246) from its statistic `a` and, when immediate, its exact max-abs. -/
def blockScale (elem u a : Nat) (margin : U32) (own : Option U32) (prevE : Nat) (prevOvf : Bool) : UnitScale :=
  if a = 0 then { e := 127, degen := true, flat := match own with | some v => fabs v == 0 | none => false }
  else if (match own with | some v => fIsInf v | none => false) then
    { e := (Config.openValue 8 (BitVec.ofNat 32 u) margin).toNat % 255 }
  else
    let t := f32Up ((match own with | some v => ofF32 v | none => .fin false 1 ((a : Int) - 127)).mul (ofF32 margin))
    let e := (findFirst (fun (e : Nat) => (ofF32 t).le ((elemMax elem).mul (.fin false 1 ((e : Int) - 127)))) (List.range 255)).getD 254
    { e := if own.isNone && prevOvf then min 254 (max e (prevE + 1)) else e }

/-- The scale of a channel (R243, R246, R247) from its minimum and maximum. -/
def chanScaleOf (elem u : Nat) (margin lo hi : U32) (immediate : Bool) (prevS : U32) (prevOvf : Bool) : UnitScale :=
  let up := fun (s : U32) => if !immediate && prevOvf then fmax s (fmul (f32OfInt 2) prevS) else s
  if fIsInf lo || fIsInf hi then
    { s := Config.openValue 9 (BitVec.ofNat 32 u) lo
      z := if elem = 2 ∨ elem = 4 then ((Config.openValue 10 (BitVec.ofNat 32 u) hi).toNat % (2 ^ elemBits elem) : Nat) else 0 }
  else if elem = 2 ∨ elem = 4 then
    let qmax := 2 ^ elemBits elem - 1
    if !flt lo hi then { degen := true, flat := true, zero := lo }
    else
      let span := f32Up (((ofF32 hi).add (ofF32 lo).neg).mul (ofF32 margin))
      let s := f32Up ((ofF32 span).div (.fin false qmax 0))
      let z := match (ofF32 lo).neg.div (ofF32 s) with
        | .fin neg m e => sm neg (if 0 ≤ e then m * 2 ^ e.toNat else rne m (-e).toNat)
        | _ => 0
      let z := if z < 0 then 0 else if (qmax : Int) < z then (qmax : Int) else z
      { s := up s, z := z, zero := f32OfInt z }
  else
    let t := f32Up ((ofF32 (fmax (fneg lo) hi)).mul (ofF32 margin))
    if fabs t = 0 then { s := up f32One, degen := true, flat := fabs lo == 0 && fabs hi == 0 && immediate }
    else { s := up (f32Up ((ofF32 t).div (elemMax elem))) }

/-- The history window of a unit (R243): most of the last `n` slots before `step`. -/
def windowBlock (m : Mat) (h step n u : Nat) : Nat :=
  let a := roundUp m.ref.units 64
  ((List.range n).map fun i => (mget m.scale (64 + 2 * a + ((step - 1 - i) % h) * a + u)).toNat).foldl max 0

def windowChan (m : Mat) (h step n u : Nat) : U32 × U32 :=
  let base := 64 + roundUp (16 * m.ref.units) 64
  let slots := (List.range n).map fun i =>
    let o := base + ((step - 1 - i) % h) * roundUp (8 * m.ref.units) 64 + 8 * u
    (BitVec.ofNat 32 (mfield m.scale o 4), BitVec.ofNat 32 (mfield m.scale (o + 4) 4))
  match slots with
  | [] => (0, 0)
  | p :: r => r.foldl (fun (acc : U32 × U32) q => (fmin acc.1 q.1, fmax acc.2 q.2)) p

/-! ## Writing (R236-R250) -/

/-- The stores of an output, in order, with what they count. -/
structure Plan where
  stores : List (Ref × Nat × List Byte) := []
  tally : Tally := {}
  units : Nat := 0
  degen : Nat := 0
  early : Nat := 0
  rounded : Nat := 0
  wrong : Bool := false
  deriving DecidableEq, Repr

/-- Where an element of an output lies. -/
def placeOf (o : MatRef) (r c : Nat) : Place :=
  match o.data.space with
  | .obj h => some (h, o.data.off + r * o.stride + (o.c0 + c) * elemBits (o.fmt % 64) / 8)
  | _ => none

/-- Bytes of the codes of a span: a last nibble is zero at a row's end, else it stays as it was (R236). -/
def spanBytes (m : Mat) (row col : Nat) (codes : List Nat) : List Byte :=
  let elem := m.ref.fmt % 64
  match elemBits elem with
  | 4 =>
    let last := if m.ref.allCols ≤ m.ref.c0 + col + codes.length then 0 else m.code row (col + codes.length)
    (groupsOf 2 (codes.length + 1) codes).map fun g => match g with
      | [a, b] => BitVec.ofNat 8 (a + 16 * b)
      | [a] => BitVec.ofNat 8 (a + 16 * last)
      | _ => 0
  | k => codes.flatMap fun c => toLE (k / 8) c

/-- Where a span's bytes begin in the data. -/
def spanOff (o : MatRef) (row col : Nat) : Nat := row * o.stride + (o.c0 + col) * elemBits (o.fmt % 64) / 8

/-- The slot in its outlier block of an element of an outlier channel that the block lists (R250). -/
def Old.outlierSlot (o : Old) (r c : Nat) : Option Nat :=
  let axis := (mget o.mat.outlier 1).toNat
  (findFirst (fun (q : Nat × Nat) => q.1 == (if axis = 0 then r else c)) (o.mat.outlierSlots axis)).map (·.2)

/-- The outlier values of the spans that `QUANT` writes, as BF16 into the block (R250). -/
def outlierStores (old : Old) (spans : List Span) : List (Ref × Nat × List Byte) :=
  let m := old.mat
  match m.ref.outlier with
  | none => []
  | some r => spans.flatMap fun sp => (numbered sp.vals).filterMap fun e =>
    let c := sp.col + e.1
    (old.outlierSlot sp.row c).map fun q =>
      let i := if mget m.outlier 1 = 0 then m.ref.c0 + c else m.ref.r0 + sp.row
      (r, 320 + i * roundUp (2 * m.ref.outliers) 64 + 2 * q, toLE 2 (pack bf16 (ofF32 e.2)).1)

/-- Write an output whose format takes no scales. Through `QUANT` its outlier channels go to their block, and a neutral code stands for them (R250). -/
def planPlain (s : State) (x : CtxId) (old : Old) (quant : Bool) (spans : List Span) : Plan :=
  let m := old.mat
  let elem := m.ref.fmt % 64
  let ks := kind1s s x
  spans.foldl (fun (p : Plan) sp =>
    let cs := (numbered sp.vals).map fun e =>
      if quant && (old.outlierSlot sp.row (sp.col + e.1)).isSome then (0, Event.none, false)
      else finalCode s x ks (placeOf m.ref sp.row (sp.col + e.1)) elem 0 (ofF32 e.2)
    let codes := cs.map (·.1)
    { p with
      stores := p.stores ++ [(m.ref.data, spanOff m.ref sp.row sp.col, spanBytes m sp.row sp.col codes)] ++
        (if quant then outlierStores old [sp] else [])
      rounded := p.rounded + (cs.filter (·.2.2)).length
      tally := { p.tally with ovf := p.tally.ovf + (cs.filter (·.2.1 == .ovf)).length
                              nonfin := p.tally.nonfin + (cs.filter (·.2.1 == .nonfin)).length } }) {}

/-- The header of an output's scale stream as this write finds it, filled in when it is new (R245): depth, step, margin. -/
def streamHead (s : State) (m : Mat) : Nat × Nat × U32 :=
  if mget m.scale 0 = 0 then (max 1 (od s 0x3700 1), 0, BitVec.ofNat 32 (od s 0x3700 2))
  else (max 1 (mget m.scale 2).toNat, mfield m.scale 4 4, BitVec.ofNat 32 (mfield m.scale 8 4))

/-- Write an output through `QUANT` (R242-R250): `mode` 0 delayed, 1 immediate; `fed` gives the flags of the tiles that fed an element. -/
def planQuant (s : State) (x : CtxId) (old : Old) (mode : Nat) (fed : Nat → Nat → TileFlags) (spans : List Span) : Plan :=
  let m := old.mat
  let elem := m.ref.fmt % 64
  let blocks := m.ref.fmt / 64 == 3
  if mget m.scale 0 ≠ 0 ∧ m.streamWrong then { wrong := true }
  else
    let (h, step, margin) := streamHead s m
    let immediate := mode == 1 || step == 0
    let ks := kind1s s x
    -- statistics of the units written, outlier channels and NaNs left out
    let stats : KMap UnitStat := spans.foldl (fun (k : KMap UnitStat) sp => (numbered sp.vals).foldl (fun k e =>
      let c := sp.col + e.1
      let u := m.unit sp.row c
      let st := (kget k u).getD {}
      let f := fed sp.row c
      let st := { st with ovf := st.ovf || f.satAcc || f.satTotal, nonfin := st.nonfin || f.nonfinite }
      kset k u (if (old.outlierSlot sp.row c).isSome then st else st.see e.2)) k) []
    let prevOvf := fun (u : Nat) => (m.tag u).testBit 5
    let n := min step h
    let scaleOf := fun (u : Nat) (st : UnitStat) =>
      if blocks then
        let a := if immediate then blockStat u st.maxAbs else windowBlock m h step n u
        blockScale elem u a margin (if immediate then some st.maxAbs else none) (m.exponent u) (prevOvf u)
      else
        let (lo, hi) := if immediate then (st.lo, st.hi) else windowChan m h step n u
        chanScaleOf elem u margin lo hi immediate (m.chanScale u) (prevOvf u)
    let scales : KMap UnitScale := stats.map fun e => (e.1, scaleOf e.1 e.2)
    -- codes
    let conv := fun (sp : Span) (j : Nat) (v : U32) =>
      let c := sp.col + j
      let k := (kget scales (m.unit sp.row c)).getD {}
      match old.outlierSlot sp.row c with
      | some _ => ((if elem = 2 ∨ elem = 4 then k.z.toNat else 0), Event.none, false)
      | none =>
        if k.flat then (0, if fIsNan v then Event.nonfin else Event.none, false)
        else
          let y := if blocks then (ofF32 v).mul (.fin false 1 (127 - (k.e : Int))) else (ofF32 v).div (ofF32 k.s)
          finalCode s x ks (placeOf m.ref sp.row c) elem k.z y
    let done := spans.map fun sp => (sp, (numbered sp.vals).map fun e => conv sp e.1 e.2)
    let stats := done.foldl (fun (k : KMap UnitStat) q => (numbered q.2).foldl (fun k e =>
      kmod k (m.unit q.1.row (q.1.col + e.1)) fun st =>
        { st with ovf := st.ovf || e.2.2.1 == .ovf, nonfin := st.nonfin || e.2.2.1 == .nonfin }) k) stats
    let dataStores := done.map fun q => (m.ref.data, spanOff m.ref q.1.row q.1.col, spanBytes m q.1.row q.1.col (q.2.map (·.1)))
    -- sequences in the rows' trailers (R240)
    let seq := step % 16
    let trailers := if !blocks then [] else
      (nubList (spans.map (·.row))).flatMap fun r =>
        let bs := nubList ((spans.filter (·.row == r)).flatMap fun sp => m.blocksFor ((List.range sp.vals.length).map (sp.col + ·)))
        (nubList (bs.map (· / 2))).map fun i =>
          let nib := fun (b : Nat) => if bs.contains b then seq else m.dataSeq r b
          (m.ref.data, r * m.ref.stride + packedBytes elem m.ref.allCols + i, [BitVec.ofNat 8 (nib (2 * i) + 16 * nib (2 * i + 1))])
    -- the scale stream
    let units := m.ref.units
    let au := roundUp units 64
    let tagOf := fun (st : UnitStat) (k : UnitScale) =>
      (if st.nonfin then 128 else 0) + (if k.degen then 64 else 0) + (if st.ovf then 32 else 0) + (if blocks then seq else 0)
    let unitStores := stats.flatMap fun e =>
      let k := (kget scales e.1).getD {}
      if blocks then
        [(m.ref.scale, 64 + e.1, [BitVec.ofNat 8 k.e]), (m.ref.scale, 64 + au + e.1, [BitVec.ofNat 8 (tagOf e.2 k)]),
         (m.ref.scale, 64 + 2 * au + step % h * au + e.1, [BitVec.ofNat 8 (blockStat e.1 e.2.maxAbs)])]
      else
        [(m.ref.scale, 64 + 16 * e.1, toLE 4 k.s.toNat ++ toLE 4 k.zero.toNat ++ [BitVec.ofNat 8 (tagOf e.2 k)]),
         (m.ref.scale, 64 + roundUp (16 * units) 64 + step % h * roundUp (8 * units) 64 + 8 * e.1, toLE 4 e.2.lo.toNat ++ toLE 4 e.2.hi.toNat)]
    let ovf := (stats.filter fun e => e.2.ovf).length
    let nonfin := (stats.filter fun e => e.2.nonfin).length
    let degen := (scales.filter fun e => e.2.degen).length
    let maxAbs := (stats.map fun e => e.2.maxAbs).foldl fmax 0
    let head := [BitVec.ofNat 8 (m.ref.fmt / 64), BitVec.ofNat 8 elem, BitVec.ofNat 8 h, 0#8] ++
      toLE 4 (step + 1) ++ toLE 4 margin.toNat ++ toLE 4 units ++ toLE 4 maxAbs.toNat ++ toLE 4 ovf ++ toLE 4 degen ++ toLE 4 nonfin
    { stores := dataStores ++ trailers ++ outlierStores old spans ++ unitStores ++ [(m.ref.scale, 0, head)]
      tally := { ovf := ovf, nonfin := nonfin }
      units := stats.length, degen := degen, early := if mode = 0 && step == 0 then 1 else 0
      rounded := (done.flatMap (·.2)).filter (·.2.2) |>.length }

/-- The stores of an output. -/
def planOut (s : State) (x : CtxId) (old : Old) (quant : Option Nat) (fed : Nat → Nat → TileFlags) (spans : List Span) : Plan :=
  match quant with
  | some mode => if old.mat.ref.fmt / 64 = 0 then planPlain s x old true spans else planQuant s x old mode fed spans
  | none => planPlain s x old false spans

/-- The range of an operand's outlier block. -/
def outlierRange (m : MatRef) (block : Memory) : List (Ref × Nat) :=
  match m.outlier with
  | some r => [(r, 320 + (if mget block 1 = 0 then m.allCols else m.allRows) * roundUp (2 * m.outliers) 64)]
  | none => []

/-- Bytes from an output's first row that a record writes, its scale stream and outlier block included: what R150 cause 7 compares with the
inputs. -/
def outRanges (old : Old) (quant : Bool) (h : Nat) : List (Ref × Nat) :=
  let o := old.mat.ref
  (o.data, o.bytes) :: (if !quant then [] else
    outlierRange o old.mat.outlier ++ (if o.fmt / 64 = 0 then [] else [(o.scale, scaleBytes o.fmt o.units h)]))

/-- Input ranges of a matrix operand. -/
def matRanges (m : Mat) : List (Ref × Nat) :=
  (m.ref.data, m.ref.bytes) :: (if m.ref.fmt / 64 = 0 then [] else
    [(m.ref.scale, scaleBytes m.ref.fmt m.ref.units (max 1 (mget m.scale 2).toNat))]) ++ outlierRange m.ref m.outlier

/-- Make the stores of a plan possible, so that none of them waits after the first is made. -/
def prepPlan (x : CtxId) (p : Plan) : Eng Unit := p.stores.forM fun e => prepRef x e.1 e.2.1 e.2.2.length

/-- Count what a plan did (09 R256, 10 R278). -/
def countPlan (s : State) (x : CtxId) (p : Plan) : State :=
  let b := fun (s : State) (sub n : Nat) => bumpB s (jobPolder s x.job) 0x9C00 sub n
  let s := b (b (b (b (b s 1 p.units) 2 p.tally.ovf) 3 p.degen) 4 p.tally.nonfin) 7 p.early
  bumpB s (jobPolder s x.job) 0x9D00 7 p.rounded

/-- Do the stores of a plan, and count what it did. -/
def doPlan (x : CtxId) (p : Plan) : Eng Unit := do
  p.stores.forM fun e => saveRef x e.1 e.2.1 e.2.2
  mutate (countPlan · x p)

end Sys2Proof.Machine
end

