-- ==== Sys2Proof/Machine/Heavy.lean ====
section
/-! DEFINITION. Machine/Heavy.lean: matrix records and row and element records: products, prologues and epilogues, working storage, paired
products (05 R134, 07 R188-R204, 08 R218-R229). -/

namespace Sys2Proof.Machine

/-! ## Totals and their tiles -/

/-- The totals of a product and the flags of its output tiles: 64 rows by `w` columns (07 R203). -/
structure Tot where
  vals : List (List U32)
  flags : List (List TileFlags)
  w : Nat
  deriving DecidableEq, Repr

/-- First index and length of each tile of a dimension. -/
def tilesOf (n w : Nat) : List (Nat × Nat) := (List.range (ceilDiv n w)).map fun i => (i * w, min w (n - i * w))

def at2 (l : List (List U32)) (m n : Nat) : U32 := (((l[m]?).getD [])[n]?).getD 0

/-- Flags of the tile that an element lies in. -/
def Tot.flagAt (t : Tot) (r c : Nat) : TileFlags := (((t.flags[r / 64]?).getD [])[c / t.w]?).getD {}

/-- The tiles of elements that carry their own flags. -/
def tileFlags (els : List (List (U32 × TileFlags))) (rows cols w : Nat) (desync : List Nat → List Nat → Bool) : List (List TileFlags) :=
  (tilesOf rows 64).map fun i => (tilesOf cols w).map fun j =>
    let own := (((els.drop i.1).take i.2).map fun r => (((r.drop j.1).take j.2).map (·.2)).foldl TileFlags.or {}).foldl TileFlags.or {}
    { own with desync := desync ((List.range i.2).map (i.1 + ·)) ((List.range j.2).map (j.1 + ·)) }

/-- A whole product, each element added to `init` (07 R188, R196-R200); `bad` marks rows of the streamed operand whose sequences differed as
a prologue read them (09 R240). -/
def productTot (p : Product) (rows cols : Nat) (init : Nat → Nat → U32) (bad : Nat → Bool) : Tot :=
  let els := (List.range rows).map fun m => (List.range cols).map fun n => p.element (init m n) m n
  let w := p.outWidth
  ⟨els.map fun r => r.map (·.1), tileFlags els rows cols w fun ms ns => p.desync ms ns || ms.any bad, w⟩

/-- Mark the tiles of rows that a row function made NaN (08 R226). -/
def Tot.nonfinite (t : Tot) (rows : List Nat) : Tot :=
  { t with flags := (numbered t.flags).map fun e =>
      if rows.any fun r => r / 64 == e.1 then e.2.map fun f => { f with nonfinite := true } else e.2 }

/-- The spans of an output that are written: those of a desynced tile are withheld (07 R204). -/
def spansOf (t : Tot) (vals : List (List U32)) (cols : Nat) : List Span :=
  (numbered vals).flatMap fun e =>
    let fs := (t.flags[e.1 / 64]?).getD []
    if fs.any (·.desync) then
      ((numbered (tilesOf cols t.w)).filter fun j => !((fs[j.1]?).getD {}).desync).map fun j =>
        ⟨e.1, j.2.1, (e.2.drop j.2.1).take j.2.2⟩
    else [⟨e.1, 0, e.2⟩]

/-- Under a construct of whole rows a desynced tile feeds every tile of its row (09 R249). -/
def Tot.wholeRows (t : Tot) : Tot :=
  { t with flags := t.flags.map fun l => if l.any (·.desync) then l.map fun f => { f with desync := true } else l }

def Tot.desynced (t : Tot) : Bool := t.flags.any fun l => l.any (·.desync)

/-! ## Where totals and working storage lie (07 R201, 08 R220) -/

/-- Where the running total is kept, and whether that is the sump path. -/
inductive TotalAt where
  | inC
  | area
  | sump
  deriving DecidableEq, Repr

structure Places where
  total : TotalAt
  sumpPath : Bool
  pieces : List (Ref × Nat)
  deriving DecidableEq, Repr

/-- The scratchpad share, its size, and its partial-tile area. -/
def shareRef (s : State) (x : CtxId) (off : Nat) : Ref := let (b, n) := shareOf s x; ⟨.share b n, off⟩
def sumpRef (s : State) (x : CtxId) (off : Nat) : Ref := let (b, n) := sumpOf s x; ⟨.sumps b n, off⟩

/-- Choose the places of a record at its start: none is context fault 7. `wide` sump units hold one step's total; `pieces` are bytes and sump
rows; the prologue areas come last and stay in the scratchpad. -/
def choosePlaces (s : State) (x : CtxId) (sumpMode : Bool) (c : MatRef) (operands : List (Ref × Nat)) (wide : Nat)
    (pieces : List (Nat × Nat)) (prologue : Nat) : Option Places :=
  let share := (shareOf s x).2
  let sump := (sumpOf s x).2
  let top := share - 32768
  let free := fun (r : Ref) (n : Nat) => operands.all fun o => !rangesOverlap r n o.1 o.2
  let fits := decide (wide * 16384 ≤ sump)
  let inSump := (match c.data.space with | .sumps .. => true | _ => false) && c.fmt == 10
  let inShare := (match c.data.space with | .share .. => true | _ => false) && c.fmt == 10
  let pick : Option (TotalAt × Bool × Nat) :=
    if sumpMode then (if fits then some (.sump, true, wide * 64) else none)
    else if inSump then some (.inC, true, ceilDiv (c.data.off + c.bytes) 256)
    else if inShare then some (.inC, false, 0)
    else if 32768 ≤ share ∧ free (shareRef s x top) 32768 then some (.area, false, 0)
    else if fits then some (.sump, true, wide * 64)
    else none
  match pick with
  | none => none
  | some (total, path, row) =>
    let step := fun (acc : Option (List (Ref × Nat) × Nat × Nat)) (q : Nat × Nat) =>
      match acc with
      | none => none
      | some (l, row, bot) =>
        if path && q.2 != 0 && decide ((row + q.2) * 256 ≤ sump) then some (l ++ [(sumpRef s x (row * 256), q.1)], row + q.2, bot)
        else if q.1 ≤ bot then some (l ++ [(shareRef s x (bot - q.1), q.1)], row, bot - q.1)
        else none
    let all := pieces ++ (if prologue = 0 then [] else [(prologue, 0), (prologue, 0)])
    match all.foldl step (some ([], row, top)) with
    | none => none
    | some (l, _, _) => if l.all fun p => free p.1 p.2 then some ⟨total, path, l⟩ else none

/-- Write working storage that a record has found room for in its share or its sump rows. -/
def putWork (s : State) (r : Ref) (off : Nat) (b : List Byte) : State :=
  let fits := fun (size : Nat) => decide (r.off + off + b.length ≤ size)
  match r.space with
  | .share base size => if fits size then { s with spad := mwrite s.spad (base + r.off + off) b } else s
  | .sumps base size => if fits size then { s with sump := mwrite s.sump (base + r.off + off) b } else s
  | _ => s

/-- What the record leaves in the place of its total: each step's tile in turn (07 R201, R206, R207). -/
def leaveTotals (s : State) (x : CtxId) (p : Places) (t : Tot) (cols pitch : Nat) : State :=
  if p.total = .inC then s
  else
    let bytes := fun (l : List U32) => l.flatMap fun a => toLE 4 a.toNat
    let row := fun (s : State) (m : Nat) (v : List U32) =>
      if p.total = .area then putWork s (shareRef s x ((shareOf s x).2 - 32768)) (m * pitch) (bytes v)
      else (numbered (groupsOf 64 (v.length + 1) v)).foldl (fun s g => putWork s (sumpRef s x 0) (g.1 * 16384 + m * 256) (bytes g.2)) s
    (tilesOf t.vals.length 64).foldl (fun s i => (tilesOf cols t.w).foldl (fun s j =>
      (numbered ((t.vals.drop i.1).take i.2)).foldl (fun s e => row s e.1 ((e.2.drop j.1).take j.2)) s) s) s

/-- What a piece of working storage holds after a record the manual leaves open: free bytes. -/
def leavePieces (s : State) (p : Places) : State :=
  p.pieces.foldl (fun s q => let (k, s) := s.draw; putWork s q.1 0 ((List.range q.2).map (Config.rawByte k))) s

/-! ## Prologues (08 R218, R219) -/

/-- Rows after a prologue as codes: in the operand's format with its own scales, or in the format and with the scales that `QUANT` chose. -/
def recode (s : State) (x : CtxId) (a : Mat) (quant : Option Nat) (rows : List (List U32)) : Mat × Plan :=
  match quant with
  | none =>
    let elem := a.ref.fmt % 64
    let codes := (numbered rows).map fun r => (r.1, (numbered r.2).map fun e => (toElem elem (a.zero r.1 e.1) (ofF32 e.2)).1)
    ({ a with data := codes.foldl (fun m r => mwrite m (spanOff a.ref r.1 0) (spanBytes a r.1 0 r.2)) a.data }, {})
  | some target =>
    let ref := { a.ref with fmt := target, stride := denseRow target a.ref.allCols, data := ⟨.none, 0⟩, scale := ⟨.none, 1⟩, outlier := none }
    let m : Mat := ⟨ref, [], [], a.outlier⟩
    let spans := (numbered rows).map fun r => (⟨r.1, 0, r.2⟩ : Span)
    let p := if target / 64 = 0 then planPlain s x ⟨m⟩ true spans else planQuant s x ⟨m⟩ 1 (fun _ _ => {}) spans
    let put := fun (r : Ref) (m : Memory) => (p.stores.filter fun e => e.1 == r).foldl (fun m e => mwrite m e.2.1 e.2.2) m
    ({ m with data := put ref.data [], scale := put ref.scale [] }, p)

/-- The prologue of a streamed operand: the operand that enters the array, what it counted, and the rows whose sequences differed. -/
def runPrologue (s : State) (x : CtxId) (bitMatch : Bool) (a : Mat) (l : List (Stage × Arg)) : Mat × Plan × (Nat → Bool) :=
  let bad := fun (r : Nat) => (a.blocksFor (List.range a.ref.cols)).any fun b => a.desynced r b
  if l.isEmpty then (a, {}, fun _ => false)
  else
    let quant := match l.getLast? with | some e => if e.1.code = 7 then some e.1.aux else none | none => none
    let body := if quant.isSome then l.dropLast else l
    let z := runStages bitMatch (xreg s x) (some a.scaleFor) body ⟨a.all a.raw, [], {}⟩
    let (m, p) := recode s x a quant z.vals
    let (o, n) := if quant.isNone && a.ref.fmt / 64 == 0 then castEvents a.ref.fmt z.vals.flatten else (0, 0)
    (m, { p with tally := { p.tally with ovf := p.tally.ovf + z.tally.ovf + o, nonfin := p.tally.nonfin + z.tally.nonfin + n } }, bad)

/-- Bytes of each prologue area (R219). -/
def prologueBytes (l : List Stage) (a : Mat) : Nat :=
  if l.isEmpty then 0
  else
    let f := match l.getLast? with | some t => if t.code = 7 then t.aux else a.ref.fmt | none => a.ref.fmt
    roundUp (64 * (ceilDiv (a.ref.cols * elemBits (f % 64)) 8 + (if f / 64 = 3 then blocksOf a.ref.cols else 0))) 4096

/-! ## Epilogues and outputs -/

/-- The stages of an epilogue before its final conversion: a closing `QUANT`, or a `CAST` to an unscaled output's format, is that conversion
(R222). -/
def dropFinal (bitMatch : Bool) (c : Chain) (out : Nat) (l : List (Stage × Arg)) : List (Stage × Arg) × Option Nat :=
  match l.getLast? with
  | none => (l, none)
  | some e =>
    if e.1.code = 7 then (l.dropLast, some e.1.mode)
    else if e.1.code = 11 ∧ e.1.aux = out ∧ out / 64 = 0 ∧ (!bitMatch ∨ e.1.matchF = 0 ∨ e.1.matchF = out) ∧
        (!c.twoSweep ∨ c.split < l.length) then (l.dropLast, none)
    else (l, none)

/-- Whether a chain holds a construct of whole rows, and whether its rows are parked in a heavy record. -/
def Chain.whole (c : Chain) : Bool := c.twoSweep || c.epi.any fun t => t.code == 12
def Chain.parks (c : Chain) : Bool := c.twoSweep || c.epi.any fun t => t.code == 12 && t.mode == 3

/-- The per-row output vector of a `ROW_ONLINE` in modes 1 and 2. -/
def onlineSlot (s : State) (x : CtxId) (c : Chain) : Option Ref :=
  match findFirst (fun (t : Stage) => t.code == 12) c.epi with
  | some t => if (t.mode = 1 ∨ t.mode = 2) ∧ t.slot ≠ 0 then some (oref s x t.slot) else none
  | none => none

/-- Pieces of working storage of an epilogue (R220). -/
def epiloguePieces (c : Chain) (cols : Nat) (heavy : Bool) : List (Nat × Nat) :=
  (if c.whole then [(1024, 4)] else []) ++ (if heavy && c.parks then [(256 * cols, 64 * ceilDiv cols 64)] else [])

/-- Count what a chain did on rows (08 R233); CAST events count with the conversions (09 R256). -/
def countChain (s : State) (x : CtxId) (rows sweeps prologues : Nat) (t : Tally) : State :=
  let p := jobPolder s x.job
  let b := fun (s : State) (sub n : Nat) => bumpB s p 0x9B00 sub n
  let s := b (b (b (b (b s 1 rows) 2 sweeps) 4 t.empty) 5 t.clamped) 6 prologues
  bumpB (bumpB s p 0x9C00 2 t.ovf) p 0x9C00 4 t.nonfin

/-- An output and what goes into it. -/
structure Result where
  old : Old
  quant : Option Nat
  tot : Tot
  vals : List (List U32)
  deriving DecidableEq, Repr

/-- Write the outputs of a record: every store is made possible first. Watched statistics follow (10 R268). A scale stream at odds with its data
is a desync (09 R245). -/
def writeOutputs (x : CtxId) (rs : List Result) (vec : Option (Ref × List U32)) : Eng Unit := do
  let s ← getThe State
  let plans := rs.map fun r => (r, planOut s x r.old r.quant r.tot.flagAt (spansOf r.tot r.vals r.old.mat.ref.cols))
  if plans.any (·.2.wrong) then stop .desync
  plans.forM fun q => prepPlan x q.2
  -- a row's value comes from its whole tile row: one with a desynced tile is withheld (09 R249)
  let withheld := fun (i : Nat) => rs.any fun r => ((r.tot.flags[i]?).getD []).any (·.desync)
  let vecs : List (Ref × Nat × List Byte) := match vec with
    | some v => ((numbered (groupsOf 64 (v.2.length + 1) v.2)).filter fun g => !withheld g.1).map fun g =>
        (v.1, 256 * g.1, g.2.flatMap fun a => toLE 4 a.toNat)
    | none => []
  vecs.forM fun v => prepRef x v.1 v.2.1 v.2.2.length
  watching x ((plans.flatMap fun q => q.2.stores) ++ vecs) do
    plans.forM fun q => doPlan x q.2
    vecs.forM fun v => saveRef x v.1 v.2.1 v.2.2

/-- Output ranges of a record that overlap its inputs are a context fault with cause 7 (05 R150). -/
def checkOverlap (outs ins : List (Ref × Nat)) : Eng Unit :=
  outs.forM fun o => faultIf (ins.any fun i => rangesOverlap o.1 o.2 i.1 i.2) 7 o.1.off

/-- No output range meets an input. -/
def apart (outs ins : List (Ref × Nat)) : Bool := outs.all fun o => !(ins.any fun i => rangesOverlap o.1 o.2 i.1 i.2)

/-- What the slots of stages read. -/
def argRanges (s : State) (x : CtxId) (z : Shape) (l : List Stage) : List (Ref × Nat) :=
  l.filterMap fun t =>
    let r := oref s x t.slot
    match t.code with
    | 1 | 2 => if t.mode = 0 then none else some (r, 4 * (if t.mode = 1 then z.cols else z.rows))
    | 3 | 4 => if t.slot = 0 then none else some (r, (matRef s r (slotFormat s r) z.rows z.cols).bytes)
    | 9 => let p := if bitAt t.mode 1 then xreg s x t.aux else xreg s x t.aux
           let st := roundUp (4 * z.cols) 64
           some (⟨r.space, r.off + p * st⟩, (if bitAt t.mode 1 then 1 else z.rows) * st)
    | 10 => if t.mode = 0 then none else if t.mode = 1 then some (r, 4 * z.rows) else some (r, z.rows * (ceilDiv z.cols 512 * 64))
    | _ => none

/-! ## Counters of the array (07 R211, 08 R233) -/

/-- Blocks of an operand that differ, counted once for a record (09 R249). -/
def countDesync (s : State) (x : CtxId) (l : List Mat) : State := bumpB s (jobPolder s x.job) 0x9C00 5 ((l.map badBlocks).foldl (· + ·) 0)

/-- What a product counts: the cycles in which its vectors enter, the weight-load bubbles, gated cell products, chunks, outlier products, the flagged
tiles of `t`, and the steps on the sump path. -/
def countProduct (s : State) (x : CtxId) (p : Product) (rows cols : Nat) (t : Tot) (entries bubbles chunks steps : Nat) : State :=
  let cells := (List.range rows).flatMap fun m => (List.range cols).map fun n => (m, n)
  let gated := if od s 0x3500 1 = 0 then 0 else (cells.map fun e => p.gated e.1 e.2).foldl (· + ·) 0
  let extras := (cells.map fun e => p.extras e.1 e.2).foldl (· + ·) 0
  let tiles := fun (f : TileFlags → Bool) => (t.flags.flatten.filter f).length
  let s := [(1, entries), (3, bubbles), (5, gated), (6, chunks), (7, tiles (·.satAcc)), (8, tiles (·.satTotal)), (9, tiles (·.nonfinite)),
    (0xA, tiles (·.desync)), (0xB, steps)].foldl (fun s e => coreBump s x e.1 e.2) s
  bumpB s (jobPolder s x.job) 0x9C00 6 extras

/-- Chunks that a product promotes (07 R197). -/
def Product.chunks (p : Product) (rows cols : Nat) : Nat := rows * cols * ceilDiv p.depth (chunkLength p.a0 p.mode p.bT p.chunk)

/-- A product issued as a record of its own (R191, R193, R210, R201). -/
def countAlone (s : State) (x : CtxId) (p : Product) (rows cols : Nat) (t : Tot) (sumpPath : Bool) (bubbles : Nat) : State :=
  countProduct s x p rows cols t (p.cycles rows cols).1 bubbles (p.chunks rows cols) (if sumpPath then t.flags.flatten.length else 0)

/-- Bubbles whose number the manual gives no formula for: a streamed vector waits for operands that lie in the DAS (07 R209), and, read from the
scratchpad, it may lose its bank to the promotion of a total that lies there too (R206). The numbers are free values (DESIGN CHOICE, log entry
89). -/
def countTraffic (s : State) (x : CtxId) (operands : List (Ref × Nat)) (streamed : Ref) (prologue sumpPath : Bool) : State :=
  let inDas := fun (q : Ref × Nat) => match q.1.space with | .obj _ => q.2 != 0 | _ => false
  let inShare := match streamed.space with | .share .. => true | _ => false
  let free := fun (s : State) (sub : Nat) => let (k, s) := s.draw; coreBump s x sub (Config.bubbles k)
  let s := if operands.any inDas then free s 2 else s
  if !sumpPath && (prologue || inShare) then free s 4 else s

/-- The array waits on the vector unit where its work for a tile row exceeds the array cycles of that tile row (R222); outlier channels are
epilogue work (09 R251). -/
def waitCycles (p : Product) (rows cols proOps epiOps : Nat) : Nat :=
  let steps := ceilDiv cols p.outWidth
  let epi := epiOps + p.outlierChannels
  ((tilesOf rows 64).map fun i =>
    let array := steps * ceilDiv p.depth (vectorWidth p.a0 p.mode p.bT) * max (i.2 * p.mode.interval) p.loadCycles
    steps * i.2 * ceilDiv p.outWidth 64 * epi + i.2 * ceilDiv p.depth 64 * proOps - array).foldl (· + ·) 0

/-- Count a wait on the vector unit. -/
def countWait (s : State) (x : CtxId) (n : Nat) : State := bumpB (coreBump s x 2 n) (jobPolder s x.job) 0x9B00 3 n

/-- A range of an output as a context's record of it. -/
def outKey (o : Ref × Nat) : Nat × Nat × Nat × Nat :=
  match o.1.space with
  | .obj h => (0, h, o.1.off, o.2)
  | .share b _ => (1, b, o.1.off, o.2)
  | .sumps b _ => (2, b, o.1.off, o.2)
  | .none => (3, 0, 0, 0)

/-- A range lies in an output that a context remembers. -/
def meetsOut (q : Ref × Nat) (o : Nat × Nat × Nat × Nat) : Bool :=
  (match q.1.space with
    | .obj h => o.1 == 0 && o.2.1 == h
    | .share a _ => o.1 == 1 && o.2.1 == a
    | .sumps a _ => o.1 == 2 && o.2.1 == a
    | .none => false) &&
  decide (q.1.off < o.2.2.1 + o.2.2.2) && decide (o.2.2.1 < q.1.off + q.2)

/-- The array drains before a heavy record whose operands overlap an output of the record before it (07 R192). -/
def drainBefore (s : State) (x : CtxId) (ins : List (Ref × Nat)) : State :=
  match getCtx s x with
  | some (_, c) => if ins.any fun q => c.lastOut.any (meetsOut q) then drainOut s x else s
  | none => s

/-- What a heavy record leaves in its core: a drain due, of 12 cycles, 15 in the 16-bit mode (R192), the ranges of its outputs, and the flags of its
last tile (R203). -/
def leaveDrain (s : State) (x : CtxId) (m : CellMode) (outs : List (Ref × Nat)) (t : Tot) : State :=
  modCtx s x fun c => { c with
    drain := if m = .sixteen then 15 else 12, lastOut := outs.map outKey, tile := (t.flags.flatten.getLast?).getD {} }

/-- Change the registers of the array of a context's core (R187). -/
def leaveRegs (s : State) (x : CtxId) (f : ArrayRegs → ArrayRegs) : State :=
  s.modCore (coreOf s x) fun c => { c with regs := f c.regs }

/-- What a product leaves in the registers: its last weight tiles, and a spent chunk accumulator file. -/
def leaveProduct (s : State) (x : CtxId) (p : Product) (rows cols : Nat) : State :=
  let (k, s) := s.draw
  let last := (tilesOf rows 64).getLast?
  leaveRegs s x fun g => (g.load p (p.tiles rows cols)).spent k (match last with | some i => i.2 | none => 0) p.outWidth

/-! ## MATMUL, MATMUL_T and GRADPAIR (05 R133, R134) -/

def jobBitMatch (s : State) (x : CtxId) : Bool := match kget s.jobs x.job with | some j => j.bitMatch | none => false

/-- An ACCUM output's present values, widened (07 R201); without ACCUM none are read. -/
def loadInit (x : CtxId) (track accum : Bool) (c : MatRef) : Eng (Nat → Nat → U32) := do
  if !accum then return fun _ _ => 0
  let m ← loadMat x track c
  return m.value

/-- The operands of a MATMUL or MATMUL_T, its dimensions, its chain, and how it reads B. -/
structure MatmulUse where
  a : MatRef
  b : MatRef
  c : MatRef
  rows : Nat
  depth : Nat
  cols : Nat
  chain : Chain
  transposed : Bool
  deriving DecidableEq, Repr

def matmulUse (s : State) (x : CtxId) (r : BitVec 512) (transposed : Bool) : MatmulUse :=
  let (m, n, k) := (fld r 0x20 4, fld r 0x24 4, fld r 0x28 4)
  let (depth, cols) := if transposed then (n, k) else (k, n)
  ⟨matRef s (oref s x (fld r 8 8)) (fld r 4 1) m depth, matRef s (oref s x (fld r 0x10 8)) (fld r 5 1) k n,
    matRef s (oref s x (fld r 0x18 8)) (fld r 6 1) m cols, m, depth, cols, jobChain s x (fld r 0x2E 2), transposed⟩

/-- The rows that the prologue and the epilogue see. -/
def MatmulUse.shapeIn (u : MatmulUse) : Shape := ⟨u.rows, u.depth, false, none⟩
def MatmulUse.shapeOut (u : MatmulUse) : Shape := ⟨u.rows, u.cols, false, none⟩

/-- What a MATMUL has read: A and B, what its stages read, the values that ACCUM starts from, and what writing C needs of it. -/
structure MatmulIn where
  a : Mat
  b : Mat
  pro : List (Stage × Arg)
  epi : List (Stage × Arg)
  init : Nat → Nat → U32
  old : Old

/-- The stages before the final conversion, and the mode of a closing QUANT. -/
def MatmulUse.final (u : MatmulUse) (s : State) (x : CtxId) (epi : List (Stage × Arg)) : List (Stage × Arg) × Option Nat :=
  dropFinal (jobBitMatch s x) u.chain u.c.fmt epi

/-- Ranges that the record reads, and ranges that it writes. -/
def MatmulUse.ins (u : MatmulUse) (s : State) (x : CtxId) (l : MatmulIn) : List (Ref × Nat) :=
  matRanges l.a ++ matRanges l.b ++ (argRanges s x u.shapeIn u.chain.pro ++ argRanges s x u.shapeOut u.chain.epi)
def MatmulUse.outs (u : MatmulUse) (s : State) (x : CtxId) (l : MatmulIn) : List (Ref × Nat) :=
  outRanges l.old (u.final s x l.epi).2.isSome (streamHead s l.old.mat).1 ++
    (match onlineSlot s x u.chain with | some v => [(v, 4 * u.rows)] | none => [])

/-- A as it enters the array, what its prologue counted, and the rows whose sequences differed. -/
def MatmulUse.entering (u : MatmulUse) (s : State) (x : CtxId) (l : MatmulIn) : Mat × Plan × (Nat → Bool) :=
  runPrologue s x (jobBitMatch s x) l.a l.pro

def MatmulUse.product (u : MatmulUse) (s : State) (x : CtxId) (r : BitVec 512) (l : MatmulIn) : Product :=
  ⟨(u.entering s x l).1, l.b, false, u.transposed, fld r 0x2C 2, s.ident.a0⟩

/-- Where the total and the working storage lie. -/
def MatmulUse.places (u : MatmulUse) (s : State) (x : CtxId) (r : BitVec 512) (l : MatmulIn) : Option Places :=
  choosePlaces s x (bitAt (fld r 7 1) 1) u.c (u.ins s x l ++ u.outs s x l) ((u.product s x r l).outWidth / 64)
    (epiloguePieces u.chain u.cols true) (prologueBytes u.chain.pro l.a)

/-- What a record computes: the totals with their flags, the rows after the epilogue, the per-row vector, and what the chain counted. -/
structure HeavyOut where
  tot : Tot
  vals : List (List U32)
  vec : List U32
  tally : Tally

/-- The product, through the epilogue (07 R188, R196-R200, 08 R222). -/
def MatmulUse.out (u : MatmulUse) (s : State) (x : CtxId) (r : BitVec 512) (l : MatmulIn) : HeavyOut :=
  let bm := jobBitMatch s x
  let t := productTot (u.product s x r l) u.rows u.cols l.init (u.entering s x l).2.2
  let entry := t.vals.map fun row => row.map (matchRound bm u.chain.entry)
  let (z, vec) := runEpilogue bm (xreg s x) none u.chain (u.final s x l.epi).1 ⟨entry, [], {}⟩
  let t := t.nonfinite z.bad
  ⟨if u.chain.whole then t.wholeRows else t, z.vals, vec, z.tally⟩

/-- The outputs: C, and the vector of a ROW_ONLINE. -/
def MatmulUse.results (u : MatmulUse) (s : State) (x : CtxId) (l : MatmulIn) (o : HeavyOut) : List Result :=
  [⟨l.old, (u.final s x l.epi).2, o.tot, o.vals⟩]
def MatmulUse.vector (u : MatmulUse) (s : State) (x : CtxId) (o : HeavyOut) : Option (Ref × List U32) :=
  (onlineSlot s x u.chain).map fun v => (v, o.vec)

/-- What the record leaves beside its outputs: working storage, registers, counters, a drain due. `s` is the state that it began in. -/
def MatmulUse.leave (u : MatmulUse) (t s : State) (x : CtxId) (r : BitVec 512) (l : MatmulIn) (places : Places) (o : HeavyOut) : State :=
  let p := u.product s x r l
  let t := leavePieces (leaveTotals t x places o.tot u.cols (p.outWidth * 4)) places
  let t := countPlan (leaveProduct t x p u.rows u.cols) x { (u.entering s x l).2.1 with stores := [] }
  let t := countAlone t x p u.rows u.cols o.tot places.sumpPath (p.cycles u.rows u.cols).2
  let t := countDesync (countTraffic t x (u.ins s x l) l.a.ref.data (!l.pro.isEmpty) places.sumpPath) x [l.a, l.b]
  let t := countChain t x (if fld r 0x2E 2 ≠ 0 then u.rows else 0)
    (if u.chain.parks then ceilDiv u.rows 64 * ceilDiv u.cols p.outWidth else 0) (if l.pro.isEmpty then 0 else ceilDiv u.rows 64) o.tally
  let wait := waitCycles p u.rows u.cols ((u.chain.pro.map Stage.ops).foldl (· + ·) 0)
    (epilogueOps u.chain.epi + watchOps s x (u.outs s x l))
  leaveDrain (countWait t x wait) x p.mode (u.outs s x l) o.tot

/-- MATMUL and MATMUL_T. -/
def matmul (x : CtxId) (r : BitVec 512) (transposed : Bool) : Eng Unit := do
  let s ← getThe State
  let u := matmulUse s x r transposed
  let a ← loadMat x (tracks r) u.a
  let b ← loadMat x (tracks r) u.b
  if a.streamWrong || b.streamWrong then stop .desync
  let pro ← loadArgs x (tracks r) u.shapeIn u.chain.pro
  let epi ← loadArgs x (tracks r) u.shapeOut u.chain.epi
  let init ← loadInit x (tracks r) (bitAt (fld r 7 1) 0) u.c
  let old ← loadOld x u.c (u.final s x epi).2.isSome
  let l : MatmulIn := ⟨a, b, pro, epi, init, old⟩
  checkOverlap (u.outs s x l) (u.ins s x l)
  match u.places s x r l with
  | none => stop (.fault 7 u.c.data.off)
  | some places =>
    let o := u.out s x r l
    mutate (drainBefore · x (u.ins s x l ++ u.outs s x l))
    writeOutputs x (u.results s x l o) (u.vector s x o)
    mutate fun t => u.leave t s x r l places o
    if o.tot.desynced then stop .desync

/-- The weight tiles of a GRADPAIR's W in order, each with the rows of its dA tile (07, special uses of the two buffers). -/
def gradTiles (px : Product) (din dout : Nat) : List ((Nat × Nat) × Nat) :=
  (tilesOf din 64).flatMap fun i => (tilesOf dout (vectorWidth px.a0 px.mode true)).map fun j => ((i.1, j.1), i.2)

/-- Weight-load bubbles of a GRADPAIR: a tile of W is loaded once for all T blocks, the first before anything runs, a later one while the last dA tile
of the one before it runs; a tile of dY is loaded while the dX tile of its T block runs (DEDUCED, log entry 147). -/
def gradBubbles (px pa : Product) (t din dout : Nat) : Nat :=
  let width := vectorWidth px.a0 px.mode true
  let (lw, ly) := (px.loadCycles, pa.loadCycles)
  let loads := fun (c : Nat) => if c % pa.outWidth ≠ 0 then 0 else max 1 (width / pa.outWidth)
  ((gradTiles px din dout).foldl (fun (acc : Nat × Option Nat) e =>
    let before := match acc.2 with | none => lw | some r => lw - r * pa.mode.interval
    let blocks := (tilesOf t 64).map fun b =>
      let n := loads e.1.2
      if n = 0 then 0 else (ly - b.2 * px.mode.interval) + (n - 1) * ly
    (acc.1 + before + blocks.foldl (· + ·) 0, some e.2)) (0, none)).1

/-- What a GRADPAIR leaves in the registers: its last tile of W in one buffer and of dY in the other, and its last block of H in the transpose
buffer. -/
def leaveGrad (s : State) (x : CtxId) (px pa : Product) (t din dout : Nat) : State :=
  let (k, s) := s.draw
  let r0 := (t - 1) / 64 * 64
  let w := ((gradTiles px din dout).getLast?).map (·.1)
  let c0 := (dout - 1) / pa.outWidth * pa.outWidth
  leaveRegs s x fun g =>
    let g := match w with | some q => g.load px [q] | none => g
    let g := (g.load pa [(r0, c0)]).spent k (din - (din - 1) / 64 * 64) pa.outWidth
    g.fill fun r c => let m := (din - 1) / 64 * 64 + c; if r0 + r < t ∧ m < din then pa.a.code (r0 + r) m else 0

/-- The operands of a GRADPAIR, its dimensions and its chain. -/
structure GradUse where
  w : MatRef
  dy : MatRef
  h : MatRef
  dx : MatRef
  da : MatRef
  t : Nat
  din : Nat
  dout : Nat
  chain : Chain
  deriving DecidableEq, Repr

def gradUse (s : State) (x : CtxId) (r : BitVec 512) : GradUse :=
  let (t, din, dout) := (fld r 0x30 4, fld r 0x34 4, fld r 0x38 4)
  ⟨matRef s (oref s x (fld r 8 8)) (fld r 4 1) din dout, matRef s (oref s x (fld r 0x10 8)) (fld r 5 1) t dout,
    matRef s (oref s x (fld r 0x18 8)) (fld r 6 1) t din, matRef s (oref s x (fld r 0x20 8)) (fld r 7 1) t din,
    matRef s (oref s x (fld r 0x28 8)) 10 din dout, t, din, dout, jobChain s x (fld r 0x3C 2)⟩

def GradUse.shape (u : GradUse) : Shape := ⟨u.t, u.din, false, none⟩

/-- What a GRADPAIR has read. -/
structure GradIn where
  w : Mat
  dy : Mat
  h : Mat
  epi : List (Stage × Arg)
  initX : Nat → Nat → U32
  initA : Nat → Nat → U32
  oldX : Old
  oldA : Old

def GradUse.final (u : GradUse) (s : State) (x : CtxId) (epi : List (Stage × Arg)) : List (Stage × Arg) × Option Nat :=
  dropFinal (jobBitMatch s x) u.chain u.dx.fmt epi

/-- Ranges that the record reads, and ranges that it writes for dX and for dA. -/
def GradUse.ins (u : GradUse) (s : State) (x : CtxId) (l : GradIn) : List (Ref × Nat) :=
  matRanges l.w ++ matRanges l.dy ++ matRanges l.h ++ argRanges s x u.shape u.chain.epi
def GradUse.outsX (u : GradUse) (s : State) (x : CtxId) (l : GradIn) : List (Ref × Nat) :=
  outRanges l.oldX (u.final s x l.epi).2.isSome (streamHead s l.oldX.mat).1
def GradUse.outsA (_ : GradUse) (l : GradIn) : List (Ref × Nat) := outRanges l.oldA false 1

/-- Every range of the record. -/
def GradUse.operands (u : GradUse) (s : State) (x : CtxId) (l : GradIn) : List (Ref × Nat) :=
  u.ins s x l ++ (u.outsX s x l ++ u.outsA l)

/-- dY·Wᵀ by transposed read of W, and Hᵀ·dY. -/
def GradUse.productX (_ : GradUse) (s : State) (l : GradIn) : Product := ⟨l.dy, l.w, false, true, 0, s.ident.a0⟩
def GradUse.productA (_ : GradUse) (s : State) (l : GradIn) : Product := ⟨l.h, l.dy, true, false, 0, s.ident.a0⟩

def GradUse.placesX (u : GradUse) (s : State) (x : CtxId) (l : GradIn) : Option Places :=
  choosePlaces s x false u.dx (u.operands s x l) ((u.productX s l).outWidth / 64) [] 0
def GradUse.placesA (u : GradUse) (s : State) (x : CtxId) (l : GradIn) : Option Places :=
  choosePlaces s x false u.da (u.operands s x l) ((u.productA s l).outWidth / 64) [] 0

/-- dX through the epilogue, and dA. -/
def GradUse.outX (u : GradUse) (s : State) (x : CtxId) (l : GradIn) : HeavyOut :=
  let bm := jobBitMatch s x
  let t := productTot (u.productX s l) u.t u.din l.initX fun _ => false
  let entry := t.vals.map fun row => row.map (matchRound bm u.chain.entry)
  let (z, _) := runEpilogue bm (xreg s x) none u.chain (u.final s x l.epi).1 ⟨entry, [], {}⟩
  ⟨t, z.vals, [], z.tally⟩
def GradUse.outA (u : GradUse) (s : State) (l : GradIn) : Tot := productTot (u.productA s l) u.din u.dout l.initA fun _ => false

def GradUse.results (u : GradUse) (s : State) (x : CtxId) (l : GradIn) (o : HeavyOut) (a : Tot) : List Result :=
  [⟨l.oldX, (u.final s x l.epi).2, o.tot, o.vals⟩, ⟨l.oldA, none, a, a.vals⟩]

/-- What a GRADPAIR leaves beside its outputs. `s` is the state that it began in. -/
def GradUse.leave (u : GradUse) (t s : State) (x : CtxId) (r : BitVec 512) (l : GradIn) (plX plA : Places) (o : HeavyOut) (a : Tot) : State :=
  let (px, pa) := (u.productX s l, u.productA s l)
  let t := leaveTotals (leaveTotals t x plX o.tot u.din (px.outWidth * 4)) x plA a u.dout (pa.outWidth * 4)
  let t := countAlone (leaveGrad t x px pa u.t u.din u.dout) x px u.t u.din o.tot plX.sumpPath (gradBubbles px pa u.t u.din u.dout)
  let t := countTraffic (countAlone t x pa u.din u.dout a plA.sumpPath 0) x (u.ins s x l) l.dy.ref.data false (plX.sumpPath && plA.sumpPath)
  let t := countChain (countDesync t x [l.w, l.dy, l.h]) x (if fld r 0x3C 2 = 0 then 0 else u.t) 0 0 o.tally
  let wait := waitCycles px u.t u.din 0 (epilogueOps u.chain.epi + watchOps s x (u.outsX s x l)) +
    waitCycles pa u.din u.dout 0 (watchOps s x (u.outsA l))
  leaveDrain (countWait t x wait) x pa.mode (u.outsX s x l ++ u.outsA l) a

/-- GRADPAIR: dX = dY·Wᵀ by transposed read of W, and dA = Hᵀ·dY; each as the separate record (05 R134, 10 R257, R258). -/
def gradpair (x : CtxId) (r : BitVec 512) : Eng Unit := do
  let s ← getThe State
  let mode := fld r 0x3E 1
  let u := gradUse s x r
  let w ← loadMat x (tracks r) u.w
  let dy ← loadMat x (tracks r) u.dy
  let h ← loadMat x (tracks r) u.h
  if w.streamWrong || dy.streamWrong || h.streamWrong then stop .desync
  let epi ← loadArgs x (tracks r) u.shape u.chain.epi
  let initX ← loadInit x (tracks r) (bitAt mode 0) u.dx
  let initA ← loadInit x (tracks r) (bitAt mode 1) u.da
  let oldX ← loadOld x u.dx (u.final s x epi).2.isSome
  let oldA ← loadOld x u.da false
  let l : GradIn := ⟨w, dy, h, epi, initX, initA, oldX, oldA⟩
  checkOverlap (u.outsX s x l ++ u.outsA l) (u.ins s x l)
  checkOverlap (u.outsA l) (u.outsX s x l)
  match u.placesX s x l, u.placesA s x l with
  | some plX, some plA =>
    let o := u.outX s x l
    let a := u.outA s l
    mutate (drainBefore · x (u.operands s x l))
    writeOutputs x (u.results s x l o a) none
    mutate fun t => u.leave t s x r l plX plA o a
    if o.tot.desynced || a.desynced then stop .desync
  | _, _ => stop (.fault 7 u.dx.data.off)

/-! ## MATMUL_PAIR (08 R227-R229) -/

/-- A row of S through the online softmax: for each key block its correction and its rounded P, the final sum, and whether the row turns
NaN. -/
structure PairRow where
  blocks : List (U32 × List U32)
  l : U32
  bad : Bool
  deriving DecidableEq, Repr

def pairRow (c : U32) (pf : Nat) (row : List U32) : PairRow :=
  let (m, l, bs) := (groupsOf 64 (row.length + 1) row).foldl (fun (acc : U32 × U32 × List (U32 × List U32)) g =>
    let cs := g.map fun v => fmul c v
    let m := fmax acc.1 (treeMax cs)
    if m = 0xFF800000#32 then (m, acc.2.1, acc.2.2 ++ [(f32One, g.map fun _ => 0)])
    else
      let p := cs.map fun v => castTo pf (fexp (fsub v m))
      let alpha := fexp (fsub acc.1 m)
      (m, ffma alpha acc.2.1 (treeSum p), acc.2.2 ++ [(alpha, p)])) (0xFF800000#32, 0, [])
  ⟨bs, l, fIsNan m || m == f32Inf || row.any fIsNan⟩

/-- One output element of the second product: each key block's chunk of 64 is added as fma(α, O, chunk); then the products that the vector
unit adds for that block. -/
def pairElement (p : Product) (row : PairRow) (n : Nat) : U32 × TileFlags :=
  let s := chanScaleAt p.b (p.bAt 0 n).1 (p.bAt 0 n).2
  let axis := if p.bT then 1 else 0
  let ob := p.b.outlierSet axis
  (numbered row.blocks).foldl (fun (acc : U32 × TileFlags) e =>
    let start := 64 * e.1
    let ks := (numbered e.2.2).map fun q => (start + q.1, q.2)
    let pairs := ks.map fun q => (ofF32 q.2, p.b.entry (p.bAt q.1 n).1 (p.bAt q.1 n).2)
    let old := (ofF32 e.2.1).mul (ofF32 acc.1)
    let w := vectorWidth p.a0 p.mode p.bT
    let (t, f) :=
      if p.ints then
        let prods := pairs.map fun q => match q.1, q.2 with
          | .fin a m x, .fin b k _ => sm a (m * 2 ^ x.toNat / 2 ^ (-x).toNat) * sm b k
          | _, _ => 0
        let (v, sat) := chunkInt w start prods
        let (t, f) := promoteInto old (fIsInf acc.1) s (ofF32 (f32OfInt v))
        (t, { f with satAcc := sat })
      else promoteInto old (fIsInf acc.1) s (chunkFloat w start (pairs.map fun q => q.1.mul q.2))
    let extra := ks.filterMap fun q =>
      let (br, bc) := p.bAt q.1 n
      if ob.contains q.1 then some (q.2, p.b.outlierAt axis q.1 n)
      else if p.b.degenerate (p.b.unit br bc) then some (q.2, p.b.value br bc)
      else none
    let (t, f) := promoteProducts extra (t, f)
    (t, acc.2.or f)) (0, {})

/-- P as an operand of the second product: its codes in the P format, as the transpose buffer supplies them (R227). -/
def pairP (fmt m n1 : Nat) (rows : List (List U32)) : Mat :=
  let elem := fmt % 64
  let ref : MatRef := { fmt := elem, rows := m, cols := n1, stride := denseRow elem n1, data := ⟨.none, 0⟩, scale := ⟨.none, 0⟩,
                        outlier := none, outliers := 0, allRows := m, allCols := n1 }
  let z : Mat := ⟨ref, [], [], []⟩
  { z with data := (numbered rows).foldl (fun d r => mwrite d (spanOff ref r.1 0) (spanBytes z r.1 0 (r.2.map fun v => (toElem elem 0 (ofF32 v)).1))) [] }

/-- The array's time for a paired product: of a key block of 64 columns, the weight tiles of each product, their load cycles and issue intervals
(R229). A column tile of O takes one tile of B2 for each key block. -/
structure PairTime where
  tiles1 : Nat
  load1 : Nat
  q1 : Nat
  load2 : Nat
  q2 : Nat
  w2 : Nat
  deriving DecidableEq, Repr

def pairTime (p1 p2 : Product) (k : Nat) : PairTime :=
  let win := vectorWidth p1.a0 p1.mode p1.bT
  ⟨ceilDiv k win, ceilDiv (win * 64 * elemBits (p1.b.ref.fmt % 64)) 512, p1.mode.interval, ceilDiv (64 * p2.outWidth * elemBits (p2.b.ref.fmt % 64)) 512,
    p2.mode.interval, p2.outWidth⟩

def PairTime.tiles2 (p : PairTime) (n2 : Nat) : Nat := ceilDiv n2 p.w2

/-- Vectors that enter for `tiles` weight tiles of every key block. -/
def PairTime.entries (_ : PairTime) (m n1 tiles : Nat) : Nat := m * ceilDiv n1 64 * tiles

/-- Cycles of the first product and of a whole key block for a tile row of `r` rows. -/
def PairTime.array1 (p : PairTime) (r : Nat) : Nat := p.tiles1 * max (r * p.q1) p.load1
def PairTime.block (p : PairTime) (r n2 : Nat) : Nat := p.array1 r + p.tiles2 n2 * max (r * p.q2) p.load2

/-- Weight-load bubbles: every tile waits for what its vectors do not hide, and the first load is hidden by the prologue as far as that runs, as
the manual's example counts them (DEDUCED, log entry 147). -/
def PairTime.bubbles (p : PairTime) (m n1 n2 prologue : Nat) : Nat :=
  (p.load1 - prologue) + ((tilesOf m 64).map fun i =>
    ceilDiv n1 64 * (p.tiles1 * (p.load1 - i.2 * p.q1) + p.tiles2 n2 * (p.load2 - i.2 * p.q2))).foldl (· + ·) 0

/-- Steps: runs of whole key blocks of a tile row, each of at most 16 Ki array cycles (R229). -/
def PairTime.steps (p : PairTime) (m n1 n2 : Nat) : Nat :=
  ((tilesOf m 64).map fun i => ceilDiv (ceilDiv n1 64) (max 1 (16384 / p.block i.2 n2))).foldl (· + ·) 0

/-- Waits on the vector unit: P of a block is ready 12 + its vector cycles + 4 after the block's last vector; the array waits where that exceeds the next
block, and before the last always (R229); beyond that, where all the work of a tile row exceeds its array cycles (R222). -/
def PairTime.waits (p : PairTime) (m k n1 n2 pro pre post : Nat) : Nat :=
  let keys := ceilDiv n1 64
  ((tilesOf m 64).map fun i =>
    let ready := 12 + i.2 * pre + 4
    let blocks := (keys - 1) * (ready - p.array1 i.2) + ready
    let work := i.2 * ceilDiv k 64 * pro + keys * i.2 * pre + i.2 * ceilDiv n2 64 * post
    max blocks (work - keys * p.block i.2 n2)).foldl (· + ·) 0

/-- Cycles of the prologue of the first tile row (R219). -/
def prologueCycles (c : Chain) (m k : Nat) : Nat :=
  let ops := (c.pro.map Stage.ops).foldl (· + ·) 0
  if c.pro.isEmpty then 0 else min m 64 * ceilDiv k 64 * ops + 4 * ops

/-- What a paired product leaves in the registers: its last tile of B1 in W0 and of B2 in W1, and its last block of P in the transpose buffer. -/
def leavePair (s : State) (x : CtxId) (p1 p2 : Product) (m n1 n2 : Nat) : State :=
  let (k, s) := s.draw
  let (j, r0) := ((n1 - 1) / 64 * 64, (m - 1) / 64 * 64)
  let t1 := (ceilDiv p1.depth (vectorWidth p1.a0 p1.mode p1.bT)) - 1
  let lane := (n2 - 1) / p2.outWidth * p2.outWidth
  let q1 := p1.tileAt j t1
  let q2 := if p2.bT then (lane, j) else (j, lane)
  leaveRegs s x fun g =>
    let g := ({ g with w0 := p1.tileRegs q1.1 q1.2, w1 := p2.tileRegs q2.1 q2.2 } : ArrayRegs).spent k (m - r0) p2.outWidth
    g.fill fun r c => if r0 + r < m ∧ j + c < n1 then p2.a.code (r0 + r) (j + c) else 0

/-- The operands of a MATMUL_PAIR, its dimensions, how it reads B1 and B2, its chain, and that chain's ROW_ONLINE with the stages before and
after it. -/
structure PairUse where
  a : MatRef
  b1 : MatRef
  b2 : MatRef
  c : MatRef
  m : Nat
  k : Nat
  n1 : Nat
  n2 : Nat
  b1T : Bool
  b2T : Bool
  chain : Chain
  deriving DecidableEq, Repr

def pairUse (s : State) (x : CtxId) (r : BitVec 512) : PairUse :=
  let mode := fld r 0x3A 1
  let (m, k, n1, n2) := (fld r 0x28 4, fld r 0x2C 4, fld r 0x30 4, fld r 0x34 4)
  let (o1, o2) := (oref s x (fld r 0x10 8), oref s x (fld r 0x18 8))
  ⟨matRef s (oref s x (fld r 8 8)) (fld r 4 1) m k,
    if bitAt mode 0 then matRef s o1 (fld r 5 1) n1 k else matRef s o1 (fld r 5 1) k n1,
    if bitAt mode 1 then matRef s o2 (fld r 6 1) n2 n1 else matRef s o2 (fld r 6 1) n1 n2,
    matRef s (oref s x (fld r 0x20 8)) (fld r 7 1) m n2, m, k, n1, n2, bitAt mode 0, bitAt mode 1, jobChain s x (fld r 0x38 2)⟩

def PairUse.before (u : PairUse) : List Stage := u.chain.epi.takeWhile fun t => t.code != 12
def PairUse.online (u : PairUse) : Stage := (findFirst (fun (t : Stage) => t.code == 12) u.chain.epi).getD ⟨12, 0, 0, 8, 0, 0⟩
def PairUse.after (u : PairUse) : List Stage := u.chain.epi.drop (u.before.length + 1)
def PairUse.shapeIn (u : PairUse) : Shape := ⟨u.m, u.k, false, none⟩
def PairUse.shapeS (u : PairUse) : Shape := ⟨u.m, u.n1, false, none⟩
def PairUse.shapeO (u : PairUse) : Shape := ⟨u.m, u.n2, false, none⟩

/-- What a MATMUL_PAIR has read. -/
structure PairIn where
  a : Mat
  b1 : Mat
  b2 : Mat
  pro : List (Stage × Arg)
  pre : List (Stage × Arg)
  post : List (Stage × Arg)
  old : Old

def PairUse.final (u : PairUse) (s : State) (x : CtxId) (post : List (Stage × Arg)) : List (Stage × Arg) × Option Nat :=
  dropFinal (jobBitMatch s x) { u.chain with flags := 0 } u.c.fmt post

def PairUse.ins (u : PairUse) (s : State) (x : CtxId) (l : PairIn) : List (Ref × Nat) :=
  matRanges l.a ++ matRanges l.b1 ++ matRanges l.b2 ++ argRanges s x u.shapeIn u.chain.pro ++ argRanges s x u.shapeS u.before ++
    argRanges s x u.shapeO u.after
def PairUse.outs (u : PairUse) (s : State) (x : CtxId) (l : PairIn) : List (Ref × Nat) :=
  outRanges l.old (u.final s x l.post).2.isSome (streamHead s l.old.mat).1

def PairUse.entering (_ : PairUse) (s : State) (x : CtxId) (l : PairIn) : Mat × Plan × (Nat → Bool) :=
  runPrologue s x (jobBitMatch s x) l.a l.pro

/-- The first product, and the second for rows of P. -/
def PairUse.product1 (u : PairUse) (s : State) (x : CtxId) (r : BitVec 512) (l : PairIn) : Product :=
  ⟨(u.entering s x l).1, l.b1, false, u.b1T, 16 * fld r 0x3B 1, s.ident.a0⟩
def PairUse.product2 (u : PairUse) (s : State) (l : PairIn) (p : List (List U32)) : Product :=
  ⟨pairP u.online.aux u.m u.n1 p, l.b2, false, u.b2T, 64, s.ident.a0⟩

def PairUse.places (u : PairUse) (s : State) (x : CtxId) (r : BitVec 512) (l : PairIn) : Option Places :=
  choosePlaces s x (bitAt (fld r 0x3A 1) 2) u.c (u.ins s x l ++ u.outs s x l) (ceilDiv u.n2 64) [(1024, 4), (16384, 64)]
    (prologueBytes u.chain.pro l.a)

/-- What a paired product computes: S with its flags, its rows through the online softmax, O with the flags of both products, its rows after the
last stages, and what the chain counted. -/
structure PairOut where
  tot1 : Tot
  rows : List PairRow
  tot : Tot
  vals : List (List U32)
  tally : Tally

def PairUse.out (u : PairUse) (s : State) (x : CtxId) (r : BitVec 512) (l : PairIn) : PairOut :=
  let bm := jobBitMatch s x
  let p1 := u.product1 s x r l
  let t1 := productTot p1 u.m u.n1 (fun _ _ => 0) (u.entering s x l).2.2
  let sRows := runStages bm (xreg s x) none l.pre ⟨t1.vals.map fun row => row.map (matchRound bm u.chain.entry), [], {}⟩
  let rows := sRows.vals.map (pairRow (expScale u.online) u.online.aux)
  let p2 := u.product2 s l []
  let els := rows.map fun row => (List.range u.n2).map fun n => pairElement p2 row n
  -- an output tile takes the flags of both products; a desync in any block that feeds it withholds it whole (R228)
  let own := tileFlags els u.m u.n2 p2.outWidth fun ms ns =>
    p1.desync ms (List.range u.n1) || ms.any (u.entering s x l).2.2 || p2.desync [] ns
  let flags := (numbered own).map fun e => e.2.map fun f => f.or (((t1.flags[e.1]?).getD []).foldl TileFlags.or {})
  let t : Tot := (⟨els.map fun row => row.map (·.1), flags, p2.outWidth⟩ : Tot).nonfinite (((numbered rows).filter (·.2.bad)).map (·.1))
  let final := (rows.zip t.vals).map fun e =>
    e.2.map fun v => matchRound bm u.online.matchF (if e.1.bad then f32Nan else if e.1.l = 0 then (0 : U32) else fdiv v e.1.l)
  let z := runStages bm (xreg s x) none (u.final s x l.post).1 ⟨final, [], sRows.tally⟩
  ⟨t1, rows, t, z.vals, { z.tally with empty := (rows.filter fun row => !row.bad && row.l == 0).length }⟩

def PairUse.results (u : PairUse) (s : State) (x : CtxId) (l : PairIn) (o : PairOut) : List Result :=
  [⟨l.old, (u.final s x l.post).2, o.tot, o.vals⟩]

/-- What a MATMUL_PAIR leaves beside its output. `s` is the state that it began in. -/
def PairUse.leave (u : PairUse) (t s : State) (x : CtxId) (r : BitVec 512) (l : PairIn) (places : Places) (o : PairOut) : State :=
  let p1 := u.product1 s x r l
  let p2 := u.product2 s l (o.rows.map fun row => row.blocks.flatMap (·.2))
  let time := pairTime p1 p2 u.k
  let t := leavePieces (leaveTotals t x places { o.tot with w := max 1 u.n2 } u.n2 (256 * ceilDiv u.n2 64)) places
  let t := countPlan (leavePair t x p1 p2 u.m u.n1 u.n2) x { (u.entering s x l).2.1 with stores := [] }
  let t := countProduct t x p1 u.m u.n1 { o.tot1 with flags := [] } (time.entries u.m u.n1 time.tiles1)
    (time.bubbles u.m u.n1 u.n2 (prologueCycles u.chain u.m u.k)) (p1.chunks u.m u.n1) 0
  let t := countProduct t x p2 u.m u.n2 o.tot (time.entries u.m u.n1 (time.tiles2 u.n2)) 0 (u.m * u.n2 * ceilDiv u.n1 64)
    (if places.sumpPath then time.steps u.m u.n1 u.n2 else 0)
  let t := countDesync (countTraffic t x (u.ins s x l) l.a.ref.data (!l.pro.isEmpty) places.sumpPath) x [l.a, l.b1, l.b2]
  let t := countChain t x u.m 0 (if l.pro.isEmpty then 0 else ceilDiv u.m 64) o.tally
  let pre := (u.before.map Stage.ops).foldl (· + ·) 0 + u.online.ops + p1.outlierChannels
  let post := 1 + epilogueOps u.after + watchOps s x (u.outs s x l) + ceilDiv u.n1 64 * p2.outlierChannels
  let wait := time.waits u.m u.k u.n1 u.n2 ((u.chain.pro.map Stage.ops).foldl (· + ·) 0) pre post
  leaveDrain (countWait t x wait) x p2.mode (u.outs s x l) o.tot

/-- MATMUL_PAIR: O = rowfn(A·B1)·B2, one key block of 64 at a time. -/
def matmulPair (x : CtxId) (r : BitVec 512) : Eng Unit := do
  let s ← getThe State
  let u := pairUse s x r
  let a ← loadMat x (tracks r) u.a
  let b1 ← loadMat x (tracks r) u.b1
  let b2 ← loadMat x (tracks r) u.b2
  if a.streamWrong || b1.streamWrong || b2.streamWrong then stop .desync
  let pro ← loadArgs x (tracks r) u.shapeIn u.chain.pro
  let pre ← loadArgs x (tracks r) u.shapeS u.before
  let post ← loadArgs x (tracks r) u.shapeO u.after
  let old ← loadOld x u.c (u.final s x post).2.isSome
  let l : PairIn := ⟨a, b1, b2, pro, pre, post, old⟩
  checkOverlap (u.outs s x l) (u.ins s x l)
  match u.places s x r l with
  | none => stop (.fault 7 u.c.data.off)
  | some places =>
    let o := u.out s x r l
    mutate (drainBefore · x (u.ins s x l ++ u.outs s x l))
    writeOutputs x (u.results s x l o) none
    mutate fun t => u.leave t s x r l places o
    if o.tot.desynced then stop .desync

/-! ## ROWFN and ELEMWISE (08 R212, R225) -/

/-- The operands of a ROWFN, its dimensions and its chain. -/
structure RowUse where
  a : MatRef
  c : MatRef
  m : Nat
  n : Nat
  chain : Chain
  deriving DecidableEq, Repr

def rowUse (s : State) (x : CtxId) (r : BitVec 512) : RowUse :=
  let (m, n) := (fld r 0x18 4, fld r 0x1C 4)
  ⟨matRef s (oref s x (fld r 8 8)) (fld r 4 1) m n, matRef s (oref s x (fld r 0x10 8)) (fld r 5 1) m n, m, n, jobChain s x (fld r 0x20 2)⟩

def RowUse.shape (u : RowUse) : Shape := ⟨u.m, u.n, false, none⟩

/-- What a row or element record has read. -/
structure RowIn where
  a : Mat
  epi : List (Stage × Arg)
  old : Old

def RowUse.final (u : RowUse) (s : State) (x : CtxId) (epi : List (Stage × Arg)) : List (Stage × Arg) × Option Nat :=
  dropFinal (jobBitMatch s x) u.chain u.c.fmt epi
def RowUse.ins (u : RowUse) (s : State) (x : CtxId) (l : RowIn) : List (Ref × Nat) := matRanges l.a ++ argRanges s x u.shape u.chain.epi
def RowUse.outs (u : RowUse) (s : State) (x : CtxId) (l : RowIn) : List (Ref × Nat) :=
  outRanges l.old (u.final s x l.epi).2.isSome (streamHead s l.old.mat).1 ++
    (match onlineSlot s x u.chain with | some v => [(v, 4 * u.m)] | none => [])
def RowUse.places (u : RowUse) (s : State) (x : CtxId) (l : RowIn) : Option Places :=
  choosePlaces s x false { u.c with fmt := 10, data := shareRef s x 0 } (u.ins s x l ++ u.outs s x l) 0 (epiloguePieces u.chain u.n false) 0

/-- The rows of A through the chain, rounded at its entry as a heavy result is, so that the fused form and this one agree (R225, R230). -/
def RowUse.out (u : RowUse) (s : State) (x : CtxId) (l : RowIn) : HeavyOut :=
  let bm := jobBitMatch s x
  let entry := (l.a.all l.a.raw).map fun row => row.map (matchRound bm u.chain.entry)
  let (out, vec) := runEpilogue bm (xreg s x) (some l.a.scaleFor) u.chain (u.final s x l.epi).1 ⟨entry, [], {}⟩
  let t : Tot := ⟨out.vals, (tilesOf u.m 64).map fun _ => (tilesOf u.n 64).map fun _ => {}, 64⟩
  ⟨t.nonfinite out.bad, out.vals, vec, out.tally⟩

def RowUse.results (u : RowUse) (s : State) (x : CtxId) (l : RowIn) (o : HeavyOut) : List Result :=
  [⟨l.old, (u.final s x l.epi).2, o.tot, o.vals⟩]
def RowUse.vector (u : RowUse) (s : State) (x : CtxId) (o : HeavyOut) : Option (Ref × List U32) :=
  (onlineSlot s x u.chain).map fun v => (v, o.vec)
def RowUse.leave (u : RowUse) (t : State) (x : CtxId) (places : Places) (o : HeavyOut) : State :=
  countChain (leavePieces t places) x u.m (if u.chain.parks then ceilDiv u.m 64 * ceilDiv u.n 64 else 0) 0 o.tally

/-- ROWFN. -/
def rowfn (x : CtxId) (r : BitVec 512) : Eng Unit := do
  let s ← getThe State
  let u := rowUse s x r
  let a ← loadMat x (tracks r) u.a
  checkSync x a
  let epi ← loadArgs x (tracks r) u.shape u.chain.epi
  let old ← loadOld x u.c (u.final s x epi).2.isSome
  let l : RowIn := ⟨a, epi, old⟩
  checkOverlap (u.outs s x l) (u.ins s x l)
  match u.places s x l with
  | none => stop (.fault 7 u.c.data.off)
  | some places =>
    let o := u.out s x l
    writeOutputs x (u.results s x l o) (u.vector s x o)
    mutate fun t => u.leave t x places o

/-- The operands of an ELEMWISE: A, B if there is one, C, the elements that lead the first of A's and of C's rows, its length and its chain. -/
structure ElemUse where
  a : MatRef
  lead : Nat
  b : Option (Ref × Nat)
  c : MatRef
  cLead : Nat
  n : Nat
  chain : Chain
  deriving DecidableEq, Repr

def elemUse (s : State) (x : CtxId) (r : BitVec 512) : ElemUse :=
  let n := fld r 0x20 8
  let (a, lead) := flatRef s (oref s x (fld r 8 8)) (fld r 4 1) n
  let (c, cLead) := flatRef s (oref s x (fld r 0x18 8)) (fld r 6 1) n
  ⟨a, lead, if fld r 0x10 8 = 0 then none else some (oref s x (fld r 0x10 8), fld r 5 1), c, cLead, n, jobChain s x (fld r 0x28 2)⟩

def ElemUse.shape (u : ElemUse) : Shape := ⟨1, u.n, true, u.b⟩
def ElemUse.final (u : ElemUse) (s : State) (x : CtxId) (epi : List (Stage × Arg)) : List (Stage × Arg) × Option Nat :=
  dropFinal (jobBitMatch s x) u.chain u.c.fmt epi
def ElemUse.ins (u : ElemUse) (s : State) (x : CtxId) (l : RowIn) : List (Ref × Nat) :=
  let b := match u.b with
    | some q => let (m, _) := flatRef s q.1 q.2 u.n; [(m.data, m.bytes)]
    | none => []
  matRanges l.a ++ b ++ argRanges s x u.shape (u.chain.epi.filter fun t => t.slot != 0)
def ElemUse.outs (u : ElemUse) (s : State) (x : CtxId) (l : RowIn) : List (Ref × Nat) :=
  outRanges l.old (u.final s x l.epi).2.isSome (streamHead s l.old.mat).1

/-- The elements through the chain. -/
def ElemUse.out (u : ElemUse) (s : State) (x : CtxId) (l : RowIn) : List U32 × Tally :=
  let cols := max 1 u.a.cols
  let scale := fun (_ : Nat) (j : Nat) => l.a.scaleFor ((u.lead + j) / cols) ((u.lead + j) % cols)
  let vals := ((l.a.all l.a.raw).flatten.drop u.lead).take u.n
  let out := runStages (jobBitMatch s x) (xreg s x) (some scale) (u.final s x l.epi).1 ⟨[vals], [], {}⟩
  ((out.vals.head?).getD [], out.tally)

/-- Elements in the output's rows: the first from its place in a TENSOR's row, the others whole. -/
def ElemUse.spans (u : ElemUse) (row : List U32) : List Span :=
  let k := max 1 u.c.cols
  let first := min (k - u.cLead) row.length
  ⟨0, u.cLead, row.take first⟩ :: (numbered (groupsOf k (row.length + 1) (row.drop first))).map fun e => (⟨e.1 + 1, 0, e.2⟩ : Span)

/-- The stores of C, planned in a state. -/
def ElemUse.plan (u : ElemUse) (t s : State) (x : CtxId) (l : RowIn) : Plan :=
  planOut t x l.old (u.final s x l.epi).2 (fun _ _ => {}) (u.spans (u.out s x l).1)

/-- ELEMWISE: elements in a row of their own, or in the rows of a TENSOR. -/
def elemwise (x : CtxId) (r : BitVec 512) : Eng Unit := do
  let s ← getThe State
  let u := elemUse s x r
  let a ← loadMat x (tracks r) u.a
  checkSync x a
  let epi ← loadArgs x (tracks r) u.shape u.chain.epi
  let old ← loadOld x u.c (u.final s x epi).2.isSome
  let l : RowIn := ⟨a, epi, old⟩
  checkOverlap (u.outs s x l) (u.ins s x l)
  let plan := u.plan (← getThe State) s x l
  if plan.wrong then stop .desync
  prepPlan x plan
  watching x plan.stores (doPlan x plan)
  mutate fun t => countChain t x 1 0 0 (u.out s x l).2

/-! ## The commands -/

def execMatmul (x : CtxId) (r : BitVec 512) (s : State) : Host.Outcome State Fault Refusal :=
  done s (runHeavy x r (matmul x r false) s)
def execMatmulT (x : CtxId) (r : BitVec 512) (s : State) : Host.Outcome State Fault Refusal :=
  done s (runHeavy x r (matmul x r true) s)
def execMatmulPair (x : CtxId) (r : BitVec 512) (s : State) : Host.Outcome State Fault Refusal :=
  done s (runHeavy x r (matmulPair x r) s)
def execGradpair (x : CtxId) (r : BitVec 512) (s : State) : Host.Outcome State Fault Refusal :=
  done s (runHeavy x r (gradpair x r) s)
def execRowfn (x : CtxId) (r : BitVec 512) (s : State) : Host.Outcome State Fault Refusal := done s (runRecord x r (rowfn x r) s)
def execElemwise (x : CtxId) (r : BitVec 512) (s : State) : Host.Outcome State Fault Refusal := done s (runRecord x r (elemwise x r) s)

end Sys2Proof.Machine
end

