-- ==== Sys2Proof/Machine/HostLink.lean ====
section
/-! DEFINITION. Machine/HostLink.lean: events of the CXL link and of the PS5 link states (16 R437, 20 R510). -/

namespace Sys2Proof.Machine

/-- LINK_RETRAIN: counted, in c5 too; nothing of the module's state waits on it. -/
def linkRetrain (s : State) : State :=
  if s.host.link = .down then s
  else (bump s 0x9300 8 1).modRisk fun r => { r with retrains := r.retrains ++ [s.power.uptime] }

/-- IDE_INTEGRITY_FAILURE: the stream is torn down, and CXL.mem and CXL.cache traffic ends; a command that then needs CXL.cache finds it
down and ends with 0x100E. -/
def ideFails (s : State) : State :=
  if !cxlUp s || !s.host.ide then s
  else bump (s.modHost fun h => { h with ide := false, rasUncorrectable := true }) 0x9300 0xB 1

/-- IDE_KEY_REESTABLISH: over the IDE_KM session on DOE (19 R500). -/
def ideRestored (s : State) : State :=
  if cxlUp s && s.sec.sessions.contains (true, true) then s.modHost fun h => { h with ide := true } else s

/-- Whether a command may still have a transfer to or from host memory before it. -/
def Wait.transfers : Wait → Bool
  | .reads _ | .retry | .remote .. | .pass _ | .shards _ | .scrub => true
  | _ => false

/-- DMA_COMPLETION_TIMEOUT: reported by AER, and the command ends with 0x100E (03 R87). -/
def dmaTimeout (s : State) (reg : Nat) : State :=
  match kget s.execs reg with
  | none => s
  | some e =>
    if e.silent || e.carried.isSome || !e.wait.transfers then s
    else
      let mine := fun (q : Query) => q.owner == .register reg
      let s := bump s 0x9300 0xA 1
      let s : State := { s with
        execs := kset s.execs reg { e with wait := .ready 0x100E 0 }
        passes := kmap s.passes fun _ p => { p with queries := p.queries.filter fun q => !mine q } }
      let s := s.modFab fun f => { f with shardWaits := kfilter f.shardWaits fun _ w => w.reg != reg }
      if s.dram.scrubbing = some reg then nextScrub s else s

/-- SURPRISE_DOWN: commands run on; what can no longer be delivered ends its command or is dropped when it is tried. -/
def surpriseDown (s : State) : State := s.modHost fun h => { h with link := .down }

/-- L1_IDLE_REQUEST (20 R510). -/
def l1Idle (s : State) : State :=
  if s.power.ps = 5 ∧ s.host.aspmL1 ∧ s.host.link = .l0 then s.modHost fun h => { h with link := .l1 } else s

/-- PD19_RETENTION_TIMER: 10 ms after the last OD access (20 R510). -/
def pd19Timer (s : State) : State :=
  if s.power.ps = 5 ∧ s.power.odAt + 10000 ≤ s.power.uptime then s.modPower fun p => { p with pd := p.pd.set 19 .ret } else s

def execLinkRetrain (s : State) : Host.Outcome State Fault Refusal := done s (linkRetrain s)
def execIdeIntegrityFailure (s : State) : Host.Outcome State Fault Refusal := done s (ideFails s)
def execIdeKeyReestablish (s : State) : Host.Outcome State Fault Refusal := done s (ideRestored s)
def execDmaCompletionTimeout (reg : Nat) (s : State) : Host.Outcome State Fault Refusal := done s (dmaTimeout s reg)
def execSurpriseDown (s : State) : Host.Outcome State Fault Refusal := done s (surpriseDown s)
def execL1IdleRequest (s : State) : Host.Outcome State Fault Refusal := done s (l1Idle s)
def execPd19RetentionTimer (s : State) : Host.Outcome State Fault Refusal := done s (pd19Timer s)

end Sys2Proof.Machine
end

