-- ==== Sys2Proof/Machine/PowerUp.lean ====
section
/-! DEFINITION. Machine/PowerUp.lean: the supply's events, hold-up, trips, throttling, hours of uptime, the vote of critical registers and
the LEDs (13 R371, 14 R385, 17 R440-R454, 20 R505, R511, R520). -/

namespace Sys2Proof.Machine

/-! ## Power-up (17 R444, R449) -/

/-- Set word 0 of the critical registers: the power-cycle count. -/
def setCycle (s : State) (n : Nat) : State :=
  s.modPower fun p => { p with critical := kset p.critical 0 (BitVec.ofNat 32 n, BitVec.ofNat 32 n, BitVec.ofNat 32 n) }

/-- The power-cycle count (20 R520). -/
def powerCycle (s : State) : Nat :=
  match kget s.power.critical 0 with
  | some (a, b, c) => ((a &&& b) ||| (a &&& c) ||| (b &&& c)).toNat
  | none => 0

/-- Step 3 of R449: a power cycle begins, uptime restarts at 0, the sense pins are read, and the rails of steps 4 and 5 rise. -/
def beginCycle (s : State) (pins : SensePins) : State :=
  let s := setCycle s (powerCycle s + 1)
  s.modPower fun p => { p with
    phase := .rails, rails := 8, retries := 0, pins := pins, pinsNow := pins, uptime := 0, psSince := 0, odAt := 0, stepAt := 0
    measuredAt := 0, holdup := false, cause := p.nextCause, nextCause := 1, thrMinutes := 0, hotPages := 0 }

/-- AUX_POWER_GOOD: the AON block starts; what a loss of 3.3Vaux cleared of PD0 comes from the configuration flash (20 R516). -/
def auxGood (s : State) : State :=
  if s.power.phase ≠ .off then s
  else
    let s := setCycle s (cnt s 0x1101 1)
    s.modPower fun p => { p with phase := .aux, aux := true, i3c := none, nextCause := 1 }

/-- MAIN_POWER_GOOD: after 12 V was absent, after a brown-out, and after a core undervoltage. -/
def mainGood (s : State) (pins : SensePins) : State :=
  if s.power.phase = .aux ∨ s.power.phase = .undervolt then beginCycle s pins else s

/-- RAIL_TIMEOUT: every rail raised is lowered; after three retries the sequence stays stopped. OPT and LASER (9, 10) rise while the
module boots. -/
def railTimeout (s : State) (rail : Nat) : State :=
  let rising := (s.power.phase == .rails && decide (rail ≤ 8)) || (s.power.phase == .running && s.power.rails == 8 && decide (9 ≤ rail))
  if !rising then s
  else
    let s := if s.power.phase = .running then loseState (mediaLoss s .cut false) else s
    s.modPower fun p => { p with
      phase := if 3 ≤ p.retries then .failed else .retryWait, rails := 0, stable := false, holdup := false, failedAt := p.uptime }

/-- POWER_UP_RETRY, after 1 s. -/
def powerRetry (s : State) : State :=
  if s.power.phase = .retryWait ∧ s.power.failedAt + 1000000 ≤ s.power.uptime then
    s.modPower fun p => { p with phase := .rails, rails := 8, retries := p.retries + 1 }
  else s

/-- SENSE_PIN_CHANGE: ignored and logged. -/
def pinsChange (s : State) (pins : SensePins) : State :=
  if (s.power.phase = .running ∨ s.power.phase = .rails) ∧ pins ≠ s.power.pinsNow then
    let p := s.power.pins
    let b := fun (x : Bool) => if x then (1 : Int) else 0
    logHealth (s.modPower fun q => { q with pinsNow := pins }) 0x001D false
      [b p.sense0, b p.sense1, b p.present, b pins.sense0, b pins.sense1, b pins.present]
  else s

/-! ## Hold-up (17 R450, R454) -/

/-- Hold-up health is measured; a fall below the warning threshold is logged with the capacitance measured. -/
def measured (s : State) (h : Nat) (first : Bool) : State :=
  let h := min 100 h
  let th := od s 0x6105 3
  let was := s.power.health
  let s := s.modPower fun p => { p with health := h, measuredAt := p.uptime }
  if h < th ∧ (first ∨ th ≤ was) then
    let (d, s) := s.draw
    logHealth s 0x0015 false [h, th, Config.capacitance d]
  else s

/-- HOLDUP_READY: flash writes that waited may proceed. -/
def holdupReady (s : State) (h : Nat) : State :=
  if (s.power.phase = .running ∨ s.power.phase = .rails) ∧ !s.power.holdup then
    startDies (measured (s.modPower fun p => { p with holdup := true }) h true)
  else s

/-- HOLDUP_MEASUREMENT, every 24 h of uptime. -/
def holdupMeasured (s : State) (h : Nat) : State :=
  if s.power.holdup ∧ s.power.measuredAt + 86400000000 ≤ s.power.uptime then
    measured (s.modPower fun p => { p with healthZero := false }) h false
  else s

/-! ## Loss of a supply (17 R441, R451-R453) -/

/-- The supply is watched: 12 V is present and the module is not already held off. -/
def supplied (s : State) : Bool := s.power.phase == .running || s.power.phase == .rails || s.power.phase == .retryWait

/-- DROOP_WARNING: counted, in c4 too; no other effect. -/
def droop (s : State) : State :=
  if !supplied s then s
  else (bump s 0x6103 2 1).modRisk fun r => { r with droops := r.droops ++ [s.power.uptime] }

/-- Every rail but 3V3_AUX is off. -/
def railsOff (s : State) (phase : Phase) (cause : Nat) : State :=
  s.modPower fun p => { p with phase := phase, rails := 0, stable := false, holdup := false, nextCause := cause }

/-- Where a brown-out ends: held off by a trip, off without 3.3Vaux, else waiting for 12 V. -/
def afterBrown (s : State) : State :=
  let phase : Phase := if s.power.tripping then .tripped else if s.power.aux then .aux else .off
  railsOff s phase (if s.power.tripping then 3 else 2)

/-- The media at the end of a brown-out in levee mode: levee pages, unless nothing was open, hold-up was not ready, or the bank fell
short of their energy (17 R453, R454). A loss that finds none falls back (13 R362). -/
def leveeLoss (s : State) : State :=
  let quiet := mediaQuiet s
  let (d, s) := s.draw
  let fits := s.power.holdup && (decide (6 ≤ s.power.health) || Config.leveeFits d)
  if quiet then mediaLoss s .cut false
  else if fits then mediaLoss s .levee false
  else mediaLoss s .cut true

/-- The compute clusters and the fabric go off without frets, OPT and LASER fall, and no new operation starts (17 R452). -/
def brownOff (s : State) : State :=
  let s := s.modPower fun p => { p with
    phase := .brownout, rails := 8, clusters := 0
    pd := (List.range 20).map fun i => if (1 ≤ i ∧ i ≤ 8) ∨ i = 17 ∨ i = 18 then .off else (p.pd[i]?).getD .on }
  let s := { s with spad := [], sump := [], jobs := [], cores := [] }
  loseFabric (s.modFlash fun f => { f with blocked := true })

/-- The configuration-flash operation in progress at a brown-out runs on from 3.3Vaux to its end; the path of its write is no longer answered
(19 R499). -/
def opRunsOn (s : State) : State :=
  match s.sec.op with
  | none => s
  | some o => { s with sec := (cfgLanded (s.modSec fun c => { c with op := none }) o.erase o.sector o.words).sec }

/-- The brown-out sequence: in levee mode it runs to its end on hold-up energy; in open-course mode what was issued runs on until hold-up
is exhausted. -/
def brownSequence (s : State) : State :=
  let s := bump (s.modPower fun p => { p with stable := false }) 0x6103 1 1
  if od s 0x2230 0 = 1 ∧ s.power.phase = .running then brownOff s
  else afterBrown (loseState (opRunsOn (leveeLoss s)))

/-- BROWN_OUT. -/
def brownOut (s : State) : State := if supplied s then brownSequence s else s

/-- What a loss of 3.3Vaux leaves of the sector of an operation in progress: undefined (19 R499). A status sector disqualifies its slot,
the owner-key region's contents are free values, a counter word counts, and records without a commit word are ignored. -/
def cutFlash (s : State) : State :=
  match s.sec.op with
  | none => s
  | some o =>
    let (n, s) := s.draw
    let bytes := fun (f k : Nat) => (List.range k).map (Config.cutByte n f)
    let s := cutSector (s.modSec fun c => { c with op := none }) o.sector n o.erase
    if 128 ≤ o.sector ∧ o.sector < 1152 then s.modSec fun c => { c with storeFull := !o.erase || c.storeFull }
    else if 1152 ≤ o.sector ∧ o.sector < 1160 then s.modSlot 0 fun t => { t with usable := false }
    else if 1160 ≤ o.sector ∧ o.sector < 1168 then s.modSlot 1 fun t => { t with usable := false }
    else if 32 ≤ o.sector ∧ o.sector < 64 then
      s.modSec fun c => { c with
        maintKey := some (bytes 0 388), ownerKey := some (bytes 1 388), ownerChain := bytes 2 c.ownerChain.length
        lock := { c.lock with reopen := c.lock.reopen.map fun r => ⟨bytes 3 16, bytes 4 32, r.scope, r.uses⟩ } }
    else s

/-- AUX_LOSS: the brown-out sequence; then nothing is powered. -/
def auxLoss (s : State) : State :=
  if s.power.phase = .off then s
  else
    let s := (cutFlash (s.modPower fun p => { p with aux := false, i3c := none })).modSec fun c => { c with puf := none }
    if supplied s then brownSequence s
    else if s.power.phase = .brownout then s
    else railsOff s .off 1

/-- CORE_UNDERVOLTAGE: every domain is reset at once and nothing is quiesced. -/
def coreUndervolt (s : State) : State :=
  if s.power.phase = .running ∨ s.power.phase = .rails ∨ s.power.phase = .brownout then
    let quiet := mediaQuiet s
    let fallback := decide (od s 0x2230 0 = 0) && !quiet
    railsOff (loseState (mediaLoss s .cut fallback)) .undervolt 9
  else s

/-- HOLDUP_EXHAUSTED: every rail but 3V3_AUX off; it ends the brown-out of open-course mode. -/
def holdupExhausted (s : State) : State :=
  if s.power.phase = .brownout then afterBrown (loseState (opRunsOn (mediaLoss s .cut false))) else s

/-- THERMAL_TRIP: `sensor` 0 a die sensor at 115 °C, 1 a NAND sensor at 85 °C. The brown-out sequence runs, then every rail but 3V3_AUX
stays off. Its record is written by the AON block's account of it. -/
def thermalTrip (s : State) (sensor : Nat) (reading : Int) : State :=
  let limit : Int := if sensor = 0 then 115 else 85
  if !supplied s || decide (2 ≤ sensor) || decide (reading < limit) then s
  else
    let s := brownSequence (s.modPower fun p => { p with tripping := true })
    logHealth (bump s 0x6103 3 1) 0x0014 false [sensor, reading, limit]

/-- THERMAL_RESTART: every die sensor below 80 °C and every NAND sensor below 65 °C. -/
def thermalRestart (s : State) (die nand : Int) : State :=
  if s.power.phase = .tripped ∧ die < 80 ∧ nand < 65 then
    beginCycle (s.modPower fun p => { p with tripping := false, nextCause := 3 }) s.power.pinsNow
  else s

/-! ## Throttling (20 R505, R511) -/

/-- In PS3 the dies in program or erase are limited in steps of 4 per quadrant. -/
def limitDies (p : Power) (dies power : Nat) : Option Nat :=
  if powerCap 3 < power then some (max 4 ((p.dieLimit.getD dies) - 4))
  else match p.dieLimit with
    | none => none
    | some n => if power * 100 < powerCap 3 * 95 then (if dies ≤ n + 4 then none else some (n + 4)) else some n

/-- THROTTLE_TICK, each 1 ms: one step down while too hot, or above the cap in PS0-PS2; the first step opens an episode. -/
def throttleTick (s : State) (t : Sensors) : State :=
  if s.power.uptime % 1000 ≠ 0 ∨ s.power.phase ≠ .running then s
  else
    let hot := decide ((od s 0x6001 1 : Int) ≤ t.die)
    let overPower := decide (s.power.ps ≤ 2) && decide (powerCap s.power.ps < t.power)
    let dies := if s.ident.small then 128 else 256
    let s := s.modPower fun p => { p with
      sensors := t, highest := max p.highest t.die
      dieLimit := if p.ps = 3 then limitDies p dies t.power else p.dieLimit }
    if !hot && !overPower then s
    else
      let arr := max 8 (s.power.arr - 1)
      let episode : Option (Nat × Nat × Bool) := match s.power.episode with
        | some (since, low, power) => some (since, min low arr, power)
        | none => some (s.power.uptime, arr, !hot)
      ((List.range 32).foldl chargeIssue s).modPower fun p => { p with arr := arr, stepAt := p.uptime, thrTemp := hot, thrPower := overPower, episode := episode }

/-- An episode ends at 1.000 GHz: logged with its reason (1 temperature, 2 power), lowest frequency in MHz and ms, and counted. -/
def endEpisode (s : State) : State :=
  match s.power.episode with
  | none => s
  | some (since, low, power) =>
    let us := s.power.uptime - since
    let s := logHealth s 0x0050 false [if power then 2 else 1, (low * 125 / 2 : Nat), (us / 1000 : Nat)]
    let s := bump (bump s 0x6004 3 1) 0x6004 (if power then 2 else 1) us
    let hour := s.power.uptime % 3600000000
    s.modPower fun p => { p with
      episode := none, thrTemp := false, thrPower := false, thrMinutes := if power then p.thrMinutes else p.thrMinutes + min us hour }

/-- THROTTLE_STEP_UP, every 10 ms with margin in temperature and power. -/
def throttleUp (s : State) (t : Sensors) : State :=
  let cool := decide (t.die < (od s 0x6001 1 : Int) - (od s 0x6001 2 : Int))
  let light := decide (t.power * 100 < powerCap s.power.ps * 95)
  if s.power.phase ≠ .running ∨ 16 ≤ s.power.arr ∨ !cool ∨ !light ∨ s.power.uptime < s.power.stepAt + 10000 then s
  else
    let s := ((List.range 32).foldl chargeIssue s).modPower fun p => { p with sensors := t, arr := p.arr + 1, stepAt := p.uptime, thrTemp := false, thrPower := false }
    if s.power.arr = 16 then endEpisode s else s

/-! ## Hours and votes (13 R371, 14 R385, 20 R520) -/

/-- UPTIME_HOUR: an hour is added, and the temperature history takes its entry; minutes and pages are counted from 0 again. -/
def uptimeHour (s : State) (t : Sensors) : State :=
  if s.power.uptime = 0 ∨ s.power.uptime % 3600000000 ≠ 0 then s
  else
    let s := bump s 0x1100 2 1
    let ongoing := match s.power.episode with
      | some (since, _, false) => min 3600000000 (s.power.uptime - since)
      | _ => 0
    let e : TempHour := {
      hour := cnt s 0x1100 2, min := t.dieMin, max := t.die, mean := t.dieMean, nand := t.nand
      throttled := min 255 ((s.power.thrMinutes + ongoing) / 60000000), hotPages := s.power.hotPages }
    s.modPower fun p => { p with
      sensors := t, highest := max p.highest t.die, temps := (e :: p.temps).take 4096, thrMinutes := 0, hotPages := 0 }

/-- CRITICAL_WORD_VOTE: a copy that disagrees with the vote is rewritten and counted. -/
def criticalVote (s : State) : State :=
  let vote := fun (w : U32 × U32 × U32) => (w.1 &&& w.2.1) ||| (w.1 &&& w.2.2) ||| (w.2.1 &&& w.2.2)
  let wrong := fun (w : U32 × U32 × U32) => ([w.1, w.2.1, w.2.2].filter fun x => x != vote w).length
  let n := (s.power.critical.map fun e => wrong e.2).foldl (· + ·) 0
  bump (s.modPower fun p => { p with critical := kmap p.critical fun _ w => (vote w, vote w, vote w) }) 0x9060 0xA n

/-! ## LEDs (17 R446) -/

inductive Led where
  | hz4
  | on
  | hz1
  | flicker
  | off
  deriving DecidableEq, Repr

/-- LED_FLT: the first row that applies. -/
def ledFlt (s : State) : Led :=
  let p := s.power
  if od s 0x6104 1 = 1 then .hz4
  else if s.flash.readOnly || p.phase == .tripped || p.phase == .retryWait || p.phase == .failed || s.sec.boot == .recovery then .on
  else if p.health < od s 0x6105 3 || s.fabric.ports.any (fun t => t.state == .miswired) then .hz1
  else .off

/-- LED_ACT: the first row that applies. -/
def ledAct (s : State) : Led :=
  let p := s.power
  if od s 0x6104 1 = 1 then .hz4
  else if p.phase = .rails ∨ p.phase = .retryWait ∨ (p.phase = .running ∧ s.sec.boot ≠ .ready ∧ s.sec.boot ≠ .recovery) then .hz1
  else if p.phase ≠ .running then .off
  else if !s.execs.isEmpty then .flicker
  else if p.ps = 5 then .off else .on

def execAuxPowerGood (s : State) : Host.Outcome State Fault Refusal := done s (auxGood s)
def execMainPowerGood (pins : SensePins) (s : State) : Host.Outcome State Fault Refusal := done s (mainGood s pins)
def execRailTimeout (rail : Nat) (s : State) : Host.Outcome State Fault Refusal := done s (railTimeout s rail)
def execPowerUpRetry (s : State) : Host.Outcome State Fault Refusal := done s (powerRetry s)
def execHoldupReady (h : Nat) (s : State) : Host.Outcome State Fault Refusal := done s (holdupReady s h)
def execHoldupMeasurement (h : Nat) (s : State) : Host.Outcome State Fault Refusal := done s (holdupMeasured s h)
def execSensePinChange (pins : SensePins) (s : State) : Host.Outcome State Fault Refusal := done s (pinsChange s pins)
def execDroopWarning (s : State) : Host.Outcome State Fault Refusal := done s (droop s)
def execBrownOut (s : State) : Host.Outcome State Fault Refusal := done s (brownOut s)
def execAuxLoss (s : State) : Host.Outcome State Fault Refusal := done s (auxLoss s)
def execCoreUndervoltage (s : State) : Host.Outcome State Fault Refusal := done s (coreUndervolt s)
def execHoldupExhausted (s : State) : Host.Outcome State Fault Refusal := done s (holdupExhausted s)
def execThermalTrip (sensor : Nat) (reading : Int) (s : State) : Host.Outcome State Fault Refusal := done s (thermalTrip s sensor reading)
def execThermalRestart (die nand : Int) (s : State) : Host.Outcome State Fault Refusal := done s (thermalRestart s die nand)
def execThrottleTick (t : Sensors) (s : State) : Host.Outcome State Fault Refusal := done s (throttleTick s t)
def execThrottleStepUp (t : Sensors) (s : State) : Host.Outcome State Fault Refusal := done s (throttleUp s t)
def execUptimeHour (t : Sensors) (s : State) : Host.Outcome State Fault Refusal := done s (uptimeHour s t)
def execCriticalWordVote (s : State) : Host.Outcome State Fault Refusal := done s (criticalVote s)

end Sys2Proof.Machine
end

