-- ==== Sys2Proof/Machine/TxEvents.lean ====
section
/-! DEFINITION. Machine/TxEvents.lean: the timers of transactions and the messages of two-phase commit (04 R114-R123). -/

namespace Sys2Proof.Machine

/-- The COMMIT repeat and in-doubt query interval, µs (OD 0x4600:02). -/
def repeatInterval (s : State) : Nat := od s 0x4600 2

/-- TX_IDLE_TIMEOUT (R114): an OPEN or ABORTED transaction that nothing named for OD 0x3300:01 ms is ended; 0 disables. -/
def txIdle (s : State) (loc : Nat) : State :=
  match kget s.txs loc with
  | some t =>
    if (t.state = .open ∨ t.state = .aborted) ∧ od s 0x3300 1 ≠ 0 ∧ t.lastNamed + od s 0x3300 1 * 1000 ≤ now s then
      serveHeld (freeTx (bumpB s t.polder 0x9600 8 1) (txIdOf s loc))
    else s
  | none => s

/-- PREPARE_TIMEOUT (R117 step 4): votes still missing OD 0x4600:01 after PREPARE. -/
def prepareTimeout (s : State) (loc : Nat) : State :=
  match kget s.txs loc with
  | some t =>
    (match t.preparedAt with
    | some at' =>
      if t.state = .committing ∧ t.recordSeq.isNone ∧ t.participants.any (fun p => p.vote.isNone) ∧ at' + od s 0x4600 1 ≤ now s then
        serveHeld (failCommit s loc 0x3005)
      else s
    | none => s)
  | none => s

/-- COMMIT_REPEAT (R117 step 5, R120): COMMIT goes again to the participants that have not acknowledged, slot or kept record alike. -/
def commitRepeat (s : State) (loc : Nat) : State :=
  let send := fun (s : State) (l : List Nat) => l.foldl (fun s m => sendMsg s m .commit (txIdOf s loc) 0 [] []) s
  match kget s.txs loc with
  | some t =>
    if t.state = .committed ∧ t.repeatAt + repeatInterval s ≤ now s then
      send (s.modTx loc fun t => { t with repeatAt := s.power.uptime })
        ((t.participants.filter fun p => !p.acked).map (·.module))
    else s
  | none =>
    match findFirst (fun o => o.loc == loc) s.outcomes with
    | some o =>
      if o.repeatAt + repeatInterval s ≤ now s then
        send { s with outcomes := s.outcomes.map fun q => if q.loc = loc then { q with repeatAt := s.power.uptime } else q } o.unacked
      else s
    | none => s

/-- IN_DOUBT_QUERY (R119): a PREPARED branch that has voted asks its coordinator. -/
def inDoubtQuery (s : State) (tx : Nat) : State :=
  match kget s.branches tx with
  | some t =>
    if t.state = .prepared ∧ t.preparedAt.isSome ∧ t.repeatAt + repeatInterval s ≤ now s then
      sendMsg { s with branches := kmod s.branches tx fun t => { t with repeatAt := s.power.uptime } } (coordOf tx) .query tx 0 [] []
    else s
  | none => s

/-- PARTICIPANT_ACK_TIMEOUT (R120): 100 intervals after the commit point the transaction is FREE and its outcome record is kept. -/
def ackTimeout (s : State) (loc : Nat) : State :=
  match kget s.txs loc with
  | some t =>
    let unacked : List Nat := (t.participants.filter fun p => !p.acked).map (·.module)
    if t.state = .committed ∧ !unacked.isEmpty ∧ t.commitAt + 100 * repeatInterval s ≤ now s then
      let s := unacked.foldl (fun (s : State) (m : Nat) => logHealth s 0x31 false [txIdOf s loc, m]) s
      let s := bump s 0x9600 0xB 1
      let s : State := { s with outcomes := s.outcomes ++ [⟨loc, unacked, t.repeatAt⟩], txs := kdel s.txs loc }
      settle s loc 0 t
    else s
  | none => s

/-- BRANCH_IDLE_ROLLBACK (R123): a branch that is not PREPARED and has had no message for OD 0x4600:03 ms. -/
def branchIdle (s : State) (tx : Nat) : State :=
  match kget s.branches tx with
  | some t =>
    if t.state ≠ .prepared ∧ t.lastNamed + od s 0x4600 3 * 1000 ≤ now s then serveHeld (rollBranch s tx) else s
  | none => s

/-- COMMIT_POINT (R115): the journal page that holds the commit record is programmed, and the outcome is applied. -/
def commitPointEvent (s : State) (loc : Nat) : State :=
  let s := advanceCommit s loc
  match kget s.txs loc with
  | some t =>
    if t.state = .committing ∧ t.recordSeq.isSome ∧ canProgram s then serveHeld (afterJournal (journalFlush s)) else s
  | none => s

/-- A participant's vote reaches the coordinator (R117 step 4). A YES after the prepare timeout does not count. -/
def voteArrives (s : State) (src tx : Nat) (yes : Bool) : State :=
  if coordOf tx ≠ moduleId s then s
  else
    let loc := localOf tx
    match kget s.txs loc with
    | some t =>
      let late : Bool := match t.preparedAt with | some at' => decide (at' + od s 0x4600 1 < now s) | none => true
      if t.state = .committing ∧ t.participants.any (fun p => p.module == src && p.vote.isNone) then
        if yes && late then serveHeld (failCommit s loc 0x3005)
        else
          let mark := fun (p : Participant) => if p.module = src then { p with vote := some yes } else p
          let s := s.modTx loc fun t => { t with participants := t.participants.map mark }
          serveHeld (advanceCommit s loc)
      else s
    | none => s

/-- An acknowledgement of COMMIT (R117 step 6, R120): the last one frees the slot, or releases the kept record. -/
def ackArrives (s : State) (src tx : Nat) : State :=
  if coordOf tx ≠ moduleId s then s
  else
    let loc := localOf tx
    match kget s.txs loc with
    | some t =>
      let mark := fun (p : Participant) => if p.module = src then { p with acked := true } else p
      if t.state = .committed then
        finishCommit (s.modTx loc fun t => { t with participants := t.participants.map mark }) loc
      else s
    | none =>
      match findFirst (fun o => o.loc == loc) s.outcomes with
      | none => s
      | some o =>
        let left := o.unacked.filter (· != src)
        if left.isEmpty then
          (jadd { s with outcomes := s.outcomes.filter fun q => q.loc != loc } (.outcome tx true)).2
        else { s with outcomes := s.outcomes.map fun q => if q.loc = loc then { q with unacked := left } else q }

/-- A participant asks (R118): told COMMIT when the outcome record is held, ABORT when there is no commit record, which also ends a commit
still being decided: the participant rolls back, so its vote is a NO; nothing while the record is on its way to the journal. DESIGN CHOICE (log
entry 141). -/
def outcomeAsked (s : State) (src tx : Nat) : State :=
  if coordOf tx ≠ moduleId s then s
  else
    let loc := localOf tx
    let kept := s.outcomes.any fun o => o.loc == loc
    match kget s.txs loc with
    | some t =>
      if t.state = .committed then sendMsg s src .commit tx 0 [] []
      else if t.state = .committing ∧ t.recordSeq.isSome then s
      else if t.state = .committing then serveHeld (failCommit s loc 0x3001)
      else sendMsg s src .abort tx 0 [] []
    | none => if kept then sendMsg s src .commit tx 0 [] [] else sendMsg s src .abort tx 0 [] []

/-! ## The commands -/

def execTxIdleTimeout (loc : Nat) (s : State) : Host.Outcome State Fault Refusal := done s (txIdle s loc)
def execPrepareTimeout (loc : Nat) (s : State) : Host.Outcome State Fault Refusal := done s (prepareTimeout s loc)
def execCommitRepeat (loc : Nat) (s : State) : Host.Outcome State Fault Refusal := done s (commitRepeat s loc)
def execInDoubtQuery (tx : Nat) (s : State) : Host.Outcome State Fault Refusal := done s (inDoubtQuery s tx)
def execParticipantAckTimeout (loc : Nat) (s : State) : Host.Outcome State Fault Refusal := done s (ackTimeout s loc)
def execBranchIdleRollback (tx : Nat) (s : State) : Host.Outcome State Fault Refusal := done s (branchIdle s tx)
def execCommitPoint (loc : Nat) (s : State) : Host.Outcome State Fault Refusal := done s (commitPointEvent s loc)

/-- PREPARE from the coordinator of a transaction (R117 step 3). -/
def execPrepare (src tx : Nat) (s : State) : Host.Outcome State Fault Refusal :=
  done s (if coordOf tx = src then tookMsg (prepareBranch s src tx) src else s)

def execPrepareVote (src tx : Nat) (yes : Bool) (s : State) : Host.Outcome State Fault Refusal := done s (voteArrives s src tx yes)

/-- COMMIT from the coordinator (R117 step 5, R121). -/
def execCommitMessage (src tx : Nat) (s : State) : Host.Outcome State Fault Refusal :=
  done s (if coordOf tx = src then tookMsg (commitBranch s src tx) src else s)

/-- ABORT from the coordinator (R114, R118). -/
def execAbortMessage (src tx : Nat) (s : State) : Host.Outcome State Fault Refusal :=
  done s (if coordOf tx = src then tookMsg (rollBranch s tx) src else s)

def execCommitAck (src tx : Nat) (s : State) : Host.Outcome State Fault Refusal := done s (ackArrives s src tx)
def execOutcomeQuery (src tx : Nat) (s : State) : Host.Outcome State Fault Refusal := done s (tookMsg (outcomeAsked s src tx) src)

end Sys2Proof.Machine
end

