-- ==== Sys2Proof/Machine/Dispatch.lean ====
section
/-! DEFINITION. Machine/Dispatch.lean: each command's meaning, one arm per row of the table. -/

namespace Sys2Proof.Machine

def exec (i : Instr) (s : State) : Host.Outcome State Fault Refusal :=
  match i with
  | .read c => Sys2Proof.Machine.execRead c s
  | .write c => Sys2Proof.Machine.execWrite c s
  | .flush c => Sys2Proof.Machine.execFlush c s
  | .trim c => Sys2Proof.Machine.execTrim c s
  | .create c => Sys2Proof.Machine.execCreate c s
  | .destroy c => Sys2Proof.Machine.execDestroy c s
  | .map c => Sys2Proof.Machine.execMap c s
  | .mapUnbind c => Sys2Proof.Machine.execMapUnbind c s
  | .pin c => Sys2Proof.Machine.execPin c s
  | .unpin c => Sys2Proof.Machine.execUnpin c s
  | .setPolicy c => Sys2Proof.Machine.execSetPolicy c s
  | .txBegin c => Sys2Proof.Machine.execTxBegin c s
  | .txCommit c => Sys2Proof.Machine.execTxCommit c s
  | .txAbort c => Sys2Proof.Machine.execTxAbort c s
  | .job c => Sys2Proof.Machine.execJob c s
  | .jobCancel c => Sys2Proof.Machine.execJobCancel c s
  | .search c => Sys2Proof.Machine.execSearch c s
  | .insert c => Sys2Proof.Machine.execInsert c s
  | .delete c => Sys2Proof.Machine.execDelete c s
  | .lookup c => Sys2Proof.Machine.execLookup c s
  | .updateRows c => Sys2Proof.Machine.execUpdateRows c s
  | .nsCreate c => Sys2Proof.Machine.execNsCreate c s
  | .nsDelete c => Sys2Proof.Machine.execNsDelete c s
  | .setPowerState c => Sys2Proof.Machine.execSetPowerState c s
  | .sanitize c => Sys2Proof.Machine.execSanitize c s
  | .fwStage c => Sys2Proof.Machine.execFwStage c s
  | .fwActivate c => Sys2Proof.Machine.execFwActivate c s
  | .scrub c => Sys2Proof.Machine.execScrub c s
  | .commandComplete reg => Sys2Proof.Machine.execCommandComplete reg s
  | .ack fn reg => Sys2Proof.Machine.execAck fn reg s
  | .overrunClear fn reg withAck => Sys2Proof.Machine.execOverrunClear fn reg withAck s
  | .resultRead fn reg offset length => Sys2Proof.Machine.execResultRead fn reg offset length s
  | .ringEnable fn reg enable ring => Sys2Proof.Machine.execRingEnable fn reg enable ring s
  | .headWrite fn reg ring head => Sys2Proof.Machine.execHeadWrite fn reg ring head s
  | .registerWrite fn offset data => Sys2Proof.Machine.execRegisterWrite fn offset data s
  | .identify fn => Sys2Proof.Machine.execIdentify fn s
  | .getSupportedLogs fn => Sys2Proof.Machine.execGetSupportedLogs fn s
  | .getLog fn effectsLog offset length => Sys2Proof.Machine.execGetLog fn effectsLog offset length s
  | .identifyMemoryDevice fn => Sys2Proof.Machine.execIdentifyMemoryDevice fn s
  | .setTimestamp fn value => Sys2Proof.Machine.execSetTimestamp fn value s
  | .getTimestamp fn => Sys2Proof.Machine.execGetTimestamp fn s
  | .odRead r => Sys2Proof.Machine.execOdRead r s
  | .odWrite r data => Sys2Proof.Machine.execOdWrite r data s
  | .remoteOdTimeout tag => Sys2Proof.Machine.execRemoteOdTimeout tag s
  | .mctpOdRead vendor secured r => Sys2Proof.Machine.execMctpOdRead vendor secured r s
  | .mctpOdWrite vendor secured r data => Sys2Proof.Machine.execMctpOdWrite vendor secured r data s
  | .mctpControl eid code => Sys2Proof.Machine.execMctpControl eid code s
  | .i3cAddressAssign addr => Sys2Proof.Machine.execI3cAddressAssign addr s
  | .fabricOdRead port tag r => Sys2Proof.Machine.execFabricOdRead port tag r s
  | .fabricOdWrite port tag r data => Sys2Proof.Machine.execFabricOdWrite port tag r data s
  | .polderApply path p => Sys2Proof.Machine.execPolderApply path p s
  | .queuePageAssign path => Sys2Proof.Machine.execQueuePageAssign path s
  | .topologyApply path => Sys2Proof.Machine.execTopologyApply path s
  | .portEnableWrite path port value => Sys2Proof.Machine.execPortEnableWrite path port value s
  | .groupAdd path value => Sys2Proof.Machine.execGroupAdd path value s
  | .groupRemove path value => Sys2Proof.Machine.execGroupRemove path value s
  | .groupPin path value => Sys2Proof.Machine.execGroupPin path value s
  | .inDoubtRollback path tx => Sys2Proof.Machine.execInDoubtRollback path tx s
  | .nonceRead path => Sys2Proof.Machine.execNonceRead path s
  | .maintenanceEntry path signature => Sys2Proof.Machine.execMaintenanceEntry path signature s
  | .maintenanceExit path => Sys2Proof.Machine.execMaintenanceExit path s
  | .restoreDefaults path => Sys2Proof.Machine.execRestoreDefaults path s
  | .counterSnapshot path value => Sys2Proof.Machine.execCounterSnapshot path value s
  | .powerLossModeWrite path value => Sys2Proof.Machine.execPowerLossModeWrite path value s
  | .ownerKeyWrite path sub key => Sys2Proof.Machine.execOwnerKeyWrite path sub key s
  | .rawDiagnosticRead path offset length outcome => Sys2Proof.Machine.execRawDiagnosticRead path offset length outcome s
  | .moduleResetRequest path => Sys2Proof.Machine.execModuleResetRequest path s
  | .runtimeRestartRequest path => Sys2Proof.Machine.execRuntimeRestartRequest path s
  | .hostMarker path value => Sys2Proof.Machine.execHostMarker path value s
  | .secureRequest path job => Sys2Proof.Machine.execSecureRequest path job s
  | .destroyReopenPassword path => Sys2Proof.Machine.execDestroyReopenPassword path s
  | .txIdleTimeout loc => Sys2Proof.Machine.execTxIdleTimeout loc s
  | .prepareTimeout loc => Sys2Proof.Machine.execPrepareTimeout loc s
  | .commitRepeat loc => Sys2Proof.Machine.execCommitRepeat loc s
  | .inDoubtQuery tx => Sys2Proof.Machine.execInDoubtQuery tx s
  | .participantAckTimeout loc => Sys2Proof.Machine.execParticipantAckTimeout loc s
  | .branchIdleRollback tx => Sys2Proof.Machine.execBranchIdleRollback tx s
  | .commitPoint loc => Sys2Proof.Machine.execCommitPoint loc s
  | .prepare src tx => Sys2Proof.Machine.execPrepare src tx s
  | .prepareVote src tx yes => Sys2Proof.Machine.execPrepareVote src tx yes s
  | .commitMessage src tx => Sys2Proof.Machine.execCommitMessage src tx s
  | .abortMessage src tx => Sys2Proof.Machine.execAbortMessage src tx s
  | .commitAck src tx => Sys2Proof.Machine.execCommitAck src tx s
  | .outcomeQuery src tx => Sys2Proof.Machine.execOutcomeQuery src tx s
  | .branchAction p => Sys2Proof.Machine.execBranchAction p s
  | .matmul x r => Sys2Proof.Machine.execMatmul x r s
  | .matmulT x r => Sys2Proof.Machine.execMatmulT x r s
  | .matmulPair x r => Sys2Proof.Machine.execMatmulPair x r s
  | .gradpair x r => Sys2Proof.Machine.execGradpair x r s
  | .rowfn x r => Sys2Proof.Machine.execRowfn x r s
  | .elemwise x r => Sys2Proof.Machine.execElemwise x r s
  | .gather x r => Sys2Proof.Machine.execGather x r s
  | .scatterAdd x r => Sys2Proof.Machine.execScatterAdd x r s
  | .sketchScan x r => Sys2Proof.Machine.execSketchScan x r s
  | .rerank x r => Sys2Proof.Machine.execRerank x r s
  | .topkMerge x r => Sys2Proof.Machine.execTopkMerge x r s
  | .intersect x r => Sys2Proof.Machine.execIntersect x r s
  | .sort x r => Sys2Proof.Machine.execSort x r s
  | .neighbours x r => Sys2Proof.Machine.execNeighbours x r s
  | .collective x r => Sys2Proof.Machine.execCollective x r s
  | .txBeginRecord x r => Sys2Proof.Machine.execTxBeginRecord x r s
  | .txCommitRecord x r => Sys2Proof.Machine.execTxCommitRecord x r s
  | .fret x r => Sys2Proof.Machine.execFret x r s
  | .loop x r => Sys2Proof.Machine.execLoop x r s
  | .waitEvent x r => Sys2Proof.Machine.execWaitEvent x r s
  | .secure x r => Sys2Proof.Machine.execSecure x r s
  | .insertedFret x => Sys2Proof.Machine.execInsertedFret x s
  | .fretSpacing x => Sys2Proof.Machine.execFretSpacing x s
  | .prefetchComplete core id ok data version => Sys2Proof.Machine.execPrefetchComplete core id ok data version s
  | .retryBackoff x => Sys2Proof.Machine.execRetryBackoff x s
  | .waitEventTimeout x => Sys2Proof.Machine.execWaitEventTimeout x s
  | .waitEventWake x => Sys2Proof.Machine.execWaitEventWake x s
  | .jobBarrierComplete job value => Sys2Proof.Machine.execJobBarrierComplete job value s
  | .groupBarrierComplete group value => Sys2Proof.Machine.execGroupBarrierComplete group value s
  | .securing job => Sys2Proof.Machine.execSecuring job s
  | .contextPlacement polder => Sys2Proof.Machine.execContextPlacement polder s
  | .contextEviction polder => Sys2Proof.Machine.execContextEviction polder s
  | .timeSliceExpiry core => Sys2Proof.Machine.execTimeSliceExpiry core s
  | .blockedResidentThreshold core => Sys2Proof.Machine.execBlockedResidentThreshold core s
  | .stepBarrier table => Sys2Proof.Machine.execStepBarrier table s
  | .rowAdditionMessage a => Sys2Proof.Machine.execRowAdditionMessage a s
  | .rowMigration table row => Sys2Proof.Machine.execRowMigration table row s
  | .slotReclamation table slot => Sys2Proof.Machine.execSlotReclamation table slot s
  | .passBatchWindow pass => Sys2Proof.Machine.execPassBatchWindow pass s
  | .listCompaction index partition => Sys2Proof.Machine.execListCompaction index partition s
  | .shardQuery q => Sys2Proof.Machine.execShardQuery q s
  | .shardReply r => Sys2Proof.Machine.execShardReply r s
  | .riskRecompute t => Sys2Proof.Machine.execRiskRecompute t s
  | .riskRearmInterval job => Sys2Proof.Machine.execRiskRearmInterval job s
  | .heatDecay => Sys2Proof.Machine.execHeatDecay s
  | .parcelPromotion parcel => Sys2Proof.Machine.execParcelPromotion parcel s
  | .parcelDemotion => Sys2Proof.Machine.execParcelDemotion s
  | .migrationComplete parcel => Sys2Proof.Machine.execMigrationComplete parcel s
  | .backgroundWriteBack parcel => Sys2Proof.Machine.execBackgroundWriteBack parcel s
  | .stagedWriteBackDelay parcel => Sys2Proof.Machine.execStagedWriteBackDelay parcel s
  | .nandPageReadComplete ppa outcome => Sys2Proof.Machine.execNandPageReadComplete ppa outcome s
  | .courseProgramComplete course => Sys2Proof.Machine.execCourseProgramComplete course s
  | .programFailure course => Sys2Proof.Machine.execProgramFailure course s
  | .blockEraseComplete block ok => Sys2Proof.Machine.execBlockEraseComplete block ok s
  | .suspendRunTime die => Sys2Proof.Machine.execSuspendRunTime die s
  | .dieResume die => Sys2Proof.Machine.execDieResume die s
  | .closeTimer course => Sys2Proof.Machine.execCloseTimer course s
  | .journalInterval => Sys2Proof.Machine.execJournalInterval s
  | .mapCheckpoint => Sys2Proof.Machine.execMapCheckpoint s
  | .gcStart plane => Sys2Proof.Machine.execGcStart plane s
  | .wearLevel plane => Sys2Proof.Machine.execWearLevel plane s
  | .blockRefresh block => Sys2Proof.Machine.execBlockRefresh block s
  | .patrolRead slow => Sys2Proof.Machine.execPatrolRead slow s
  | .bermBufferGrant channel => Sys2Proof.Machine.execBermBufferGrant channel s
  | .cxlMemRead offset length => Sys2Proof.Machine.execCxlMemRead offset length s
  | .cxlMemWrite offset data => Sys2Proof.Machine.execCxlMemWrite offset data s
  | .lineRepair line => Sys2Proof.Machine.execLineRepair line s
  | .mergeEntryAge line => Sys2Proof.Machine.execMergeEntryAge line s
  | .frameRetirement parcel => Sys2Proof.Machine.execFrameRetirement parcel s
  | .dramRefresh bank decay => Sys2Proof.Machine.execDramRefresh bank decay s
  | .bisnpResponse line => Sys2Proof.Machine.execBisnpResponse line s
  | .atsInvalidation fn addr length => Sys2Proof.Machine.execAtsInvalidation fn addr length s
  | .hdmDecoderCommit base => Sys2Proof.Machine.execHdmDecoderCommit base s
  | .cdatRead => Sys2Proof.Machine.execCdatRead s
  | .spdmGetCertificate onDoe slot offset length => Sys2Proof.Machine.execSpdmGetCertificate onDoe slot offset length s
  | .spdmChallenge onDoe slot nonce => Sys2Proof.Machine.execSpdmChallenge onDoe slot nonce s
  | .spdmGetMeasurements onDoe index nonce => Sys2Proof.Machine.execSpdmGetMeasurements onDoe index nonce s
  | .spdmKeyExchange onDoe ideKm exchange => Sys2Proof.Machine.execSpdmKeyExchange onDoe ideKm exchange s
  | .perstAssert => Sys2Proof.Machine.execPerstAssert s
  | .perstDeassert cxl => Sys2Proof.Machine.execPerstDeassert cxl s
  | .hotReset => Sys2Proof.Machine.execHotReset s
  | .moduleReset => Sys2Proof.Machine.execModuleReset s
  | .flr fn => Sys2Proof.Machine.execFlr fn s
  | .runtimeRestart => Sys2Proof.Machine.execRuntimeRestart s
  | .linkRetrain => Sys2Proof.Machine.execLinkRetrain s
  | .ideIntegrityFailure => Sys2Proof.Machine.execIdeIntegrityFailure s
  | .dmaCompletionTimeout reg => Sys2Proof.Machine.execDmaCompletionTimeout reg s
  | .surpriseDown => Sys2Proof.Machine.execSurpriseDown s
  | .l1IdleRequest => Sys2Proof.Machine.execL1IdleRequest s
  | .pd19RetentionTimer => Sys2Proof.Machine.execPd19RetentionTimer s
  | .flitReceive port f => Sys2Proof.Machine.execFlitReceive port f s
  | .retryTimer port => Sys2Proof.Machine.execRetryTimer port s
  | .failedRetrain port => Sys2Proof.Machine.execFailedRetrain port s
  | .trainingRetry port => Sys2Proof.Machine.execTrainingRetry port s
  | .portTrainingComplete port peer => Sys2Proof.Machine.execPortTrainingComplete port peer s
  | .portSignalLoss port => Sys2Proof.Machine.execPortSignalLoss port s
  | .laserDarkTimeout port => Sys2Proof.Machine.execLaserDarkTimeout port s
  | .emitterFailover emitter => Sys2Proof.Machine.execEmitterFailover emitter s
  | .linkStateFlood module port up number => Sys2Proof.Machine.execLinkStateFlood module port up number s
  | .packetTransit port p => Sys2Proof.Machine.execPacketTransit port p s
  | .remoteRead p => Sys2Proof.Machine.execRemoteRead p s
  | .remoteWrite p => Sys2Proof.Machine.execRemoteWrite p s
  | .rowAdd p => Sys2Proof.Machine.execRowAdd p s
  | .fetchAdd64 p => Sys2Proof.Machine.execFetchAdd64 p s
  | .cas64 p => Sys2Proof.Machine.execCas64 p s
  | .swap64 p => Sys2Proof.Machine.execSwap64 p s
  | .remoteResponse p => Sys2Proof.Machine.execRemoteResponse p s
  | .endToEndTimeout tag => Sys2Proof.Machine.execEndToEndTimeout tag s
  | .groupClaim src number => Sys2Proof.Machine.execGroupClaim src number s
  | .groupRelease src number => Sys2Proof.Machine.execGroupRelease src number s
  | .directoryExchange port entries => Sys2Proof.Machine.execDirectoryExchange port entries s
  | .groupHold src number epoch => Sys2Proof.Machine.execGroupHold src number epoch s
  | .groupDrain src number upTo => Sys2Proof.Machine.execGroupDrain src number upTo s
  | .groupInstall src e => Sys2Proof.Machine.execGroupInstall src e s
  | .groupResume src number epoch => Sys2Proof.Machine.execGroupResume src number epoch s
  | .groupChangeReply src number highest => Sys2Proof.Machine.execGroupChangeReply src number highest s
  | .membershipReplyTimeout number module => Sys2Proof.Machine.execMembershipReplyTimeout number module s
  | .installRepeat number => Sys2Proof.Machine.execInstallRepeat number s
  | .groupFailureTimeout number module => Sys2Proof.Machine.execGroupFailureTimeout number module s
  | .collectivePacket p => Sys2Proof.Machine.execCollectivePacket p s
  | .jobForwardRequest j => Sys2Proof.Machine.execJobForwardRequest j s
  | .auxPowerGood => Sys2Proof.Machine.execAuxPowerGood s
  | .mainPowerGood pins => Sys2Proof.Machine.execMainPowerGood pins s
  | .railTimeout rail => Sys2Proof.Machine.execRailTimeout rail s
  | .powerUpRetry => Sys2Proof.Machine.execPowerUpRetry s
  | .holdupReady health => Sys2Proof.Machine.execHoldupReady health s
  | .holdupMeasurement health => Sys2Proof.Machine.execHoldupMeasurement health s
  | .sensePinChange pins => Sys2Proof.Machine.execSensePinChange pins s
  | .droopWarning => Sys2Proof.Machine.execDroopWarning s
  | .brownOut => Sys2Proof.Machine.execBrownOut s
  | .auxLoss => Sys2Proof.Machine.execAuxLoss s
  | .coreUndervoltage => Sys2Proof.Machine.execCoreUndervoltage s
  | .holdupExhausted => Sys2Proof.Machine.execHoldupExhausted s
  | .thermalTrip sensor reading => Sys2Proof.Machine.execThermalTrip sensor reading s
  | .thermalRestart dieMax nandMax => Sys2Proof.Machine.execThermalRestart dieMax nandMax s
  | .throttleTick t => Sys2Proof.Machine.execThrottleTick t s
  | .throttleStepUp t => Sys2Proof.Machine.execThrottleStepUp t s
  | .uptimeHour t => Sys2Proof.Machine.execUptimeHour t s
  | .criticalWordVote => Sys2Proof.Machine.execCriticalWordVote s
  | .bootChain => Sys2Proof.Machine.execBootChain s
  | .runtimeReady => Sys2Proof.Machine.execRuntimeReady s
  | .runtimeWatchdog => Sys2Proof.Machine.execRuntimeWatchdog s
  | .bootWatchdog => Sys2Proof.Machine.execBootWatchdog s
  | .cfgFlashOpComplete => Sys2Proof.Machine.execCfgFlashOpComplete s
  | .cfgSuspendHold => Sys2Proof.Machine.execCfgSuspendHold s
  | .cfgEarlyWarningRefresh sector corrected => Sys2Proof.Machine.execCfgEarlyWarningRefresh sector corrected s
  | .odStoreCompaction => Sys2Proof.Machine.execOdStoreCompaction s
  | .maintenanceIdleTimeout => Sys2Proof.Machine.execMaintenanceIdleTimeout s
  | .debugChallenge tap => Sys2Proof.Machine.execDebugChallenge tap s
  | .debugUnlockResponse tap scope signature => Sys2Proof.Machine.execDebugUnlockResponse tap scope signature s
  | .debugPassword tap scope password => Sys2Proof.Machine.execDebugPassword tap scope password s
  | .debugSetPassword tap password => Sys2Proof.Machine.execDebugSetPassword tap password s
  | .debugClose tap => Sys2Proof.Machine.execDebugClose tap s
  | .tapInstruction code => Sys2Proof.Machine.execTapInstruction code s
  | .portReceiveSignal port => Sys2Proof.Machine.execPortReceiveSignal port s
  | .carriedCommandAtHome c => Sys2Proof.Machine.execCarriedCommandAtHome c s
  | .peerUpLow port => Sys2Proof.Machine.execPeerUpLow port s
  | .ideKeyReestablish => Sys2Proof.Machine.execIdeKeyReestablish s

end Sys2Proof.Machine
end

