-- ==== Sys2Proof/WellFormed.lean ====
section
/-! DEFINITION. WellFormed.lean: which operands a command can carry on this module: function, register, ring, port, core,
channel, block and path numbers within the ranges the manual gives them. -/

namespace Sys2Proof

/-- Functions: the PF is 0, the VFs are 1-63 (16 R424). -/
def okFn (fn : Nat) : Bool := decide (fn < 64)

/-- Task registers of a function's BAR2 (03 R66). -/
def okReg (reg : Nat) : Bool := decide (reg < 1048576)

/-- Module ids are 10 bits (02, object handle). -/
def okModule (m : Nat) : Bool := decide (m < 1024)

/-- Fabric ports 0-3 (15 R387). -/
def okPort (p : Nat) : Bool := decide (p < 4)

/-- Communication groups 0-255 (02 R34). -/
def okGroup (g : Nat) : Bool := decide (g < 256)

/-- Matrix cores 0-31 (07). -/
def okCore (c : Nat) : Bool := decide (c < 32)

/-- A physical page address is 35 bits, its block below 1,080 (13 R335). -/
def okPpa (p : Nat) : Bool := decide (p < 34359738368) && decide (p / 4096 % 2048 < 1080)

/-- A block is a PPA without its page bits; a course is a PPA without its position bits. -/
def okBlock (b : Nat) : Bool := okPpa (b * 4096)
def okCourse (c : Nat) : Bool := okPpa (c * 4)

/-- A die is channel and die bits, 10 bits; a plane adds 2 bits (13 R335). -/
def okDie (d : Nat) : Bool := decide (d < 1024)
def okPlane (p : Nat) : Bool := decide (p < 4096)

/-- Transaction ids are 32 bits, local numbers 22 bits and never 0 (04 R101). -/
def okTx (t : Nat) : Bool := decide (t < 4294967296) && decide (t % 4194304 ≠ 0)
def okLoc (l : Nat) : Bool := decide (0 < l) && decide (l < 4194304)

/-- A VF path is of VF 1-63, a fabric path of a module id, an MCTP endpoint id one byte (18 R466). -/
def OdPath.wf : OdPath → Bool
  | .pf => true
  | .vf n => decide (0 < n) && decide (n < 64)
  | .mctp e => decide (e < 256)
  | .fabric m => okModule m

/-- Index and subindex are 16 and 8 bits; the Module field is 10 bits (18 R457, 16 R435). -/
def OdReq.wf (r : OdReq) : Bool :=
  r.path.wf && decide (r.index < 65536) && decide (r.sub < 256) && (match r.remote with | none => true | some m => okModule m)

/-- The register and the function of a task command. -/
def TaskCmd.wf (c : TaskCmd) : Bool := okFn c.fn && okReg c.reg

/-- A packet's ids and class (15 R402). -/
def Packet.wf (p : Packet) : Bool :=
  okModule p.dest && okModule p.src && decide (p.tclass < 4) && decide (p.hops < 64) && decide (p.payload.length ≤ 4096)

/-- A flit: sequences are 16 bits, its packets well formed (15 R391). -/
def Flit.wf (f : Flit) : Bool := decide (f.seq < 65536) && decide (f.acked < 65536) && f.packets.all Packet.wf

/-- The well-formed commands. -/
def Instr.wf : Instr → Bool
  | .read c | .write c | .flush c | .trim c | .create c | .destroy c | .map c | .mapUnbind c | .pin c | .unpin c
  | .setPolicy c | .txBegin c | .txCommit c | .txAbort c | .job c | .jobCancel c | .search c | .insert c | .delete c
  | .lookup c | .updateRows c | .nsCreate c | .nsDelete c | .setPowerState c | .sanitize c | .fwStage c | .fwActivate c
  | .scrub c => c.wf
  | .dmaCompletionTimeout reg => okReg reg
  | .ack fn reg | .overrunClear fn reg _ => okFn fn && okReg reg
  | .resultRead fn reg offset length => okFn fn && okReg reg && decide (0 < length) && decide (offset + length ≤ 128)
  | .ringEnable fn reg _ ring => okFn fn && okReg reg && decide (ring < 1024)
  | .headWrite fn reg ring head => okFn fn && okReg reg && decide (ring < 1024) && decide (head < 4294967296)
  | .registerWrite fn offset data =>
      okFn fn && decide (0 < data.length) && decide (offset % 128 + data.length ≤ 128) && decide (offset < 134217728)
  | .identify fn | .getSupportedLogs fn | .identifyMemoryDevice fn | .getTimestamp fn | .flr fn => okFn fn
  | .getLog fn _ _ _ | .setTimestamp fn _ | .atsInvalidation fn _ _ => okFn fn
  | .odRead r | .odWrite r _ | .mctpOdRead _ _ r | .mctpOdWrite _ _ r _ => r.wf
  | .fabricOdRead port _ r | .fabricOdWrite port _ r _ => okPort port && r.wf
  | .mctpControl eid _ => decide (eid < 256)
  | .polderApply path p => path.wf && decide (p < 32)
  | .portEnableWrite path port _ => path.wf && okPort port
  | .queuePageAssign path | .topologyApply path | .nonceRead path | .maintenanceExit path | .restoreDefaults path
  | .moduleResetRequest path | .runtimeRestartRequest path | .destroyReopenPassword path => path.wf
  | .groupAdd path _ | .groupRemove path _ | .groupPin path _ | .inDoubtRollback path _ | .maintenanceEntry path _
  | .counterSnapshot path _ | .powerLossModeWrite path _ | .hostMarker path _ | .secureRequest path _ => path.wf
  | .ownerKeyWrite path sub _ => path.wf && decide (sub < 256)
  | .rawDiagnosticRead path _ _ _ => path.wf
  | .txIdleTimeout l | .prepareTimeout l | .commitRepeat l | .participantAckTimeout l | .commitPoint l => okLoc l
  | .inDoubtQuery tx | .branchIdleRollback tx => okTx tx
  | .prepare src tx | .prepareVote src tx _ | .commitMessage src tx | .abortMessage src tx | .commitAck src tx
  | .outcomeQuery src tx => okModule src && okTx tx
  | .branchAction p | .remoteRead p | .remoteWrite p | .rowAdd p | .fetchAdd64 p | .cas64 p | .swap64 p
  | .remoteResponse p => p.wf
  | .prefetchComplete core _ _ data _ => okCore core && decide (data.length ≤ 65536)
  | .timeSliceExpiry core | .blockedResidentThreshold core => okCore core
  | .contextPlacement p | .contextEviction p => decide (p < 32)
  | .rowAdditionMessage x => okModule x.src
  | .shardQuery q => okModule q.coord
  | .carriedCommandAtHome c => okModule c.src
  | .jobForwardRequest j => okModule j.src
  | .groupBarrierComplete g _ => okGroup g
  | .nandPageReadComplete ppa _ => okPpa ppa
  | .courseProgramComplete c | .programFailure c | .closeTimer c => okCourse c
  | .blockEraseComplete b _ | .blockRefresh b => okBlock b
  | .suspendRunTime d | .dieResume d => okDie d
  | .gcStart p | .wearLevel p => okPlane p
  | .patrolRead slow => slow.all okBlock
  | .bermBufferGrant c => decide (c < 64)
  | .cxlMemRead o n => decide (0 < n) && decide (n ≤ 64) && decide (o + n ≤ 549755813888)
  | .cxlMemWrite o d => decide (0 < d.length) && decide (d.length ≤ 64) && decide (o % 64 + d.length ≤ 64) &&
      decide (o < 549755813888)
  | .dramRefresh bank decay => decide (bank < 256) && decay.all fun d => decide (d.2.1 < 68)
  | .flitReceive p f => okPort p && f.wf
  | .retryTimer p | .failedRetrain p | .trainingRetry p | .portSignalLoss p | .laserDarkTimeout p | .portReceiveSignal p
  | .peerUpLow p => okPort p
  | .portTrainingComplete p i => okPort p && okModule i.module && decide (i.port < 4)
  | .emitterFailover e => decide (e < 6)
  | .linkStateFlood m p _ _ => okModule m && okPort p
  | .packetTransit p k => okPort p && k.wf
  | .groupClaim src n | .groupRelease src n | .groupHold src n _ | .groupDrain src n _ | .groupResume src n _
  | .groupChangeReply src n _ => okModule src && okGroup n
  | .groupInstall src e => okModule src && okGroup e.number
  | .directoryExchange p es => okPort p && es.all fun e => okGroup e.number
  | .membershipReplyTimeout n m | .groupFailureTimeout n m => okGroup n && okModule m
  | .installRepeat n => okGroup n
  | .collectivePacket p => okGroup p.group && decide (p.member < 256)
  | .railTimeout r => decide (0 < r) && decide (r ≤ 10)
  | .holdupReady h | .holdupMeasurement h => decide (h ≤ 255)
  | .thermalTrip sensor _ => decide (sensor < 3)
  | .cfgEarlyWarningRefresh sector _ => decide (sector < 32768)
  | .commandComplete _ | .remoteOdTimeout _ | .i3cAddressAssign _ | .matmul _ _ | .matmulT _ _ | .matmulPair _ _
  | .gradpair _ _ | .rowfn _ _ | .elemwise _ _ | .gather _ _ | .scatterAdd _ _ | .sketchScan _ _ | .rerank _ _ | .topkMerge _ _
  | .intersect _ _ | .sort _ _ | .neighbours _ _ | .collective _ _ | .txBeginRecord _ _ | .txCommitRecord _ _ | .fret _ _
  | .loop _ _ | .waitEvent _ _ | .secure _ _ | .insertedFret _ | .fretSpacing _ | .retryBackoff _ | .waitEventTimeout _
  | .waitEventWake _ | .jobBarrierComplete _ _ | .securing _ | .stepBarrier _
  | .rowMigration _ _ | .slotReclamation _ _ | .passBatchWindow _ | .listCompaction _ _ | .shardReply _
  | .riskRecompute _ | .riskRearmInterval _ | .heatDecay | .parcelPromotion _ | .parcelDemotion | .migrationComplete _
  | .backgroundWriteBack _ | .stagedWriteBackDelay _ | .journalInterval | .mapCheckpoint | .lineRepair _ | .mergeEntryAge _
  | .frameRetirement _ | .bisnpResponse _ | .hdmDecoderCommit _ | .cdatRead | .spdmGetCertificate _ _ _ _
  | .spdmChallenge _ _ _ | .spdmGetMeasurements _ _ _ | .spdmKeyExchange _ _ _ | .perstAssert | .perstDeassert _ | .hotReset
  | .moduleReset | .runtimeRestart | .linkRetrain | .ideIntegrityFailure | .surpriseDown | .l1IdleRequest | .pd19RetentionTimer
  | .endToEndTimeout _ | .auxPowerGood | .mainPowerGood _ | .powerUpRetry | .sensePinChange _
  | .droopWarning | .brownOut | .auxLoss | .coreUndervoltage | .holdupExhausted | .thermalRestart _ _ | .throttleTick _
  | .throttleStepUp _ | .uptimeHour _ | .criticalWordVote | .bootChain | .runtimeReady | .runtimeWatchdog | .bootWatchdog
  | .cfgFlashOpComplete | .cfgSuspendHold | .odStoreCompaction | .maintenanceIdleTimeout | .debugChallenge _
  | .debugUnlockResponse _ _ _ | .debugPassword _ _ _ | .debugSetPassword _ _ | .debugClose _ | .tapInstruction _
  | .ideKeyReestablish => true

end Sys2Proof
end

