-- ==== Sys2Proof/Safety.lean ====
section
/-! DEFINITION. Safety.lean: what counts as a safe run, and the terms in which the statements speak of a command's effect. -/

namespace Sys2Proof.Machine

/-- A step that does not stop the module. -/
def Safe (s : State) : Prop := ∃ t, step s = .next t

/-- The command answers a next state of which `P` holds. -/
def Answers (c : Instr) (s : State) (P : State → Prop) : Prop := ∃ t, exec c s = .next t ∧ P t

/-- The host link carries accesses to task registers, and the function reaches the register (03 R67, R68, 16 R423). -/
def Reaches (s : State) (fn reg : Nat) (pg : PageCond) : Prop := cxlUp s = true ∧ condOf (wake s) fn reg = some pg

/-- What a command in execution waits for. -/
def waitOf (s : State) (reg : Nat) : Option Wait := (kget s.execs reg).map (·.wait)

/-- The runtime serves commands. -/
def Serves (s : State) : Prop := s.power.restarting = false ∧ s.sec.boot = .ready

/-- Opcode and command that a task command of the queue writes into its register; the UNBIND and UNPIN forms are flag bit 8 of their
opcodes (03 R85). None: the command is no task command. -/
def opOf : Instr → Option (Nat × TaskCmd)
  | .read c => some (0x0001, c)
  | .write c => some (0x0002, c)
  | .flush c => some (0x0003, c)
  | .trim c => some (0x0004, c)
  | .create c => some (0x0010, c)
  | .destroy c => some (0x0011, c)
  | .map c => some (0x0012, { c with flags := c.flags &&& 0xFEFF })
  | .mapUnbind c => some (0x0012, { c with flags := c.flags ||| 0x0100 })
  | .pin c => some (0x0013, { c with flags := c.flags &&& 0xFEFF })
  | .unpin c => some (0x0013, { c with flags := c.flags ||| 0x0100 })
  | .setPolicy c => some (0x0014, c)
  | .txBegin c => some (0x0020, c)
  | .txCommit c => some (0x0021, c)
  | .txAbort c => some (0x0022, c)
  | .job c => some (0x0030, c)
  | .jobCancel c => some (0x0031, c)
  | .search c => some (0x0040, c)
  | .insert c => some (0x0041, c)
  | .delete c => some (0x0042, c)
  | .lookup c => some (0x0050, c)
  | .updateRows c => some (0x0051, c)
  | .nsCreate c => some (0x0100, c)
  | .nsDelete c => some (0x0101, c)
  | .setPowerState c => some (0x0102, c)
  | .sanitize c => some (0x0103, c)
  | .fwStage c => some (0x0104, c)
  | .fwActivate c => some (0x0105, c)
  | .scrub c => some (0x0106, c)
  | _ => none

/-- The state in which an accepted command's effect runs: its register EXECUTING, an execution slot taken, the command counted
(03 R77, R78, R81). -/
def begun (s : State) (op : Nat) (c : TaskCmd) (pg : PageCond) : State :=
  let s := wake s
  let s := s.modReg c.reg fun r => { r with
    slot := ofBytes (cmdBytes op c ++ toLE 4 c.crc.toNat), tag := c.tag, readCount := 0, nextSeq := r.nextSeq + 1
    state := .executing, valid := false, status := 0, value := 0 }
  let e : Exec := { fn := c.fn, opcode := op, cmd := c, order := s.nextOrder, polder := pg.polder, wait := .retry }
  bumpB { s with nextOrder := s.nextOrder + 1, execs := kset s.execs c.reg e } pg.polder 0x9200 5 1

/-- The accepted command as its effect sees it. -/
def reqOf (c : TaskCmd) (pg : PageCond) : Req := ⟨c.reg, c.fn, pg.polder, c, false, none⟩

/-- A command of opcode `op` passes every acceptance check at its register (03 R78) and is not refused before its effect. -/
structure Admitted (s : State) (op : Nat) (c : TaskCmd) (pg : PageCond) : Prop where
  reach : Reaches s c.fn c.reg pg
  free : ((wake s).reg c.reg).state = .idle ∨ ((wake s).reg c.reg).state = .done
  checks : acceptance (wake s) op c pg = (0, true)
  serves : Serves s
  gate : preStatus (begun s op c pg) op (reqOf c pg) = 0

/-- The state after an effect: the command waits for what the effect names. -/
def after (e : Eff) (reg : Nat) : State := { e.1 with execs := kmod e.1.execs reg fun x => { x with
    wait := e.2.1, work := max x.work e.2.2, begun := true } }

/-- The command's own effect leaves `u`; then what waits at this home and can go on goes on (15 R405, 14 R376). -/
def Leaves (c : Instr) (s u : State) : Prop :=
  exec c s = .next { serveHeld u with pending := s.pending, ident := s.ident }

/-! ## Paths of the object dictionary -/

/-- A function's mailbox as it stands. -/
def boxOf (s : State) (fn : Nat) : Mailbox := (kget s.host.mailboxes fn).getD {}

/-- A function's mailbox can be reached and no command is in it (16 R434). -/
def BoxFree (s : State) (fn : Nat) : Prop := mailboxUp s fn = true ∧ (boxOf s fn).control.getLsbD 0 = false

/-- A path takes an access: its transport is up and admits it (16 R434, 17 R443, 18 R469, R470, 15 R419). -/
def PathOpen (s : State) (path : OdPath) (write : Bool) : Prop :=
  odUp s = true ∧ match path with
  | .pf => BoxFree s 0
  | .vf n => BoxFree s n
  | .mctp _ => s.power.aux = true ∧ (write = true → od s 0x5001 6 ≠ 1)
  | .fabric m => write = true → s.fabric.allow.getLsbD m = true

/-- The state in which an access by an open path runs: a mailbox holds the command and its doorbell, and PD19 is awake (16 R434, 20
R510). -/
def opened (s : State) (path : OdPath) (write : Bool) (len : Nat) : State :=
  wakeManagement (match mailboxOf path with
    | none => s
    | some k => s.modHost fun h => { h with mailboxes := kset h.mailboxes k { boxOf s k with
        opcode := if write then 0xC001 else 0xC000, length := 16 + len, control := (boxOf s k).control ||| 1#3 } })

/-- A write of the path that holds maintenance mode puts off its idle end (18 R463). -/
def putOff (s : State) (path : OdPath) : State :=
  if s.od.maint = some path then s.modOd fun o => { o with maintAt := s.power.uptime } else s

/-- The state in which a write of `len` bytes by an open path acts. -/
def writing (s : State) (path : OdPath) (len : Nat) : State := putOff (opened s path true len) path

/-- The path sees the whole module (18 R466). -/
def ModulePath : OdPath → Prop
  | .vf _ => False
  | _ => True

/-- The command leaves `u`; its queue and identity stay. -/
def Becomes (c : Instr) (s u : State) : Prop := exec c s = .next { u with pending := s.pending, ident := s.ident }

/-- A write is answered on its path with a status. -/
def answered (u : State) (path : OdPath) (status : Nat) : State := answerPath u path odWriteType 0 status []

/-! ## Requests of other modules -/

/-- Nothing waits at this home for a lock, the host or the power-loss mode (15 R405, 04 R112, 13 R353). -/
def Quiet (s : State) : Prop := s.fabric.heldReqs = [] ∧ s.host.heldWrites = [] ∧ s.od.modes = []

/-- A request for this module that comes next in its source's stream (15 R405). -/
def InTurn (s : State) (p : Packet) : Prop := p.dest = moduleId s ∧ p.streamSeq = kcount s.fabric.recvSeq p.src % 4294967296

/-- The state in which an arrived request is served. -/
def arrived (s : State) (p : Packet) : State := s.modFab fun f => { f with heldReqs := f.heldReqs ++ [p] }

/-- The command is a request of a type with that packet: one of the six, or an action of a branch, which carries a transaction (15 R403, 04
R117). -/
def Requests (c : Instr) (p : Packet) (k : Nat) : Prop :=
  (c, k) ∈ [(Instr.remoteRead p, 1), (.remoteWrite p, 2), (.rowAdd p, 3), (.fetchAdd64 p, 4), (.cas64 p, 5), (.swap64 p, 6)] ∨
    (c = .branchAction p ∧ k = p.type ∧ 1 ≤ k ∧ k ≤ 6 ∧ p.tx.toNat % 4194304 ≠ 0)

/-- A request acts outside a transaction, or in the branch of its transaction, which is open; the state in which it acts (04 R117). -/
def Enters (s : State) (p : Packet) (id : Nat) (t : State) : Prop :=
  (p.tx.toNat % 4194304 = 0 ∧ id = 0 ∧ t = s) ∨
  (p.tx.toNat % 4194304 ≠ 0 ∧ id = p.tx.toNat ∧ coordOf id ≠ moduleId s ∧ openBranch s id p.src p.polder = some t ∧
    ∃ y, kget t.branches id = some y ∧ y.state = .open)

/-- A served request leaves the queue, its source's stream moves on, and its response goes; a success is counted (15 R405, OD
0x9074:01). -/
def responded (u : State) (p : Packet) (status : Nat) (b : List Byte) : State :=
  let t := u.modFab fun f => { f with
    heldReqs := f.heldReqs.filter fun q => q != p, recvSeq := kset f.recvSeq p.src (kcount f.recvSeq p.src + 1) }
  respond (if status = 0 then bump t 0x9074 1 1 else t) p status b

/-! ## Records of programs -/

/-- The context issues, no fret is due, and its core's array holds nothing of it: its record runs (05 R133, R142, 07 R192). -/
structure Issuing (s : State) (x : CtxId) (j : Job) (c : Ctx) : Prop where
  ctx : getCtx s x = some (j, c)
  issues : issues s x = true
  noFret : fretDue s x c = false
  drained : c.drain = 0

/-- An operation of a record ends well with a value. -/
def Runs {α : Type} (m : Eng α) (s : State) (a : α) (t : State) : Prop := m.run.run s = (.ok a, t)

/-- An operation of a record stops. -/
def Stops {α : Type} (m : Eng α) (s : State) (e : Stop) (t : State) : Prop := m.run.run s = (.error e, t)

/-- Context, record and operation of a record command whose operation loads, computes and stores. A SCATTER_ADD is told whether it waited
before. None: the command is no such record. -/
def operationOf : Instr → Option (CtxId × BitVec 512 × Eng Unit)
  | .matmul x r => some (x, r, matmul x r false)
  | .matmulT x r => some (x, r, matmul x r true)
  | .matmulPair x r => some (x, r, matmulPair x r)
  | .gradpair x r => some (x, r, gradpair x r)
  | .rowfn x r => some (x, r, rowfn x r)
  | .elemwise x r => some (x, r, elemwise x r)
  | .gather x r => some (x, r, gather x r)
  | .scatterAdd x r => some (x, r, scatterAdd x r false)
  | .sketchScan x r => some (x, r, sketchScan x r)
  | .rerank x r => some (x, r, rerankRecord x r)
  | .topkMerge x r => some (x, r, topkMerge x r)
  | .intersect x r => some (x, r, intersect x r)
  | .sort x r => some (x, r, sort x r)
  | .neighbours x r => some (x, r, neighbours x r)
  | _ => none

/-- The state in which an issuing context's record runs: at a fret no more; a GATHER has sent its run-ahead ahead (05 R142, R153). -/
def started (i : Instr) (s : State) (x : CtxId) : State :=
  let s := modCtx s x fun c => { c with atFret := false }
  match i with
  | .gather y r => gatherStart s y r
  | _ => s

/-- A record's effect leaves `u`: the record is complete, with the fret that FRET_AFTER asks for; or its stores at other modules, or its pass,
are still to be answered, and it completes then (05 R133, R138). -/
def carriedOut (u : State) (x : CtxId) (r : BitVec 512) : State := recordOutcome u x (fretAfter r) (.ok (), u)

end Sys2Proof.Machine
end

