-- ==== Sys2Proof/Certificates/Slice0/Obligations.lean ====
section
/-! DEFINITION. Certificates/Slice0/Obligations.lean: the statements about the block. -/

open Sys2Proof Sys2Proof.Machine

/-! ## Task registers (03) -/

/-- 03 R73: ACK in state DONE retires the result and moves the register to IDLE; in any other state it is ignored. The next state
is given whole, so nothing else changes. 03 R73, R81: clearing OVERRUN clears that bit alone; with ACK in the same write the
register is also retired in state DONE. -/
def Obligations.AckRetiresResult : Prop :=
  (∀ (fn reg : Nat) (pg : PageCond) (s : State), Reaches s fn reg pg →
     (((wake s).reg reg).state = .done →
       exec (.ack fn reg) s = .next ((wake s).modReg reg fun r =>
         { r with state := .idle, valid := false, readCount := 0, value := 0, status := 0, tag := 0 })) ∧
     (((wake s).reg reg).state ≠ .done → exec (.ack fn reg) s = .next (wake s))) ∧
  (∀ (fn reg : Nat) (ack : Bool) (pg : PageCond) (s : State), Reaches s fn reg pg →
     exec (.overrunClear fn reg ack) s = .next (
       let t := (wake s).modReg reg fun r => { r with overrun := false }
       if ack && decide (((wake s).reg reg).state = .done) then
         t.modReg reg fun r => { r with state := .idle, valid := false, readCount := 0, value := 0, status := 0, tag := 0 }
       else t))

/-- 03 R68: a write through a function other than the page's, or to an unassigned page, is discarded; it is counted in OD
0x9500:03 and changes nothing else. A read returns zeros. -/
def Obligations.ForeignPageAccessDiscarded : Prop :=
  ∀ (fn reg : Nat) (s : State), cxlUp s = true → condOf (wake s) fn reg = none →
    (∀ ack, exec (.overrunClear fn reg ack) s = .next (bump (wake s) 0x9500 3 1)) ∧
    exec (.ack fn reg) s = .next (bump (wake s) 0x9500 3 1) ∧
    (∀ enable ring, exec (.ringEnable fn reg enable ring) s = .next (bump (wake s) 0x9500 3 1)) ∧
    (∀ ring head, exec (.headWrite fn reg ring head) s = .next (bump (wake s) 0x9500 3 1)) ∧
    (∀ i op c, opOf i = some (op, c) → c.fn = fn → c.reg = reg → exec i s = .next (bump (wake s) 0x9500 3 1)) ∧
    (∀ off data, off < 128 → exec (.registerWrite fn (reg * 128 + off) data) s = .next (bump (wake s) 0x9500 3 1)) ∧
    (∀ off n, exec (.resultRead fn reg off n) s =
      .next ((bump (wake s) 0x9500 3 1).modHost fun h => { h with bus := .bytes (List.replicate n 0) }))

/-- 03 R79: a trigger in a register that is PENDING or EXECUTING is dropped: OVERRUN is set, the dropped tag kept and the event
counted; nothing else changes. This is said of every task command. -/
def Obligations.SlotOverrunDropsTrigger : Prop :=
  ∀ (i : Instr) (op : Nat) (c : TaskCmd) (pg : PageCond) (s : State), opOf i = some (op, c) → Reaches s c.fn c.reg pg →
    (((wake s).reg c.reg).state = .pending ∨ ((wake s).reg c.reg).state = .executing) →
    exec i s = .next (bump ((wake s).modReg c.reg fun r => { r with overrun := true, lastDropped := c.tag }) 0x9200 3 1)

/-- 03 R69-R71: a read answers the register's bytes; only a read of byte +0x4F while VALID is 1 has a side effect, the saturating
READ_COUNT. 03 R74: ENABLE and RING are set together unless the write sets ENABLE for a ring of another function or without a
base, which is ignored as a whole; a head write of a ring of the register's function sets that ring's head. 03 R69: a write of
bytes of the command slot that does not cover byte +0x3F merges into the slot and changes nothing else. -/
def Obligations.RegisterAccessesAct : Prop :=
  (∀ (fn reg off n : Nat) (pg : PageCond) (s : State), Reaches s fn reg pg →
     exec (.resultRead fn reg off n) s = .next (
       let t := if ((wake s).reg reg).valid = true ∧ off ≤ 0x4F ∧ 0x4F < off + n then
           (wake s).modReg reg fun r => { r with readCount := if r.readCount = 3 then 3 else r.readCount + 1 }
         else wake s
       t.modHost fun h => { h with bus := .bytes (((registerBytes (wake s) reg pg).drop off).take n) })) ∧
  (∀ (fn reg ring : Nat) (pg : PageCond) (s : State), Reaches s fn reg pg →
     (∀ enable, exec (.ringEnable fn reg enable ring) s = .next (
       let g := (kget (wake s).rings ring).getD {}
       if enable = true ∧ (g.fn ≠ fn ∨ g.base = 0) then wake s
       else (wake s).modReg reg fun r => { r with enable := enable, ring := BitVec.ofNat 10 ring })) ∧
     (∀ head g, (kget (wake s).rings ring).getD {} = g → g.fn = fn →
       exec (.headWrite fn reg ring head) s =
         .next { wake s with rings := kset (wake s).rings ring { g with head := head % 4294967296 } })) ∧
  (∀ (fn reg off : Nat) (data : List Byte) (pg : PageCond) (s : State), Reaches s fn reg pg →
     reg < 1048576 → off + data.length ≤ 0x3F →
     exec (.registerWrite fn (reg * 128 + off) data) s = .next ((wake s).modReg reg fun r => { r with
       slot := ((List.range 64).filterMap fun o => (if off ≤ o ∧ o < off + data.length then data[o - off]? else none).map
         fun x => (o, x)).foldl (fun m e => mset m e.1 e.2) (s.reg reg).slot }))

/-- 03 R78: a command whose CRC or sequence is wrong is discarded: its register is DONE with 0x1001 or 0x1002 and its tag,
NEXT_SEQ does not move and nothing is executed. 03 R78, R81: a command that passes every check takes an execution slot and its
register becomes EXECUTING with its tag, NEXT_SEQ advanced and no result; then its opcode's effect runs on that state and names
what the command waits for. Every task command. -/
def Obligations.TriggersAreCheckedThenRun : Prop :=
  (∀ (i : Instr) (op : Nat) (c : TaskCmd) (pg : PageCond) (s : State), opOf i = some (op, c) → Reaches s c.fn c.reg pg →
     (((wake s).reg c.reg).state = .idle ∨ ((wake s).reg c.reg).state = .done) →
     (crc32 (cmdBytes op c) ≠ c.crc ∨ c.seq ≠ ((wake s).reg c.reg).nextSeq) →
     ∃ t, exec i s = .next t ∧ t.execs = s.execs ∧ t.objs = s.objs ∧ t.txs = s.txs ∧ t.flash = s.flash ∧
       (t.reg c.reg).state = .done ∧ (t.reg c.reg).valid = true ∧ (t.reg c.reg).tag = c.tag ∧
       (t.reg c.reg).nextSeq = ((wake s).reg c.reg).nextSeq ∧
       (t.reg c.reg).status = if crc32 (cmdBytes op c) ≠ c.crc then 0x1001 else 0x1002) ∧
  (∀ (i : Instr) (op : Nat) (c : TaskCmd) (pg : PageCond) (s : State), opOf i = some (op, c) → Admitted s op c pg →
     exec i s = done s (after (effectOf op (reqOf c pg) (touchTx (begun s op c pg) (reqOf c pg).tx)) c.reg) ∧
     ((begun s op c pg).reg c.reg).state = .executing ∧ ((begun s op c pg).reg c.reg).valid = false ∧
     ((begun s op c pg).reg c.reg).tag = c.tag ∧ ((begun s op c pg).reg c.reg).nextSeq = (s.reg c.reg).nextSeq + 1 ∧
     (begun s op c pg).objs = s.objs ∧ (begun s op c pg).txs = s.txs ∧ (begun s op c pg).flash = s.flash)

/-- 03 R81, R75: a command that waits for nothing more ends: its slot is freed, its register is DONE with a VALID result of its
status and value. Here the register posts no completion record and the command carries no transaction. -/
def Obligations.CommandEndsWithItsResult : Prop :=
  ∀ (reg : Nat) (e : Exec) (st v : Nat) (s : State), kget s.execs reg = some e → e.wait = .ready st v →
    e.carried = none → e.silent = false → e.cmd.tx = 0 → (s.reg reg).enable = false →
    Answers (.commandComplete reg) s fun t =>
      t.execs = kdel s.execs reg ∧ (t.reg reg).state = .done ∧ (t.reg reg).valid = true ∧ (t.reg reg).readCount = 0 ∧
      (t.reg reg).status = BitVec.ofNat 16 st ∧ (t.reg reg).value = BitVec.ofNat 64 v ∧ (t.reg reg).tag = (s.reg reg).tag ∧
      (∀ r, r ≠ reg → t.reg r = s.reg r) ∧ t.objs = s.objs ∧ t.flash = s.flash ∧ t.dram = s.dram ∧ t.txs = s.txs ∧ t.rings = s.rings

/-! ## Task commands (03, with the chapters of what they act on) -/

/-- 03 R87, 02 R34: READ with HEADER of an object homed here delivers its 128-byte header to host memory and is ready to end with
the byte count; no object, flash page or DRAM line changes. 03 R86, R87: READ of a local object whose bytes need no flash read
delivers the payload, as the module reads it, into the host's buffer and is ready to end with the byte count. -/
def Obligations.ReadDelivers : Prop :=
  (∀ (c : TaskCmd) (pg : PageCond) (o : Obj) (s : State), Admitted s 0x0001 c pg → c.tx = 0 →
     c.flags.getLsbD 2 = true → c.flags.getLsbD 3 = false → c.length = 128 → bitsAt c.ops.toNat 0 64 = 0 →
     kget s.objs c.target.toNat = some o →
     hostServes s c.fn c.haddr.toNat 128 = true →
     Answers (.read c) s fun t =>
       t.host.mem = mwrite s.host.mem (hostKey c.fn c.haddr.toNat) (headerBytes (begun s 0x0001 c pg) c.target.toNat o) ∧
       waitOf t c.reg = some (.ready 0 128) ∧
       t.objs = s.objs ∧ t.flash = s.flash ∧ t.dram = s.dram ∧ t.parcels = s.parcels ∧ t.txs = s.txs) ∧
  (∀ (c : TaskCmd) (pg : PageCond) (o : Obj) (m : Memory) (s s1 s2 : State), Admitted s 0x0001 c pg → c.tx = 0 →
     c.flags.getLsbD 1 = false → c.flags.getLsbD 2 = false → c.flags.getLsbD 3 = false →
     0 < c.length.toNat → c.length.toNat ≤ 67108864 → homeOf c.target.toNat = moduleId s →
     kget s.objs c.target.toNat = some o → bitsAt c.ops.toNat 0 64 + c.length.toNat ≤ o.length →
     missingPages (begun s 0x0001 c pg) .command (flashPages (begun s 0x0001 c pg) (o.base + bitsAt c.ops.toNat 0 64) c.length.toNat) = [] →
     s1 = usedPages (touchHeat (begun s 0x0001 c pg) c.target.toNat (o.base + bitsAt c.ops.toNat 0 64) c.length.toNat (whoReg c.reg))
       .command (flashPages (begun s 0x0001 c pg) (o.base + bitsAt c.ops.toNat 0 64) c.length.toNat) →
     readPayload s1 (o.base + bitsAt c.ops.toNat 0 64) c.length.toNat 0 = (.ok m, s2) →
     ioUp s2 = true → hostServes s2 c.fn c.haddr.toNat c.length.toNat = true → (kget s2.execs c.reg).isSome = true →
     Answers (.read c) s fun t =>
       t.host.mem = mwrite s2.host.mem (hostKey c.fn c.haddr.toNat) (mread m 0 c.length.toNat) ∧
       waitOf t c.reg = some (.ready 0 c.length.toNat) ∧ t.objs = s2.objs ∧ t.flash = s2.flash ∧ t.dram = s2.dram)

/-- 03 R86, R87: WRITE to a local object without a transaction or FUA reads the host's bytes, stores them at the offset and is
ready to end with the byte count. -/
def Obligations.WriteStoresPayload : Prop :=
  ∀ (c : TaskCmd) (pg : PageCond) (o : Obj) (b : List Byte) (s s1 s2 : State), Admitted s 0x0002 c pg → c.tx = 0 →
    c.flags.getLsbD 0 = false → c.flags.getLsbD 1 = false →
    0 < c.length.toNat → c.length.toNat ≤ 67108864 → homeOf c.target.toNat = moduleId s →
    kget s.objs c.target.toNat = some o → bitsAt c.ops.toNat 0 64 + c.length.toNat ≤ o.length →
    (s.flash.readOnly = false ∨ o.volatile = true) →
    (reqOf c pg).fetch (begun s 0x0002 c pg) = (.ok b, s1) →
    storeAt s1 0 c.target.toNat (bitsAt c.ops.toNat 0 64) b (whoReg c.reg) = (.ok, s2) → (kget s2.execs c.reg).isSome = true →
    Answers (.write c) s fun t =>
      waitOf t c.reg = some (.ready 0 c.length.toNat) ∧
      t.dram = s2.dram ∧ t.parcels = s2.parcels ∧ t.objs = s2.objs ∧ t.flash = s2.flash ∧ t.host = s2.host

/-- 02 R43, 03 R88: FLUSH of a VOLATILE object, or of an object without dirty parcels, has nothing to write back: it is ready to
end at once (or once no page is open) and stores nothing. 03 R89: TRIM of a local object's range without a transaction ends ready
once the range reads zero, as the module's trim of the range leaves the state. -/
def Obligations.FlushAndTrimEnd : Prop :=
  (∀ (c : TaskCmd) (pg : PageCond) (o : Obj) (s : State), Admitted s 0x0003 c pg → c.tx = 0 → c.flags.getLsbD 1 = false →
     numberOf c.target.toNat ≠ 0 → homeOf c.target.toNat = moduleId s → kget s.objs c.target.toNat = some o →
     (o.volatile = true → Answers (.flush c) s fun t =>
       waitOf t c.reg = some (.ready 0 0) ∧ t.flash = s.flash ∧ t.dram = s.dram ∧ t.parcels = s.parcels ∧ t.objs = s.objs) ∧
     (o.volatile = false → dirtyIn s o 0 o.extent = [] → s.flash.courses = [] → Answers (.flush c) s fun t =>
       waitOf t c.reg = some (.pages [] 0 0) ∧ t.dram = s.dram ∧ t.parcels = s.parcels ∧ t.objs = s.objs)) ∧
  (∀ (c : TaskCmd) (pg : PageCond) (o : Obj) (s s1 : State), Admitted s 0x0004 c pg → c.tx = 0 → c.flags.getLsbD 1 = false →
     0 < c.length.toNat → c.length.toNat ≤ 68719476736 → homeOf c.target.toNat = moduleId s → kget s.objs c.target.toNat = some o →
     bitsAt c.ops.toNat 0 64 + c.length.toNat ≤ o.length →
     trimPlain (begun s 0x0004 c pg) c.target.toNat (bitsAt c.ops.toNat 0 64) c.length.toNat (whoReg c.reg) = (.ok, s1) →
     (kget s1.execs c.reg).isSome = true →
     Answers (.trim c) s fun t =>
       waitOf t c.reg = some (.ready 0 0) ∧ t.parcels = s1.parcels ∧ t.dram = s1.dram ∧ t.flash = s1.flash ∧ t.objs = s1.objs)

/-- 02 R31, R36, R38: CREATE of a BLOB from a zero image takes the next object number and its length from the exported pool; the
object's header holds its owner, base, length, policy and version 1, and the command waits for its journal record. 03 R90, R96, 02
R36: NS_CREATE with a free namespace id makes a module-owned NAMESPACE with both masks 0 and takes its full size from the pool. -/
def Obligations.CreateMakesObjects : Prop :=
  (∀ (c : TaskCmd) (pg : PageCond) (base : Nat) (s s1 : State), Admitted s 0x0010 c pg → c.tx = 0 → c.haddr = 0 →
     bitsAt c.ops.toNat 0 8 = 2 → 1 ≤ bitsAt c.ops.toNat 8 8 → bitsAt c.ops.toNat 8 8 ≤ 4 →
     bitsAt c.ops.toNat 8 8 ≠ 1 → bitsAt c.ops.toNat 16 8 = 0 →
     0 < c.length.toNat → c.length.toNat ≤ 70368744177664 → s.objs.length < 16777216 →
     poolAllows s c.length.toNat = true →
     allocDas (begun s 0x0010 c pg) (roundUp c.length.toNat 65536 / 65536) = some (base, s1) →
     Answers (.create c) s fun t =>
       let h := mkHandle s 2 (s.numHigh + 1)
       t.numHigh = s.numHigh + 1 ∧ t.reserved = s.reserved + c.length.toNat ∧
       (∃ o, kget t.objs h = some o ∧ o.owner = pg.polder ∧ o.length = c.length.toNat ∧ o.base = base ∧ o.version = 1 ∧
         o.pinCount = 0 ∧ o.policy = bitsAt c.ops.toNat 8 8 ∧ o.area = .blob 0 ∧ o.created = s.seq + 1) ∧
       waitOf t c.reg = some (.journal (s.seq + 1) 0 h)) ∧
  (∀ (c : TaskCmd) (pg : PageCond) (s : State), Admitted s 0x0100 c pg → c.tx = 0 →
     0 < c.length.toNat → (bitsAt c.ops.toNat 0 32 = 4096 ∨ bitsAt c.ops.toNat 0 32 = 16384) →
     0 < bitsAt c.ops.toNat 32 32 → bitsAt c.ops.toNat 32 32 ≤ 1024 →
     (s.objs.map fun e => nsidOf e.2).contains (bitsAt c.ops.toNat 32 32) = false → s.objs.length < 16777216 →
     poolAllows s (bitsAt c.ops.toNat 0 32 * c.length.toNat) = true →
     Answers (.nsCreate c) s fun t =>
       let h := mkHandle s 1 (s.numHigh + 1)
       (∃ o, kget t.objs h = some o ∧ o.owner = 0xFF ∧ o.readMask = 0 ∧ o.writeMask = 0 ∧
         o.area = .nspace (bitsAt c.ops.toNat 32 32) (bitsAt c.ops.toNat 0 32) c.length.toNat 0) ∧
       t.numHigh = s.numHigh + 1 ∧ t.reserved = s.reserved + bitsAt c.ops.toNat 0 32 * c.length.toNat ∧
       waitOf t c.reg = some (.journal (s.seq + 1) 0 h))

/-- 02 R39, 03 R96: a DESTROY whose conditions are clear, and an NS_DELETE of a namespace no transaction holds, make the object
name nothing from then on, and wait for what uses it. -/
def Obligations.DestroyHidesObject : Prop :=
  ∀ (c : TaskCmd) (pg : PageCond) (o : Obj) (s : State), c.tx = 0 → kget s.objs c.target.toNat = some o →
    (Admitted s 0x0011 c pg → o.pinCount = 0 → isMapped (begun s 0x0011 c pg) c.target.toNat = false →
      jobNames s c.target.toNat = false → txHolds s c.target.toNat o = false →
      Answers (.destroy c) s fun t =>
        kget t.objs c.target.toNat = some { o with leaving := true } ∧ liveObj t c.target.toNat = none ∧
        waitOf t c.reg = some (.destroy c.target.toNat) ∧ t.parcels = s.parcels ∧ t.flash = s.flash) ∧
    (Admitted s 0x0101 c pg → (allTxs s).any (fun e => (e.2.writes ++ e.2.reads.map (·.1)).any fun i =>
        i != .header c.target.toNat && itemOf c.target.toNat o i) = false →
      Answers (.nsDelete c) s fun t =>
        kget t.objs c.target.toNat = some { o with leaving := true } ∧ liveObj t c.target.toNat = none ∧
        waitOf t c.reg = some (.destroy c.target.toNat) ∧ t.parcels = s.parcels ∧ t.flash = s.flash)

/-- 02 R47: PIN adds one to the pin count and UNPIN takes one away; the value of each is the new count. 02 R46, R91, R527:
SET_POLICY of the read mask alone changes that mask, advances the header version by one and answers it; the other fields keep
their values. 02 R58: MAP binds an aligned range of the object at a free window offset and answers the offset; it takes one pin.
UNBIND of a binding of the object takes the binding and its pin away and waits for the host's answers. -/
def Obligations.PinPolicyAndMapAct : Prop :=
  (∀ (c d : TaskCmd) (pg : PageCond) (o : Obj) (s : State), d.tx = 0 → kget s.objs d.target.toNat = some o →
     Admitted s 0x0013 d pg →
     (opOf (.pin c) = some (0x0013, d) → o.pinCount < 255 → pinAllowed (begun s 0x0013 d pg) d.target.toNat o = true →
       Answers (.pin c) s fun t =>
         (kget t.objs d.target.toNat).map Obj.pinCount = some (o.pinCount + 1) ∧
         waitOf t d.reg = some (.ready 0 (o.pinCount + 1)) ∧ t.flash.map = s.flash.map ∧ t.txs = s.txs) ∧
     (opOf (.unpin c) = some (0x0013, d) → 0 < o.pinCount →
       Answers (.unpin c) s fun t =>
         (kget t.objs d.target.toNat).map Obj.pinCount = some (o.pinCount - 1) ∧
         waitOf t d.reg = some (.ready 0 (o.pinCount - 1)) ∧ t.flash.map = s.flash.map ∧ t.txs = s.txs)) ∧
  (∀ (c : TaskCmd) (pg : PageCond) (o : Obj) (s : State), Admitted s 0x0014 c pg → c.tx = 0 →
     kget s.objs c.target.toNat = some o → bitsAt c.ops.toNat 0 8 = 2 → bitsAt c.ops.toNat 8 8 ≤ 4 → bitsAt c.ops.toNat 16 8 ≤ 1 → BitVec.ofNat 32 (bitsAt c.ops.toNat 32 32) ≠ o.readMask →
     (begun s 0x0014 c pg).host.bindings = [] →
     Answers (.setPolicy c) s fun t =>
       kget t.objs c.target.toNat =
         some { o with readMask := BitVec.ofNat 32 (bitsAt c.ops.toNat 32 32), version := o.version + 1 } ∧
       waitOf t c.reg = some (.ready 0 (o.version + 1)) ∧ t.parcels = s.parcels ∧ t.flash.map = s.flash.map) ∧
  (∀ (c d : TaskCmd) (pg : PageCond) (o : Obj) (s : State), d.tx = 0 → kget s.objs d.target.toNat = some o →
     Admitted s 0x0012 d pg →
     (∀ m, opOf (.map c) = some (0x0012, d) →
       0 < d.length.toNat → d.length.toNat % 65536 = 0 → bitsAt d.ops.toNat 0 64 % 65536 = 0 →
       bitsAt d.ops.toNat 64 64 % 65536 = 0 →
       bitsAt d.ops.toNat 0 64 + d.length.toNat ≤ o.extent → bitsAt d.ops.toNat 64 64 + d.length.toNat ≤ windowBytes →
       (begun s 0x0012 d pg).host.bindings.any (fun e => meet (bitsAt d.ops.toNat 64 64) d.length.toNat e.1 e.2.length) = false →
       o.pinCount < 255 → pinAllowed (begun s 0x0012 d pg) d.target.toNat o = true →
       allTxs s = [] → bindMap (begun s 0x0012 d pg) (bitsAt d.ops.toNat 64 64) d.length.toNat = some m →
       Answers (.map c) s fun t =>
         kget t.host.bindings (bitsAt d.ops.toNat 64 64) =
           some ⟨d.target.toNat, bitsAt d.ops.toNat 0 64, d.length.toNat, pg.polder⟩ ∧
         (kget t.objs d.target.toNat).map Obj.pinCount = some (o.pinCount + 1) ∧
         waitOf t d.reg = some (.ready 0 (bitsAt d.ops.toNat 64 64))) ∧
     (∀ b, opOf (.mapUnbind c) = some (0x0012, d) →
       kget (begun s 0x0012 d pg).host.bindings (bitsAt d.ops.toNat 64 64) = some b → b.handle = d.target.toNat → 0 < o.maps →
       keysRise (begun s 0x0012 d pg).host.bindings = true →
       Answers (.mapUnbind c) s fun t =>
         kget t.host.bindings (bitsAt d.ops.toNat 64 64) = none ∧
         (kget t.objs d.target.toNat).map Obj.pinCount = some (o.pinCount - 1)))

/-- 04 R101-R103: TX_BEGIN opens a transaction of the page under the next local number and answers its id, whose upper bits are
this module's id. 04 R114, 03 R92: TX_COMMIT of an OPEN transaction without staged pages or participants, whose read set
validates, becomes COMMITTING: its commit record joins the journal's queue under the next sequence number and the command waits
for the outcome. 04 R114, 03 R92: TX_ABORT of an OPEN transaction without staged changes or participants frees its slot, counts an
explicit abort (OD 0x9600:04) and ends. -/
def Obligations.TransactionCommandsAct : Prop :=
  (∀ (c : TaskCmd) (pg : PageCond) (k : Nat) (s : State), Admitted s 0x0020 c pg → c.tx = 0 → s.txs.length < 4096 →
     nextLocal (begun s 0x0020 c pg) (4097 + s.outcomes.length) s.txHigh = some k →
     Answers (.txBegin c) s fun t =>
       (∃ x, kget t.txs k = some x ∧ x.state = .open ∧ x.owner = .page c.fn pg.polder ∧ x.writes = [] ∧ x.reads = []) ∧
       t.txHigh = k ∧ waitOf t c.reg = some (.ready 0 (moduleId s * 4194304 + k)) ∧
       t.objs = s.objs ∧ t.dram = s.dram ∧ t.flash.map = s.flash.map) ∧
  (∀ (c : TaskCmd) (pg : PageCond) (x : Tx) (s : State), Admitted s 0x0021 c pg →
     c.tx.toNat % 4194304 ≠ 0 → coordOf c.tx.toNat = moduleId s → kget s.txs (localOf c.tx.toNat) = some x →
     x.owner = .page c.fn pg.polder → x.state = .open → x.participants = [] → x.units = [] → x.recordSeq = none →
     s.flash.readOnly = false → s.flash.courses = [] → s.execs = [] → x.reads = [] →
     Answers (.txCommit c) s fun t =>
       (∃ y, kget t.txs (localOf c.tx.toNat) = some y ∧ y.state = .committing ∧ y.recordSeq = some (s.seq + 1)) ∧
       (∃ r, t.flash.jpend = s.flash.jpend ++ [(s.seq + 1, r)]) ∧
       waitOf t c.reg = some (.txOutcome (localOf c.tx.toNat)) ∧ t.objs = s.objs ∧ t.flash.map = s.flash.map) ∧
  (∀ (c : TaskCmd) (pg : PageCond) (x : Tx) (s : State), Admitted s 0x0022 c pg →
     c.tx.toNat % 4194304 ≠ 0 → coordOf c.tx.toNat = moduleId s → kget s.txs (localOf c.tx.toNat) = some x →
     x.owner = .page c.fn pg.polder → x.state = .open → x.participants = [] → x.undo = [] → keysRise s.txs = true →
     Answers (.txAbort c) s fun t =>
       kget t.txs (localOf c.tx.toNat) = none ∧ waitOf t c.reg = some (.ready 0 0) ∧
       cnt t 0x9600 4 = cnt s 0x9600 4 + 1 ∧ t.objs = s.objs ∧ t.flash = s.flash ∧ t.seq = s.seq)

/-- 04 R114, R117, R120, R123: the timers of two-phase commit, each with its condition: an idle transaction is freed, a vote that
stays out fails the commit, COMMIT and the in-doubt query are repeated, an unacknowledged commit leaves an outcome record, an idle
branch is rolled back. -/
def Obligations.TransactionTimersAct : Prop :=
  (∀ (loc : Nat) (x : Tx) (s : State), kget s.txs loc = some x → (x.state = .open ∨ x.state = .aborted) → od s 0x3300 1 ≠ 0 →
    x.lastNamed + od s 0x3300 1 * 1000 ≤ now s →
    Leaves (.txIdleTimeout loc) s (freeTx (bumpB s x.polder 0x9600 8 1) (txIdOf s loc))) ∧
  (∀ (loc at' : Nat) (x : Tx) (s : State), kget s.txs loc = some x → x.preparedAt = some at' → x.state = .committing →
    x.recordSeq = none → x.participants.any (fun p => p.vote.isNone) = true → at' + od s 0x4600 1 ≤ now s →
    Leaves (.prepareTimeout loc) s (failCommit s loc 0x3005)) ∧
  (∀ (loc : Nat) (x : Tx) (s : State), kget s.txs loc = some x → x.state = .committed →
    x.repeatAt + od s 0x4600 2 ≤ now s → x.participants.all (fun p => p.acked) = true →
    Answers (.commitRepeat loc) s fun t => kget t.txs loc = some { x with repeatAt := now s } ∧ t.fabric = s.fabric) ∧
  (∀ (loc m : Nat) (x : Tx) (s : State), kget s.txs loc = some x → x.state = .committed →
    x.repeatAt + od s 0x4600 2 ≤ now s → (x.participants.filter fun p => !p.acked).map (·.module) = [m] →
    exec (.commitRepeat loc) s = done s (sendMsg (s.modTx loc fun y => { y with repeatAt := s.power.uptime }) m .commit
      (txIdOf s loc) 0 [] [])) ∧
  (∀ (tx : Nat) (x : Tx) (s : State), kget s.branches tx = some x → x.state = .prepared → x.preparedAt.isSome = true →
    x.repeatAt + od s 0x4600 2 ≤ now s →
    exec (.inDoubtQuery tx) s = done s (sendMsg { s with branches := kmod s.branches tx fun y =>
      { y with repeatAt := s.power.uptime } } (coordOf tx) .query tx 0 [] [])) ∧
  (∀ (loc m : Nat) (x : Tx) (j i : Nat) (s : State), kget s.txs loc = some x → x.state = .committed →
    (x.participants.filter fun p => !p.acked).map (·.module) = [m] → x.commitAt + 100 * od s 0x4600 2 ≤ now s →
    x.owner = .page j i →
    Answers (.participantAckTimeout loc) s fun t =>
      t.outcomes = s.outcomes ++ [⟨loc, [m], x.repeatAt⟩] ∧ t.txs = kdel s.txs loc ∧
      cnt t 0x9600 0xB = cnt s 0x9600 0xB + 1 ∧ t.healthHigh = s.healthHigh + 1) ∧
  (∀ (tx : Nat) (x : Tx) (s : State), kget s.branches tx = some x → x.state ≠ .prepared →
    x.lastNamed + od s 0x4600 3 * 1000 ≤ now s → Leaves (.branchIdleRollback tx) s (rollBranch s tx))

/-- 04 R115-R121: the messages of two-phase commit and the commit point. A vote YES in time is noted and the commit moves on;
PREPARE, COMMIT and ABORT act on the branch; the last acknowledgement ends the commit; an outcome query is answered; at the commit
point the queued journal records become durable. -/
def Obligations.TwoPhaseCommitMessagesAct : Prop :=
  (∀ (src tx : Nat) (s : State), coordOf tx = src →
    let next := fun (u : State) => if src = moduleId u then u else u.modFab fun f =>
      { f with recvSeq := kset f.recvSeq src (kcount f.recvSeq src + 1) }
    Leaves (.prepare src tx) s (next (prepareBranch s src tx)) ∧
    Leaves (.commitMessage src tx) s (next (commitBranch s src tx)) ∧
    Leaves (.abortMessage src tx) s (next (rollBranch s tx))) ∧
  (∀ (src tx at' : Nat) (x : Tx) (s : State), coordOf tx = moduleId s → kget s.txs (localOf tx) = some x →
    x.preparedAt = some at' → now s ≤ at' + od s 0x4600 1 → x.state = .committing →
    x.participants.any (fun p => p.module == src && p.vote.isNone) = true →
    ∃ u, Leaves (.prepareVote src tx true) s (advanceCommit u (localOf tx)) ∧
      kget u.txs (localOf tx) = some { x with participants := x.participants.map fun p =>
        if p.module = src then { p with vote := some true } else p } ∧ u.objs = s.objs ∧ u.fabric = s.fabric) ∧
  (∀ (src tx : Nat) (x : Tx) (s : State), coordOf tx = moduleId s → kget s.txs (localOf tx) = some x → x.state = .committed →
    (x.participants.any fun p => p.module ≠ src ∧ p.acked = false) = true →
    Answers (.commitAck src tx) s fun t => t.objs = s.objs ∧
      kget t.txs (localOf tx) = some { x with participants := x.participants.map fun p =>
        if p.module = src then { p with acked := true } else p }) ∧
  (∀ (src tx : Nat) (s : State), coordOf tx = moduleId s → kget s.txs (localOf tx) = none →
    (s.outcomes.any fun o => o.loc == localOf tx) = false →
    Leaves (.outcomeQuery src tx) s (if src = moduleId (sendMsg s src .abort tx 0 [] []) then sendMsg s src .abort tx 0 [] []
      else (sendMsg s src .abort tx 0 [] []).modFab fun f => { f with recvSeq := kset f.recvSeq src (kcount f.recvSeq src + 1) })) ∧
  (∀ (loc n : Nat) (x : Tx) (s : State), kget s.txs loc = some x → x.state = .committing → x.recordSeq = some n →
    canProgram s = true → Leaves (.commitPoint loc) s (afterJournal (journalFlush s)) ∧ (journalFlush s).flash.jpend = [])

/-- 03 R94, 06 R178: JOB of a program that is not forwarded and that the module admits answers the new JOB's handle, at once or,
with WAIT_END, at the job's end; an argument of priority above 7 fails with 0x1007. 03 R94, 10 R273: JOB_CANCEL of a job that does
not run succeeds at once; of a running job that is being secured it is noted and waits for the cancellation. -/
def Obligations.JobsAreAdmittedAndCancelled : Prop :=
  (∀ (c : TaskCmd) (pg : PageCond) (h : Nat) (s s1 : State), Admitted s 0x0030 c pg → c.tx = 0 →
     bitsAt c.ops.toNat 64 8 ≤ 7 →
     (∀ g, (loadProg (begun s 0x0030 c pg) c.target.toNat (bitsAt c.ops.toNat 0 64)).1 = some g →
       forwardTo (begun s 0x0030 c pg) pg.polder g = none) →
     admitJob (begun s 0x0030 c pg) c.target.toNat (bitsAt c.ops.toNat 0 64) pg.polder (bitsAt c.ops.toNat 64 8)
       (bitsAt c.ops.toNat 96 32) = (.job h, s1) →
     (kget s1.execs c.reg).isSome = true →
     Answers (.job c) s fun t =>
       waitOf t c.reg = some (if c.flags.getLsbD 8 then .jobEnd h else .ready 0 h) ∧
       t.jobs = s1.jobs ∧ t.objs = s1.objs ∧ t.cores = s1.cores) ∧
  (∀ (c : TaskCmd) (pg : PageCond) (s : State), Admitted s 0x0031 c pg → c.tx = 0 → homeOf c.target.toNat = moduleId s →
     (kget s.jobs c.target.toNat = none → Answers (.jobCancel c) s fun t =>
       waitOf t c.reg = some (.ready 0 0) ∧ t.jobs = s.jobs ∧ t.objs = s.objs) ∧
     (∀ j, kget s.jobs c.target.toNat = some j → j.securing.isSome = true → Answers (.jobCancel c) s fun t =>
       kget t.jobs c.target.toNat = some { j with cancelled := true } ∧
       waitOf t c.reg = some (.jobCancel c.target.toNat) ∧ t.objs = s.objs))

/-- 12 R312, R323: SEARCH of a local index that is not sharded, its operands, result object and query in order, joins a pass of
the index and waits for it. 12 R306-R309: INSERT and DELETE of a local index that is not sharded, outside a transaction, change
the index at its next epoch; the command waits for the journal record and answers the records inserted, or the ids that named a
live record. -/
def Obligations.IndexCommandsAct : Prop :=
  (∀ (c : TaskCmd) (pg : PageCond) (a : IndexArea) (b : List Byte) (id : Nat) (s s1 s2 : State), Admitted s 0x0040 c pg → c.tx = 0 →
     let h := c.target.toNat
     let k := bitsAt c.ops.toNat 64 16
     let cap := bitsAt c.ops.toNat 80 16
     let lists := bitsAt c.ops.toNat 96 16
     1 ≤ k → k ≤ 4096 → k ≤ cap → 1 ≤ lists → lists ≤ 4096 → homeOf h = moduleId s → indexArea (begun s 0x0040 c pg) h = some a →
     a.sharded = false → numberOf (bitsAt c.ops.toNat 0 64) ≠ 0 → okType (typeOf (bitsAt c.ops.toNat 0 64)) = true →
     resultStatus (begun s 0x0040 c pg) pg.polder (bitsAt c.ops.toNat 0 64) (64 + 16 * k) = 0 →
     c.length.toNat = vectorBytes a + 64 → (reqOf c pg).fetch (begun s 0x0040 c pg) = (.ok b, s1) →
     predicateOk (predicateOf a b) = true →
     joinPass s1 h a.epoch [⟨.register c.reg, b, k, cap, lists, bitsAt c.ops.toNat 0 64, pg.polder⟩] (od s1 0x3E00 2) = (id, s2) →
     (kget s2.execs c.reg).isSome = true →
     Answers (.search c) s fun t => waitOf t c.reg = some (.pass id) ∧ t.passes = s2.passes ∧ t.objs = s1.objs ∧ t.flash = s1.flash) ∧
  (∀ (c : TaskCmd) (pg : PageCond) (a : IndexArea) (b : List Byte) (n : Nat) (s s1 s2 : State), c.tx = 0 →
     let h := c.target.toNat
     let count := bitsAt c.ops.toNat 0 32
     1 ≤ count → count ≤ 65536 → homeOf h = moduleId s → a.sharded = false →
     (Admitted s 0x0041 c pg → indexArea (begun s 0x0041 c pg) h = some a → c.length.toNat = count * (64 + vectorBytes a) →
       (reqOf c pg).fetch (begun s 0x0041 c pg) = (.ok b, s1) →
       ((parseInserts a count b).any fun r => !okId r.1 ||
         !(decide (r.2.1 < a.partitions) || r.2.1 == 0xFFFFFFFF || a.sharded) || !r.2.2.2.2) = false →
       hasRepeat ((parseInserts a count b).map (·.1)) = false → (s1.idx h).recs.length + count ≤ a.capacity →
       changeIndex s1 pg.polder 0 h ((parseInserts a count b).map fun r => insertOf r s1 h a) (64 + vectorBytes a) = (.journal n, s2) →
       (kget s2.execs c.reg).isSome = true →
       Answers (.insert c) s fun t => waitOf t c.reg = some (.journal n 0 count) ∧ t.indexes = s2.indexes) ∧
     (Admitted s 0x0042 c pg → indexArea s1 h = some a → c.length.toNat = 8 * count →
       (reqOf c pg).fetch (begun s 0x0042 c pg) = (.ok b, s1) → moduleId s1 = moduleId s →
       let ids := (List.range count).map fun i => fieldAt b (8 * i) 8
       (ids.any fun i => !okId i) = false → hasRepeat ids = false →
       changeIndex s1 pg.polder 0 h (ids.map .delete) 8 = (.journal n, s2) → (kget s2.execs c.reg).isSome = true →
       Answers (.delete c) s fun t => waitOf t c.reg = some (.journal n 0 (liveCount s1 0 h ids)) ∧ t.indexes = s2.indexes))

/-- 11 R294, R295: UPDATE_ROWS of a local table, its payload in order and its step in the window, adds its rows at the home and
answers how many. 11 R285, R286: LOOKUP of a local table, its rows in range and none of them to be read from flash, delivers the
rows in the requested format to host memory, in groups of at most 4,096, and answers their number. -/
def Obligations.TableCommandsAct : Prop :=
  (∀ (c : TaskCmd) (pg : PageCond) (a : TableArea) (b : List Byte) (e : Exec) (s s1 s2 : State), Admitted s 0x0051 c pg → c.tx = 0 →
     let h := c.target.toNat
     let count := bitsAt c.ops.toNat 0 32
     let step := bitsAt c.ops.toNat 32 32
     let base := bitsAt c.ops.toNat 64 32
     1 ≤ count → count ≤ 65536 → (reqOf c pg).fetch (begun s 0x0051 c pg) = (.ok b, s1) → homeOf h = moduleId s1 →
     tableArea s1 h = some a → c.length.toNat = count * roundUp (8 + a.dim * (elemBits a.updateFormat / 8)) 16 →
     let rows := ((List.range count).zip (parseUpdates a count b)).filter fun x => x.2.1 != noRow
     (rows.any fun x => decide (a.rows ≤ x.2.1)) = false → stepWindow s1 a step = .ok →
     kget s1.execs c.reg = some e → e.carried = none →
     addRows s1 0 h (moduleId s1) step (rows.map fun x => (x.2.1, base + x.1, x.2.2)) = (.ok, s2) →
     (kget (noteStep s2 h (moduleId s1) step).execs c.reg).isSome = true →
     Answers (.updateRows c) s fun t =>
       waitOf t c.reg = some (.ready 0 rows.length) ∧ t.tables = (noteStep s2 h (moduleId s1) step).tables) ∧
  (∀ (c : TaskCmd) (pg : PageCond) (o : Obj) (a : TableArea) (b : List Byte) (outs : Nat → List Byte) (pos : Nat → Nat) (st : Nat → State)
     (s : State), Admitted s 0x0050 c pg → c.tx = 0 →
     let h := c.target.toNat
     let fmt := bitsAt c.ops.toNat 64 8
     let ids := (List.range (c.length.toNat / 8)).map fun i => fieldAt b (8 * i) 8
     let groups := groupsOf 4096 (ids.length + 1) ids
     let es := fun (i : Nat) (g : List Nat) =>
       ((List.range g.length).zip g).map fun e => if e.2 = noRow then none else some (rowEntry (st i) o e.2)
     let heated := fun (i : Nat) (g : List Nat) => g.foldl (fun s r => if r = noRow then s else heatUp s h r) (st i)
     let freed := fun (i : Nat) (g : List Nat) => (heated i g).modTbl h fun t => { t with readers := t.readers.filter fun r => r.1 != c.reg }
     (fmt = 8 ∨ fmt = 9 ∨ fmt = 10) → c.length.toNat ≠ 0 → c.length.toNat % 8 = 0 → c.length.toNat ≤ 524288 →
     (reqOf c pg).fetch (begun s 0x0050 c pg) = (.ok b, st 0) → homeOf h = moduleId (st 0) → kget (st 0).objs h = some o →
     tableArea (st 0) h = some a → (ids.any fun i => i != noRow && decide (a.rows ≤ i)) = false → pos 0 = 0 →
     (∀ i g, groups[i]? = some g →
       onMedia (heated i g) ((es i g).flatMap fun e => match e with
         | some e => if entryPresent e then flashPages (heated i g) (o.base + entrySlot e) (slotBytes a.dim (entryClass e)) else []
         | none => []) = [] ∧
       pos (i + 1) = pos i + (outs i).length ∧
       ∃ u, readRows { freed i g with execs := kmod (freed i g).execs c.reg fun e => { e with answer := [] } } o a fmt (es i g)
           = (some (outs i), u) ∧
         deliver u c.fn [(bitsAt c.ops.toNat 0 64 + pos i, (outs i).length)] (outs i) = (true, st (i + 1))) →
     let u := st groups.length
     (kget u.execs c.reg).isSome = true →
     Answers (.lookup c) s fun t => waitOf t c.reg = some (.ready 0 ids.length) ∧ t.host = u.host ∧ t.objs = u.objs)

/-- 20 R507 step 1: SET_POWER_STATE to an admitted state with no transition under way records the target and holds every job; the
command waits for the transition. A state above the admitted one fails with 0x7001, a second transition with 0x7002. 03 R98, 20
R517: SANITIZE records its begin step in the journal's queue before anything is erased, counting every block of every plane; one
in progress is joined. 14 R384: SCRUB of an aligned range starts at once when none runs, and waits for the one that runs
otherwise. -/
def Obligations.AdminCommandsBegin : Prop :=
  (∀ (c : TaskCmd) (pg : PageCond) (s : State), Admitted s 0x0102 c pg → c.tx = 0 →
     let b := bitsAt c.ops.toNat 0 8
     b ≤ 5 →
     (b < admittedState s.power.pins → Answers (.setPowerState c) s fun t => waitOf t c.reg = some (.ready 0x7001 0) ∧ t.power = s.power) ∧
     (admittedState s.power.pins ≤ b → s.power.target.isSome = true →
       Answers (.setPowerState c) s fun t => waitOf t c.reg = some (.ready 0x7002 0) ∧ t.power = s.power) ∧
     (admittedState s.power.pins ≤ b → s.power.target = none → s.jobs = [] → (∀ k, (s.core k).residents = []) →
       Answers (.setPowerState c) s fun t => waitOf t c.reg = some (.power b) ∧ t.power = { s.power with target := some b } ∧
         t.objs = s.objs ∧ t.flash = s.flash ∧ t.dram = s.dram)) ∧
  (∀ (c : TaskCmd) (pg : PageCond) (s : State), Admitted s 0x0103 c pg → c.tx = 0 →
     (s.power.sanitize.pending = false → Answers (.sanitize c) s fun t =>
       waitOf t c.reg = some .sanitize ∧ t.power.sanitize = ⟨true, 1, 0, planeCount s * 1080⟩ ∧
       t.flash.jpend = s.flash.jpend ++ [(s.seq + 1, .sanitize 1 0)] ∧ t.objs = s.objs ∧ t.dram = s.dram) ∧
     (s.power.sanitize.pending = true → Answers (.sanitize c) s fun t =>
       waitOf t c.reg = some .sanitize ∧ t.power = s.power ∧ t.flash = s.flash)) ∧
  (∀ (c : TaskCmd) (pg : PageCond) (s : State), Admitted s 0x0106 c pg → c.tx = 0 →
     let start := bitsAt c.ops.toNat 0 64
     let n := bitsAt c.ops.toNat 64 64
     (n = 0 ∨ (start % 64 = 0 ∧ n % 64 = 0 ∧ start + n ≤ 18014398509481984)) →
     Answers (.scrub c) s fun t => waitOf t c.reg = some .scrub ∧ t.objs = s.objs ∧ t.flash = s.flash ∧
       t.dram = { s.dram with scrubbing := some (s.dram.scrubbing.getD c.reg) })

/-- 03 R99, 19 R496: FW_STAGE of an aligned chunk without LAST puts its bytes into the inactive slot's image and opens the staging
session; the active slot is not touched. 03 R99, 19 R497: FW_ACTIVATE without a restart of a verified inactive image gives that
slot the highest activation number and answers the slot. -/
def Obligations.FirmwareCommandsAct : Prop :=
  (∀ (c : TaskCmd) (pg : PageCond) (b : List Byte) (s s1 : State), Admitted s 0x0104 c pg → c.tx = 0 →
     let off := bitsAt c.ops.toNat 0 64
     0 < c.length.toNat → c.length.toNat ≤ 1048576 → c.length.toNat % 4096 = 0 → off % 4096 = 0 →
     off + c.length.toNat ≤ 50331648 → c.flags.getLsbD 8 = false → (reqOf c pg).fetch (begun s 0x0104 c pg) = (.ok b, s1) →
     s1.sec = s.sec → s1.power = s.power → (kget s1.execs c.reg).isSome = true → s.sec.session = true → s.sec.active = false →
     Answers (.fwStage c) s fun t =>
       waitOf t c.reg = some (.ready 0 0) ∧ t.sec.slotA = s.sec.slotA ∧
       t.sec.slotB.image = mwrite s.sec.slotB.image off b ∧ t.sec.session = true ∧ t.objs = s1.objs) ∧
  (∀ (c : TaskCmd) (pg : PageCond) (s : State), Admitted s 0x0105 c pg → c.tx = 0 → bitsAt c.ops.toNat 0 8 = 0 →
     s.sec.active = false → s.sec.slotB.verified = true → s.sec.slotB.usable = true → s.sec.slotB.rejected = false →
     Answers (.fwActivate c) s fun t =>
       waitOf t c.reg = some (.ready 0 0) ∧
       t.sec.slotB.activation = max s.sec.slotA.activation s.sec.slotB.activation + 1 ∧ t.sec.slotA = s.sec.slotA ∧
       t.objs = s.objs ∧ t.power = s.power)

/-! ## Management paths and the object dictionary (16 R434, R435, 17 R443, 18, 19 R502) -/

/-- 16 R434, R435: the generic commands on the PF's free mailbox end with their return code: success and the command's output,
invalid input for a log read past its end, unsupported for both timestamp commands. On a VF's mailbox all six are unsupported, and
on a mailbox whose doorbell is set they are busy. Nothing outside the host interface changes. 17 R443, 18 R468: a remote access
that has outlived its timeout ends with 0x6004 on its path; an MCTP control message is answered and an I3C address taken while
3.3Vaux is present, and without it neither has an effect. -/
def Obligations.MailboxAndManagementAct : Prop :=
  (∀ (s : State) (fn : Nat), odUp s = true →
     let ends := fun (c : Instr) (code : Nat) (out : List Byte) => Answers c s fun t =>
       t = { s with host := t.host } ∧ (boxOf t fn).returnCode = code ∧ (boxOf t fn).extStatus = 0 ∧
       (boxOf t fn).length = out.length ∧ (boxOf t fn).control.getLsbD 0 = false ∧ t.host.bus = .status 0 out
     (BoxFree s fn → fn = 0 →
       ends (.identify fn) 0 (standardBytes 0x0001 18) ∧
       ends (.getSupportedLogs fn) 0 (standardBytes 0x0400 24 ++ toLE 4 24) ∧
       (∀ off n, off + n ≤ 24 → ends (.getLog fn true off n) 0 ((effectsLog.drop off).take n)) ∧
       (∀ eff off n, (eff = false ∨ 24 < off + n) → ends (.getLog fn eff off n) 2 []) ∧
       ends (.identifyMemoryDevice fn) 0 (standardBytes 0x4000 69) ∧
       (∀ v, ends (.setTimestamp fn v) 3 []) ∧ ends (.getTimestamp fn) 3 []) ∧
     (BoxFree s fn → fn ≠ 0 →
       ends (.identify fn) 3 [] ∧ ends (.getSupportedLogs fn) 3 [] ∧ (∀ eff off n, ends (.getLog fn eff off n) 3 []) ∧
       ends (.identifyMemoryDevice fn) 3 [] ∧ (∀ v, ends (.setTimestamp fn v) 3 []) ∧ ends (.getTimestamp fn) 3 []) ∧
     (mailboxUp s fn = true → (boxOf s fn).control.getLsbD 0 = true → ∀ v,
       let busy := s.modHost fun h => { h with
         mailboxes := kset h.mailboxes fn { boxOf s fn with returnCode := 6, extStatus := 0 }, bus := .status 6 [] }
       Becomes (.identify fn) s busy ∧ Becomes (.getSupportedLogs fn) s busy ∧ (∀ eff off n, Becomes (.getLog fn eff off n) s busy) ∧
       Becomes (.identifyMemoryDevice fn) s busy ∧ Becomes (.setTimestamp fn v) s busy ∧ Becomes (.getTimestamp fn) s busy)) ∧
  (∀ (s : State),
     (∀ tag r path w, kget s.fabric.reqs tag = some r → r.owner = .mailbox path w → r.sentAt + od s 0x4400 1 ≤ s.power.uptime →
       (kdel s.fabric.reqs tag).any (fun e => e.2.dest == r.dest) = true →
       Becomes (.remoteOdTimeout tag) s (answerOd { s with
         fabric := { s.fabric with reqs := kdel s.fabric.reqs tag }
         od := { s.od with remote := s.od.remote.filter fun e => e.1 != tag } } path 0x6004 [])) ∧
     (∀ tag r path w, kget s.fabric.reqs tag = some r → r.owner = .mailbox path w → s.power.uptime < r.sentAt + od s 0x4400 1 →
       Becomes (.remoteOdTimeout tag) s s) ∧
     (∀ eid code, s.power.aux = true → Answers (.mctpControl eid code) s fun t => t = { s with host := t.host } ∧
       t.host = { s.host with bus := .bytes (standardBytes (0x20000 + code.toNat) (Config.standardByte 0x30000 code.toNat).toNat) }) ∧
     (∀ addr, s.power.aux = true → Becomes (.i3cAddressAssign addr) s { s with power := { s.power with i3c := some addr } }) ∧
     (s.power.aux = false → (∀ eid code, Becomes (.mctpControl eid code) s s) ∧ ∀ addr, Becomes (.i3cAddressAssign addr) s s))

/-- 16 R435, 18 R457-R460, R469, R470: by every open path, a read of a whole scalar entry is answered with its value, and a write
of a value in range to an entry without a behaviour of its own sets it: an entry at its default is not listed, any other is listed
with its value. -/
def Obligations.DictionaryReadsAndWrites : Prop :=
  ∀ (s : State) (r : OdReq) (e : OdEntry), odEntry r.index r.sub = some e → r.remote = none → r.offset = 0 → r.length = e.size →
    e.kind = .scalar → e.size ≤ 8 →
    (PathOpen s r.path false → isMeasured r.index r.sub = false →
      let o := opened s r.path false 0
      viewAllows o (viewOf o r.path) false r.index r.sub = true →
      let u := fun tag => answerPath o r.path odReadType tag 0 (toLE e.size (scalarValue o r.path e r.index r.sub))
      (∀ k, mailboxOf r.path = some k → Becomes (.odRead r) s (u 0)) ∧
      (∀ eid secured (v : U16), r.path = .mctp eid → v.toNat = Config.constValue (odKey 0x1000 2) % 65536 →
        Becomes (.mctpOdRead v secured r) s (u 0)) ∧
      (∀ m port tag, r.path = .fabric m → (s.port port).state.carries = true → Becomes (.fabricOdRead port tag r) s (u tag))) ∧
    (∀ (v : Nat) (len : Nat), len = e.size → PathOpen s r.path true → e.access = .rw → e.lo ≤ v → v ≤ e.hi → v < 256 ^ e.size →
      let o := writing s r.path len
      viewAllows o (viewOf o r.path) true r.index r.sub = true → r.index ≠ 0x2230 →
      isOrder r.index r.sub = false → (∀ tag, specialWrite o r.path r.index r.sub v tag = none) →
      let holds := fun (c : Instr) => Answers c s fun t => t.objs = s.objs ∧ t.flash = s.flash ∧ t.regs = s.regs ∧
        t.od.vals = if v = odDefault s r.index r.sub then kdel s.od.vals (odKey r.index r.sub)
          else kset s.od.vals (odKey r.index r.sub) v
      (∀ k, mailboxOf r.path = some k → holds (.odWrite r (toLE e.size v))) ∧
      (∀ eid secured (w : U16), r.path = .mctp eid → w.toNat = Config.constValue (odKey 0x1000 2) % 65536 →
        holds (.mctpOdWrite w secured r (toLE e.size v))) ∧
      (∀ m port tag, r.path = .fabric m → (s.port port).state.carries = true → (s.port port).state ≠ .upLow →
        holds (.fabricOdWrite port tag r (toLE e.size v))))

/-- 18 R459, R460, R471: by an open path with the module's view, each command that is an order or a setting does what its entry
says, and a value that the entry does not take is answered with 0x1007. -/
def Obligations.DictionaryOrdersAct : Prop :=
  ∀ (s : State) (path : OdPath), ModulePath path → PathOpen s path true →
    let ps := pathSt s path
    -- a queue page goes to the staged function and polder; its registers' NEXT_SEQ returns to 0 (06 R170, 03 R72)
    (let fn := (staged s path 0x3110 2).getD (selectedPage s path).1
     let p := (staged s path 0x3110 3).getD (selectedPage s path).2
     ps.selPage ≠ 0 → (s.regs.any fun e => e.1 / 32 == ps.selPage && e.2.state != .idle) = false → ¬ (p = 0xFF ∧ fn ≠ 0) →
     (p < 32 → polderDefined s p = true) →
     Answers (.queuePageAssign path) s fun t =>
       t.pages = (if p = 0xFE then kdel s.pages ps.selPage else kset s.pages ps.selPage ⟨fn, p⟩) ∧
       t.regs = (kmap s.regs fun r x => if r / 32 = ps.selPage then { x with nextSeq := 0 } else x) ∧ t.objs = s.objs ∧
       t.flash = s.flash) ∧
    -- a polder takes every staged value at once, or none (06 R166, R167)
    (∀ p, p < 32 → let o := writing s path 1
      (polderRefused o path p = true → Becomes (.polderApply path p) s (answered o path 0x1007)) ∧
      (polderRefused o path p = false → (∀ k, k < 32 → coreOfPolder s p k = true → (polderField o path p 1).testBit k = true) →
        Answers (.polderApply path p) s fun t => t.objs = s.objs ∧ t.jobs = s.jobs ∧ t.od.vals =
          ((ps.staged.filter fun e => e.1 / 256 == 0x3000 + p).foldl (fun u e => odSet u (e.1 / 256) (e.1 % 256) e.2) s).od.vals)) ∧
    -- the topology and a port's enable (15 R396, R397)
    Becomes (.topologyApply path) s (match topologyApply (writing s path 1) path 0 with
      | (.now st, u) => answered u path st
      | (.later, u) => u) ∧
    (∀ n v, n < 4 → v.toNat ≤ 1 → od s (0x4010 + n) 5 = v.toNat → Answers (.portEnableWrite path n v) s fun t =>
      t.objs = s.objs ∧ t.regs = s.regs ∧ t.od.vals = (odSet s (0x4010 + n) 5 v.toNat).od.vals) ∧
    (∀ (n : Nat) (v : Byte), n < 4 → v.toNat ≤ 1 → Becomes (.portEnableWrite path n v) s (
      let o := odSet (writing s path 1) (0x4010 + n) 5 v.toNat
      storeWrite (if od s (0x4010 + n) 5 = v.toNat then o else settleGroups (if v.toNat = 0 then portDown o n true else portStart o n))
        [(odKey (0x4010 + n) 5, v.toNat)] (some path) 0)) ∧
    -- a membership change of the selected group (15 R410, R411)
    (∀ (v : U32) (w : U16), (match kget s.fabric.groups ps.selGroup with | some g => g.keeper ≠ moduleId s | none => True) →
      Becomes (.groupAdd path v) s (answered (writing s path 4) path 0x1007) ∧
      Becomes (.groupPin path v) s (answered (writing s path 4) path 0x1007) ∧
      Becomes (.groupRemove path w) s (answered (writing s path 2) path 0x1007)) ∧
    (∀ (v : U32) (w : U16) g, kget s.fabric.groups ps.selGroup = some g → g.keeper = moduleId s →
      let starts := fun (o : State) (req : MemberReq) => startChange (s.fabric.changes.length + 2) (o.modFab fun f => { f with changes :=
        f.changes ++ [({ number := ps.selGroup, req := req, path := some path, tag := 0 } : GroupChange)] }) ps.selGroup
      Becomes (.groupAdd path v) s (starts (writing s path 4) (.add (bitsAt v.toNat 0 10) (bitsAt v.toNat 16 10))) ∧
      Becomes (.groupPin path v) s (starts (writing s path 4) (.pin (bitsAt v.toNat 0 10) (bitsAt v.toNat 16 3))) ∧
      Becomes (.groupRemove path w) s (starts (writing s path 2) (.remove w.toNat))) ∧
    -- a counter snapshot of the path, a host marker, a request to secure a job (18 R471, 20 R522, 10 R272)
    (∀ v : Byte, v.toNat ≤ 1 → let o := writing s path 1
      Becomes (.counterSnapshot path v) s (answered
        (modPath o path fun p => { p with snapshot := if v.toNat = 0 then none else some (snapshotNow o) }) path 0)) ∧
    (∀ v : U64, Becomes (.hostMarker path v) s (answered (logHealth (writing s path 8) 0x0052 false [v.toNat]) path 0)) ∧
    (∀ v : U64, (kget s.jobs v.toNat).isSome = true → Becomes (.secureRequest path v) s
      (answered ((writing s path 8).modJob v.toNat fun j => { j with requested := true }) path 0)) ∧
    (∀ v : U64, kget s.jobs v.toNat = none → Becomes (.secureRequest path v) s (answered (writing s path 8) path 0x1007)) ∧
    -- the power-loss mode, with no course open, switches at once (13 R353)
    (∀ v : Byte, v.toNat ≤ 1 → s.flash.courses = [] → s.od.modes = [] →
      (∀ k, mailboxOf path = some k → (boxOf s k).bgOp = false) → Answers (.powerLossModeWrite path v) s fun t =>
        t.od.vals = (odSet s 0x2230 0 v.toNat).od.vals ∧ t.objs = s.objs ∧
        t.flash.jpend = s.flash.jpend ++ [(s.seq + 1, .mode v.toNat)])

/-- 18 R462, R463, R465, 13 R344, 19 R483, R486, R502: the nonce of a path opens maintenance mode to the path that signs it; by
the path that holds the mode the commands of rws entries act, and by every other they are answered with 0x5005. -/
def Obligations.MaintenanceCommandsAct : Prop :=
  ∀ (s : State) (path : OdPath), ModulePath path →
    (PathOpen s path false → let o := opened s path false 0
      let nonce := (List.range 32).map (Config.randomByte s.sec.draws)
      Becomes (.nonceRead path) s (answerPath (modPath (o.modSec fun c => { c with draws := c.draws + 1 }) path fun p =>
        { p with nonce := some nonce }) path odReadType 0 0 nonce)) ∧
    (PathOpen s path true → let o := writing s path 384
      ∀ signature : List Byte, signature.length = 384 →
      (∀ nonce, s.od.maint = none → (pathSt s path).nonce = some nonce →
        if Config.rsaVerify (maintKey s) (nonce ++ serialNumber) signature = true then
          Answers (.maintenanceEntry path signature) s fun t => t.od.maint = some path ∧ t.od.maintAt = s.power.uptime ∧
            (pathSt t path).nonce = none ∧ t.objs = s.objs
        else Becomes (.maintenanceEntry path signature) s (answered (modPath o path fun p => { p with nonce := none }) path 0x5003)) ∧
      (∀ h, s.od.maint = some h → h ≠ path → Becomes (.maintenanceEntry path signature) s (answered o path 0x5005))) ∧
    (PathOpen s path true → Becomes (.maintenanceExit path) s (answered (leaveMaint (writing s path 1) 0) path 0)) ∧
    (PathOpen s path true → s.od.maint = some path →
      (∀ id t, kget s.branches id = some t → t.state = .prepared → id < 4294967296 →
        Becomes (.inDoubtRollback path (BitVec.ofNat 32 id)) s
          (answered (afterOutcome (rollBranch (logHealth (yielded (writing s path 4) 0 2 (.polder t.polder) (.unit 19)) 0x0032 false [id]) id)) path 0)) ∧
      Becomes (.restoreDefaults path) s (let o := writing s path 1
        let keys := (o.od.vals.filter fun e => restored e.1).map (·.1)
        if keys.isEmpty then answered o path 0
        else storeWrite (o.modOd fun d => { d with vals := d.vals.filter fun e => !restored e.1 })
          (keys.map fun k => (k, odDefault o (k / 256) (k % 256))) (some path) 0) ∧
      (∀ sub key, sub = 1 ∨ sub = 2 → key.length = 388 → Becomes (.ownerKeyWrite path sub key) s
        (storeWrite (writing s path 388) [(odKey 0x5010 sub, leNat key)] (some path) 0)) ∧
      Becomes (.destroyReopenPassword path) s (storeWrite (writing s path 1) [(odKey 0x5400 5, 1)] (some path) 0) ∧
      Becomes (.moduleResetRequest path) s (answered (requestReset (writing s path 1) 8) path 0) ∧
      Becomes (.runtimeRestartRequest path) s (beginRestart (answered (writing s path 1) path 0) none)) ∧
    (PathOpen s path true → s.od.maint ≠ some path → (∀ id sub key, sub = 1 ∨ sub = 2 → key.length = 388 →
      Becomes (.inDoubtRollback path id) s (answered (opened s path true 4) path 0x5005) ∧
      Becomes (.restoreDefaults path) s (answered (opened s path true 1) path 0x5005) ∧
      Becomes (.ownerKeyWrite path sub key) s (answered (opened s path true 388) path 0x5005) ∧
      Becomes (.destroyReopenPassword path) s (answered (opened s path true 1) path 0x5005) ∧
      Becomes (.moduleResetRequest path) s (answered (opened s path true 1) path 0x5005) ∧
      Becomes (.runtimeRestartRequest path) s (answered (opened s path true 1) path 0x5005))) ∧
    (PathOpen s path false → ∀ off n outcome, 0 < n → off + n ≤ 16416 → n ≤ pathLimit path → let o := opened s path false 0
      (s.od.maint ≠ some path → Becomes (.rawDiagnosticRead path off n outcome) s (answerPath o path odReadType 0 0x5005 [])) ∧
      (s.od.maint = some path → outcome = .hard → let ppa := od s 0x2500 1
        (kget s.flash.dies (ppaDie ppa)).any (fun d => d.erase && d.target == ppaBlock ppa) = false →
        Becomes (.rawDiagnosticRead path off n outcome) s (answerPath
          ((countRead o ppa).modFlash fun f => { f with rawStatus := 0 }) path odReadType 0 0
          (((rawPage (countRead o ppa) ppa).drop off).take n))))

/-! ## Fabric (15) -/

/-- 15 R404, R405: each of the six requests and an action of a branch, arriving in turn at a quiet home, is served there, answered
with its status and moves its source's stream on, and what waited behind it follows; one for another module has no effect. 15
R403, R404, 04 R117: what a request that arrives in turn at a quiet home does there once R64's check and the checks after it pass,
outside a transaction or as an action of an open branch: a read returns the payload's bytes; a write stores its payload; ROW_ADD
stores the sums of the row's elements; the atomics return the old value and store the sum, the new value if the old one matches,
or the new value. Where a CAS64 does not match nothing is stored. 15 R404, R64: a request that names no object of this home, or
that the object's export does not admit, is refused with 0x6002, or with 0x6003 when its source has left the group it names; the
refusal is counted and nothing else changes. -/
def Obligations.RequestsActOrAreRefused : Prop :=
  ((∀ (p : Packet) (k : Nat) (c : Instr) (s u : State) (status : Nat) (b : List Byte), Requests c p k → Quiet s → InTurn s p →
     serveRequest (arrived s { p with type := k }) { p with type := k } = (.answer status b, u) →
     Becomes c s (serveStream 1 (responded u { p with type := k } status b) p.src)) ∧
   (∀ (p : Packet) (c : Instr) (s : State),
     c ∈ [Instr.remoteRead p, .remoteWrite p, .rowAdd p, .fetchAdd64 p, .cas64 p, .swap64 p, .branchAction p] →
     p.dest ≠ moduleId s → Becomes c s s)) ∧
  (∀ (p : Packet) (k : Nat) (c : Instr) (s : State) (h : Nat) (o : Obj), Requests c p k → Quiet s → InTurn s p →
     let q : Packet := { p with type := k }
     let off := p.addr.toNat % 18014398509481984 - o.base
     requestObject s q = some (h, o) → requestRight s q o = true → requestStatus q h o = 0 →
     ∀ (id : Nat) (t : State), Enters (arrived s q) q id t →
     let answers := fun (u : State) (b : List Byte) => Becomes c s (serveStream 1 (responded u q 0 b) p.src)
     -- the payload is at hand in `v`: no page of it must be read first, and its bytes are `m`
     let reads := fun (v : State) (n : Nat) (m : Memory) (u : State) =>
       missingPages v (.peer p.src) (flashPages v (o.base + off) n) = [] ∧
       readPayload (usedPages (touchHeat v h (o.base + off) n (whoPeer p.src)) (.peer p.src) (flashPages v (o.base + off) n))
         (o.base + off) n id = (.ok m, u)
     let stores := fun (v : State) (b : List Byte) (u : State) => storeAt v id h off b (whoPeer p.src) = (.ok, u)
     (k = 1 → ∀ m u, reads (if id = 0 then t else trackLines t id h (o.base + off) p.length) p.length m u →
       answers u (mread m 0 p.length)) ∧
     (k = 2 → ∀ u, stores t p.payload u → answers u []) ∧
     (∀ v m u, (if id = 0 then meetLines t (o.base + off) (requestSize q) = (.free, v) else v = t) → reads v (requestSize q) m u →
       let old := mread m 0 (requestSize q)
       (k = 3 → ∀ w, stores u (sumRow (rowAddFormat h o) old (groupsOf (requestSize q) p.payload.length p.payload)) w → answers w []) ∧
       (k = 4 → ∀ w, stores u (toLE 8 ((leNat old + fieldAt p.payload 0 8) % 18446744073709551616)) w → answers w old) ∧
       (k = 5 → leNat old = fieldAt p.payload 0 8 → ∀ w, stores u (toLE 8 (fieldAt p.payload 8 8)) w → answers w old) ∧
       (k = 5 → leNat old ≠ fieldAt p.payload 0 8 → answers u old) ∧
       (k = 6 → ∀ w, stores u (toLE 8 (fieldAt p.payload 0 8)) w → answers w old))) ∧
  (∀ (s : State) (p : Packet), (requestObject s p = none ∨ ∃ h o, requestObject s p = some (h, o) ∧ requestRight s p o = false) →
     ∃ u, serveRequest s p = (.answer (if leftGroup s p then 0x6003 else 0x6002) [], u) ∧ u.objs = s.objs ∧ u.dram = s.dram ∧
       u.flash = s.flash ∧ u.fabric = s.fabric ∧ cnt u 0x9500 4 = cnt s 0x9500 4 + 1 ∧ cnt u 0x9500 1 = cnt s 0x9500 1 + 1)

/-- 15 R405, R406, R524-R526: the response to a command's last write piece ends the command; a request that outlives OD 0x4400:01
ends it with 0x6004, and is counted; a command carried here runs under a number of its own, and one that no home serves ends with
0x6002. -/
def Obligations.RemoteCommandsEnd : Prop :=
  (∀ (s : State) (p : Packet) (r : RemoteReq) (reg piece : Nat) (x : Nat) (e : Exec), kget s.fabric.reqs p.tag = some r →
    r.dest = p.src → p.dest = moduleId s → r.owner = .register reg piece → r.type = 2 → kget s.execs reg = some e →
    e.wait = .remote [(p.tag, x)] 0 → e.opcode = 2 → e.cmd.tx = 0 → s.fabric.waiting = [] →
    (p.status = 0 → e.cmd.flags.getLsbD 0 = false → Answers (.remoteResponse p) s fun t =>
      waitOf t reg = some (.ready 0 e.cmd.length.toNat) ∧
      t.fabric = { s.fabric with reqs := kdel s.fabric.reqs p.tag } ∧ t.objs = s.objs) ∧
    (p.status = 0 → e.cmd.flags.getLsbD 0 = true → Answers (.remoteResponse p) s fun t => t.objs = s.objs ∧
      ((∃ tag, waitOf t reg = some (.remote [(tag, 0)] e.cmd.length.toNat)) ∨
        waitOf t reg = some (.ready (sendStatus s (homeOf e.cmd.target.toNat)) e.cmd.length.toNat))) ∧
    (p.status ≠ 0 → Answers (.remoteResponse p) s fun t => waitOf t reg = some (.ready p.status.toNat piece) ∧
      t.fabric = { s.fabric with reqs := kdel s.fabric.reqs p.tag } ∧ t.objs = s.objs) ∧
    (r.sentAt + od s 0x4400 1 ≤ now s → Answers (.endToEndTimeout p.tag) s fun t => waitOf t reg = some (.ready 0x6004 piece) ∧
      cnt t 0x9074 4 = cnt s 0x9074 4 + 1 ∧ t.objs = s.objs) ∧
    (now s < r.sentAt + od s 0x4400 1 → Becomes (.endToEndTimeout p.tag) s s)) ∧
  (∀ (s : State) (c : Carried), [0x1, 0x2, 0x3, 0x4, 0x30, 0x31, 0x40, 0x41, 0x42, 0x50, 0x51, scanCode, rerankCode].contains c.opcode = false →
     carriedOk s c = true →
    Quiet s → Answers (.carriedCommandAtHome c) s fun t => waitOf t (1048576 + s.nextOrder) = some (.ready 0x6002 0) ∧
      t.objs = s.objs ∧ t.nextOrder = s.nextOrder + 1) ∧
  (∀ (s : State) (c : Carried), [0x3, 0x4, 0x31, 0x40, 0x41, 0x42, 0x50, 0x51].contains c.opcode = true → carriedOk s c = true →
    c.tx % 4194304 = 0 →
    let cmd : TaskCmd := { fn := c.src, reg := 0, flags := 0, tag := BitVec.ofNat 32 c.tag, target := BitVec.ofNat 64 c.target
                           length := BitVec.ofNat 64 c.length, haddr := 0, ops := c.ops, tx := BitVec.ofNat 32 c.tx, rsv := 0, seq := 0
                           polder := BitVec.ofNat 16 c.polder, crc := 0 }
    let e : Exec := { fn := c.src, opcode := c.opcode, cmd := cmd, order := s.nextOrder, polder := c.polder, wait := .retry
                      carried := some c }
    let b := bump s 0x9074 1 1
    Becomes (.carriedCommandAtHome c) s (tookMsg (runEffect
      { b with nextOrder := s.nextOrder + 1, execs := kset s.execs (1048576 + s.nextOrder) e } (1048576 + s.nextOrder) false) c.src))

/-- 15 R409-R413: the messages and timers of group membership. A claim for a free number is noted and acknowledged, one for a
known number refused; a release clears the keeper's entry; an unknown entry of a neighbour is taken; HOLD, DRAIN, INSTALL and
RESUME of the keeper act on the member's entry and are answered; the keeper notes replies, passes over a removed member that stays
silent, gives a change up for any other, and repeats INSTALL. 20 R516: during a runtime restart each of these messages is held in
order of arrival (which messages these are is the model's, log entry 135). -/
def Obligations.GroupMembershipActs : Prop :=
  ∀ (s : State) (src n : Nat),
    -- GROUP_CLAIM and GROUP_RELEASE
    (s.power.restarting = false → (s.fabric.claims.any fun c => c.number == n) = false → kget s.fabric.groups n = none →
      Becomes (.groupClaim src n) s (sendMsg (s.modFab fun f => { f with claims := f.claims ++ [⟨n, 0, src, []⟩] }) src .claimAnswer 0 0 [n] [])) ∧
    (∀ g, s.power.restarting = false → kget s.fabric.groups n = some g →
      Becomes (.groupClaim src n) s (sendMsg s src .claimAnswer 0 0x1007 [n] [])) ∧
    (∀ g, s.power.restarting = false → kget s.fabric.groups n = some g → g.keeper = src → s.fabric.claims = [] → s.fabric.colls = [] →
      Answers (.groupRelease src n) s fun t => t = { s with fabric := { s.fabric with groups := kdel s.fabric.groups n } }) ∧
    -- DIRECTORY_EXCHANGE
    (∀ port (e : GroupEntry), s.power.restarting = false → (s.port port).state.carries = true → s.fabric.groups = [] → e.keeper ≠ moduleId s →
      reaches s e.keeper = false → Answers (.directoryExchange port [e]) s fun t => t = { s with fabric := { s.fabric with
        groups := [(e.number, { keeper := e.keeper, epoch := e.epoch, members := e.members })] } }) ∧
    -- HOLD, DRAIN, INSTALL, RESUME at a member
    (∀ g, s.power.restarting = false → kget s.fabric.groups n = some g → g.keeper = src → src ≠ moduleId s → isMember g.members (moduleId s) = true →
      Becomes (.groupHold src n g.epoch) s
        (sendMsg (s.modGroup n fun g => { g with held := true, drainTo := none, drained := false }) src .changeReply 0 0 [n, g.started] []) ∧
      (∀ k, g.held = true → k ≤ g.started → s.fabric.colls = [] → Becomes (.groupDrain src n k) s
        (sendMsg ((s.modGroup n fun g => { g with drainTo := some k, drained := false }).modGroup n fun g => { g with drained := true })
          src .changeReply 0 0 [n, k] [])) ∧
      (∀ e : GroupEntry, e.number = n → e.keeper = src → g.epoch < e.epoch → s.fabric.colls = [] → Becomes (.groupInstall src e) s
        (sendMsg (takeEntry s e (isMember e.members (moduleId s))) src .changeReply 0 0 [n, 0] [])) ∧
      Becomes (.groupResume src n g.epoch) s (s.modGroup n fun g => { g with held := false, drainTo := none, drained := false })) ∧
    -- replies and timers at the keeper
    (∀ i : Instr, s.power.restarting = true → ((∃ k, i ∈ [.groupClaim src n, .groupRelease src n, .groupHold src n k, .groupDrain src n k,
        .groupResume src n k, .groupChangeReply src n k]) ∨ (∃ e, i = .groupInstall src e) ∨ ∃ l, i = .directoryExchange n l) →
      Becomes i s (s.modFab fun f => { f with heldMsgs := f.heldMsgs ++ [i] })) ∧
    (∀ (c : GroupChange) g m, s.fabric.changes = [c] → c.number = n → c.running = true → kget s.fabric.groups n = some g →
      (s.power.restarting = false → c.waiting = [src, m] → src ≠ m → c.step ≠ .hold → Becomes (.groupChangeReply src n 0) s
        (s.modFab fun f => { f with changes := [{ c with waiting := [m] }] })) ∧
      (c.step = .drain → c.waiting = [m, src] → src ≠ m → c.req = .remove m → c.since + 100000 ≤ s.power.uptime →
        Becomes (.membershipReplyTimeout n m) s (s.modFab fun f => { f with changes := [{ c with waiting := [src] }] })) ∧
      (c.step = .hold → c.waiting = [m] → c.req ≠ .remove m → c.since + 100000 ≤ s.power.uptime → c.path = none →
        (∀ e ∈ g.members, e.1 = moduleId s) → Becomes (.membershipReplyTimeout n m) s
          ((s.modGroup n fun g => { g with held := false, drainTo := none, drained := false }).modFab fun f => { f with changes := [] })) ∧
      (c.step = .install → c.waiting = [m] → reaches s m = true → c.since + 100000 ≤ s.power.uptime → Becomes (.installRepeat n) s
        ((sendMsg s m .install 0 0 ([n, g.keeper, g.epoch] ++ g.members.flatMap fun e => [e.1, e.2.1, e.2.2.getD 255]) []).modFab
          fun f => { f with changes := [{ c with since := s.power.uptime }] }))) ∧
    (∀ h a g t m, keptGroup s n = some (h, a) → kget s.fabric.groups n = some g → kget s.fabric.lost (n * 1024 + m) = some t →
      a.auto = true → isMember g.members m = true → m ≠ g.keeper → reaches s m = false →
      t + a.failTimeout * 1000 ≤ s.power.uptime → s.fabric.changes = [] → Answers (.groupFailureTimeout n m) s fun u =>
        u.objs = s.objs ∧ u = { startChange 2 ((s.modGroup n fun g => { g with autoOut := g.autoOut ++
          [(m, match findFirst (fun e => e.1 == m) g.members with | some e => e.2.1 | none => 0)] }).modFab fun f => { f with changes :=
          [({ number := n, req := .remove m, path := none } : GroupChange)] }) n with pending := s.pending, ident := s.ident })

/-- 15 R415, 06 R183: a part of another member for a collective that this module has not issued is kept for it; a part of another
epoch has no effect. A forwarded job is admitted here and answered with its handle, or refused with 0x6002. -/
def Obligations.GroupWorkArrives : Prop :=
  (∀ (s : State) (p : CollPart) (g : Group), kget s.fabric.groups p.group = some g →
    (g.epoch = p.epoch → (g.members.any fun m => m.2.1 == p.member) = true → isMember g.members (moduleId s) = true →
      (s.fabric.colls.any fun c => c.group == p.group && c.number == p.number) = false →
      Becomes (.collectivePacket p) s (s.modFab fun f => { f with colls := f.colls ++ [⟨p.group, p.epoch, p.number, [p], none⟩] })) ∧
    (g.epoch ≠ p.epoch → Becomes (.collectivePacket p) s s)) ∧
  (∀ (s : State) (j : FwdJob),
    let answer := fun (u : State) (status : Nat) (b : List Byte) => tookMsg (respond u { blankPacket with
      src := j.src, tag := j.tag, type := Config.messageCode Msg.jobForward.num } status b) j.src
    (polderDefined s j.polder = false → Becomes (.jobForwardRequest j) s (answer s 0x6002 [])) ∧
    (∀ h u, polderDefined s j.polder = true → (od s (0x3000 + j.polder) 8).testBit 1 = true → od s (0x3000 + j.polder) 0xB = j.group →
      admitJob s j.program j.argument j.polder j.priority j.seed.toNat = (.job h, u) →
      Becomes (.jobForwardRequest j) s (answer (schedBump u j.polder 0xA 1) 0 (toLE 8 h))))

/-- 15 R390-R392: on a port that carries traffic, with nothing queued for it, a damaged flit and one after a gap are dropped and
answered with NAK, one received twice is discarded, and the next in order is accepted, with its acknowledgement and its credits. A
flit unacknowledged for OD 0x4400:02 fails the port. -/
def Obligations.FlitsAreCheckedInOrder : Prop :=
  ∀ (s : State) (n : Nat) (f : Flit), (s.port n).state.carries = true →
    let x := bump (bump s (0x9070 + n) 1 f.corrected) (0x9070 + n) 2 f.badWords
    let ahead := (f.seq + 65536 - (s.port n).rxSeq) % 65536
    ((f.intact = false ∨ 0 < f.badWords) → Becomes (.flitReceive n f) s (x.modPort n fun t => { t with nak := true })) ∧
    (f.intact = true → f.badWords = 0 → f.idle = false → 0 < ahead → ahead < 32768 →
      Becomes (.flitReceive n f) s (x.modPort n fun t => { t with nak := true })) ∧
    (f.intact = true → f.badWords = 0 → f.idle = false → 32768 ≤ ahead → Becomes (.flitReceive n f) s x) ∧
    (f.intact = true → f.badWords = 0 → f.idle = false → ahead = 0 → f.nak = false → (s.port n).egress = [] →
      Becomes (.flitReceive n f) s ((bump (x.modPort n fun t => { t with rxSeq := (t.rxSeq + 1) % 65536, nak := false })
        (0x9070 + n) 7 1).modPort n fun t => takeCredits (ackFlits t f.acked) f.creditVc f.credits)) ∧
    (((s.port n).replay.any fun r => decide (r.2.1 + od s 0x4400 2 ≤ s.power.uptime)) = true →
      Becomes (.retryTimer n) s (settleGroups (yielded (portFail s n) 2 4 (.link n) (.unit (17 + n / 2))))) ∧
    (((s.port n).replay.any fun r => decide (r.2.1 + od s 0x4400 2 ≤ s.power.uptime)) = false → Becomes (.retryTimer n) s s)

/-- 15 R388, R389, R393, R397, R420: light, training and low power of a port. 15 R399, R401, R406: of the link states of another
module's port the one with the highest number is kept and advances the link epoch; a packet in transit goes on by its route, and
at the hop limit it is dropped, a request being answered with 0x6001. -/
def Obligations.PortsAndPacketsAct : Prop :=
  (∀ (s : State) (n : Nat),
     ((s.port n).state = .failed → (s.port n).failedAt + 1000 ≤ s.power.uptime → portWanted s n = true →
       Becomes (.failedRetrain n) s (startTraining s n false)) ∧
     ((s.port n).state = .training → (s.port n).trainAt + 100000 ≤ s.power.uptime →
       Becomes (.trainingRetry n) s (s.modPort n fun t => { t with trainAt := s.power.uptime })) ∧
     (∀ p : PeerIdent, (s.port n).state = .training → portWanted s n = true →
       (lanesUp p.lanes = 0 → Becomes (.portTrainingComplete n p) s (settleGroups (portDown s n false))) ∧
       (lanesUp p.lanes ≠ 0 → (p.fabricId.toNat ≠ od s 0x4000 2 ∨ p.module = moduleId s) →
         Becomes (.portTrainingComplete n p) s (s.modPort n fun t => { t with trainAt := s.power.uptime })) ∧
       (lanesUp p.lanes ≠ 0 → p.fabricId.toNat = od s 0x4000 2 → p.module ≠ moduleId s → s.fabric.kind ≠ 5 →
         (neighbour s (moduleId s) n ≠ some p.module ∨ p.port ≠ meets n) → Becomes (.portTrainingComplete n p) s
           (logHealth (s.modPort n fun t => { t with
             state := .miswired, lanes := lanesUp p.lanes, peer := p.module, peerPort := p.port, commanded := false }) 0x001C false
             [n, moduleId s, p.module, p.port, (neighbour s (moduleId s) n).getD 0xFFFF])) ∧
       (lanesUp p.lanes ≠ 0 → p.fabricId.toNat = od s 0x4000 2 → p.module ≠ moduleId s → s.power.ps ≠ 4 →
         (s.fabric.kind = 5 ∨ (neighbour s (moduleId s) n = some p.module ∧ p.port = meets n)) →
         Becomes (.portTrainingComplete n p) s (settleGroups (serveEgress 64 (sendDirectory (changePort
           (countTraining s n (s.port n).commanded false) n fun t => { t with
             state := if lanesUp p.lanes = 0xFF then .up else .upNarrow, lanes := lanesUp p.lanes
             peer := p.module, peerPort := p.port, commanded := false }) n) n)))) ∧
     ((s.port n).signal = true → Becomes (.portSignalLoss n) s
       (settleGroups (portDown (s.modPort n fun t => { t with signal := false }) n false))) ∧
     ((s.port n).signal = false →
       let u := s.modPort n fun t => { t with signal := true }
       ((s.port n).state = .down → portWanted u n = true → Becomes (.portReceiveSignal n) s (startTraining u n false)) ∧
       (((s.port n).state ≠ .down ∨ portWanted u n = false) → Becomes (.portReceiveSignal n) s u) ∧
       ((s.port n).state = .down → (s.port n).lit = true → (s.port n).dark0 + 1000000 < s.power.uptime →
         Becomes (.laserDarkTimeout n) s (s.modPort n fun t => { t with lit := false }))) ∧
     (∀ e, s.fabric.badEmitters.contains e = false → findFirst (fun k => (s.port k).emitter == e) [0, 1, 2, 3] = some n →
       let u := s.modFab fun f => { f with badEmitters := f.badEmitters ++ [e] }
       let spare := if n < 2 then 4 else 5
       ((s.fabric.badEmitters ++ [e]).contains spare = true → Becomes (.emitterFailover e) s u) ∧
       ((s.fabric.badEmitters ++ [e]).contains spare = false → (s.fabric.ports.any fun t => t.emitter == spare) = false →
         (s.port n).state ≠ .down → n < s.fabric.ports.length →
         Becomes (.emitterFailover e) s (settleGroups (startTraining (u.modPort n fun t => { t with emitter := spare }) n false)))) ∧
     (((s.port n).state = .up ∨ (s.port n).state = .upNarrow) → Becomes (.peerUpLow n) s
       (bump (s.modPort n fun t => { t with state := .upLow, lanes := lowLanes t.lanes }) (0x9070 + n) 8 1))) ∧
  (∀ (s : State),
     (∀ m n up number, m ≠ moduleId s →
       let seen := match kget s.fabric.links (m * 4 + n) with | some (_, k) => k | none => 0
       (number ≤ seen → Becomes (.linkStateFlood m n up number) s s) ∧
       (seen < number → s.fabric.groups = [] → s.fabric.colls = [] → s.fabric.reqs = [] → Becomes (.linkStateFlood m n up number) s
         (bump (s.modFab fun f => { f with links := kset f.links (m * 4 + n) (up, number) }) 0x4000 8 1))) ∧
     (∀ n p, p.dest ≠ moduleId s → (s.port n).state.carries = true →
       (od s 0x4000 6 ≤ p.hops → p.tclass = 0 → Becomes (.packetTransit n p) s (respond (bump s 0x9074 3 1) p 0x6001 [])) ∧
       (od s 0x4000 6 ≤ p.hops → p.tclass ≠ 0 → Becomes (.packetTransit n p) s (bump s 0x9074 3 1)) ∧
       (∀ port d, p.hops < od s 0x4000 6 → egressOf s p (some n) = some (port, d) → (s.port port).state.carries = true →
         Becomes (.packetTransit n p) s (enqueue (bump s 0x9074 2 1) port { p with hops := p.hops + 1, dateline := d })) ∧
       (p.hops < od s 0x4000 6 → egressOf s p (some n) = none → p.tclass = 0 → Becomes (.packetTransit n p) s (respond s p 0x6004 []))))

/-! ## The host link and its window (02 R58-R61, 16) -/

/-- 16 R437, 03 R87, 20 R510: events of the host link. 16 R426, R427, R429, R433: an answered snoop lets what waits go on;
translations of an invalidated range go; the window is reached at the committed base; the CDAT gives the values of R433. -/
def Obligations.HostLinkEventsAct : Prop :=
  (∀ (s : State),
     (s.host.link ≠ .down → Answers .linkRetrain s fun t => cnt t 0x9300 8 = cnt s 0x9300 8 + 1 ∧
       t.risk = { s.risk with retrains := s.risk.retrains ++ [s.power.uptime] } ∧ t.host = s.host ∧ t.execs = s.execs ∧ t.regs = s.regs) ∧
     (cxlUp s = true → s.host.ide = true → Answers .ideIntegrityFailure s fun t =>
       t.host = { s.host with ide := false, rasUncorrectable := true } ∧ cnt t 0x9300 0xB = cnt s 0x9300 0xB + 1 ∧
       t.execs = s.execs ∧ t.objs = s.objs) ∧
     (cxlUp s = true → s.sec.sessions.contains (true, true) = true →
       Becomes .ideKeyReestablish s { s with host := { s.host with ide := true } }) ∧
     (∀ reg e, kget s.execs reg = some e → e.silent = false → e.carried = none → e.wait.transfers = true → s.dram.scrubbing ≠ some reg →
       Answers (.dmaCompletionTimeout reg) s fun t => waitOf t reg = some (.ready 0x100E 0) ∧ cnt t 0x9300 0xA = cnt s 0x9300 0xA + 1 ∧
         t.objs = s.objs ∧ t.regs = s.regs ∧ t.host = s.host) ∧
     Becomes .surpriseDown s { s with host := { s.host with link := .down } } ∧
     (s.power.ps = 5 → s.host.aspmL1 = true → s.host.link = .l0 →
       Becomes .l1IdleRequest s { s with host := { s.host with link := .l1 } }) ∧
     (s.power.ps = 5 → s.power.odAt + 10000 ≤ s.power.uptime →
       Becomes .pd19RetentionTimer s { s with power := { s.power with pd := s.power.pd.set 19 .ret } }) ∧
     (s.power.ps ≠ 5 → Becomes .l1IdleRequest s s ∧ Becomes .pd19RetentionTimer s s)) ∧
  (∀ (s : State),
     (∀ line, Leaves (.bisnpResponse line) s (s.modHost fun h => { h with snooping := h.snooping.filter (· != line) })) ∧
     (∀ fn addr length, s.host.link ≠ .down → Answers (.atsInvalidation fn addr length) s fun t =>
       (∀ f page, (f, page) ∈ t.host.ats ↔ (f, page) ∈ s.host.ats ∧
         ¬ (f = fn ∧ addr < page * 4096 + 4096 ∧ page * 4096 < addr + length)) ∧
       t = { s with host := { s.host with ats := t.host.ats, bus := .status 0 [] } }) ∧
     (∀ base, cxlUp s = true → Answers (.hdmDecoderCommit base) s fun t => t.host.hdm = some base.toNat ∧ t.host.link = .l0 ∧
       t = { s with host := { s.host with hdm := some base.toNat, link := .l0 } }) ∧
     (s.host.link ≠ .down → Becomes .cdatRead s (s.modHost fun h => { h with bus := .bytes cdatBytes })))

/-- 02 R59, R60, 14 R381, 16 R430: a CXL.mem read of part of one window line completes with the line's bytes, with zeros where
nothing was stored, or with poison where nothing is bound, the parcel is not in DRAM or the line is poisoned; it changes no object
and no byte. 02 R59, R60, 04 R112: a CXL.mem write with no other waiting is discarded and counted where nothing is bound, the
object is READ_ONLY or the parcel is not in DRAM; elsewhere it is a store outside any transaction of the bytes within the object's
length. -/
def Obligations.HostAccessesTheWindow : Prop :=
  (∀ (s : State) (off n : Nat), memUp s = true → 0 < n → off % 64 + n ≤ 64 →
     (boundAt s off = none → Answers (.cxlMemRead off n) s fun t => t.host.bus = .poison ∧
       cnt t 0x9300 2 = cnt s 0x9300 2 + 1 ∧ cnt t 0x9300 4 = cnt s 0x9300 4 + 1 ∧ t.objs = s.objs ∧ t.dram = s.dram ∧
       t.flash = s.flash ∧ t.parcels = s.parcels) ∧
     ∀ h o x, boundAt s off = some (h, o, x) →
       let k := (o.base + x) / 65536
       let l := (o.base + x) / 64
       (outOfDram s k = true → Answers (.cxlMemRead off n) s fun t => t.host.bus = .poison ∧
         cnt t 0x9300 1 = cnt s 0x9300 1 + 1 ∧ t.healthHigh = s.healthHigh + 1 ∧
         t.parcels = kmod s.parcels k (fun p => { p with queued := true }) ∧ t.objs = s.objs ∧ t.dram = s.dram) ∧
       (parcelState s k = .unbacked → Answers (.cxlMemRead off n) s fun t => t.host.bus = .bytes (List.replicate n 0) ∧
         t.objs = s.objs ∧ t.dram = s.dram ∧ t.flash = s.flash) ∧
       ((parcelState s k).inDram = true → outOfDram s k = false → s.dram.poison.contains l = false → kget s.dram.damage l = none →
         undoCopy s l 0 = none → x + n ≤ o.length → x % 64 + n ≤ 64 → o.base % 64 = 0 → Answers (.cxlMemRead off n) s fun t =>
           t.host.bus = .bytes (((lineBytes s l).drop (x % 64)).take n) ∧ t.objs = s.objs ∧ t.dram = s.dram ∧ t.flash = s.flash) ∧
       ((parcelState s k).inDram = true → outOfDram s k = false → s.dram.poison.contains l = true →
         Answers (.cxlMemRead off n) s fun t => t.host.bus = .poison ∧ cnt t 0x9300 7 = cnt s 0x9300 7 + 1 ∧
           cnt t 0x9060 3 = cnt s 0x9060 3 + 1 ∧ t.objs = s.objs ∧ t.dram = s.dram)) ∧
  (∀ (s : State) (off : Nat) (b : List Byte), memUp s = true → s.host.heldWrites = [] →
     (boundAt s off = none → Answers (.cxlMemWrite off b) s fun t => cnt t 0x9300 2 = cnt s 0x9300 2 + 1 ∧
       t.host.heldWrites = [] ∧ t.objs = s.objs ∧ t.dram = s.dram ∧ t.flash = s.flash ∧ t.parcels = s.parcels) ∧
     ∀ h o x, boundAt s off = some (h, o, x) →
       (o.readOnly = true → Answers (.cxlMemWrite off b) s fun t => cnt t 0x9300 3 = cnt s 0x9300 3 + 1 ∧
         t.host.heldWrites = [] ∧ t.objs = s.objs ∧ t.dram = s.dram ∧ t.flash = s.flash ∧ t.parcels = s.parcels) ∧
       (o.readOnly = false → outOfDram s ((o.base + x) / 65536) = true → Answers (.cxlMemWrite off b) s fun t =>
         cnt t 0x9300 1 = cnt s 0x9300 1 + 1 ∧ t.healthHigh = s.healthHigh + 1 ∧ t.host.heldWrites = [] ∧ t.objs = s.objs ∧
         t.dram = s.dram ∧ t.parcels = kmod s.parcels ((o.base + x) / 65536) (fun p => { p with queued := true })) ∧
       (∀ u, o.readOnly = false → outOfDram s ((o.base + x) / 65536) = false →
         storeRaw ((wake s).modHost fun g => { g with heldWrites := [(off, b)] }) h x (b.take (o.length - x)) whoHost = (.ok, u) →
         Becomes (.cxlMemWrite off b) s (u.modHost fun g => { g with heldWrites := g.heldWrites.drop 1 })))

/-! ## The DRAM tier (14, 10 R269-R271, 02 R46-R53) -/

/-- 14 R373, R376, R377, R380, R382: a poisoned line of a clean parcel is repaired from flash; an aged merge entry drains, a full
one without a read, a part of a line over the line's bytes; a frame due for retirement switches to another; refresh turns what
decayed into damage of the line's symbols. -/
def Obligations.DramEventsAct : Prop :=
  ∀ (s : State),
    (∀ n m, s.dram.poison.contains n = true → repairable s n = true → parcelFlash s (n / 1024) = some m →
      Leaves (.lineRepair n) s (bump (s.modDram fun d => { d with
        mem := mwrite d.mem (n * 64) (mread m (n % 1024 * 64) 64)
        poison := d.poison.filter (· != n), rewritten := d.rewritten ++ [n] }) 0x9060 4 1)) ∧
    (∀ n, s.dram.poison.contains n = false → Leaves (.lineRepair n) s s) ∧
    (∀ n m, findFirst (fun e => e.line == n) s.dram.merge = some m → m.since + 1 ≤ s.power.uptime →
      (64 ≤ m.bytes.length → Answers (.mergeEntryAge n) s fun t =>
        t.dram.mem = mwrite s.dram.mem (n * 64) (padTo 64 (m.bytes.foldl (fun acc p => acc.set p.1 p.2) (List.replicate 64 0))) ∧
        t.dram.merge = s.dram.merge.filter (fun e => e.line != n) ∧ t.dram.poison = s.dram.poison.filter (· != n) ∧
        t.objs = s.objs ∧ t.flash = s.flash) ∧
      (m.bytes.length < 64 → s.dram.poison.contains n = false → kget s.dram.damage n = none → Answers (.mergeEntryAge n) s fun t =>
        t.dram = { s.dram with
          mem := mwrite s.dram.mem (n * 64) (m.bytes.foldl (fun acc p => acc.set p.1 p.2) (mread s.dram.mem (n * 64) 64))
          merge := (s.dram.merge.filter (fun e => e.line != n)) } ∧
        cnt t 0x9060 8 = cnt s 0x9060 8 + 1 ∧ t.objs = s.objs ∧ t.flash = s.flash)) ∧
    (∀ n m, findFirst (fun e => e.line == n) s.dram.merge = some m → s.power.uptime < m.since + 1 → Becomes (.mergeEntryAge n) s s) ∧
    (∀ k p, s.dram.retireQ.contains k = true → ownerOfAddr s (k * 65536) = none → kget s.parcels k = some p → p.state.inDram = true →
      s.dram.retired.length < 4096 → s.dram.freeFrames = [] → (∀ n e, (n, e) ∈ s.dram.damage → n / 1024 ≠ k) →
      Answers (.frameRetirement k) s fun t => t.parcels = kmod s.parcels k (fun q => { q with frame := s.dram.nextFrame }) ∧
        t.dram.retired = s.dram.retired ++ [p.frame] ∧ t.dram.retireQ = s.dram.retireQ.filter (· != k) ∧
        t.dram.mem = s.dram.mem ∧ t.objs = s.objs) ∧
    (∀ k, s.dram.retireQ.contains k = false → Becomes (.frameRetirement k) s s) ∧
    (∀ bank line symbol value, value ≠ 0 → s.dram.poison.contains line = false → (parcelState s (line / 1024)).inDram = true →
      Becomes (.dramRefresh bank [(line, symbol, value)]) s (s.modDram fun m => { m with
        damage := kset m.damage line (((kget m.damage line).getD []) ++ [(symbol, value)]) })) ∧
    (∀ bank, Becomes (.dramRefresh bank []) s s)

/-- 14 R373, R378, 16 R430: a DRAM line of which one symbol decayed, whichever of its 68 symbols and whatever the error, reads as
its stored bytes: the host's read of part of it completes with them, the line is written back whole, and the correction is counted
as one of a single symbol. Damage that spells no error is seen as none. -/
def Obligations.OneDamagedSymbolIsCorrected : Prop :=
  ∀ (s : State) (off n : Nat) (h : Nat) (o : Obj) (x i : Nat) (v : Byte), memUp s = true → 0 < n → off % 64 + n ≤ 64 →
    boundAt s off = some (h, o, x) → o.base % 64 = 0 → x + n ≤ o.length → x % 64 + n ≤ 64 → i < 68 → v ≠ 0 →
    (parcelState s ((o.base + x) / 65536)).inDram = true → outOfDram s ((o.base + x) / 65536) = false →
    s.dram.poison.contains ((o.base + x) / 64) = false → kget s.dram.damage ((o.base + x) / 64) = some [(i, v)] →
    undoCopy s ((o.base + x) / 64) 0 = none →
    Answers (.cxlMemRead off n) s fun t =>
      t.host.bus = .bytes (((lineBytes s ((o.base + x) / 64)).drop (x % 64)).take n) ∧
      t.dram.mem = s.dram.mem ∧ t.dram.damage = kdel s.dram.damage ((o.base + x) / 64) ∧ t.dram.poison = s.dram.poison ∧
      cnt t 0x9060 1 = cnt s 0x9060 1 + 1 ∧ cnt t 0x9060 2 = cnt s 0x9060 2 ∧ cnt t 0x9060 3 = cnt s 0x9060 3 ∧ t.objs = s.objs

/-- 10 R269-R271: every 100 ms of uptime the risk is the six components weighted by OD 0x7001 over 16, saturating; a crossing of
the threshold is logged, the one upward arms every job that states a step bound, and a job stays armed or not below it; a job is
armed again after its interval. -/
def Obligations.RiskArmsSecuring : Prop :=
  ∀ (s : State),
    (∀ t : Sensors, s.power.uptime % 100000 ≠ 0 → Becomes (.riskRecompute t) s s) ∧
    (∀ (t : Sensors) (cs : List Nat) (r : Nat), s.power.uptime % 100000 = 0 → monitorOn s = true →
      cs = riskComps (s.modPower fun p => { p with sensors := t, highest := max p.highest t.die }) →
      r = min 65535 ((od s 0x7001 1 * cs[0]?.getD 0 + od s 0x7001 2 * cs[1]?.getD 0 + od s 0x7001 3 * cs[2]?.getD 0 +
        od s 0x7001 4 * cs[3]?.getD 0 + od s 0x7001 5 * cs[4]?.getD 0 + od s 0x7001 6 * cs[5]?.getD 0) / 16) →
      Answers (.riskRecompute t) s fun u => u.risk.risk = r ∧ u.risk.comps = cs ∧ u.risk.highest = max s.risk.highest r ∧
        u.power.sensors = t ∧ u.objs = s.objs ∧
        u.healthHigh = s.healthHigh + (if (s.risk.risk < od s 0x7002 1) ↔ (r < od s 0x7002 1) then 0 else 1) ∧
        (r < od s 0x7002 1 → u.jobs = s.jobs) ∧
        (s.risk.risk < od s 0x7002 1 → od s 0x7002 1 ≤ r →
          u.jobs = kmap s.jobs fun _ j => if j.stepBound = 0 then j else { j with armed := true })) ∧
    (∀ h, s.risk.risk < od s 0x7002 1 → Becomes (.riskRearmInterval h) s s) ∧
    (monitorOn s = false → (∀ t : Sensors, Becomes (.riskRecompute t) s s) ∧ ∀ h, Becomes (.riskRearmInterval h) s s) ∧
    (∀ h j x, monitorOn s = true → od s 0x7002 1 ≤ s.risk.risk → kget s.jobs h = some j → j.riskTime = some x → j.stepBound ≠ 0 →
      x + od s 0x7002 3 * 1000 ≤ s.power.uptime → Answers (.riskRearmInterval h) s fun u =>
        u = { s with jobs := u.jobs } ∧ kget u.jobs h = some { j with armed := true })

/-- 02 R46-R53, R528: heat halves each decay interval; a queued FLASH parcel with room is given a frame and goes to MIG_UP;
demotion starts above the high watermark and takes the coldest first; nothing moves while the flash quadrants are off; a migration
switches the descriptor when its pages are read or durable; a dirty parcel is written back after its delay. -/
def Obligations.ParcelsMoveBetweenTiers : Prop :=
  ∀ (s : State),
    (od s 0x3200 4 ≠ 0 → s.power.uptime % (od s 0x3200 4 * 1000) = 0 → Becomes .heatDecay s
      { s with parcels := kmap s.parcels fun _ p => { p with heat := p.heat / 2 } }) ∧
    (s.power.uptime % (od s 0x3200 4 * 1000) ≠ 0 → Becomes .heatDecay s s) ∧
    (∀ k p o, flashOn s = true → kget s.parcels k = some p → kget s.objs p.obj = some o → p.state = .flash → p.queued = true →
      quotaAllows s o.owner 65536 = true → Answers (.parcelPromotion k) s fun t =>
        kget t.parcels k = some { p with state := .migUp, frame := (allocFrame s).1, queued := false } ∧
        t.objs = s.objs ∧ t.dram.mem = s.dram.mem) ∧
    (∀ k p, kget s.parcels k = some p → p.state ≠ .flash → Becomes (.parcelPromotion k) s s) ∧
    (tierParcels s * 65536 * 100 ≤ od s 0x3200 5 * dramCapacity s → Becomes .parcelDemotion s s) ∧
    (flashOn s = true → od s 0x3200 5 * dramCapacity s < tierParcels s * 65536 * 100 →
      let excess := ceilDiv (tierParcels s * 65536 * 100 - od s 0x3200 6 * dramCapacity s) 6553600
      let cold := (((0xFF :: List.range 32).flatMap fun p => demotable s p) ++ spillable s).filter fun e =>
        decide (e.2.heat ≤ od s 0x3200 3)
      Becomes .parcelDemotion s (((sortBy colder cold).take excess).foldl (fun u e => demoteOrSpill u e.1) s)) ∧
    (flashOn s = false → Becomes .parcelDemotion s s ∧ ∀ k, Becomes (.parcelPromotion k) s s) ∧
    (∀ k p m, kget s.parcels k = some p → p.state = .migUp → s.flash.reads = [] → parcelFlash s k = some m →
      kget s.objs p.obj = none → Leaves (.migrationComplete k) s (bump ((s.modDram fun d => { d with
        mem := mcopy m 0 65536 d.mem (k * 65536) }).modParcel k fun p => { p with state := .dramClean, hasFlash := true }) 0x3201 3 1)) ∧
    (∀ k p, kget s.parcels k = some p → p.state = .migDown → (∃ x ∈ p.writing, pageClosed s x = false) →
      Becomes (.migrationComplete k) s s) ∧
    (∀ k p, kget s.parcels k = some p → p.state = .migDown → p.writing.all (pageClosed s) = true → Leaves (.migrationComplete k) s
      (overcommitEnded (bump (dropDram (spilledNow s p.obj) k .flash) 0x3201 4 1))) ∧
    (∀ k p o u, flashOn s = true → parcelObj s k = some (p, o) → o.volatile = false → od s 0x3200 0xA ≠ 0 →
      p.lastStore + od s 0x3200 0xA * 1000 ≤ s.power.uptime → p.state = .dramDirty → p.writing = [] → s.flash.readOnly = false →
      writeParcel s k false = some u → Becomes (.backgroundWriteBack k) s (awaitPages u (match kget u.parcels k with | some p => p.writing | none => []))) ∧
    (∀ k p o u, flashOn s = true → parcelObj s k = some (p, o) → o.volatile = false → (o.policy = 2 ∨ o.policy = 4) →
      p.lastStore + od s 0x3200 9 ≤ s.power.uptime → p.state = .dramDirty → p.writing = [] → s.flash.readOnly = false →
      writeParcel s k false = some u → Becomes (.stagedWriteBackDelay k) s (awaitPages u (match kget u.parcels k with | some p => p.writing | none => []))) ∧
    (∀ k p o, parcelObj s k = some (p, o) → o.volatile = true →
      Becomes (.backgroundWriteBack k) s s ∧ Becomes (.stagedWriteBackDelay k) s s)

/-! ## The flash tier (13) -/

/-- 13 R345, R347, R350, R365, R368: a program or erase that ends does so only on the die that runs it. A course whose last
position is programmed closes, which makes its pages durable and queues their map records; an earlier pass frees its die; a failed
program counts, and its block retires; an erased block is free with its count raised, and a failed erase retires the block; a
suspended die resumes when no read needs it. -/
def Obligations.DieOperationsEnd : Prop :=
  ∀ (s : State),
    (∀ c k, kget s.flash.courses c = some k → k.sent = 4 → dieRuns s (ppaDie (c * 4)) false c = true →
      (∀ i, i < 4 → ∀ p, kget s.flash.pages (c * 4 + i) = some p → p.kind ≠ .data) →
      Becomes (.courseProgramComplete c) s (afterOutcome (startDies (landParcels (s.modFlash fun f => { f with
        dies := kdel f.dies (ppaDie (c * 4)), courses := kdel f.courses c
        pages := kmod (kmod (kmod (kmod f.pages (c * 4) (fun p => { p with closed := true })) (c * 4 + 1) (fun p => { p with closed := true }))
          (c * 4 + 2) (fun p => { p with closed := true })) (c * 4 + 3) (fun p => { p with closed := true })
        blocks := kmod f.blocks (c / 1024) fun b => { b with closedAt := s.seq } }))))) ∧
    (∀ c k p lu, kget s.flash.courses c = some k → k.sent = 4 → dieRuns s (ppaDie (c * 4)) false c = true →
      kget s.flash.pages (c * 4) = some p → p.kind = .data → p.lu = lu → kget s.flash.map lu = some (c * 4) → kget s.flash.durMap lu = none →
      ∃ u, Becomes (.courseProgramComplete c) s (afterOutcome (startDies (landParcels u))) ∧
        (∃ n, (n, JRec.map lu (c * 4)) ∈ u.flash.jpend) ∧ u.flash.courses = kdel s.flash.courses c) ∧
    (∀ c k, kget s.flash.courses c = some k → k.sent ≠ 4 → dieRuns s (ppaDie (c * 4)) false c = true →
      Becomes (.courseProgramComplete c) s (startDies (s.modFlash fun f => { f with dies := kdel f.dies (ppaDie (c * 4)) }))) ∧
    (∀ c, dieRuns s (ppaDie (c * 4)) false c = false →
      Becomes (.courseProgramComplete c) s s ∧ Becomes (.programFailure c) s s) ∧
    (∀ c k, kget s.flash.courses c = some k → k.filled = 4 → dieRuns s (ppaDie (c * 4)) false c = true → k.waitedSince = none →
      ∃ u, Becomes (.programFailure c) s (afterOutcome (startDies (retireBlock u (c / 1024) 1))) ∧
        (s.flash.readOnly = false → ∀ x p, (x, p) ∈ u.flash.pages → x / 4 ≠ c)) ∧
    (∀ b, dieRuns s (b / 8192) true b = true → Becomes (.blockEraseComplete b true) s
      (startDies (jadd (s.modFlash fun f => { f with
        dies := kdel f.dies (b / 8192), pages := kfilter f.pages fun x _ => ppaBlock x != b
        blocks := kset f.blocks b { eraseCount := (blockOf s b).eraseCount + 1 } })
        (.block b { eraseCount := (blockOf s b).eraseCount + 1 })).2)) ∧
    (∀ b, dieRuns s (b / 8192) true b = true → Becomes (.blockEraseComplete b false) s
      (retireBlock (s.modFlash fun f => { f with
        dies := kdel f.dies (b / 8192), pages := kfilter f.pages fun x _ => ppaBlock x != b }) b 2)) ∧
    (∀ b ok, dieRuns s (b / 8192) true b = false → Becomes (.blockEraseComplete b ok) s s) ∧
    (∀ die d, kget s.flash.dies die = some d → d.held = true → d.suspended = false → d.startedAt + od s 0x2250 1 ≤ s.power.uptime →
      0 < suspenders s die → s.power.resetReq = none → d.suspends < (if d.erase then od s 0x2250 2 else od s 0x2250 3) →
      Answers (.suspendRunTime die) s fun t =>
        kget t.flash.dies die = some { d with suspended := true, suspends := d.suspends + 1, reads := 0, held := false } ∧
        cnt t 0x9050 0xB = cnt s 0x9050 0xB + 1 ∧ t.objs = s.objs) ∧
    (∀ die d, kget s.flash.dies die = some d → d.held = true → s.power.uptime < d.startedAt + od s 0x2250 1 →
      Becomes (.suspendRunTime die) s s) ∧
    (∀ die d, kget s.flash.dies die = some d → d.suspended = true → suspenders s die = 0 → Becomes (.dieResume die) s
      (s.modFlash fun f => { f with
        dies := kset f.dies die { d with suspended := false, startedAt := s.power.uptime, reads := 0 } })) ∧
    (∀ die d, kget s.flash.dies die = some d → 0 < suspenders s die → d.reads < 16 → Becomes (.dieResume die) s s)

/-- 13 R349, R353, R359, R360: the close timer pads a course that a durable event waits on; the journal's interval makes every
queued record durable in one page; a checkpoint writes the next segment's pages and its record. 13 R364-R367, R371: garbage
collection clears the full block with the fewest valid pages, wear levelling the one that closed first, refresh the block that
asked for it; none runs in the read-only state; patrol queues for refresh the blocks that read slowly. -/
def Obligations.FlashUpkeepActs : Prop :=
  (∀ (s : State),
     (∀ c k since, kget s.flash.courses c = some k → k.waitedSince = some since → since + od s 0x2231 0 ≤ s.power.uptime → k.filled ≤ 4 →
       Answers (.closeTimer c) s fun t => (kget t.flash.courses c).map (·.filled) = some 4 ∧
         cnt t 0x9050 4 = cnt s 0x9050 4 + (4 - k.filled) ∧ t.objs = s.objs ∧ t.dram = s.dram) ∧
     (∀ c k since, kget s.flash.courses c = some k → k.waitedSince = some since → s.power.uptime < since + od s 0x2231 0 →
       Becomes (.closeTimer c) s s) ∧
     (∀ since, s.flash.jsince = some since → since + od s 0x2210 0 ≤ s.power.uptime → canProgram s = true → s.flash.jpend ≠ [] →
       ∃ u, Becomes .journalInterval s (startDies (serveHeld (afterJournal u))) ∧ u.flash.jpend = [] ∧ u.flash.jsince = none ∧
         (∃ n, u.flash.journal = s.flash.journal ++ s.flash.jpend ++ [(n, .stream)]) ∧ cnt u 0x9050 5 = cnt s 0x9050 5 + 1) ∧
     (∀ since, s.flash.jsince = some since → s.power.uptime < since + od s 0x2210 0 → Becomes .journalInterval s s) ∧
     (flashOn s = false → Becomes .mapCheckpoint s s) ∧
     (flashOn s = true → Answers .mapCheckpoint s fun t => (∃ n ppas, (n, JRec.checkpoint s.flash.ckptNext ppas) ∈ t.flash.jpend) ∧
       t.flash.ckptNext = (if segmentCount s ≤ s.flash.ckptNext + 1 then 0 else s.flash.ckptNext + 1) ∧ t.flash.map = s.flash.map ∧
       t.objs = s.objs)) ∧
  (∀ (s : State),
     (s.flash.readOnly = true → (∀ plane, Becomes (.gcStart plane) s s ∧ Becomes (.wearLevel plane) s s) ∧ ∀ b, Becomes (.blockRefresh b) s s) ∧
     (∀ plane, s.flash.readOnly = false → canProgram s = true → (freeBlocks s plane).length ≤ od s 0x2240 2 → fullBlocks s plane ≠ [] →
       ∃ b, b ∈ fullBlocks s plane ∧ (∀ x, x ∈ fullBlocks s plane → (validPages s b).length ≤ (validPages s x).length) ∧
         Becomes (.gcStart plane) s (clearBlock s b true)) ∧
     (∀ plane, od s 0x2240 2 < (freeBlocks s plane).length → Becomes (.gcStart plane) s s) ∧
     (∀ plane x y, s.flash.readOnly = false → canProgram s = true → x ∈ planeBlocks s plane → y ∈ planeBlocks s plane →
       (blockOf s y).eraseCount + od s 0x2200 7 < (blockOf s x).eraseCount → fullBlocks s plane ≠ [] →
       ∃ b, b ∈ fullBlocks s plane ∧ (∀ z, z ∈ fullBlocks s plane → (blockOf s b).closedAt ≤ (blockOf s z).closedAt) ∧
         Becomes (.wearLevel plane) s (clearBlock s b false)) ∧
     (∀ b, s.flash.readOnly = false → canProgram s = true → s.flash.refreshQ.contains b = true → (fullBlocks s (b / 2048)).contains b = true →
       Becomes (.blockRefresh b) s (clearBlock s b false)) ∧
     (∀ b, s.flash.refreshQ.contains b = false → Becomes (.blockRefresh b) s s) ∧
     (∀ b, 1000000 < s.power.uptime → s.flash.patrolQ.contains b = true → (s.flash.pages.any fun e => ppaBlock e.1 == b) = true →
       Answers (.patrolRead [b]) s fun t => t.flash.refreshQ.contains b = true ∧ t.flash.patrolQ = [] ∧
         cnt t 0x9050 6 = cnt s 0x9050 6 + 1 ∧ t.flash.pages = s.flash.pages) ∧
     (∀ slow, 1000000 < s.power.uptime → s.flash.patrolQ = [] → Becomes (.patrolRead slow) s s))

/-- 13 R338, R339, R342, R343, R350, R368, 01 R23: a queued page read ends where its die is free and the quadrants run; its buffer
returns, but a page read ahead keeps it, and whoever asked goes on with the page; a page that needed further steps queues its
block for refresh, one that cannot be read is bad and its block retires unless it passes its test; a waiting request gets a
reserved buffer of its channel. -/
def Obligations.PageReadsEnd : Prop :=
  ∀ (s : State),
    (∀ ppa o, (∀ r, r ∈ s.flash.reads → r.ppa ≠ ppa ∨ r.use = .prefetch) → Becomes (.nandPageReadComplete ppa o) s s) ∧
    (∀ ppa o d, kget s.flash.dies (ppaDie ppa) = some d → d.suspended = false → Becomes (.nandPageReadComplete ppa o) s s) ∧
    (flashOn s = false → ∀ ppa o, Becomes (.nandPageReadComplete ppa o) s s) ∧
    (∀ ppa r, flashOn s = true → kget s.flash.dies (ppaDie ppa) = none →
      findFirst (fun r => r.ppa == ppa && r.use != .prefetch) s.flash.reads = some r →
      let ends := fun (o : ReadOutcome) =>
        let v := countRead (noteReadCauses (s.modFlash fun f => { f with
          reads := f.reads.erase r, dies := kmod f.dies (ppaDie ppa) fun d => { d with reads := d.reads + 1 } }) r o) ppa
        if r.use = .ahead then v else bermDone v (ppaChannel ppa) (readUser r.cls r.use) r.cls
      Leaves (.nandPageReadComplete ppa .hard) s (readServed (setBad (ends .hard) ppa false) r true) ∧
      Leaves (.nandPageReadComplete ppa .reread) s (readServed (readSteps (setBad (ends .reread) ppa false) ppa false) r true) ∧
      Leaves (.nandPageReadComplete ppa .soft) s (readServed (readSteps (setBad (ends .soft) ppa false) ppa true) r true) ∧
      (let v := unrecovered (setBad (readSteps (ends .failed) ppa true) ppa true) ppa
       Leaves (.nandPageReadComplete ppa .failed) s
        (readServed (if Config.blockTest (ppaBlock ppa) then v else retireBlock v (ppaBlock ppa) 3) r false))) ∧
    (∀ channel w, s.flash.bermWait = [w] → w.channel = channel → kcount s.flash.reservedUsed channel < 6 →
      Becomes (.bermBufferGrant channel) s (startDies (s.modFlash fun f => { f with
        reservedUsed := kset f.reservedUsed channel (kcount f.reservedUsed channel + 1), bermWait := [] }))) ∧
    (∀ channel, (∀ w, w ∈ s.flash.bermWait → w.channel ≠ channel) → Becomes (.bermBufferGrant channel) s s)

/-! ## Tables, searches, records and contexts (05-08, 10-12) -/

/-- 11 R288, R289, R292, R294-R298: the barrier waits for every contributor, for open transactions and for a slot; then it applies
each row's sum in source order and the applied step and the header version advance by one. An addition of another module needs
export, membership and the write right, and one at or below the applied step has no effect. A migration swaps the entry that it
read, and a slot is free again when no reader of its epoch is left. -/
def Obligations.TableEventsAct : Prop :=
  ∀ (s : State) (h : Nat) (o : Obj) (a : TableArea), liveObj s h = some o → tableArea s h = some a →
    (∀ m ∈ contributors s o a, kcount (s.tbl h).closed m ≤ a.applied + 1 → Becomes (.stepBarrier h) s s) ∧
    ((∀ m ∈ contributors s o a, a.applied + 1 < kcount (s.tbl h).closed m) →
      (∀ x ∈ (s.tbl h).pend, x.step = a.applied + 1 → x.tx ≠ 0 → (s.tbl h).waited = true → Becomes (.stepBarrier h) s s) ∧
      ((∀ x ∈ (s.tbl h).pend, x.step ≠ a.applied + 1) → (s.tbl h).held = [] → a.fixed = true → Answers (.stepBarrier h) s fun t =>
        kget t.objs h = some { o with area := .table { a with applied := a.applied + 1 }, version := o.version + 1 } ∧
        (t.tbl h).pend = (s.tbl h).pend ∧ t.dram = s.dram ∧ t.parcels = s.parcels) ∧
      (∀ x u p, (s.tbl h).pend = [x] → x.step = a.applied + 1 → x.tx = 0 → (u.tbl h).held = [] → a.fixed = true →
        applyRow s h x.row (rowDelta a.dim [x]) = some u → kget u.objs h = some p → p.area = o.area → Answers (.stepBarrier h) s fun t =>
          kget t.objs h = some { p with area := .table { a with applied := a.applied + 1 }, version := p.version + 1 } ∧
          (t.tbl h).pend = (u.tbl h).pend.filter (fun y => !(y.step == a.applied + 1 && y.row == x.row)) ∧
          t.dram = u.dram ∧ t.parcels = u.parcels) ∧
      (∀ x, (s.tbl h).pend = [x] → x.step = a.applied + 1 → x.tx = 0 → applyRow s h x.row (rowDelta a.dim [x]) = none →
        Answers (.stepBarrier h) s fun t => t.objs = s.objs ∧ (t.tbl h).pend = [x] ∧ (t.tbl h).stuck = some x.row ∧ t.dram = s.dram)) ∧
    (∀ x : RowAdd, x.table = h → (o.exported = false ∨ maskBit o.writeMask x.polder = false ∨ o.readOnly = true ∨ kget s.fabric.groups o.exportGroup = none) →
      Becomes (.rowAdditionMessage x) s (tookMsg (peerFail s x.polder) x.src)) ∧
    (∀ (x : RowAdd) (g : Group), x.table = h → o.exported = true → maskBit o.writeMask x.polder = true → o.readOnly = false →
      kget s.fabric.groups o.exportGroup = some g → (g.members.any fun m => m.1 == x.src) = true →
      (x.step ≤ a.applied → Becomes (.rowAdditionMessage x) s (tookMsg s x.src)) ∧
      (a.applied + od s 0x3D00 2 < x.step → Becomes (.rowAdditionMessage x) s
        (tookMsg (tblBump ((noteStep s h x.src x.step).modTbl h fun t => { t with held := t.held ++ [x] }) h 0xB 1) x.src)) ∧
      (a.applied < x.step → x.step ≤ a.applied + od s 0x3D00 2 → x.row = none →
        Becomes (.rowAdditionMessage x) s (tookMsg (noteStep s h x.src x.step) x.src)) ∧
      (∀ r u, a.applied < x.step → x.step ≤ a.applied + od s 0x3D00 2 → x.row = some r → r < a.rows → x.values.length = a.dim → x.tx = 0 →
        addRows s 0 h x.src x.step [(r, x.pos, x.values)] = (.ok, u) →
        Becomes (.rowAdditionMessage x) s (tookMsg (noteStep u h x.src x.step) x.src))) ∧
    (∀ r m, findFirst (fun x => x.row == r) (s.tbl h).migs = some m → rowEntry s o r ≠ m.entry → Becomes (.rowMigration h r) s
      (s.modTbl h fun t => { returnSlot t a m.slot m.cls with migs := (returnSlot t a m.slot m.cls).migs.filter fun x => x.row != r })) ∧
    (∀ r m u, findFirst (fun x => x.row == r) (s.tbl h).migs = some m → rowEntry s o r = m.entry →
      swapEntry s h o r m.cls m.slot = (true, u) → Becomes (.rowMigration h r) s
        (tblBump (u.modTbl h fun t => { t with migs := t.migs.filter fun x => x.row != r }) h
          (if m.cls < entryClass m.entry then 5 else 6) 1)) ∧
    (∀ r, findFirst (fun x => x.row == r) (s.tbl h).migs = none → (s.tbl h).migQ.contains r = false → Becomes (.rowMigration h r) s s) ∧
    (∀ slot cls tag, findFirst (fun r => r.1 == slot) (s.tbl h).released = some (slot, cls, tag) →
      (∀ r ∈ (s.tbl h).readers, readerLives s r = true → tag < r.2) → Becomes (.slotReclamation h slot) s
        (tblBump (s.modTbl h fun t => { returnSlot t a slot cls with released := t.released.erase (slot, cls, tag) }) h 8 1)) ∧
    (∀ slot cls tag, findFirst (fun r => r.1 == slot) (s.tbl h).released = some (slot, cls, tag) →
      (∃ r ∈ (s.tbl h).readers, readerLives s r = true ∧ r.2 ≤ tag) → Becomes (.slotReclamation h slot) s s)

/-- 12 R311, R313, R323, R330: a pass closes at the end of its window or when it is full, and its query is answered at the pass's
epoch; a list is compacted when enough of it is deleted; a shard's home refuses a query without the right, else it joins a pass;
the coordinator ends its command when the last shard has replied. -/
def Obligations.SearchEventsAct : Prop :=
  ∀ (s : State),
    (∀ id p, kget s.passes id = some p → now s < p.openedAt + od s 0x3E00 1 → p.queries.length < od s 0x3E00 2 →
      Becomes (.passBatchWindow id) s s) ∧
    (∀ id p q reg x u, kget s.passes id = some p → p.openedAt + od s 0x3E00 1 ≤ now s → p.queries = [q] → q.owner = .register reg →
      u = bumpB { s with passes := kdel s.passes id } (indexOwner s p.index) 0x9F00 2 1 →
      kget u.execs reg = some x → x.wait = .pass id → Becomes (.passBatchWindow id) s
        ((answerSearch u reg p.index p.epoch q).modIdx p.index fun st =>
          { st with snapshots := dropFirst (fun e => e == p.epoch) st.snapshots })) ∧
    (∀ h p, (∀ r ∈ (s.idx h).recs, r.partition ≠ p) → Becomes (.listCompaction h p) s (refreshIndex s h)) ∧
    (∀ h p r, (s.idx h).recs = [r] → r.partition = p → r.delEpoch ≠ 0 → kcount (s.idx h).intake p = 0 → od s 0x3E00 5 ≤ 100 →
      r.delEpoch ≤ horizon s h → ∃ u, Becomes (.listCompaction h p) s (refreshIndex u h) ∧ (u.idx h).recs = [] ∧ u.objs = s.objs) ∧
    (∀ q : ShardQ, liveObj s q.index = none → Becomes (.shardQuery q) s (tookMsg (giveReply (peerFail s q.polder) q.coord
      { shardReplyOf (peerFail s q.polder) q.index q.tag q.shard 0 none with status := 0x6002 }) q.coord)) ∧
    (∀ (q : ShardQ) o a, liveObj s q.index = some o → indexArea s q.index = some a → q.coord ≠ moduleId s → q.group = o.exportGroup →
      peerRight s o q.coord q.polder false = true → a.sharded = false → q.query.length = vectorBytes a + 64 →
      Becomes (.shardQuery q) s (tookMsg (joinPass s q.index a.epoch
        [⟨.shard q.coord q.tag q.shard, q.query, q.k, q.cap, q.lists, 0, q.polder⟩] (od s 0x3E00 2)).2 q.coord)) ∧
    (∀ (r : ShardR) w a, s.fabric.reqs = [] → kget s.fabric.shardWaits r.tag = some w → w.replies = [] → w.failures = [] →
      (2 ≤ w.homes.length → Answers (.shardReply r) s fun t =>
        kget t.fabric.shardWaits r.tag = some { w with replies := [r] } ∧ t.execs = s.execs) ∧
      (w.homes.length = 1 → indexArea s w.index = some a → replyStatus a r ≠ 0 → Becomes (.shardReply r) s
        (setWait (s.modFab fun f => { f with shardWaits := kdel f.shardWaits r.tag }) w.reg (.ready (replyStatus a r) 0))) ∧
      (w.homes.length = 1 → indexArea s w.index = none → Becomes (.shardReply r) s
        (setWait (s.modFab fun f => { f with shardWaits := kdel f.shardWaits r.tag }) w.reg (.ready 0x5001 0))))

/-- 05 R133, R138, R147, R150, R151, R157-R162, 12 R326, R327: a heavy record, ROWFN, ELEMWISE, GATHER, SCATTER_ADD, SKETCH_SCAN,
RERANK, TOPK_MERGE, INTERSECT, SORT or NEIGHBOURS whose context issues runs its operation, and its outcome follows. One that ends
well completes the record, with the fret that FRET_AFTER asks for, or waits for its stores at other modules or for its pass; a
fault, a desync, an aborted transaction, a stall and page reads end it each in its way. Where the module has no such context
nothing happens. 05 R132, R160, R161, 12 R327: what the list records write. Where their lists can be read and no input lies under
the output, INTERSECT of two ascending lists writes their intersection, union or difference; SORT writes its elements in the order
of their keys, equal keys in input order, and uses Temp where its input is larger than the share; TOPK_MERGE keeps the k nearest
of all its lists. -/
def Obligations.RecordsComplete : Prop :=
  (∀ (i : Instr) (x : CtxId) (r : BitVec 512) (m : Eng Unit) (s : State), operationOf i = some (x, r, m) →
     (getCtx s x = none → Becomes i s s) ∧
     ∀ j c, Issuing s x j c →
       let t := started i s x
       Becomes i s (recordOutcome t x (fretAfter r) (m.run.run t)) ∧
       (∀ u, Runs m t () u → Becomes i s (carriedOut u x r) ∧ ∀ k d, getCtx (endStall u x) x = some (k, d) →
         (d.awaiting = 0 → d.wait = .none → carriedOut u x r = recordDone (endStall u x) x (fretAfter r)) ∧
         (0 < d.awaiting → carriedOut u x r = holdRecord (endStall u x) x [] (storesWait (fretAfter r))) ∧
         (d.awaiting = 0 → d.wait ≠ .none → carriedOut u x r = repick (endStall u x) x false)) ∧
       (∀ u code off, Stops m t (.fault code off) u → Becomes i s (ctxFault (endStall u x) x code off)) ∧
       (∀ u v k d, Stops m t .desync u → v = beginEnd (endStall u x) x.job 0x1011 → getCtx v x = some (k, d) →
         d.awaiting = 0 → d.wait = .none → Becomes i s (recordDone v x (fretAfter r))) ∧
       (∀ u status, Stops m t (.aborted status) u → Becomes i s (ctxAborted (endStall u x) x status)) ∧
       (∀ u cause, Stops m t (.waits cause) u →
         Becomes i s (holdRecord u x (if cause = 0 then [] else [cause]) (.stall cause))) ∧
       (∀ u pages causes, Stops m t (.reads pages causes) u → Becomes i s (waitPages t x pages causes))) ∧
  (∀ (x : CtxId) (r : BitVec 512) (s : State) (j : Job) (c : Ctx), Issuing s x j c →
     let f := fld r 5 1
     (∀ a b out s1 s2 s3 s4 s5, let t := started (.intersect x r) s x
       let l := combine (fld r 4 1) a b
       Runs (loadSet x (tracks r) (oref t x (fld r 8 8)) f) t a s1 → Runs (loadSet x (tracks r) (oref t x (fld r 0x10 8)) f) s1 b s2 →
       Runs (outList x (tracks r) (oref t x (fld r 0x18 8))) s2 out s3 →
       listOverlaps t out f l.length (oref t x (fld r 8 8)) f a.length = false →
       listOverlaps t out f l.length (oref t x (fld r 0x10 8)) f b.length = false →
       Runs (prepList x out f (idElems f l) false) s3 () s4 → Runs (saveLists x [(out, idElems f l, 2)]) s4 () s5 →
       Becomes (.intersect x r) s (carriedOut s5 x r) ∧
       ∀ n, n ∈ l ↔ match fld r 4 1 with | 0 => n ∈ a ∧ n ∈ b | 1 => n ∈ a ∨ n ∈ b | _ => n ∈ a ∧ n ∉ b) ∧
     (∀ (l : Lst) out s1 s2 s3 s4 s5, let t := started (.sort x r) s x
       let (w, n) := (fld r 6 1, l.elems.length)
       let res := sorted r l.elems
       let larger := (shareOf t x).2 < n * w
       Runs (loadList x (tracks r) (oref t x (fld r 8 8)) w) t l s1 → Runs (outList x (tracks r) (oref t x (fld r 0x10 8))) s1 out s2 →
       (larger → fld r 0x18 8 ≠ 0) → listOverlaps t out w res.length (oref t x (fld r 8 8)) w n = false →
       (¬ larger → s3 = s2) →
       (larger → rangesOverlap (oref t x (fld r 0x18 8)) (n * w) (listRef t (oref t x (fld r 8 8))) (listSize t (oref t x (fld r 8 8)) w n) = false ∧
         Runs (useTemp x (oref t x (fld r 0x18 8)) (n * w)) s2 () s3) →
       Runs (prepList x out w res false) s3 () s4 →
       Runs (saveLists x [(out, res, if bitAt (fld r 7 1) 0 && f == 0 then 2 else 0)]) s4 () s5 →
       Becomes (.sort x r) s (carriedOut s5 x r) ∧
       (bitAt (fld r 7 1) 0 = false → res.Perm l.elems) ∧
       (f = 0 → res.Pairwise fun a b => sortKey (fld r 4 1) a ≤ sortKey (fld r 4 1) b) ∧
       (f ≠ 0 → res.Pairwise fun a b => sortKey (fld r 4 1) b ≤ sortKey (fld r 4 1) a)) ∧
     (∀ out elems trunc s1 s2 s3 s4, let t := started (.topkMerge x r) s x
       let merged := mergeTop (fld r 4 2) elems
       Runs (outList x (tracks r) (oref t x (fld r 0x18 8))) t out s1 → Runs (topkLists x r out) s1 (elems, trunc) s2 →
       Runs (prepList x out 16 (merged.map fun e => resultElem e.1 e.2) false) s2 () s3 →
       Runs (saveLists x [(out, merged.map fun e => resultElem e.1 e.2, if trunc then 1 else 0)]) s3 () s4 →
       Becomes (.topkMerge x r) s (carriedOut s4 x r) ∧ merged.length ≤ fld r 4 2 ∧ (merged.map (·.2.1)).Nodup))

/-- 05 R133, R134, 07 R188-R204, 08 R218-R222, R227-R229, 10 R257, R258: MATMUL, MATMUL_T, GRADPAIR and MATMUL_PAIR carry out
their products. Where the operands can be read, their scale streams agree with the formats, no input lies under an output, the
working storage fits and the outputs can be stored, the outputs are written from the product, and the record completes; where
sequences of a block differed, the job ends with 0x1011 beside it. 05 R133, 08 R212, R225, R230: ROWFN puts the rows of A through
its chain and ELEMWISE its elements. Where the operands can be read, their blocks are in sequence, no input lies under an output,
the working storage fits and the output can be stored, the output is written and the record completes. -/
def Obligations.MatrixRecordsComplete : Prop :=
  (∀ (x : CtxId) (r : BitVec 512) (s : State) (j : Job) (c : Ctx), Issuing s x j c →
     let t := started (.matmul x r) s x
     let tr := tracks r
     let ends := fun (i : Instr) (desynced : Bool) (u : State) =>
       if desynced then Becomes i s (recordOutcome t x (fretAfter r) (.error .desync, u)) else Becomes i s (carriedOut u x r)
     (∀ (i : Instr) (transposed : Bool), (i, transposed) ∈ [(Instr.matmul x r, false), (Instr.matmulT x r, true)] →
       let u := matmulUse t x r transposed
       ∀ (l : MatmulIn) (p : Places) (s1 s2 s3 s4 s5 s6 s7 : State),
         Runs (loadMat x tr u.a) t l.a s1 → Runs (loadMat x tr u.b) s1 l.b s2 → l.a.streamWrong = false → l.b.streamWrong = false →
         Runs (loadArgs x tr u.shapeIn u.chain.pro) s2 l.pro s3 → Runs (loadArgs x tr u.shapeOut u.chain.epi) s3 l.epi s4 →
         Runs (loadInit x tr (bitAt (fld r 7 1) 0) u.c) s4 l.init s5 → Runs (loadOld x u.c (u.final t x l.epi).2.isSome) s5 l.old s6 →
         apart (u.outs t x l) (u.ins t x l) = true → u.places t x r l = some p →
         let o := u.out t x r l
         Runs (writeOutputs x (u.results t x l o) (u.vector t x o)) (drainBefore s6 x (u.ins t x l ++ u.outs t x l)) () s7 →
         ends i o.tot.desynced (u.leave s7 t x r l p o)) ∧
     (let u := gradUse t x r
       ∀ (l : GradIn) (p q : Places) (s1 s2 s3 s4 s5 s6 s7 s8 s9 : State),
         Runs (loadMat x tr u.w) t l.w s1 → Runs (loadMat x tr u.dy) s1 l.dy s2 → Runs (loadMat x tr u.h) s2 l.h s3 →
         l.w.streamWrong = false → l.dy.streamWrong = false → l.h.streamWrong = false →
         Runs (loadArgs x tr u.shape u.chain.epi) s3 l.epi s4 → Runs (loadInit x tr (bitAt (fld r 0x3E 1) 0) u.dx) s4 l.initX s5 →
         Runs (loadInit x tr (bitAt (fld r 0x3E 1) 1) u.da) s5 l.initA s6 → Runs (loadOld x u.dx (u.final t x l.epi).2.isSome) s6 l.oldX s7 →
         Runs (loadOld x u.da false) s7 l.oldA s8 → apart (u.outsX t x l ++ u.outsA l) (u.ins t x l) = true →
         apart (u.outsA l) (u.outsX t x l) = true → u.placesX t x l = some p → u.placesA t x l = some q →
         let o := u.outX t x l
         let a := u.outA t l
         Runs (writeOutputs x (u.results t x l o a) none) (drainBefore s8 x (u.operands t x l)) () s9 →
         ends (.gradpair x r) (o.tot.desynced || a.desynced) (u.leave s9 t x r l p q o a)) ∧
     (let u := pairUse t x r
       ∀ (l : PairIn) (p : Places) (s1 s2 s3 s4 s5 s6 s7 s8 : State),
         Runs (loadMat x tr u.a) t l.a s1 → Runs (loadMat x tr u.b1) s1 l.b1 s2 → Runs (loadMat x tr u.b2) s2 l.b2 s3 →
         l.a.streamWrong = false → l.b1.streamWrong = false → l.b2.streamWrong = false →
         Runs (loadArgs x tr u.shapeIn u.chain.pro) s3 l.pro s4 → Runs (loadArgs x tr u.shapeS u.before) s4 l.pre s5 →
         Runs (loadArgs x tr u.shapeO u.after) s5 l.post s6 → Runs (loadOld x u.c (u.final t x l.post).2.isSome) s6 l.old s7 →
         apart (u.outs t x l) (u.ins t x l) = true → u.places t x r l = some p →
         let o := u.out t x r l
         Runs (writeOutputs x (u.results t x l o) none) (drainBefore s7 x (u.ins t x l ++ u.outs t x l)) () s8 →
         ends (.matmulPair x r) o.tot.desynced (u.leave s8 t x r l p o))) ∧
  (∀ (x : CtxId) (r : BitVec 512) (s : State) (j : Job) (c : Ctx) (l : RowIn) (s1 s2 s3 s4 s5 s6 : State), Issuing s x j c →
     let t := started (.rowfn x r) s x
     let tr := tracks r
     (∀ u : RowUse, u = rowUse t x r →
       Runs (loadMat x tr u.a) t l.a s1 → Runs (checkSync x l.a) s1 () s2 → Runs (loadArgs x tr u.shape u.chain.epi) s2 l.epi s3 →
       Runs (loadOld x u.c (u.final t x l.epi).2.isSome) s3 l.old s4 → apart (u.outs t x l) (u.ins t x l) = true →
       ∀ p, u.places t x l = some p →
       let o := u.out t x l
       Runs (writeOutputs x (u.results t x l o) (u.vector t x o)) s4 () s5 →
       Becomes (.rowfn x r) s (carriedOut (u.leave s5 x p o) x r)) ∧
     (∀ u : ElemUse, u = elemUse t x r →
       Runs (loadMat x tr u.a) t l.a s1 → Runs (checkSync x l.a) s1 () s2 → Runs (loadArgs x tr u.shape u.chain.epi) s2 l.epi s3 →
       Runs (loadOld x u.c (u.final t x l.epi).2.isSome) s3 l.old s4 → apart (u.outs t x l) (u.ins t x l) = true →
       let p := u.plan s4 t x l
       p.wrong = false → Runs (prepPlan x p) s4 () s5 → Runs (watching x p.stores (doPlan x p)) s5 () s6 →
       Becomes (.elemwise x r) s (carriedOut (countChain s6 x 1 0 0 (u.out t x l).2) x r)))

/-- 05 R157: GATHER copies the rows that its list names to its destination, each at its pitch, a zero row for the sentinel. Where
the list and the rows can be read, every index lies below the limit, the destination lies over neither and can be stored to, the
record completes. 05 R158, R159, 11 R295, R296: SCATTER_ADD adds its source rows to the rows that its list names: to rows of this
module each is written once with its sum; to a TABLE they go through the combiner of the step; to another module they are sent.
Where the list and the source can be read, every index lies below the limit and the destination can be stored to, the record
completes. 05 R162: NEIGHBOURS writes the neighbours of its frontier, without the excluded ids. Where the graph, the frontier and
the excluded ids can be read, every vertex exists, no output lies over an input and the lists can be stored, the record completes.
12 R326, R327, R317-R319: SKETCH_SCAN opens a pass of its queries at an epoch of its index, for which the context waits; RERANK
writes the elements that its index's home computes. Where the index may be read, the query block, candidates and lists can be read
and lie apart, each does so. -/
def Obligations.IrregularRecordsComplete : Prop :=
  (∀ (x : CtxId) (r : BitVec 512) (s : State) (j : Job) (c : Ctx), Issuing s x j c →
     let t := started (.gather x r) s x
     let g := gatherUse t x r
     let dst := oref t x (fld r 0x18 8)
     ∀ ids s1, Runs (indices x (tracks r) (oref t x (fld r 0x10 8)) g.w g.limit g.sentinel) t ids s1 →
     (ids = [] → Becomes (.gather x r) s (carriedOut (gatherEnd s1 x) x r)) ∧
     (ids ≠ [] → gatherClash t x r ids = false → ∀ rows s2 s3 s4, Runs (gatherRows x (tracks r) g ids) s1 rows s2 →
       Runs (prepRef x dst 0 (rowsSpan ids.length ((rows.map (·.length)).foldl max g.bytes))) s2 () s3 →
       Runs (saveAll x (gatherStores dst g.bytes rows)) s3 () s4 →
       Becomes (.gather x r) s (carriedOut (gatherEnd s4 x) x r))) ∧
  (∀ (x : CtxId) (r : BitVec 512) (s : State) (j : Job) (c : Ctx), Issuing s x j c →
     let t := started (.scatterAdd x r) s x
     let u := scatterUse t x r
     ∀ ids adds s1 s2, Runs (indices x (tracks r) u.ix u.w u.limit (bitAt (fld r 6 1) 0)) t ids s1 →
     Runs (scatterRows x (tracks r) u ids) s1 adds s2 →
     let rows := byRow (adds.map fun e => (e.1, e.2.2))
     let done := fun v => Becomes (.scatterAdd x r) s (carriedOut v x r)
     (remoteTable t u.dst = none → tableOf t u.dst = none → scatterClash t u ids.length adds = false →
       ((∀ h, u.dst.space = .obj h → homeOf h = moduleId t) → ∀ all s3 s4 s5,
         Runs (rows.forM fun e => prepRef x u.dst (e.1 * u.stride) u.bytes) s2 () s3 → Runs (scatterSums x (tracks r) u rows) s3 all s4 →
         Runs (saveAll x (all.map (·.2))) s4 () s5 →
         done (bumpB s5 (jobPolder s5 x.job) 0x9D00 7 ((all.map (·.1)).foldl (· + ·) 0))) ∧
       (∀ h s3, u.dst.space = .obj h → homeOf h ≠ moduleId t → Runs (scatterAway x u h adds) s2 () s3 → done s3)) ∧
     (∀ h o a o' v w, remoteTable t u.dst = none → tableOf t u.dst = some (h, o, a) → Runs (storeTarget x h 0 0) s2 (some o') v →
       stepWindow v a (fld r 0x30 4) = .ok →
       addRows v (ctxTx v x) h (moduleId v) (fld r 0x30 4) ((combinerRows t x r adds).map fun e =>
         (e.1, e.2.1, (e.2.2 ++ List.replicate a.dim 0).take a.dim)) = (.ok, w) →
       done (noteStep w h (moduleId w) (fld r 0x30 4))) ∧
     (∀ h, remoteTable t u.dst = some h → reaches s2 (homeOf h) = true → ctxTx s2 x = 0 →
       done (sendRows s2 x h (fld r 0x30 4) 0 (combinerRows t x r adds)))) ∧
  (∀ (x : CtxId) (r : BitVec 512) (s : State) (j : Job) (c : Ctx), Issuing s x j c →
     let t := started (.neighbours x r) s x
     ∀ (g : GraphArea) (l : GraphIn) (s1 s2 s3 : State), graphOf t (oref t x (fld r 8 8)) = some g → Runs (graphIn x r g) t l s1 →
     (∀ e ∈ l.lists r g, l.clash t x r g e.2.1 e.1 (l.kept (bitAt (fld r 4 1) 0)).length = false) →
     Runs ((l.lists r g).forM fun e => prepList x e.2.1 e.1 e.2.2.1 true) s1 () s2 → Runs (saveLists x ((l.lists r g).map (·.2))) s2 () s3 →
     Becomes (.neighbours x r) s (carriedOut s3 x r) ∧
     ∀ n, n ∈ (l.found (bitAt (fld r 4 1) 0)).map (·.1) ↔ (∃ q ∈ l.runs, ∃ e ∈ q.2, e.1 = n) ∧ n ∉ l.exclude) ∧
  (∀ (x : CtxId) (r : BitVec 512) (s : State) (j : Job) (c : Ctx), Issuing s x j c →
     let t := started (.rerank x r) s x
     ∀ h a s1, Runs (indexOf x (fld r 8 8)) t (h, a) s1 →
     (∀ block s2 s3 epoch s4, let stride := vectorBytes a + 64
       Runs (loadRef x (tracks r) (oref s1 x (fld r 0x10 8)) 0 (fld r 4 2 * stride)) s1 block s2 →
       Runs (checkCandidates x r stride) s2 () s3 → homeOf h = moduleId s1 → scanEpoch s3 h a (fld r 0x24 4) = (epoch, s4) →
       Becomes (.sketchScan x r) s (carriedOut (scanBegun s4 x h epoch (scanQueries s1 x r stride block) (fretAfter r)) x r)) ∧
     (∀ block b s2 s3 s4 s5, let (n, cap, stride) := (fld r 4 2, fld r 0x20 2, vectorBytes a + 64)
       Runs (loadRef x (tracks r) (oref s1 x (fld r 0x10 8)) 0 (n * stride)) s1 block s2 →
       Runs (checkCandidates x r stride) s2 () s3 → homeOf h ≠ moduleId s1 →
       Runs (askHome x (tracks r) h 3 scanCode (n * stride) (n + cap * 65536 + fld r 6 2 * 4294967296 +
         (if tracks r then 281474976710656 else 0) + fld r 0x24 4 * 18446744073709551616) (mread block 0 (n * stride))) s3 b s4 →
       Runs ((parseScan n (b.drop 8)).forM fun e => writeCandList x (tracks r) (fld r 0x18 8) cap e.position e.epoch e.elems e.truncated) s4 () s5 →
       Becomes (.sketchScan x r) s (carriedOut s5 x r)) ∧
     (∀ q l out epoch elems s2 s3 s4 s5 s6 s7 s8, let (cr, qr, n) := (oref s1 x (fld r 0x18 8), oref s1 x (fld r 0x10 8), fld r 4 2)
       Runs (loadRef x (tracks r) qr 0 (vectorBytes a)) s1 q s2 → Runs (loadList x (tracks r) cr 16) s2 l s3 →
       Runs (outList x (tracks r) (oref s1 x (fld r 0x20 8))) s3 out s4 →
       listOverlaps s1 out 16 n cr 16 l.elems.length = false → rangesOverlap out.ref (out.bytes 16 n) qr (vectorBytes a) = false →
       Runs (candEpoch (listRef s1 cr)) s4 epoch s5 → Runs (rerankElems x r h a epoch (mread q 0 (vectorBytes a)) l) s5 elems s6 →
       Runs (prepList x out 16 elems false) s6 () s7 → Runs (saveLists x [(out, elems, l.flags % 2)]) s7 () s8 →
       Becomes (.rerank x r) s (carriedOut s8 x r)))

/-- 05 R139, R140, R142, R145-R147, R150, 10 R264, 15 R414: the records that steer a context. TX_BEGIN opens a transaction and
sets the restart point; nested it is a context fault, as TX_COMMIT without one is; LOOP adds to its register and goes on at its
target below the limit; FRET takes a fret; WAIT_EVENT goes on where its event has occurred and waits where it has not; SECURE
commits, then waits at the barrier; a COLLECTIVE sends its part and waits for the others. -/
def Obligations.SteeringRecordsAct : Prop :=
  ∀ (x : CtxId) (r : BitVec 512) (s : State) (j : Job) (c : Ctx), Issuing s x j c →
    let t := started (.fret x r) s x
    (∀ l u, c.tx = none → beginTx t (.context x.job x.idx (jobPolder t x.job)) = some (l, u) → Becomes (.txBeginRecord x r) s
      (recordDone (modCtx u x fun c => { c with
        tx := some l, onAbort := fld r 6 1, retryLimit := if fld r 4 2 = 0 then od u 0x3400 1 else fld r 4 2
        rpRec := c.recIdx, rpX := c.x }) x (fretAfter r))) ∧
    (∀ l, c.tx = some l → Becomes (.txBeginRecord x r) s (ctxFault t x 10 0)) ∧
    (c.tx = none → beginTx t (.context x.job x.idx (jobPolder t x.job)) = none → Becomes (.txBeginRecord x r) s
      (repick (modCtx t x fun c => { c with wait := .stall 10, waitSince := t.power.uptime }) x false)) ∧
    (c.tx = none → Becomes (.txCommitRecord x r) s (ctxFault t x 10 0)) ∧
    (∀ l y, c.tx = some l → kget t.txs l = some y → Becomes (.txCommitRecord x r) s (repick (startCommit (modCtx t x fun c =>
      { c with wait := .commit l, waitSince := t.power.uptime, atFret := false }) l) x false)) ∧
    Becomes (.fret x r) s (recordDone t x true) ∧
    (∀ v, v = c.x[fld r 4 1 - 1]?.getD 0 + BitVec.ofNat 64 (fld r 8 8) →
      (v.toNat < fld r 0x10 8 → Becomes (.loop x r) s
        (recordTo (modCtx t x fun c => { c with x := c.x.set (fld r 4 1 - 1) v }) x (fld r 0x20 4) (fretAfter r))) ∧
      (fld r 0x10 8 ≤ v.toNat → Becomes (.loop x r) s (recordDone (modCtx t x fun c =>
        { c with x := c.x.set (fld r 4 1 - 1) (BitVec.ofNat 64 (fld r 0x18 8)) }) x (fretAfter r)))) ∧
    (fld r 4 1 = 1 → Becomes (.waitEvent x r) s (waitAt t x (.jobBarrier (fld r 0x10 8)) (fld r 0x18 4) (fld r 0x1C 4))) ∧
    (∀ h o, fld r 4 1 = 2 → (oref t x (fld r 8 8)).space = .obj h → homeOf h = moduleId t → liveObj t h = some o →
      canRead o (jobPolder t x.job) = true →
      (fld r 0x10 8 ≤ o.version → Becomes (.waitEvent x r) s (recordDone t x (fretAfter r))) ∧
      (o.version < fld r 0x10 8 → Becomes (.waitEvent x r) s
        (waitAt t x (.objVersion h (fld r 0x10 8)) (fld r 0x18 4) (fld r 0x1C 4)))) ∧
    (∀ h, fld r 4 1 = 2 → (oref t x (fld r 8 8)).space = .obj h → homeOf h = moduleId t → liveObj t h = none →
      Becomes (.waitEvent x r) s (ctxFault (dikeFail t (jobPolder t x.job)) x 2 0)) ∧
    (c.tx = none → Becomes (.secure x r) s (secureCheck (waitAt t x (.secureBarrier (fld r 0x18 4) false) 0 0) x.job)) ∧
    (∀ l y, c.tx = some l → kget t.txs l = some y → Becomes (.secure x r) s (repick (startCommit (modCtx t x fun c =>
      { c with wait := .secureCommit l (fld r 0x18 4), waitSince := t.power.uptime, atFret := false }) l) x false)) ∧
    (∀ g m u, collOf s x r = none → kget t.fabric.groups (collGroup t x r) = some g → groupUsable t (collGroup t x r) = true →
      unreached t g = false → collHeld g = false → collFault t x r (collGroup t x r) g = none →
      Runs (loadRef x (tracks r) (oref t x (fld r 0x10 8)) 0 (fld r 0x20 8)) t m u →
      Becomes (.collective x r) s (collNow (carriedOut (collBegun u x r g (collPart t r (collGroup t x r) g m)) x r) x)) ∧
    (collOf s x r = none → (kget t.fabric.groups (collGroup t x r) = none ∨ groupUsable t (collGroup t x r) = false) →
      Becomes (.collective x r) s (collNow (ctxFault (endStall t x) x 11 0) x))

/-- 05 R140, R142, R143, R147, 10 R271-R273, 15 R418: a fret is inserted after 64 Ki cycles and falls at the program's spacing; a
retry goes on when its backoff has passed; a waiting context goes on at its event, at its timeout with the target it named, or
when all wait at its barrier; a securing whose record is durable is published. -/
def Obligations.ContextEventsAct : Prop :=
  ∀ (s : State) (x : CtxId),
    (∀ j c, getCtx s x = some (j, c) →
      (c.atFret = false → c.held = false → c.ended = false → c.resident.isSome = true → (issues s x = true ∨ c.wait.beforeStep = true) →
        65536 ≤ (s.power.uptime - c.fretAt) * s.power.arr * 125 / 2 →
        Becomes (.insertedFret x) s (doFret (bumpB s (jobPolder s x.job) 0x9700 5 1) x)) ∧
      ((s.power.uptime - c.fretAt) * s.power.arr * 125 / 2 < 65536 → Becomes (.insertedFret x) s s) ∧
      (c.wait = .none → c.ended = false → 0 < (jobProgram s x.job).fretSpacing →
        (jobProgram s x.job).fretSpacing ≤ c.sinceFret → Becomes (.fretSpacing x) s (doFret s x)) ∧
      (c.sinceFret < (jobProgram s x.job).fretSpacing → Becomes (.fretSpacing x) s s) ∧
      (∀ t, c.wait = .backoff t → t ≤ s.power.uptime → Becomes (.retryBackoff x) s
        (repick (modCtx s x fun c => { c with wait := .none }) x false)) ∧
      (∀ t, c.wait = .backoff t → s.power.uptime < t → Becomes (.retryBackoff x) s s) ∧
      (c.wait.ofEvent = true → c.timeout ≠ 0 → c.waitSince + c.timeout ≤ s.power.uptime → Becomes (.waitEventTimeout x) s
        (recordTo (modCtx s x fun c => { c with wait := .none, timeout := 0 }) x c.timeoutTarget
          (presentFretAfter s x))) ∧
      (c.timeout = 0 → Becomes (.waitEventTimeout x) s s) ∧
      (∀ h v o, c.wait = .objVersion h v → homeOf h = moduleId s → kget s.objs h = some o →
        (v ≤ o.version → Becomes (.waitEventWake x) s
          (recordDone (modCtx s x fun c => { c with wait := .none, timeout := 0 }) x (presentFretAfter s x))) ∧
        (o.version < v → Becomes (.waitEventWake x) s s)) ∧
      (∀ v, j.ctxs = [c] → x.idx = 0 → c.ended = false →
        (c.wait = .jobBarrier v → Becomes (.jobBarrierComplete x.job v) s (wakeCtx s x)) ∧
        (c.wait ≠ .jobBarrier v → Becomes (.jobBarrierComplete x.job v) s s)) ∧
      (∀ t off n risk k, j.securing = some t → j.secStaged = some (off, n, risk) → j.secRecord = some k →
        (k ≤ s.flash.jdone → Becomes (.securing x.job) s (securePublish s x.job t off n risk)) ∧
        (s.flash.jdone < k → Becomes (.securing x.job) s s))) ∧
    (∀ g v d, kget s.fabric.groups g = some d →
      (groupUsable s g = true → d.held = false → atGroupBarrier s g v = [x] → Becomes (.groupBarrierComplete g v) s (wakeCtx s x)) ∧
      (d.held = true → Becomes (.groupBarrierComplete g v) s s))

/-- 05 R153, R154, 06 R175, R179-R181: a polder's waiting context is placed on the core the manual prefers; a new job with all its
contexts or not at all; without room, and where the polder allows it, others are evicted; at the end of its slice an issuing
context gives way at a fret to another of its priority; a core whose residents all wait past the threshold has the fewest evicted
that let a waiting one be placed; a prefetched page arrives, or is dropped. -/
def Obligations.PlacementActs : Prop :=
  ∀ (s : State),
    (∀ p, waiting s p = [] → Becomes (.contextPlacement p) s (applyStep s)) ∧
    (∀ p x j k c, waiting s p = [x] → getCtx s x = some (j, c) → c.resident = none → j.started = true → coreFor s x = some k →
      Becomes (.contextPlacement p) s (applyStep (placeOn s x k))) ∧
    (∀ p x j c, waiting s p = [x] → getCtx s x = some (j, c) → c.resident = none → j.started = false →
      Becomes (.contextPlacement p) s (applyStep ((placeAll s x.job).getD s))) ∧
    (∀ p, (od s (0x3000 + p) 8).testBit 0 = false → Becomes (.contextEviction p) s s) ∧
    (∀ p w j c, (od s (0x3000 + p) 8).testBit 0 = true → (∀ k, leaving s k = []) → waiting s p = [w] → getCtx s w = some (j, c) →
      c.resident = none →
      ((placeList s (placedWith s w)).isSome = true → Becomes (.contextEviction p) s s) ∧
      (∀ out, placeList s (placedWith s w) = none → evictPlan s w (placedWith s w).length (fun _ => true) false = some out →
        Becomes (.contextEviction p) s (out.foldl (fun u x => evictNow u x 3) s))) ∧
    (∀ k x y j c, (s.core k).residents = [x, y] → (s.core k).issuing = some x → x ≠ y → runnable s x = true → runnable s y = true →
      ctxPriority s x = ctxPriority s y → getCtx s x = some (j, c) → c.atFret = true →
      od s 0x3100 1 ≤ c.turn + (match (s.core k).runSince with | some t => s.power.uptime - t | none => 0) →
      Answers (.timeSliceExpiry k) s fun t => (t.core k).issuing = some y) ∧
    (∀ k, (s.core k).issuing = none → Becomes (.timeSliceExpiry k) s s) ∧
    (∀ k x, x ∈ (s.core k).residents → runnable s x = true → Becomes (.blockedResidentThreshold k) s s) ∧
    (∀ k p t w out, polderOfCore s k = some p → (s.core k).residents ≠ [] → (∀ x ∈ (s.core k).residents, blocked s x = true) →
      (s.core k).blockedSince = some t → t + od s 0x3104 0 * 1000 ≤ s.power.uptime → (od s (0x3000 + p) 8).testBit 0 = true →
      waiting s p = [w] → placeList s (placedWith s w) = none →
      evictPlan s w (placedWith s w).length (· == k) true = some out →
      Becomes (.blockedResidentThreshold k) s (out.foldl (fun u x => evictNow u x 4) s)) ∧
    (∀ k id ok b v, (∀ p ∈ (s.core k).prefetches, p.id ≠ id) → Becomes (.prefetchComplete k id ok b v) s s) ∧
    (∀ k id p b v, (s.core k).prefetches = [p] → (s.core k).asks = [] → p.id = id → p.arrived = false →
      (p.remote = none → Answers (.prefetchComplete k id true b v) s fun t => (t.core k).prefetches = [{ p with arrived := true }] ∧
        t.flash.reads = dropFirst (fun r => r.ppa == p.stamp && r.use == .prefetch) s.flash.reads) ∧
      (∀ m, p.remote = some m → Answers (.prefetchComplete k id true b v) s fun t =>
        (t.core k).prefetches = [{ p with arrived := true, data := b, stamp := v }] ∧ t.flash = s.flash) ∧
      (∀ m, p.remote = some m → Answers (.prefetchComplete k id false b v) s fun t => (t.core k).prefetches = [] ∧
        cnt t 0x9700 4 = cnt s 0x9700 4 + 1))

/-- 07 R195, R199, R200: a chunk with a NaN, or with infinities of both signs, is NaN, one with one sign only that infinity; an
integer chunk of one vector is its exact sum, or saturates to int32; a finite chunk never makes a finite total infinite, and an
addition that would is saturated and says so. 07 R199, R200, R204: an output element of integer operands whose contraction fits
one vector and one chunk is its first value plus the exact sum of the products, converted once and scaled, with the one rounding
of the promotion; an empty contraction leaves the first value. -/
def Obligations.ChunksSumAndSaturate : Prop :=
  ((∀ (w start : Nat) (ps : List Val), .nan ∈ ps → chunkFloat w start ps = .nan) ∧
   (∀ (w start : Nat) (ps : List Val), .inf false ∈ ps → .inf true ∈ ps → chunkFloat w start ps = .nan) ∧
   (∀ (w start : Nat) (neg : Bool) (ps : List Val), .inf neg ∈ ps → .inf (!neg) ∉ ps → .nan ∉ ps → chunkFloat w start ps = .inf neg) ∧
   (∀ (w : Nat) (ps : List Int), ps.length ≤ w → ps ≠ [] → -2147483648 ≤ ps.sum → ps.sum ≤ 2147483647 → chunkInt w 0 ps = (ps.sum, false)) ∧
   (∀ (w : Nat) (ps : List Int), ps.length ≤ w → ps ≠ [] → 2147483647 < ps.sum → chunkInt w 0 ps = (2147483647, true)) ∧
   (∀ (w : Nat) (ps : List Int), ps.length ≤ w → ps ≠ [] → ps.sum < -2147483648 → chunkInt w 0 ps = (-2147483648, true)) ∧
   (∀ (total s : U32) (n : Bool) (m : Nat) (e : Int), fIsInf total = false →
     fIsInf (promote total s (.fin n m e)).1 = false ∧
     ((promote total s (.fin n m e)).2.satTotal = true → (promote total s (.fin n m e)).1 = f32Max ∨ (promote total s (.fin n m e)).1 = fneg f32Max))) ∧
  (∀ (w chunk : Nat) (scale init : U32) (l : List (Int × Int)), l.length ≤ w → l.length ≤ chunk → 0 < chunk →
     let pairs := l.map fun p => (Val.fin (decide (p.1 < 0)) p.1.natAbs 0, Val.fin (decide (p.2 < 0)) p.2.natAbs 0)
     (l = [] → dot ⟨true, w, chunk, scale⟩ (fun _ => none) pairs init = (init, {})) ∧
     (l ≠ [] → -2147483648 ≤ (l.map fun p => p.1 * p.2).sum → (l.map fun p => p.1 * p.2).sum ≤ 2147483647 →
       (dot ⟨true, w, chunk, scale⟩ (fun _ => none) pairs init).1 =
         (promote init scale (ofF32 (f32OfInt (l.map fun p => p.1 * p.2).sum))).1 ∧
       (dot ⟨true, w, chunk, scale⟩ (fun _ => none) pairs init).2.satAcc = false))

/-! ## Resets, supply, boot and security (17, 19, 20) -/

/-- 20 R512, R513, R515, 19 R498: what asks for a module reset. PERST# and a hot reset take the link down and request it, an
expired watchdog requests it and is counted, and from the request on no erase or program starts; a runtime restart closes the
runtime. 20 R514: FLR of a VF with no command, transaction, ring or mailbox of its own takes its registers to reset and touches
nothing of another function's. -/
def Obligations.ResetsAreRequested : Prop :=
  (∀ (s : State),
     (s.host.perst = false → s.power.phase = .running → Becomes .perstAssert s
       (requestReset { s with host := { s.host with perst := true, link := .down } } 4)) ∧
     (s.host.perst = false → s.power.phase ≠ .running → Becomes .perstAssert s
       { s with host := { s.host with perst := true, link := .down } }) ∧
     (∀ cxl, s.host.perst = true → s.power.phase = .running → Becomes (.perstDeassert cxl) s
       { s with host := { s.host with perst := false, cxlMode := cxl, link := if cxl then .l0 else .pcie } }) ∧
     (s.host.link ≠ .down → Becomes .hotReset s (requestReset { s with host := { s.host with link := .down } } 5)) ∧
     (s.power.resetReq = none → s.host.link ≠ .down → Answers .hotReset s fun t => t.power.resetReq = some 5 ∧
       ∀ erase sector rank, cfgStart t erase sector rank = t) ∧
     (s.power.phase = .running → s.sec.boot = .ready → s.power.resetReq = none → s.power.pd[19]? ≠ some .ret →
       s.sec.dogAt + 1000 * od s 0x5100 1 ≤ s.power.uptime → s.sec.op = none → Becomes .runtimeWatchdog s
         (requestReset ((bump s 0x5100 3 1).modSec fun c => { c with heldReset := some (0, 0, s.power.uptime) }) 6)) ∧
     (s.power.phase = .running → s.sec.boot = .booting → s.power.resetReq = none →
       s.sec.dogAt + 1000 * od s 0x5100 2 ≤ s.power.uptime → s.sec.op = none → Becomes .bootWatchdog s
         (requestReset ((bump s 0x5100 3 1).modSec fun c => { c with heldReset := some (1, 0, s.power.uptime) }) 7)) ∧
     (s.power.phase = .running → s.sec.boot = .ready → s.power.restarting = false →
       Answers .runtimeRestart s fun t => t.power.restarting = true ∧ t.sec.boot = .off ∧ t.sec.session = false ∧ t.od.maint = none)) ∧
  (∀ (s : State) (fn : Nat), fn ≠ 0 → s.execs = [] → s.txs = [] → Answers (.flr fn) s fun t =>
     t.regs = kfilter s.regs (fun r _ => !(match kget s.pages (pageOfReg r) with | some pg => pg.fn == fn | none => false)) ∧
     t.rings = kfilter s.rings (fun _ g => !(g.fn == fn)) ∧ t.objs = s.objs ∧ t.flash = s.flash ∧ t.dram = s.dram ∧ t.jobs = s.jobs ∧
     t.host = { s.host with
       mailboxes := kfilter s.host.mailboxes fun k _ => !(k == fn), ats := s.host.ats.filter fun a => !(a.1 == fn) } ∧
     cnt t 0x1101 3 = cnt s 0x1101 3 + 1)

/-- 20 R504, R513, R516: a requested module reset waits for the media and the configuration flash; then registers, commands, jobs,
open transactions, bindings, scratchpads and the DRAM are lost, the objects are the durable ones, and the cause is recorded. -/
def Obligations.ModuleResetClears : Prop :=
  ∀ (s : State),
    (s.power.resetReq = none → Becomes .moduleReset s s) ∧
    (s.flash.dies ≠ [] → Becomes .moduleReset s s) ∧
    (∀ cause, s.power.resetReq = some cause → s.flash.dies = [] → cfgQuiet s = true → s.power.holdup = false →
      Answers .moduleReset s fun t => t.regs = [] ∧ t.execs = [] ∧ t.jobs = [] ∧ t.txs = [] ∧ t.branches = [] ∧ t.parcels = [] ∧
        t.spad = [] ∧ t.sump = [] ∧ t.host.bindings = [] ∧ t.flash.courses = [] ∧ t.host.mem = s.host.mem ∧
        t.objs = kmap s.durObjs (fun _ o => { o with maps := 0, leaving := false, spilled := false }) ∧ t.power.cause = cause ∧
        t.power.resetReq = none ∧ t.sec.slotA = s.sec.slotA ∧ t.sec.slotB = s.sec.slotB)

/-- 17 R444, R449-R454, R440, 20 R520: the supply's events move the module between its phases: 3.3Vaux starts the AON block, 12 V
begins a power cycle, a rail that does not rise lowers all and is retried three times after 1 s, and a loss of supply, a trip or
an undervoltage takes every rail but 3V3_AUX off. -/
def Obligations.SupplyEventsMovePhases : Prop :=
  ∀ (s : State),
    (s.power.phase = .off → Answers .auxPowerGood s fun t => t.power.phase = .aux ∧ t.power.aux = true ∧ t.power.i3c = none ∧
      t.flash = s.flash ∧ t.objs = s.objs) ∧
    (∀ pins, (s.power.phase = .aux ∨ s.power.phase = .undervolt) → Answers (.mainPowerGood pins) s fun t => t.power.phase = .rails ∧
      t.power.uptime = 0 ∧ t.power.pins = pins ∧ t.power.retries = 0 ∧ t.power.cause = s.power.nextCause ∧
      t.power.critical = kset s.power.critical 0 (BitVec.ofNat 32 (powerCycle s + 1), BitVec.ofNat 32 (powerCycle s + 1),
        BitVec.ofNat 32 (powerCycle s + 1))) ∧
    (∀ rail, s.power.phase = .rails → rail ≤ 8 → Answers (.railTimeout rail) s fun t => t.power.rails = 0 ∧
      t.power.phase = (if 3 ≤ s.power.retries then .failed else .retryWait) ∧ t.power.failedAt = s.power.uptime ∧ t.objs = s.objs) ∧
    (s.power.phase = .retryWait → s.power.failedAt + 1000000 ≤ s.power.uptime → Becomes .powerUpRetry s
      { s with power := { s.power with phase := .rails, rails := 8, retries := s.power.retries + 1 } }) ∧
    (∀ pins, s.power.phase = .running → pins ≠ s.power.pinsNow → Answers (.sensePinChange pins) s fun t =>
      t.power = { s.power with pinsNow := pins } ∧ t.healthHigh = s.healthHigh + 1 ∧ t.objs = s.objs) ∧
    (supplied s = true → Answers .droopWarning s fun t => cnt t 0x6103 2 = cnt s 0x6103 2 + 1 ∧ t.power = s.power ∧
      t.risk = { s.risk with droops := s.risk.droops ++ [s.power.uptime] }) ∧
    (supplied s = true → od s 0x2230 0 = 1 → s.power.phase = .running → Answers .brownOut s fun t => t.power.phase = .brownout ∧
      t.power.clusters = 0 ∧ t.spad = [] ∧ t.sump = [] ∧ t.jobs = [] ∧ t.flash.blocked = true ∧ cnt t 0x6103 1 = cnt s 0x6103 1 + 1) ∧
    (supplied s = true → od s 0x2230 0 = 0 → Answers .brownOut s fun t =>
      t.power.phase = (if s.power.tripping then .tripped else if s.power.aux then .aux else .off) ∧ t.power.rails = 0 ∧
      t.power.holdup = false ∧ t.regs = [] ∧ t.execs = [] ∧ t.parcels = []) ∧
    (s.power.phase = .brownout → Answers .holdupExhausted s fun t =>
      t.power.phase = (if s.power.tripping then .tripped else if s.power.aux then .aux else .off) ∧ t.power.rails = 0 ∧
      t.regs = [] ∧ t.execs = [] ∧ t.parcels = []) ∧
    (s.power.phase ≠ .off → supplied s = false → s.power.phase ≠ .brownout → Answers .auxLoss s fun t => t.power.phase = .off ∧
      t.power.aux = false ∧ t.power.i3c = none ∧ t.power.nextCause = 1) ∧
    (s.power.phase = .running → Answers .coreUndervoltage s fun t => t.power.phase = .undervolt ∧ t.power.rails = 0 ∧
      t.power.nextCause = 9 ∧ t.regs = [] ∧ t.execs = []) ∧
    (∀ sensor reading, supplied s = true → sensor < 2 → (if sensor = 0 then (115 : Int) else 85) ≤ reading → od s 0x2230 0 = 0 →
      Answers (.thermalTrip sensor reading) s fun t => t.power.phase = .tripped ∧ t.power.rails = 0) ∧
    (∀ die nand : Int, s.power.phase = .tripped → die < 80 → nand < 65 → Answers (.thermalRestart die nand) s fun t =>
      t.power.phase = .rails ∧ t.power.uptime = 0 ∧ t.power.tripping = false ∧ t.power.cause = 3)

/-- 17 R450, R454, 20 R505, R511, R520, R523, 13 R371, 14 R385: hold-up becomes ready and is measured; the array steps down by one
each millisecond that is too hot, and up with margin; an hour of uptime is counted and takes its entry in the temperature history;
critical words are rewritten by their vote. -/
def Obligations.MeasurementsAct : Prop :=
  ∀ (s : State),
    (∀ h, s.power.phase = .running → s.power.holdup = false → od s 0x6105 3 ≤ min 100 h → Becomes (.holdupReady h) s
        (startDies { s with power := { s.power with holdup := true, health := min 100 h, measuredAt := s.power.uptime } })) ∧
    (∀ h, s.power.holdup = true → s.power.measuredAt + 86400000000 ≤ s.power.uptime → od s 0x6105 3 ≤ min 100 h →
      Becomes (.holdupMeasurement h) s
        { s with power := { s.power with healthZero := false, health := min 100 h, measuredAt := s.power.uptime } }) ∧
    (∀ t : Sensors, s.power.uptime % 1000 = 0 → s.power.phase = .running → s.power.ps < 3 →
      ((od s 0x6001 1 : Int) ≤ t.die → s.power.episode = none → Becomes (.throttleTick t) s (
        let u := s.modPower fun p => { p with sensors := t, highest := max p.highest t.die }
        ((List.range 32).foldl chargeIssue u).modPower fun p => { p with
          arr := max 8 (s.power.arr - 1), stepAt := p.uptime, thrTemp := true, thrPower := decide (powerCap s.power.ps < t.power)
          episode := some (s.power.uptime, max 8 (s.power.arr - 1), false) })) ∧
      (t.die < (od s 0x6001 1 : Int) → t.power ≤ powerCap s.power.ps → Becomes (.throttleTick t) s
        { s with power := { s.power with sensors := t, highest := max s.power.highest t.die } })) ∧
    (∀ t : Sensors, s.power.phase = .running → s.power.arr < 15 → t.die < (od s 0x6001 1 : Int) - (od s 0x6001 2 : Int) →
      t.power * 100 < powerCap s.power.ps * 95 → s.power.stepAt + 10000 ≤ s.power.uptime → Becomes (.throttleStepUp t) s
        (((List.range 32).foldl chargeIssue s).modPower fun p => { p with
          sensors := t, arr := p.arr + 1, stepAt := p.uptime, thrTemp := false, thrPower := false })) ∧
    (∀ t : Sensors, 0 < s.power.uptime → s.power.uptime % 3600000000 = 0 → s.power.episode = none → Answers (.uptimeHour t) s fun u =>
      cnt u 0x1100 2 = cnt s 0x1100 2 + 1 ∧ u.power.thrMinutes = 0 ∧ u.power.hotPages = 0 ∧
      u.power.temps = ((⟨cnt s 0x1100 2 + 1, t.dieMin, t.die, t.dieMean, t.nand, min 255 (s.power.thrMinutes / 60000000),
        s.power.hotPages⟩ : TempHour) :: s.power.temps).take 4096) ∧
    Answers .criticalWordVote s fun t => t.power.critical = kmap s.power.critical fun _ w =>
      let v := (w.1 &&& w.2.1) ||| (w.1 &&& w.2.2) ||| (w.2.1 &&& w.2.2)
      (v, v, v)

/-- 19 R500: the SPDM responder, when it can be reached, answers with a part of the chain of a slot, and with a nonce of its own
and the identity key's signature; a key exchange opens a session, at most four; a slot or a block it does not have is an error. -/
def Obligations.SpdmAnswers : Prop :=
  ∀ (s : State) (onDoe : Bool), spdmUp s onDoe = true →
    let gives := fun (c : Instr) (b : List Byte) (draws : Nat) => Becomes c s
      { s with host := { s.host with bus := .bytes b }, sec := { s.sec with draws := s.sec.draws + draws } }
    let fails := fun (c : Instr) => Becomes c s { s with host := { s.host with bus := .status 1 [] } }
    let own := (List.range 32).map (Config.randomByte s.sec.draws)
    (∀ off n, gives (.spdmGetCertificate onDoe 0 off n) (((Config.certChain 0).drop off).take n) 0) ∧
    (∀ off n, s.sec.ownerChain ≠ [] → gives (.spdmGetCertificate onDoe 1 off n) ((s.sec.ownerChain.drop off).take n) 0) ∧
    (∀ slot off n nonce, 2 ≤ slot → fails (.spdmGetCertificate onDoe slot off n) ∧ fails (.spdmChallenge onDoe slot nonce)) ∧
    (∀ nonce, let m := Config.sha256 (Config.certChain 0) ++ own
      gives (.spdmChallenge onDoe 0 nonce) (m ++ Config.deviceSign (nonce ++ m)) 1) ∧
    (∀ index nonce b, measurement s index = some b →
      gives (.spdmGetMeasurements onDoe index nonce) (b ++ own ++ Config.deviceSign (nonce ++ b ++ own)) 1) ∧
    (∀ nonce, fails (.spdmGetMeasurements onDoe 7 nonce)) ∧
    (∀ exchange, s.sec.sessions.length < 4 → Becomes (.spdmKeyExchange onDoe false exchange) s { s with
      host := { s.host with bus := .bytes (Config.exchangeReply exchange) }
      sec := { s.sec with sessions := s.sec.sessions ++ [(onDoe, false)] } }) ∧
    (∀ ide exchange, 4 ≤ s.sec.sessions.length → fails (.spdmKeyExchange onDoe ide exchange))

/-- 19 R501, R502, 17 R447: a challenge is given and used up by one response; a signature over it opens the lock with its scope, a
password opens a closed lock at most with the stored scope and uses up a use, and the interface that opened the lock closes it.
TAP instructions but IDCODE and BYPASS work only while the lock is open to the TAP. -/
def Obligations.DebugLockOpensAndCloses : Prop :=
  ∀ (s : State) (tap : Bool), s.power.phase = .running →
    (let b := (List.range 32).map (Config.randomByte s.sec.draws) ++ serialNumber
     Becomes (.debugChallenge tap) s { s with
       sec := { s.sec with draws := s.sec.draws + 1, lock := { s.sec.lock with challenge := some (tap, b) } }
       host := { s.host with bus := .bytes b } }) ∧
    (∀ b, s.sec.lock.challenge = some (tap, b) →
      let used := s.modDebug fun d => { d with challenge := none }
      (∀ (scope : Byte) signature, (scope.toNat = 1 ∨ scope.toNat = 2 ∨ scope.toNat = 3) →
        Becomes (.debugUnlockResponse tap scope signature) s
          (if Config.rsaVerify (debugKey s) (b ++ [scope]) signature = true then openLock used tap scope.toNat true else used)) ∧
      (∀ (scope : Byte) password (r : Reopen), s.sec.lock.scope = 0 → s.sec.lock.reopen = some r → 0 < scope.toNat →
        (scope.toNat ||| r.scope) = r.scope → 1 < r.uses → s.sec.op = none → s.power.resetReq = none →
        Config.sha256 (r.salt ++ password) = r.hash → Answers (.debugPassword tap scope password) s fun t =>
          t.sec.lock.scope = scope.toNat ∧ t.sec.lock.bySignature = false ∧ t.sec.lock.onTap = tap ∧ t.sec.lock.failures = 0 ∧
          t.sec.lock.reopen = some { r with uses := r.uses - 1 } ∧ t.objs = s.objs) ∧
      (∀ (scope : Byte) password (r : Reopen), s.sec.lock.scope = 0 → s.sec.lock.reopen = some r → s.sec.lock.failures < 2 →
        Config.sha256 (r.salt ++ password) ≠ r.hash → Becomes (.debugPassword tap scope password) s
          (used.modDebug fun d => { d with failures := s.sec.lock.failures + 1 }))) ∧
    (∀ password, s.sec.lock.scope ≠ 0 → s.sec.lock.bySignature = true → s.sec.lock.onTap = tap → 8 ≤ password.length →
      password.length ≤ 64 → s.sec.op = none → s.power.resetReq = none → Answers (.debugSetPassword tap password) s fun t =>
        let salt := (List.range 16).map (Config.randomByte s.sec.draws)
        t.sec.lock.reopen = some ⟨salt, Config.sha256 (salt ++ password), s.sec.lock.scope, 16⟩ ∧ t.sec.lock.failures = 0 ∧
        t.sec.op = some { erase := false, sector := 33, startedAt := s.power.uptime } ∧ t.objs = s.objs) ∧
    (s.sec.lock.scope ≠ 0 → s.sec.lock.onTap = tap → Becomes (.debugClose tap) s
      (s.modDebug fun d => { d with scope := 0, bySignature := false })) ∧
    (s.sec.lock.scope ≠ 0 → s.sec.lock.onTap ≠ tap → Becomes (.debugClose tap) s s) ∧
    (∀ code : Byte, s.power.aux = true → code.toNat ≠ Config.tapIdcode → code.toNat ≠ Config.tapBypass →
      (s.sec.lock.scope / 2 % 2 = 1 → Becomes (.tapInstruction code) s
        ((s.modDebug fun d => { d with tapAnswer := code.toNat }).modHost fun h => { h with bus := .status 0 [] })) ∧
      (s.sec.lock.scope / 2 % 2 ≠ 1 → Becomes (.tapInstruction code) s (s.modHost fun h => { h with bus := .none })))

/-- 19 R479, R480, R485, 18 R463: the configuration flash ends an operation and starts the next that waits, issues a held suspend
once the erase has run 500 µs, refreshes a sector whose reads were corrected often enough or names it in the log, and compacts the
store when few sectors are free; maintenance mode ends after its idle time. 19 R477, R480, R482, R485: a word of the configuration
flash reads as it was programmed, a wrong cell is corrected and two are detected; an erased word reads as all ones; a program
takes bits of one word from 1 to 0 alone. -/
def Obligations.ConfigurationFlashActs : Prop :=
  (∀ (s : State),
     (∀ o : CfgOp, s.sec.op = some o → o.suspended = false → s.power.resetReq = none → o.queue = [] →
       Becomes .cfgFlashOpComplete s (cfgLanded (s.modSec fun c => { c with op := none }) o.erase o.sector o.words)) ∧
     (∀ (o : CfgOp) rank sector erase rest, s.sec.op = some o → o.suspended = false → s.power.resetReq = none →
       o.queue = (rank, sector, erase) :: rest → Becomes .cfgFlashOpComplete s (cfgLanded (s.modSec fun c => { c with op := some {
         erase := erase, sector := sector, startedAt := s.power.uptime, queue := rest, words := refreshWords s erase rank sector } })
         o.erase o.sector o.words)) ∧
     (∀ o : CfgOp, s.sec.op = some o → o.erase = true → o.suspended = false → o.heldReq = true → o.startedAt + 500 ≤ s.power.uptime →
       s.power.resetReq = none → o.suspends < 16 → Answers .cfgSuspendHold s fun t =>
         t.sec.op = some { o with suspended := true, suspends := o.suspends + 1, served := 0, heldReq := false } ∧
         cnt t 0x5300 4 = cnt s 0x5300 4 + 1 ∧ t.objs = s.objs) ∧
     (∀ sector n, n < od s 0x5312 0 → Becomes (.cfgEarlyWarningRefresh sector n) s
       (bump (bump s 0x5300 1 n) 0x5300 2 (sectorRead s sector).2)) ∧
     (∀ sector n, od s 0x5312 0 ≤ n → 128 ≤ sector → s.sec.op = none → s.power.resetReq = none →
       Answers (.cfgEarlyWarningRefresh sector n) s fun t => cnt t 0x5300 3 = cnt s 0x5300 3 + 1 ∧
         t.sec.op = some { erase := true, sector := sector, startedAt := s.power.uptime, words := (sectorRead s sector).1 } ∧
         t.health = s.health) ∧
     (∀ sector n, od s 0x5312 0 ≤ n → sector < 128 → Answers (.cfgEarlyWarningRefresh sector n) s fun t =>
       t.healthHigh = s.healthHigh + 1 ∧ t.sec = s.sec) ∧
     (∀ r l, s.sec.storeRecs = r :: l → 8 ≤ s.sec.storeFree → Becomes .odStoreCompaction s s) ∧
     (∀ key k rest, s.sec.storeRecs = [(key, k), (key, k + 1)] ++ rest → (∀ r ∈ rest, r.2 ≠ k) → s.sec.storeFree < 8 → s.sec.op = none →
       s.power.resetReq = none → Answers .odStoreCompaction s fun t => t.sec.storeRecs = (key, k + 1) :: rest ∧
         t.sec.op = some { erase := true, sector := 128 + k, startedAt := s.power.uptime } ∧ t.sec.store = s.sec.store) ∧
     (∀ path, s.od.maint = some path → s.od.maintAt + od s 0x5001 4 * 1000 ≤ s.power.uptime → Answers .maintenanceIdleTimeout s fun t =>
       t.od.maint = none ∧ cnt t 0x9500 6 = cnt s 0x9500 6 + 1 ∧ t.healthHigh = s.healthHigh + 1 ∧ t.objs = s.objs) ∧
     (∀ path, s.od.maint = some path → s.power.uptime < s.od.maintAt + od s 0x5001 4 * 1000 → Becomes .maintenanceIdleTimeout s s)) ∧
  ((∀ w : BitVec 32, readStored (storedWord w) = some (w, false)) ∧
   (∀ (w : BitVec 32) (i : Nat), i < 40 → readStored (storedWord w ^^^ ((1 : BitVec 40) <<< i)) = some (w, true)) ∧
   (∀ (w : BitVec 32) (i j : Nat), i < j → j < 40 →
     readStored (storedWord w ^^^ ((1 : BitVec 40) <<< i) ^^^ ((1 : BitVec 40) <<< j)) = none) ∧
   readStored erasedWord = some (BitVec.allOnes 32, false) ∧
   (∀ (s : State) (a : Nat) (w : BitVec 32), keysRise s.sec.cells = true →
     cfgCell (programWord s a w) a = cfgCell s a &&& storedWord w ∧
     (∀ b, b ≠ a → cfgCell (programWord s a w) b = cfgCell s b) ∧ programWord s a w = { s with sec := { s.sec with cells := (programWord s a w).sec.cells } } ∧
     keysRise (programWord s a w).sec.cells = true))

/-- 19 R487, R492-R495, R497: the boot chain derives the keys of the PUF and stops where their check value is not the stored one;
it boots the verified candidate with the highest activation, or stays in recovery without one, which it logs; the runtime becoming
ready, with no group message held, sets RAN and raises the rollback floor. -/
def Obligations.BootChoosesSlot : Prop :=
  ∀ (s : State),
    (s.power.phase = .running → s.sec.boot = .off → s.power.restarting = false →
      let keys : PufKeys := { array := s.fresh }
      let o : State := { s with
        fresh := s.fresh + 1, sec := { s.sec with puf := some keys }
        power := { s.power with phase := .running, stable := true } }
      (∀ c, s.sec.pufCheck = some c → keys.check ≠ c → Becomes .bootChain s (o.modSec fun q => { q with boot := .stopped })) ∧
      ((∀ c, s.sec.pufCheck = some c → keys.check = c) →
        (firstSlot s = none → Becomes .bootChain s
          (((logHealth (o.modSec fun q => { q with bootKind := 0 }) 0x0040 false [Config.faultUnit, 0x8001]).modSec fun q =>
            { q with boot := .recovery, bootKind := 2 }).modPower fun p => { p with restarting := false })) ∧
        (∀ n, n < 2 → firstSlot s = some n → (s.slot n).ran = true → verifyImage s (s.slot n) = 0 → Becomes .bootChain s
          (o.modSec fun q => { q with bootKind := 0, active := n == 1, boot := .booting, dogAt := s.power.uptime })))) ∧
    (s.power.phase = .running → s.sec.boot = .booting → s.flash.rebuild = none → s.power.target.isSome = true →
      s.fabric.heldMsgs = [] → Answers .runtimeReady s fun t => t.sec.boot = .ready ∧ t.power.restarting = false ∧
        t.sec.floor = max s.sec.floor (if s.sec.active then s.sec.slotB.security else s.sec.slotA.security) ∧
        (if s.sec.active then t.sec.slotB.ran else t.sec.slotA.ran) = true ∧ t.objs = s.objs ∧ t.flash = s.flash) ∧
    (s.sec.boot ≠ .booting → Becomes .runtimeReady s s)

/-! ## The block as a whole -/

/-- A step takes the command at the front of the queue and runs it on the state with the rest of the queue. 20 R520: with nothing
commanded time passes. Uptime counts one microsecond while the module is supplied with 12 V or held up, and nothing else changes
(the tick is the model's choice, log entry 1). Every command has an effect: none faults and none is refused, whatever the state
and its operands. The queue stays as the step left it, and no command changes which module this is (00 R1, R4). -/
def Obligations.StepRunsFrontCommand : Prop :=
  (∀ (c : Instr) (rest : List Instr) (s : State), step { s with pending := c :: rest } = exec c { s with pending := rest }) ∧
  (∀ (s : State), s.pending = [] →
     step s = .next { s with power := { s.power with uptime := s.power.uptime + if s.power.phase.counts then 1 else 0 } }) ∧
  (∀ (c : Instr) (s : State), Answers c s fun t => t.pending = s.pending ∧ t.ident = s.ident)

/-- The waiting commands run in the order in which they came, one a step, until none is left: from every state as many steps as
commands wait reach a state with an empty queue, and none of these steps stops the module. -/
def Obligations.QueueIsWorkedOffInOrder : Prop :=
  ∀ (s : State), ∃ f : Nat → State, f 0 = s ∧ (f s.pending.length).pending = [] ∧
    (∀ i, i ≤ s.pending.length → (f i).pending = s.pending.drop i ∧ (f i).ident = s.ident) ∧
    ∀ i, i < s.pending.length → step (f i) = .next (f (i + 1)) ∧ Safe (f i)

/-- An invariant that every step keeps: the module is the one it was made as (its hardware identity, 00 R1, R4), and every waiting
command is one whose operands the module has (WellFormed). -/
def Obligations.StepsKeepIdentityAndQueue : Prop :=
  ∀ (id : Ident) (s t : State), s.ident = id → (∀ c ∈ s.pending, c.wf = true) → step s = .next t →
    t.ident = id ∧ (∀ c ∈ t.pending, c.wf = true) ∧ t.pending = s.pending.drop 1

/-- The state after reset, where the manual gives the values: no command, transaction, job, object, binding or ring; every task
register IDLE with NEXT_SEQ 0 and no result (03 R72); every setting at its default (18 R464); PS0 with every core and cluster on
(20 R504); queue empty. -/
def Obligations.ResetState : Prop :=
  State.reset.pending = [] ∧ (∀ c ∈ State.reset.pending, c.wf = true) ∧ State.reset.execs = [] ∧ State.reset.txs = [] ∧
  State.reset.jobs = [] ∧ State.reset.host.bindings = [] ∧ State.reset.rings = [] ∧ State.reset.parcels = [] ∧
  (∀ r, (State.reset.reg r).state = .idle ∧ (State.reset.reg r).nextSeq = 0 ∧ (State.reset.reg r).valid = false ∧
    (State.reset.reg r).overrun = false ∧ (State.reset.reg r).enable = false) ∧
  (∀ index sub, od State.reset index sub = odDefault State.reset index sub) ∧
  (∀ index sub, cnt State.reset index sub = 0) ∧
  State.reset.power.ps = 0 ∧ State.reset.power.clusters = 0xFF ∧ State.reset.power.uptime = 0 ∧ State.reset.power.holdup = false ∧
  Memory.wf State.reset.dram.mem = true ∧ Memory.wf State.reset.spad = true ∧ Memory.wf State.reset.sump = true ∧
  Memory.wf State.reset.host.mem = true
end

