-- ==== Sys2Proof/Laws/Maps.lean ====
section
/-! SUPPORT. Laws/Maps.lean: reads after writes of sparse tables and memories, and that every memory operation keeps the
canonical form. -/

namespace Sys2Proof.Machine

variable {α : Type}

/-! ## Keys that rise strictly -/

/-- Every key of the table is above `b`. -/
def keysAbove (b : Nat) (m : KMap α) : Prop := ∀ p ∈ m, b < p.1

theorem keysRise_cons (a : Nat × α) (m : KMap α) :
    keysRise (a :: m) = true ↔ keysAbove a.1 m ∧ keysRise m = true := by
  induction m generalizing a with
  | nil => simp [keysRise, keysAbove]
  | cons b r ih =>
    simp only [keysRise, Bool.and_eq_true, decide_eq_true_eq, keysAbove, List.mem_cons, forall_eq_or_imp]
    constructor
    · rintro ⟨hab, hr⟩
      refine ⟨⟨hab, fun p hp => lt_trans hab ?_⟩, hr⟩
      exact ((ih b).1 hr).1 p hp
    · rintro ⟨⟨hab, -⟩, hr⟩
      exact ⟨hab, hr⟩

theorem mem_kset {m : KMap α} {i : Nat} {x : α} {p : Nat × α} (h : p ∈ kset m i x) : p = (i, x) ∨ p ∈ m := by
  induction m with
  | nil => simpa [kset] using h
  | cons a r ih =>
    obtain ⟨k, v⟩ := a
    simp only [kset] at h
    split at h
    · simp only [List.mem_cons] at h ⊢; tauto
    · split at h
      · simp only [List.mem_cons] at h ⊢; tauto
      · simp only [List.mem_cons] at h ⊢
        rcases h with h | h
        · tauto
        · rcases ih h with h | h <;> tauto

theorem mem_of_mem_kdel {m : KMap α} {i : Nat} {p : Nat × α} (h : p ∈ kdel m i) : p ∈ m := by
  induction m with
  | nil => simpa [kdel] using h
  | cons a r ih =>
    obtain ⟨k, v⟩ := a
    simp only [kdel] at h
    split at h
    · exact List.mem_cons_of_mem _ h
    · split at h
      · exact h
      · simp only [List.mem_cons] at h ⊢
        exact h.imp_right ih

theorem keysRise_kset {m : KMap α} (i : Nat) (x : α) (h : keysRise m = true) : keysRise (kset m i x) = true := by
  induction m with
  | nil => rfl
  | cons a r ih =>
    obtain ⟨k, v⟩ := a
    obtain ⟨hab, hr⟩ := (keysRise_cons _ _).1 h
    simp only [kset]
    split
    · next hik => subst hik; exact (keysRise_cons _ _).2 ⟨hab, hr⟩
    · next hik =>
      split
      · next hlt =>
        refine (keysRise_cons _ _).2 ⟨?_, h⟩
        intro p hp
        rcases List.mem_cons.1 hp with rfl | hp
        · exact hlt
        · exact lt_trans hlt (hab p hp)
      · next hlt =>
        refine (keysRise_cons _ _).2 ⟨?_, ih hr⟩
        intro p hp
        rcases mem_kset hp with rfl | hp
        · exact lt_of_le_of_ne (not_lt.1 hlt) (Ne.symm hik)
        · exact hab p hp

theorem keysRise_kdel {m : KMap α} (i : Nat) (h : keysRise m = true) : keysRise (kdel m i) = true := by
  induction m with
  | nil => rfl
  | cons a r ih =>
    obtain ⟨k, v⟩ := a
    obtain ⟨hab, hr⟩ := (keysRise_cons _ _).1 h
    simp only [kdel]
    split
    · exact hr
    · split
      · exact h
      · exact (keysRise_cons _ _).2 ⟨fun p hp => hab p (mem_of_mem_kdel hp), ih hr⟩

theorem keysRise_filter {m : KMap α} (f : Nat × α → Bool) (h : keysRise m = true) : keysRise (m.filter f) = true := by
  induction m with
  | nil => rfl
  | cons a r ih =>
    obtain ⟨hab, hr⟩ := (keysRise_cons _ _).1 h
    rw [List.filter_cons]
    split
    · exact (keysRise_cons _ _).2 ⟨fun p hp => hab p (List.mem_filter.1 hp).1, ih hr⟩
    · exact ih hr

/-! ## Reads after writes -/

@[simp] theorem kget_kset_same (m : KMap α) (i : Nat) (x : α) : kget (kset m i x) i = some x := by
  induction m with
  | nil => simp [kset, kget]
  | cons a r ih =>
    obtain ⟨k, v⟩ := a
    simp only [kset]
    split
    · simp [kget]
    · next hik =>
      split
      · simp [kget]
      · next hlt => simp [kget, hik, hlt, ih]

theorem kget_kset_other (m : KMap α) {i j : Nat} (x : α) (h : j ≠ i) : kget (kset m i x) j = kget m j := by
  induction m with
  | nil => simp [kset, kget, h]
  | cons a r ih =>
    obtain ⟨k, v⟩ := a
    simp only [kset]
    split
    · next hik => subst hik; simp [kget, h]
    · next hik =>
      split
      · next hlt =>
        simp only [kget, if_neg h]
        by_cases hjk : j = k
        · subst hjk; simp [Nat.lt_asymm hlt]
        · by_cases hji : j < i
          · simp [hji, hjk, lt_trans hji hlt]
          · simp [hji]
      · simp [kget, ih]

/-- A table whose keys all lie above `i` holds nothing at `i`. -/
theorem kget_of_above {m : KMap α} {i : Nat} (h : keysAbove i m) : kget m i = none := by
  cases m with
  | nil => rfl
  | cons a r =>
    obtain ⟨k, v⟩ := a
    have := h (k, v) (List.mem_cons_self)
    simp only at this
    simp [kget, this, Nat.ne_of_lt this]

@[simp] theorem kget_kdel_same {m : KMap α} (i : Nat) (h : keysRise m = true) : kget (kdel m i) i = none := by
  induction m with
  | nil => rfl
  | cons a r ih =>
    obtain ⟨k, v⟩ := a
    obtain ⟨hab, hr⟩ := (keysRise_cons _ _).1 h
    simp only [kdel]
    split
    · next hik => subst hik; exact kget_of_above hab
    · next hik =>
      split
      · next hlt => simp [kget, hik, hlt]
      · next hlt => simp [kget, hik, hlt, ih hr]

theorem kget_kdel_other {m : KMap α} {i j : Nat} (hm : keysRise m = true) (h : j ≠ i) : kget (kdel m i) j = kget m j := by
  induction m with
  | nil => rfl
  | cons a r ih =>
    obtain ⟨k, v⟩ := a
    obtain ⟨hab, hr⟩ := (keysRise_cons _ _).1 hm
    simp only [kdel]
    split
    · next hik =>
      subst hik
      simp only [kget, if_neg h]
      split
      · next hlt => exact kget_of_above fun p hp => lt_trans hlt (hab p hp)
      · rfl
    · split
      · rfl
      · simp [kget, ih hr]

theorem kget_kmod_same {m : KMap α} {i : Nat} (f : α → α) {v : α} (h : kget m i = some v) : kget (kmod m i f) i = some (f v) := by
  simp [kmod, h]

theorem kget_kmod_other {m : KMap α} {i j : Nat} (f : α → α) (h : j ≠ i) : kget (kmod m i f) j = kget m j := by
  unfold kmod
  split
  · exact kget_kset_other m _ h
  · rfl

theorem kget_kmod_none {m : KMap α} {i : Nat} (f : α → α) (h : kget m i = none) : kmod m i f = m := by simp [kmod, h]

theorem kget_kmap (m : KMap α) (f : Nat → α → α) (i : Nat) : kget (kmap m f) i = (kget m i).map (f i) := by
  induction m with
  | nil => rfl
  | cons a r ih =>
    obtain ⟨k, v⟩ := a
    simp only [kmap, List.map_cons, kget] at ih ⊢
    by_cases h : i = k
    · subst h; simp
    · by_cases h2 : i < k
      · simp [h, h2]
      · simp only [h, h2, if_false]; exact ih

/-! ## Byte lists -/

@[simp] theorem mread_length (m : Memory) (a n : Nat) : (mread m a n).length = n := by
  induction n generalizing a with
  | zero => rfl
  | succ n ih => simp [mread, ih]

@[simp] theorem toLE_length (k n : Nat) : (toLE k n).length = k := by
  induction k generalizing n with
  | zero => rfl
  | succ k ih => simp [toLE, ih]

/-! ## Byte memories -/

theorem mem_wf_iff (m : Memory) : Memory.wf m = true ↔ keysRise m = true ∧ ∀ p ∈ m, p.2 ≠ 0 := by
  simp [Memory.wf]

theorem mset_wf {m : Memory} (a : Nat) (b : Byte) (h : Memory.wf m = true) : Memory.wf (mset m a b) = true := by
  rw [mem_wf_iff] at h ⊢
  unfold mset
  split
  · exact ⟨keysRise_kdel a h.1, fun p hp => h.2 p (mem_of_mem_kdel hp)⟩
  · next hb =>
    refine ⟨keysRise_kset a b h.1, fun p hp => ?_⟩
    rcases mem_kset hp with rfl | hp
    · exact hb
    · exact h.2 p hp

theorem mwrite_wf {m : Memory} (a : Nat) (l : List Byte) (h : Memory.wf m = true) : Memory.wf (mwrite m a l) = true := by
  induction l generalizing m a with
  | nil => exact h
  | cons b r ih => exact ih (a + 1) (mset_wf a b h)

theorem mclear_wf {m : Memory} (a n : Nat) (h : Memory.wf m = true) : Memory.wf (mclear m a n) = true := by
  rw [mem_wf_iff] at h ⊢
  exact ⟨keysRise_filter _ h.1, fun p hp => h.2 p (List.mem_filter.1 hp).1⟩

/-- A byte reads as it was last stored. -/
theorem mget_mset_same {m : Memory} (a : Nat) (b : Byte) (h : Memory.wf m = true) : mget (mset m a b) a = b := by
  rw [mem_wf_iff] at h
  unfold mset mget
  split
  · next hb => subst hb; simp [kget_kdel_same a h.1]
  · simp

/-- A store of one byte leaves every other address as it was. -/
theorem mget_mset_other {m : Memory} {a i : Nat} (b : Byte) (h : Memory.wf m = true) (hi : i ≠ a) :
    mget (mset m a b) i = mget m i := by
  rw [mem_wf_iff] at h
  unfold mset mget
  split
  · rw [kget_kdel_other h.1 hi]
  · rw [kget_kset_other m b hi]

/-- A store leaves every address outside the stored bytes as it was. -/
theorem mget_mwrite_outside {m : Memory} (a : Nat) (l : List Byte) {i : Nat} (h : Memory.wf m = true)
    (hi : i < a ∨ a + l.length ≤ i) : mget (mwrite m a l) i = mget m i := by
  induction l generalizing m a with
  | nil => rfl
  | cons b r ih =>
    simp only [List.length_cons] at hi
    have hia : i ≠ a := by omega
    rw [mwrite, ih (a + 1) (mset_wf a b h) (by omega), mget_mset_other b h hia]

/-! ## Sorted lists and lists without repeats -/

section
variable {β : Type}

theorem insertBy_perm (lt : β → β → Bool) (x : β) (l : List β) : (insertBy lt x l).Perm (x :: l) := by
  induction l with
  | nil => exact .refl _
  | cons a r ih =>
    unfold insertBy
    split
    · exact .refl _
    · exact (ih.cons a).trans (.swap x a r)

theorem foldl_insertBy_perm (lt : β → β → Bool) (l acc : List β) : (l.foldl (fun acc x => insertBy lt x acc) acc).Perm (acc ++ l) := by
  induction l generalizing acc with
  | nil => simp
  | cons a r ih => exact (ih _).trans (((insertBy_perm lt a acc).append_right r).trans List.perm_middle.symm)

/-- Sorting keeps the elements. -/
theorem sortBy_perm (lt : β → β → Bool) (l : List β) : (sortBy lt l).Perm l := by simpa [sortBy] using foldl_insertBy_perm lt l []

theorem mem_sortBy {lt : β → β → Bool} {l : List β} {x : β} : x ∈ sortBy lt l ↔ x ∈ l := (sortBy_perm lt l).mem_iff

/-- Elements sorted by a test that compares keys are in the order of their keys. -/
theorem sortBy_pairwise {κ : Type} [LinearOrder κ] (key : β → κ) {lt : β → β → Bool} (hlt : ∀ a b, lt a b = true ↔ key a < key b) (l : List β) :
    (sortBy lt l).Pairwise fun a b => key a ≤ key b := by
  have one : ∀ (x : β) (l : List β), (l.Pairwise fun a b => key a ≤ key b) → (insertBy lt x l).Pairwise fun a b => key a ≤ key b := by
    intro x l
    induction l with
    | nil => intro _; simp [insertBy]
    | cons a r ih =>
      intro h
      rw [List.pairwise_cons] at h
      unfold insertBy
      split
      · next hx =>
        have hx := le_of_lt ((hlt x a).1 hx)
        refine List.pairwise_cons.2 ⟨fun b hb => ?_, List.pairwise_cons.2 h⟩
        rcases List.mem_cons.1 hb with rfl | hb
        · exact hx
        · exact hx.trans (h.1 b hb)
      · next hx =>
        have hx : key a ≤ key x := not_lt.1 fun hn => hx ((hlt x a).2 hn)
        refine List.pairwise_cons.2 ⟨fun b hb => ?_, ih h.2⟩
        rcases List.mem_cons.1 ((insertBy_perm lt x r).mem_iff.1 hb) with rfl | hb
        · exact hx
        · exact h.1 b hb
  have all : ∀ l acc : List β, (acc.Pairwise fun a b => key a ≤ key b) →
      (l.foldl (fun acc x => insertBy lt x acc) acc).Pairwise fun a b => key a ≤ key b := by
    intro l
    induction l with
    | nil => intro acc h; exact h
    | cons a r ih => intro acc h; exact ih _ (one a acc h)
  exact all l [] .nil

variable [DecidableEq β]

theorem nub_step (l acc : List β) :
    (∀ x, x ∈ l.foldl (fun acc x => if acc.contains x then acc else acc ++ [x]) acc ↔ x ∈ acc ∨ x ∈ l) ∧
    (acc.Nodup → (l.foldl (fun acc x => if acc.contains x then acc else acc ++ [x]) acc).Nodup) := by
  induction l generalizing acc with
  | nil => simp
  | cons a r ih =>
    simp only [List.foldl_cons]
    split
    · next h =>
      have ha : a ∈ acc := by simpa using h
      refine ⟨fun x => ?_, (ih acc).2⟩
      rw [(ih acc).1 x, List.mem_cons]
      constructor
      · rintro (h | h)
        · exact .inl h
        · exact .inr (.inr h)
      · rintro (h | rfl | h)
        · exact .inl h
        · exact .inl ha
        · exact .inr h
    · next h =>
      have ha : a ∉ acc := by simpa using h
      refine ⟨fun x => ?_, fun hn => (ih _).2 ?_⟩
      · rw [(ih _).1 x]; simp [or_assoc]
      · rw [List.nodup_append]
        refine ⟨hn, by simp, fun b hb d hd => ?_⟩
        rintro rfl
        exact ha (by rw [List.mem_singleton] at hd; exact hd ▸ hb)

/-- Removing repeats keeps which elements there are. -/
@[simp] theorem mem_nubList {l : List β} {x : β} : x ∈ nubList l ↔ x ∈ l := by
  have := (nub_step l []).1 x
  simpa [nubList] using this

theorem nubList_nodup (l : List β) : (nubList l).Nodup := (nub_step l []).2 .nil

end

end Sys2Proof.Machine
end

