-- ==== Sys2Proof/Laws/State.lean ====
section
/-! SUPPORT. Laws/State.lean: what each update of one part of the state leaves and what it sets, field by field. -/

namespace Sys2Proof.Machine

/-! ## modFlash -/

@[simp] theorem State.modFlash_flash (s : State) (f : Flash → Flash) : (s.modFlash f).flash = f s.flash := rfl
@[simp] theorem State.modFlash_pending (s : State) (f : Flash → Flash) : (s.modFlash f).pending = s.pending := rfl
@[simp] theorem State.modFlash_ident (s : State) (f : Flash → Flash) : (s.modFlash f).ident = s.ident := rfl
@[simp] theorem State.modFlash_regs (s : State) (f : Flash → Flash) : (s.modFlash f).regs = s.regs := rfl
@[simp] theorem State.modFlash_pages (s : State) (f : Flash → Flash) : (s.modFlash f).pages = s.pages := rfl
@[simp] theorem State.modFlash_rings (s : State) (f : Flash → Flash) : (s.modFlash f).rings = s.rings := rfl
@[simp] theorem State.modFlash_execs (s : State) (f : Flash → Flash) : (s.modFlash f).execs = s.execs := rfl
@[simp] theorem State.modFlash_nextOrder (s : State) (f : Flash → Flash) : (s.modFlash f).nextOrder = s.nextOrder := rfl
@[simp] theorem State.modFlash_objs (s : State) (f : Flash → Flash) : (s.modFlash f).objs = s.objs := rfl
@[simp] theorem State.modFlash_numHigh (s : State) (f : Flash → Flash) : (s.modFlash f).numHigh = s.numHigh := rfl
@[simp] theorem State.modFlash_reserved (s : State) (f : Flash → Flash) : (s.modFlash f).reserved = s.reserved := rfl
@[simp] theorem State.modFlash_dasNext (s : State) (f : Flash → Flash) : (s.modFlash f).dasNext = s.dasNext := rfl
@[simp] theorem State.modFlash_parcels (s : State) (f : Flash → Flash) : (s.modFlash f).parcels = s.parcels := rfl
@[simp] theorem State.modFlash_seq (s : State) (f : Flash → Flash) : (s.modFlash f).seq = s.seq := rfl
@[simp] theorem State.modFlash_versions (s : State) (f : Flash → Flash) : (s.modFlash f).versions = s.versions := rfl
@[simp] theorem State.modFlash_txs (s : State) (f : Flash → Flash) : (s.modFlash f).txs = s.txs := rfl
@[simp] theorem State.modFlash_txHigh (s : State) (f : Flash → Flash) : (s.modFlash f).txHigh = s.txHigh := rfl
@[simp] theorem State.modFlash_branches (s : State) (f : Flash → Flash) : (s.modFlash f).branches = s.branches := rfl
@[simp] theorem State.modFlash_outcomes (s : State) (f : Flash → Flash) : (s.modFlash f).outcomes = s.outcomes := rfl
@[simp] theorem State.modFlash_durObjs (s : State) (f : Flash → Flash) : (s.modFlash f).durObjs = s.durObjs := rfl
@[simp] theorem State.modFlash_durLines (s : State) (f : Flash → Flash) : (s.modFlash f).durLines = s.durLines := rfl
@[simp] theorem State.modFlash_heldValid (s : State) (f : Flash → Flash) : (s.modFlash f).heldValid = s.heldValid := rfl
@[simp] theorem State.modFlash_walks (s : State) (f : Flash → Flash) : (s.modFlash f).walks = s.walks := rfl
@[simp] theorem State.modFlash_health (s : State) (f : Flash → Flash) : (s.modFlash f).health = s.health := rfl
@[simp] theorem State.modFlash_healthHigh (s : State) (f : Flash → Flash) : (s.modFlash f).healthHigh = s.healthHigh := rfl
@[simp] theorem State.modFlash_healthMark (s : State) (f : Flash → Flash) : (s.modFlash f).healthMark = s.healthMark := rfl
@[simp] theorem State.modFlash_dram (s : State) (f : Flash → Flash) : (s.modFlash f).dram = s.dram := rfl
@[simp] theorem State.modFlash_spad (s : State) (f : Flash → Flash) : (s.modFlash f).spad = s.spad := rfl
@[simp] theorem State.modFlash_sump (s : State) (f : Flash → Flash) : (s.modFlash f).sump = s.sump := rfl
@[simp] theorem State.modFlash_jobs (s : State) (f : Flash → Flash) : (s.modFlash f).jobs = s.jobs := rfl
@[simp] theorem State.modFlash_cores (s : State) (f : Flash → Flash) : (s.modFlash f).cores = s.cores := rfl
@[simp] theorem State.modFlash_tables (s : State) (f : Flash → Flash) : (s.modFlash f).tables = s.tables := rfl
@[simp] theorem State.modFlash_indexes (s : State) (f : Flash → Flash) : (s.modFlash f).indexes = s.indexes := rfl
@[simp] theorem State.modFlash_passes (s : State) (f : Flash → Flash) : (s.modFlash f).passes = s.passes := rfl
@[simp] theorem State.modFlash_nextPass (s : State) (f : Flash → Flash) : (s.modFlash f).nextPass = s.nextPass := rfl
@[simp] theorem State.modFlash_candEpochs (s : State) (f : Flash → Flash) : (s.modFlash f).candEpochs = s.candEpochs := rfl
@[simp] theorem State.modFlash_arrivals (s : State) (f : Flash → Flash) : (s.modFlash f).arrivals = s.arrivals := rfl
@[simp] theorem State.modFlash_fabric (s : State) (f : Flash → Flash) : (s.modFlash f).fabric = s.fabric := rfl
@[simp] theorem State.modFlash_host (s : State) (f : Flash → Flash) : (s.modFlash f).host = s.host := rfl
@[simp] theorem State.modFlash_od (s : State) (f : Flash → Flash) : (s.modFlash f).od = s.od := rfl
@[simp] theorem State.modFlash_sec (s : State) (f : Flash → Flash) : (s.modFlash f).sec = s.sec := rfl
@[simp] theorem State.modFlash_power (s : State) (f : Flash → Flash) : (s.modFlash f).power = s.power := rfl
@[simp] theorem State.modFlash_risk (s : State) (f : Flash → Flash) : (s.modFlash f).risk = s.risk := rfl
@[simp] theorem State.modFlash_fresh (s : State) (f : Flash → Flash) : (s.modFlash f).fresh = s.fresh := rfl

/-! ## modDram -/

@[simp] theorem State.modDram_dram (s : State) (f : Dram → Dram) : (s.modDram f).dram = f s.dram := rfl
@[simp] theorem State.modDram_pending (s : State) (f : Dram → Dram) : (s.modDram f).pending = s.pending := rfl
@[simp] theorem State.modDram_ident (s : State) (f : Dram → Dram) : (s.modDram f).ident = s.ident := rfl
@[simp] theorem State.modDram_regs (s : State) (f : Dram → Dram) : (s.modDram f).regs = s.regs := rfl
@[simp] theorem State.modDram_pages (s : State) (f : Dram → Dram) : (s.modDram f).pages = s.pages := rfl
@[simp] theorem State.modDram_rings (s : State) (f : Dram → Dram) : (s.modDram f).rings = s.rings := rfl
@[simp] theorem State.modDram_execs (s : State) (f : Dram → Dram) : (s.modDram f).execs = s.execs := rfl
@[simp] theorem State.modDram_nextOrder (s : State) (f : Dram → Dram) : (s.modDram f).nextOrder = s.nextOrder := rfl
@[simp] theorem State.modDram_objs (s : State) (f : Dram → Dram) : (s.modDram f).objs = s.objs := rfl
@[simp] theorem State.modDram_numHigh (s : State) (f : Dram → Dram) : (s.modDram f).numHigh = s.numHigh := rfl
@[simp] theorem State.modDram_reserved (s : State) (f : Dram → Dram) : (s.modDram f).reserved = s.reserved := rfl
@[simp] theorem State.modDram_dasNext (s : State) (f : Dram → Dram) : (s.modDram f).dasNext = s.dasNext := rfl
@[simp] theorem State.modDram_parcels (s : State) (f : Dram → Dram) : (s.modDram f).parcels = s.parcels := rfl
@[simp] theorem State.modDram_seq (s : State) (f : Dram → Dram) : (s.modDram f).seq = s.seq := rfl
@[simp] theorem State.modDram_versions (s : State) (f : Dram → Dram) : (s.modDram f).versions = s.versions := rfl
@[simp] theorem State.modDram_txs (s : State) (f : Dram → Dram) : (s.modDram f).txs = s.txs := rfl
@[simp] theorem State.modDram_txHigh (s : State) (f : Dram → Dram) : (s.modDram f).txHigh = s.txHigh := rfl
@[simp] theorem State.modDram_branches (s : State) (f : Dram → Dram) : (s.modDram f).branches = s.branches := rfl
@[simp] theorem State.modDram_outcomes (s : State) (f : Dram → Dram) : (s.modDram f).outcomes = s.outcomes := rfl
@[simp] theorem State.modDram_durObjs (s : State) (f : Dram → Dram) : (s.modDram f).durObjs = s.durObjs := rfl
@[simp] theorem State.modDram_durLines (s : State) (f : Dram → Dram) : (s.modDram f).durLines = s.durLines := rfl
@[simp] theorem State.modDram_heldValid (s : State) (f : Dram → Dram) : (s.modDram f).heldValid = s.heldValid := rfl
@[simp] theorem State.modDram_walks (s : State) (f : Dram → Dram) : (s.modDram f).walks = s.walks := rfl
@[simp] theorem State.modDram_health (s : State) (f : Dram → Dram) : (s.modDram f).health = s.health := rfl
@[simp] theorem State.modDram_healthHigh (s : State) (f : Dram → Dram) : (s.modDram f).healthHigh = s.healthHigh := rfl
@[simp] theorem State.modDram_healthMark (s : State) (f : Dram → Dram) : (s.modDram f).healthMark = s.healthMark := rfl
@[simp] theorem State.modDram_flash (s : State) (f : Dram → Dram) : (s.modDram f).flash = s.flash := rfl
@[simp] theorem State.modDram_spad (s : State) (f : Dram → Dram) : (s.modDram f).spad = s.spad := rfl
@[simp] theorem State.modDram_sump (s : State) (f : Dram → Dram) : (s.modDram f).sump = s.sump := rfl
@[simp] theorem State.modDram_jobs (s : State) (f : Dram → Dram) : (s.modDram f).jobs = s.jobs := rfl
@[simp] theorem State.modDram_cores (s : State) (f : Dram → Dram) : (s.modDram f).cores = s.cores := rfl
@[simp] theorem State.modDram_tables (s : State) (f : Dram → Dram) : (s.modDram f).tables = s.tables := rfl
@[simp] theorem State.modDram_indexes (s : State) (f : Dram → Dram) : (s.modDram f).indexes = s.indexes := rfl
@[simp] theorem State.modDram_passes (s : State) (f : Dram → Dram) : (s.modDram f).passes = s.passes := rfl
@[simp] theorem State.modDram_nextPass (s : State) (f : Dram → Dram) : (s.modDram f).nextPass = s.nextPass := rfl
@[simp] theorem State.modDram_candEpochs (s : State) (f : Dram → Dram) : (s.modDram f).candEpochs = s.candEpochs := rfl
@[simp] theorem State.modDram_arrivals (s : State) (f : Dram → Dram) : (s.modDram f).arrivals = s.arrivals := rfl
@[simp] theorem State.modDram_fabric (s : State) (f : Dram → Dram) : (s.modDram f).fabric = s.fabric := rfl
@[simp] theorem State.modDram_host (s : State) (f : Dram → Dram) : (s.modDram f).host = s.host := rfl
@[simp] theorem State.modDram_od (s : State) (f : Dram → Dram) : (s.modDram f).od = s.od := rfl
@[simp] theorem State.modDram_sec (s : State) (f : Dram → Dram) : (s.modDram f).sec = s.sec := rfl
@[simp] theorem State.modDram_power (s : State) (f : Dram → Dram) : (s.modDram f).power = s.power := rfl
@[simp] theorem State.modDram_risk (s : State) (f : Dram → Dram) : (s.modDram f).risk = s.risk := rfl
@[simp] theorem State.modDram_fresh (s : State) (f : Dram → Dram) : (s.modDram f).fresh = s.fresh := rfl

/-! ## modFab -/

@[simp] theorem State.modFab_fabric (s : State) (f : Fabric → Fabric) : (s.modFab f).fabric = f s.fabric := rfl
@[simp] theorem State.modFab_pending (s : State) (f : Fabric → Fabric) : (s.modFab f).pending = s.pending := rfl
@[simp] theorem State.modFab_ident (s : State) (f : Fabric → Fabric) : (s.modFab f).ident = s.ident := rfl
@[simp] theorem State.modFab_regs (s : State) (f : Fabric → Fabric) : (s.modFab f).regs = s.regs := rfl
@[simp] theorem State.modFab_pages (s : State) (f : Fabric → Fabric) : (s.modFab f).pages = s.pages := rfl
@[simp] theorem State.modFab_rings (s : State) (f : Fabric → Fabric) : (s.modFab f).rings = s.rings := rfl
@[simp] theorem State.modFab_execs (s : State) (f : Fabric → Fabric) : (s.modFab f).execs = s.execs := rfl
@[simp] theorem State.modFab_nextOrder (s : State) (f : Fabric → Fabric) : (s.modFab f).nextOrder = s.nextOrder := rfl
@[simp] theorem State.modFab_objs (s : State) (f : Fabric → Fabric) : (s.modFab f).objs = s.objs := rfl
@[simp] theorem State.modFab_numHigh (s : State) (f : Fabric → Fabric) : (s.modFab f).numHigh = s.numHigh := rfl
@[simp] theorem State.modFab_reserved (s : State) (f : Fabric → Fabric) : (s.modFab f).reserved = s.reserved := rfl
@[simp] theorem State.modFab_dasNext (s : State) (f : Fabric → Fabric) : (s.modFab f).dasNext = s.dasNext := rfl
@[simp] theorem State.modFab_parcels (s : State) (f : Fabric → Fabric) : (s.modFab f).parcels = s.parcels := rfl
@[simp] theorem State.modFab_seq (s : State) (f : Fabric → Fabric) : (s.modFab f).seq = s.seq := rfl
@[simp] theorem State.modFab_versions (s : State) (f : Fabric → Fabric) : (s.modFab f).versions = s.versions := rfl
@[simp] theorem State.modFab_txs (s : State) (f : Fabric → Fabric) : (s.modFab f).txs = s.txs := rfl
@[simp] theorem State.modFab_txHigh (s : State) (f : Fabric → Fabric) : (s.modFab f).txHigh = s.txHigh := rfl
@[simp] theorem State.modFab_branches (s : State) (f : Fabric → Fabric) : (s.modFab f).branches = s.branches := rfl
@[simp] theorem State.modFab_outcomes (s : State) (f : Fabric → Fabric) : (s.modFab f).outcomes = s.outcomes := rfl
@[simp] theorem State.modFab_durObjs (s : State) (f : Fabric → Fabric) : (s.modFab f).durObjs = s.durObjs := rfl
@[simp] theorem State.modFab_durLines (s : State) (f : Fabric → Fabric) : (s.modFab f).durLines = s.durLines := rfl
@[simp] theorem State.modFab_heldValid (s : State) (f : Fabric → Fabric) : (s.modFab f).heldValid = s.heldValid := rfl
@[simp] theorem State.modFab_walks (s : State) (f : Fabric → Fabric) : (s.modFab f).walks = s.walks := rfl
@[simp] theorem State.modFab_health (s : State) (f : Fabric → Fabric) : (s.modFab f).health = s.health := rfl
@[simp] theorem State.modFab_healthHigh (s : State) (f : Fabric → Fabric) : (s.modFab f).healthHigh = s.healthHigh := rfl
@[simp] theorem State.modFab_healthMark (s : State) (f : Fabric → Fabric) : (s.modFab f).healthMark = s.healthMark := rfl
@[simp] theorem State.modFab_flash (s : State) (f : Fabric → Fabric) : (s.modFab f).flash = s.flash := rfl
@[simp] theorem State.modFab_dram (s : State) (f : Fabric → Fabric) : (s.modFab f).dram = s.dram := rfl
@[simp] theorem State.modFab_spad (s : State) (f : Fabric → Fabric) : (s.modFab f).spad = s.spad := rfl
@[simp] theorem State.modFab_sump (s : State) (f : Fabric → Fabric) : (s.modFab f).sump = s.sump := rfl
@[simp] theorem State.modFab_jobs (s : State) (f : Fabric → Fabric) : (s.modFab f).jobs = s.jobs := rfl
@[simp] theorem State.modFab_cores (s : State) (f : Fabric → Fabric) : (s.modFab f).cores = s.cores := rfl
@[simp] theorem State.modFab_tables (s : State) (f : Fabric → Fabric) : (s.modFab f).tables = s.tables := rfl
@[simp] theorem State.modFab_indexes (s : State) (f : Fabric → Fabric) : (s.modFab f).indexes = s.indexes := rfl
@[simp] theorem State.modFab_passes (s : State) (f : Fabric → Fabric) : (s.modFab f).passes = s.passes := rfl
@[simp] theorem State.modFab_nextPass (s : State) (f : Fabric → Fabric) : (s.modFab f).nextPass = s.nextPass := rfl
@[simp] theorem State.modFab_candEpochs (s : State) (f : Fabric → Fabric) : (s.modFab f).candEpochs = s.candEpochs := rfl
@[simp] theorem State.modFab_arrivals (s : State) (f : Fabric → Fabric) : (s.modFab f).arrivals = s.arrivals := rfl
@[simp] theorem State.modFab_host (s : State) (f : Fabric → Fabric) : (s.modFab f).host = s.host := rfl
@[simp] theorem State.modFab_od (s : State) (f : Fabric → Fabric) : (s.modFab f).od = s.od := rfl
@[simp] theorem State.modFab_sec (s : State) (f : Fabric → Fabric) : (s.modFab f).sec = s.sec := rfl
@[simp] theorem State.modFab_power (s : State) (f : Fabric → Fabric) : (s.modFab f).power = s.power := rfl
@[simp] theorem State.modFab_risk (s : State) (f : Fabric → Fabric) : (s.modFab f).risk = s.risk := rfl
@[simp] theorem State.modFab_fresh (s : State) (f : Fabric → Fabric) : (s.modFab f).fresh = s.fresh := rfl

/-! ## modHost -/

@[simp] theorem State.modHost_host (s : State) (f : HostIf → HostIf) : (s.modHost f).host = f s.host := rfl
@[simp] theorem State.modHost_pending (s : State) (f : HostIf → HostIf) : (s.modHost f).pending = s.pending := rfl
@[simp] theorem State.modHost_ident (s : State) (f : HostIf → HostIf) : (s.modHost f).ident = s.ident := rfl
@[simp] theorem State.modHost_regs (s : State) (f : HostIf → HostIf) : (s.modHost f).regs = s.regs := rfl
@[simp] theorem State.modHost_pages (s : State) (f : HostIf → HostIf) : (s.modHost f).pages = s.pages := rfl
@[simp] theorem State.modHost_rings (s : State) (f : HostIf → HostIf) : (s.modHost f).rings = s.rings := rfl
@[simp] theorem State.modHost_execs (s : State) (f : HostIf → HostIf) : (s.modHost f).execs = s.execs := rfl
@[simp] theorem State.modHost_nextOrder (s : State) (f : HostIf → HostIf) : (s.modHost f).nextOrder = s.nextOrder := rfl
@[simp] theorem State.modHost_objs (s : State) (f : HostIf → HostIf) : (s.modHost f).objs = s.objs := rfl
@[simp] theorem State.modHost_numHigh (s : State) (f : HostIf → HostIf) : (s.modHost f).numHigh = s.numHigh := rfl
@[simp] theorem State.modHost_reserved (s : State) (f : HostIf → HostIf) : (s.modHost f).reserved = s.reserved := rfl
@[simp] theorem State.modHost_dasNext (s : State) (f : HostIf → HostIf) : (s.modHost f).dasNext = s.dasNext := rfl
@[simp] theorem State.modHost_parcels (s : State) (f : HostIf → HostIf) : (s.modHost f).parcels = s.parcels := rfl
@[simp] theorem State.modHost_seq (s : State) (f : HostIf → HostIf) : (s.modHost f).seq = s.seq := rfl
@[simp] theorem State.modHost_versions (s : State) (f : HostIf → HostIf) : (s.modHost f).versions = s.versions := rfl
@[simp] theorem State.modHost_txs (s : State) (f : HostIf → HostIf) : (s.modHost f).txs = s.txs := rfl
@[simp] theorem State.modHost_txHigh (s : State) (f : HostIf → HostIf) : (s.modHost f).txHigh = s.txHigh := rfl
@[simp] theorem State.modHost_branches (s : State) (f : HostIf → HostIf) : (s.modHost f).branches = s.branches := rfl
@[simp] theorem State.modHost_outcomes (s : State) (f : HostIf → HostIf) : (s.modHost f).outcomes = s.outcomes := rfl
@[simp] theorem State.modHost_durObjs (s : State) (f : HostIf → HostIf) : (s.modHost f).durObjs = s.durObjs := rfl
@[simp] theorem State.modHost_durLines (s : State) (f : HostIf → HostIf) : (s.modHost f).durLines = s.durLines := rfl
@[simp] theorem State.modHost_heldValid (s : State) (f : HostIf → HostIf) : (s.modHost f).heldValid = s.heldValid := rfl
@[simp] theorem State.modHost_walks (s : State) (f : HostIf → HostIf) : (s.modHost f).walks = s.walks := rfl
@[simp] theorem State.modHost_health (s : State) (f : HostIf → HostIf) : (s.modHost f).health = s.health := rfl
@[simp] theorem State.modHost_healthHigh (s : State) (f : HostIf → HostIf) : (s.modHost f).healthHigh = s.healthHigh := rfl
@[simp] theorem State.modHost_healthMark (s : State) (f : HostIf → HostIf) : (s.modHost f).healthMark = s.healthMark := rfl
@[simp] theorem State.modHost_flash (s : State) (f : HostIf → HostIf) : (s.modHost f).flash = s.flash := rfl
@[simp] theorem State.modHost_dram (s : State) (f : HostIf → HostIf) : (s.modHost f).dram = s.dram := rfl
@[simp] theorem State.modHost_spad (s : State) (f : HostIf → HostIf) : (s.modHost f).spad = s.spad := rfl
@[simp] theorem State.modHost_sump (s : State) (f : HostIf → HostIf) : (s.modHost f).sump = s.sump := rfl
@[simp] theorem State.modHost_jobs (s : State) (f : HostIf → HostIf) : (s.modHost f).jobs = s.jobs := rfl
@[simp] theorem State.modHost_cores (s : State) (f : HostIf → HostIf) : (s.modHost f).cores = s.cores := rfl
@[simp] theorem State.modHost_tables (s : State) (f : HostIf → HostIf) : (s.modHost f).tables = s.tables := rfl
@[simp] theorem State.modHost_indexes (s : State) (f : HostIf → HostIf) : (s.modHost f).indexes = s.indexes := rfl
@[simp] theorem State.modHost_passes (s : State) (f : HostIf → HostIf) : (s.modHost f).passes = s.passes := rfl
@[simp] theorem State.modHost_nextPass (s : State) (f : HostIf → HostIf) : (s.modHost f).nextPass = s.nextPass := rfl
@[simp] theorem State.modHost_candEpochs (s : State) (f : HostIf → HostIf) : (s.modHost f).candEpochs = s.candEpochs := rfl
@[simp] theorem State.modHost_arrivals (s : State) (f : HostIf → HostIf) : (s.modHost f).arrivals = s.arrivals := rfl
@[simp] theorem State.modHost_fabric (s : State) (f : HostIf → HostIf) : (s.modHost f).fabric = s.fabric := rfl
@[simp] theorem State.modHost_od (s : State) (f : HostIf → HostIf) : (s.modHost f).od = s.od := rfl
@[simp] theorem State.modHost_sec (s : State) (f : HostIf → HostIf) : (s.modHost f).sec = s.sec := rfl
@[simp] theorem State.modHost_power (s : State) (f : HostIf → HostIf) : (s.modHost f).power = s.power := rfl
@[simp] theorem State.modHost_risk (s : State) (f : HostIf → HostIf) : (s.modHost f).risk = s.risk := rfl
@[simp] theorem State.modHost_fresh (s : State) (f : HostIf → HostIf) : (s.modHost f).fresh = s.fresh := rfl

/-! ## modOd -/

@[simp] theorem State.modOd_od (s : State) (f : Od → Od) : (s.modOd f).od = f s.od := rfl
@[simp] theorem State.modOd_pending (s : State) (f : Od → Od) : (s.modOd f).pending = s.pending := rfl
@[simp] theorem State.modOd_ident (s : State) (f : Od → Od) : (s.modOd f).ident = s.ident := rfl
@[simp] theorem State.modOd_regs (s : State) (f : Od → Od) : (s.modOd f).regs = s.regs := rfl
@[simp] theorem State.modOd_pages (s : State) (f : Od → Od) : (s.modOd f).pages = s.pages := rfl
@[simp] theorem State.modOd_rings (s : State) (f : Od → Od) : (s.modOd f).rings = s.rings := rfl
@[simp] theorem State.modOd_execs (s : State) (f : Od → Od) : (s.modOd f).execs = s.execs := rfl
@[simp] theorem State.modOd_nextOrder (s : State) (f : Od → Od) : (s.modOd f).nextOrder = s.nextOrder := rfl
@[simp] theorem State.modOd_objs (s : State) (f : Od → Od) : (s.modOd f).objs = s.objs := rfl
@[simp] theorem State.modOd_numHigh (s : State) (f : Od → Od) : (s.modOd f).numHigh = s.numHigh := rfl
@[simp] theorem State.modOd_reserved (s : State) (f : Od → Od) : (s.modOd f).reserved = s.reserved := rfl
@[simp] theorem State.modOd_dasNext (s : State) (f : Od → Od) : (s.modOd f).dasNext = s.dasNext := rfl
@[simp] theorem State.modOd_parcels (s : State) (f : Od → Od) : (s.modOd f).parcels = s.parcels := rfl
@[simp] theorem State.modOd_seq (s : State) (f : Od → Od) : (s.modOd f).seq = s.seq := rfl
@[simp] theorem State.modOd_versions (s : State) (f : Od → Od) : (s.modOd f).versions = s.versions := rfl
@[simp] theorem State.modOd_txs (s : State) (f : Od → Od) : (s.modOd f).txs = s.txs := rfl
@[simp] theorem State.modOd_txHigh (s : State) (f : Od → Od) : (s.modOd f).txHigh = s.txHigh := rfl
@[simp] theorem State.modOd_branches (s : State) (f : Od → Od) : (s.modOd f).branches = s.branches := rfl
@[simp] theorem State.modOd_outcomes (s : State) (f : Od → Od) : (s.modOd f).outcomes = s.outcomes := rfl
@[simp] theorem State.modOd_durObjs (s : State) (f : Od → Od) : (s.modOd f).durObjs = s.durObjs := rfl
@[simp] theorem State.modOd_durLines (s : State) (f : Od → Od) : (s.modOd f).durLines = s.durLines := rfl
@[simp] theorem State.modOd_heldValid (s : State) (f : Od → Od) : (s.modOd f).heldValid = s.heldValid := rfl
@[simp] theorem State.modOd_walks (s : State) (f : Od → Od) : (s.modOd f).walks = s.walks := rfl
@[simp] theorem State.modOd_health (s : State) (f : Od → Od) : (s.modOd f).health = s.health := rfl
@[simp] theorem State.modOd_healthHigh (s : State) (f : Od → Od) : (s.modOd f).healthHigh = s.healthHigh := rfl
@[simp] theorem State.modOd_healthMark (s : State) (f : Od → Od) : (s.modOd f).healthMark = s.healthMark := rfl
@[simp] theorem State.modOd_flash (s : State) (f : Od → Od) : (s.modOd f).flash = s.flash := rfl
@[simp] theorem State.modOd_dram (s : State) (f : Od → Od) : (s.modOd f).dram = s.dram := rfl
@[simp] theorem State.modOd_spad (s : State) (f : Od → Od) : (s.modOd f).spad = s.spad := rfl
@[simp] theorem State.modOd_sump (s : State) (f : Od → Od) : (s.modOd f).sump = s.sump := rfl
@[simp] theorem State.modOd_jobs (s : State) (f : Od → Od) : (s.modOd f).jobs = s.jobs := rfl
@[simp] theorem State.modOd_cores (s : State) (f : Od → Od) : (s.modOd f).cores = s.cores := rfl
@[simp] theorem State.modOd_tables (s : State) (f : Od → Od) : (s.modOd f).tables = s.tables := rfl
@[simp] theorem State.modOd_indexes (s : State) (f : Od → Od) : (s.modOd f).indexes = s.indexes := rfl
@[simp] theorem State.modOd_passes (s : State) (f : Od → Od) : (s.modOd f).passes = s.passes := rfl
@[simp] theorem State.modOd_nextPass (s : State) (f : Od → Od) : (s.modOd f).nextPass = s.nextPass := rfl
@[simp] theorem State.modOd_candEpochs (s : State) (f : Od → Od) : (s.modOd f).candEpochs = s.candEpochs := rfl
@[simp] theorem State.modOd_arrivals (s : State) (f : Od → Od) : (s.modOd f).arrivals = s.arrivals := rfl
@[simp] theorem State.modOd_fabric (s : State) (f : Od → Od) : (s.modOd f).fabric = s.fabric := rfl
@[simp] theorem State.modOd_host (s : State) (f : Od → Od) : (s.modOd f).host = s.host := rfl
@[simp] theorem State.modOd_sec (s : State) (f : Od → Od) : (s.modOd f).sec = s.sec := rfl
@[simp] theorem State.modOd_power (s : State) (f : Od → Od) : (s.modOd f).power = s.power := rfl
@[simp] theorem State.modOd_risk (s : State) (f : Od → Od) : (s.modOd f).risk = s.risk := rfl
@[simp] theorem State.modOd_fresh (s : State) (f : Od → Od) : (s.modOd f).fresh = s.fresh := rfl

/-! ## modSec -/

@[simp] theorem State.modSec_sec (s : State) (f : Sec → Sec) : (s.modSec f).sec = f s.sec := rfl
@[simp] theorem State.modSec_pending (s : State) (f : Sec → Sec) : (s.modSec f).pending = s.pending := rfl
@[simp] theorem State.modSec_ident (s : State) (f : Sec → Sec) : (s.modSec f).ident = s.ident := rfl
@[simp] theorem State.modSec_regs (s : State) (f : Sec → Sec) : (s.modSec f).regs = s.regs := rfl
@[simp] theorem State.modSec_pages (s : State) (f : Sec → Sec) : (s.modSec f).pages = s.pages := rfl
@[simp] theorem State.modSec_rings (s : State) (f : Sec → Sec) : (s.modSec f).rings = s.rings := rfl
@[simp] theorem State.modSec_execs (s : State) (f : Sec → Sec) : (s.modSec f).execs = s.execs := rfl
@[simp] theorem State.modSec_nextOrder (s : State) (f : Sec → Sec) : (s.modSec f).nextOrder = s.nextOrder := rfl
@[simp] theorem State.modSec_objs (s : State) (f : Sec → Sec) : (s.modSec f).objs = s.objs := rfl
@[simp] theorem State.modSec_numHigh (s : State) (f : Sec → Sec) : (s.modSec f).numHigh = s.numHigh := rfl
@[simp] theorem State.modSec_reserved (s : State) (f : Sec → Sec) : (s.modSec f).reserved = s.reserved := rfl
@[simp] theorem State.modSec_dasNext (s : State) (f : Sec → Sec) : (s.modSec f).dasNext = s.dasNext := rfl
@[simp] theorem State.modSec_parcels (s : State) (f : Sec → Sec) : (s.modSec f).parcels = s.parcels := rfl
@[simp] theorem State.modSec_seq (s : State) (f : Sec → Sec) : (s.modSec f).seq = s.seq := rfl
@[simp] theorem State.modSec_versions (s : State) (f : Sec → Sec) : (s.modSec f).versions = s.versions := rfl
@[simp] theorem State.modSec_txs (s : State) (f : Sec → Sec) : (s.modSec f).txs = s.txs := rfl
@[simp] theorem State.modSec_txHigh (s : State) (f : Sec → Sec) : (s.modSec f).txHigh = s.txHigh := rfl
@[simp] theorem State.modSec_branches (s : State) (f : Sec → Sec) : (s.modSec f).branches = s.branches := rfl
@[simp] theorem State.modSec_outcomes (s : State) (f : Sec → Sec) : (s.modSec f).outcomes = s.outcomes := rfl
@[simp] theorem State.modSec_durObjs (s : State) (f : Sec → Sec) : (s.modSec f).durObjs = s.durObjs := rfl
@[simp] theorem State.modSec_durLines (s : State) (f : Sec → Sec) : (s.modSec f).durLines = s.durLines := rfl
@[simp] theorem State.modSec_heldValid (s : State) (f : Sec → Sec) : (s.modSec f).heldValid = s.heldValid := rfl
@[simp] theorem State.modSec_walks (s : State) (f : Sec → Sec) : (s.modSec f).walks = s.walks := rfl
@[simp] theorem State.modSec_health (s : State) (f : Sec → Sec) : (s.modSec f).health = s.health := rfl
@[simp] theorem State.modSec_healthHigh (s : State) (f : Sec → Sec) : (s.modSec f).healthHigh = s.healthHigh := rfl
@[simp] theorem State.modSec_healthMark (s : State) (f : Sec → Sec) : (s.modSec f).healthMark = s.healthMark := rfl
@[simp] theorem State.modSec_flash (s : State) (f : Sec → Sec) : (s.modSec f).flash = s.flash := rfl
@[simp] theorem State.modSec_dram (s : State) (f : Sec → Sec) : (s.modSec f).dram = s.dram := rfl
@[simp] theorem State.modSec_spad (s : State) (f : Sec → Sec) : (s.modSec f).spad = s.spad := rfl
@[simp] theorem State.modSec_sump (s : State) (f : Sec → Sec) : (s.modSec f).sump = s.sump := rfl
@[simp] theorem State.modSec_jobs (s : State) (f : Sec → Sec) : (s.modSec f).jobs = s.jobs := rfl
@[simp] theorem State.modSec_cores (s : State) (f : Sec → Sec) : (s.modSec f).cores = s.cores := rfl
@[simp] theorem State.modSec_tables (s : State) (f : Sec → Sec) : (s.modSec f).tables = s.tables := rfl
@[simp] theorem State.modSec_indexes (s : State) (f : Sec → Sec) : (s.modSec f).indexes = s.indexes := rfl
@[simp] theorem State.modSec_passes (s : State) (f : Sec → Sec) : (s.modSec f).passes = s.passes := rfl
@[simp] theorem State.modSec_nextPass (s : State) (f : Sec → Sec) : (s.modSec f).nextPass = s.nextPass := rfl
@[simp] theorem State.modSec_candEpochs (s : State) (f : Sec → Sec) : (s.modSec f).candEpochs = s.candEpochs := rfl
@[simp] theorem State.modSec_arrivals (s : State) (f : Sec → Sec) : (s.modSec f).arrivals = s.arrivals := rfl
@[simp] theorem State.modSec_fabric (s : State) (f : Sec → Sec) : (s.modSec f).fabric = s.fabric := rfl
@[simp] theorem State.modSec_host (s : State) (f : Sec → Sec) : (s.modSec f).host = s.host := rfl
@[simp] theorem State.modSec_od (s : State) (f : Sec → Sec) : (s.modSec f).od = s.od := rfl
@[simp] theorem State.modSec_power (s : State) (f : Sec → Sec) : (s.modSec f).power = s.power := rfl
@[simp] theorem State.modSec_risk (s : State) (f : Sec → Sec) : (s.modSec f).risk = s.risk := rfl
@[simp] theorem State.modSec_fresh (s : State) (f : Sec → Sec) : (s.modSec f).fresh = s.fresh := rfl

/-! ## modPower -/

@[simp] theorem State.modPower_power (s : State) (f : Power → Power) : (s.modPower f).power = f s.power := rfl
@[simp] theorem State.modPower_pending (s : State) (f : Power → Power) : (s.modPower f).pending = s.pending := rfl
@[simp] theorem State.modPower_ident (s : State) (f : Power → Power) : (s.modPower f).ident = s.ident := rfl
@[simp] theorem State.modPower_regs (s : State) (f : Power → Power) : (s.modPower f).regs = s.regs := rfl
@[simp] theorem State.modPower_pages (s : State) (f : Power → Power) : (s.modPower f).pages = s.pages := rfl
@[simp] theorem State.modPower_rings (s : State) (f : Power → Power) : (s.modPower f).rings = s.rings := rfl
@[simp] theorem State.modPower_execs (s : State) (f : Power → Power) : (s.modPower f).execs = s.execs := rfl
@[simp] theorem State.modPower_nextOrder (s : State) (f : Power → Power) : (s.modPower f).nextOrder = s.nextOrder := rfl
@[simp] theorem State.modPower_objs (s : State) (f : Power → Power) : (s.modPower f).objs = s.objs := rfl
@[simp] theorem State.modPower_numHigh (s : State) (f : Power → Power) : (s.modPower f).numHigh = s.numHigh := rfl
@[simp] theorem State.modPower_reserved (s : State) (f : Power → Power) : (s.modPower f).reserved = s.reserved := rfl
@[simp] theorem State.modPower_dasNext (s : State) (f : Power → Power) : (s.modPower f).dasNext = s.dasNext := rfl
@[simp] theorem State.modPower_parcels (s : State) (f : Power → Power) : (s.modPower f).parcels = s.parcels := rfl
@[simp] theorem State.modPower_seq (s : State) (f : Power → Power) : (s.modPower f).seq = s.seq := rfl
@[simp] theorem State.modPower_versions (s : State) (f : Power → Power) : (s.modPower f).versions = s.versions := rfl
@[simp] theorem State.modPower_txs (s : State) (f : Power → Power) : (s.modPower f).txs = s.txs := rfl
@[simp] theorem State.modPower_txHigh (s : State) (f : Power → Power) : (s.modPower f).txHigh = s.txHigh := rfl
@[simp] theorem State.modPower_branches (s : State) (f : Power → Power) : (s.modPower f).branches = s.branches := rfl
@[simp] theorem State.modPower_outcomes (s : State) (f : Power → Power) : (s.modPower f).outcomes = s.outcomes := rfl
@[simp] theorem State.modPower_durObjs (s : State) (f : Power → Power) : (s.modPower f).durObjs = s.durObjs := rfl
@[simp] theorem State.modPower_durLines (s : State) (f : Power → Power) : (s.modPower f).durLines = s.durLines := rfl
@[simp] theorem State.modPower_heldValid (s : State) (f : Power → Power) : (s.modPower f).heldValid = s.heldValid := rfl
@[simp] theorem State.modPower_walks (s : State) (f : Power → Power) : (s.modPower f).walks = s.walks := rfl
@[simp] theorem State.modPower_health (s : State) (f : Power → Power) : (s.modPower f).health = s.health := rfl
@[simp] theorem State.modPower_healthHigh (s : State) (f : Power → Power) : (s.modPower f).healthHigh = s.healthHigh := rfl
@[simp] theorem State.modPower_healthMark (s : State) (f : Power → Power) : (s.modPower f).healthMark = s.healthMark := rfl
@[simp] theorem State.modPower_flash (s : State) (f : Power → Power) : (s.modPower f).flash = s.flash := rfl
@[simp] theorem State.modPower_dram (s : State) (f : Power → Power) : (s.modPower f).dram = s.dram := rfl
@[simp] theorem State.modPower_spad (s : State) (f : Power → Power) : (s.modPower f).spad = s.spad := rfl
@[simp] theorem State.modPower_sump (s : State) (f : Power → Power) : (s.modPower f).sump = s.sump := rfl
@[simp] theorem State.modPower_jobs (s : State) (f : Power → Power) : (s.modPower f).jobs = s.jobs := rfl
@[simp] theorem State.modPower_cores (s : State) (f : Power → Power) : (s.modPower f).cores = s.cores := rfl
@[simp] theorem State.modPower_tables (s : State) (f : Power → Power) : (s.modPower f).tables = s.tables := rfl
@[simp] theorem State.modPower_indexes (s : State) (f : Power → Power) : (s.modPower f).indexes = s.indexes := rfl
@[simp] theorem State.modPower_passes (s : State) (f : Power → Power) : (s.modPower f).passes = s.passes := rfl
@[simp] theorem State.modPower_nextPass (s : State) (f : Power → Power) : (s.modPower f).nextPass = s.nextPass := rfl
@[simp] theorem State.modPower_candEpochs (s : State) (f : Power → Power) : (s.modPower f).candEpochs = s.candEpochs := rfl
@[simp] theorem State.modPower_arrivals (s : State) (f : Power → Power) : (s.modPower f).arrivals = s.arrivals := rfl
@[simp] theorem State.modPower_fabric (s : State) (f : Power → Power) : (s.modPower f).fabric = s.fabric := rfl
@[simp] theorem State.modPower_host (s : State) (f : Power → Power) : (s.modPower f).host = s.host := rfl
@[simp] theorem State.modPower_od (s : State) (f : Power → Power) : (s.modPower f).od = s.od := rfl
@[simp] theorem State.modPower_sec (s : State) (f : Power → Power) : (s.modPower f).sec = s.sec := rfl
@[simp] theorem State.modPower_risk (s : State) (f : Power → Power) : (s.modPower f).risk = s.risk := rfl
@[simp] theorem State.modPower_fresh (s : State) (f : Power → Power) : (s.modPower f).fresh = s.fresh := rfl

/-! ## modRisk -/

@[simp] theorem State.modRisk_risk (s : State) (f : Risk → Risk) : (s.modRisk f).risk = f s.risk := rfl
@[simp] theorem State.modRisk_pending (s : State) (f : Risk → Risk) : (s.modRisk f).pending = s.pending := rfl
@[simp] theorem State.modRisk_ident (s : State) (f : Risk → Risk) : (s.modRisk f).ident = s.ident := rfl
@[simp] theorem State.modRisk_regs (s : State) (f : Risk → Risk) : (s.modRisk f).regs = s.regs := rfl
@[simp] theorem State.modRisk_pages (s : State) (f : Risk → Risk) : (s.modRisk f).pages = s.pages := rfl
@[simp] theorem State.modRisk_rings (s : State) (f : Risk → Risk) : (s.modRisk f).rings = s.rings := rfl
@[simp] theorem State.modRisk_execs (s : State) (f : Risk → Risk) : (s.modRisk f).execs = s.execs := rfl
@[simp] theorem State.modRisk_nextOrder (s : State) (f : Risk → Risk) : (s.modRisk f).nextOrder = s.nextOrder := rfl
@[simp] theorem State.modRisk_objs (s : State) (f : Risk → Risk) : (s.modRisk f).objs = s.objs := rfl
@[simp] theorem State.modRisk_numHigh (s : State) (f : Risk → Risk) : (s.modRisk f).numHigh = s.numHigh := rfl
@[simp] theorem State.modRisk_reserved (s : State) (f : Risk → Risk) : (s.modRisk f).reserved = s.reserved := rfl
@[simp] theorem State.modRisk_dasNext (s : State) (f : Risk → Risk) : (s.modRisk f).dasNext = s.dasNext := rfl
@[simp] theorem State.modRisk_parcels (s : State) (f : Risk → Risk) : (s.modRisk f).parcels = s.parcels := rfl
@[simp] theorem State.modRisk_seq (s : State) (f : Risk → Risk) : (s.modRisk f).seq = s.seq := rfl
@[simp] theorem State.modRisk_versions (s : State) (f : Risk → Risk) : (s.modRisk f).versions = s.versions := rfl
@[simp] theorem State.modRisk_txs (s : State) (f : Risk → Risk) : (s.modRisk f).txs = s.txs := rfl
@[simp] theorem State.modRisk_txHigh (s : State) (f : Risk → Risk) : (s.modRisk f).txHigh = s.txHigh := rfl
@[simp] theorem State.modRisk_branches (s : State) (f : Risk → Risk) : (s.modRisk f).branches = s.branches := rfl
@[simp] theorem State.modRisk_outcomes (s : State) (f : Risk → Risk) : (s.modRisk f).outcomes = s.outcomes := rfl
@[simp] theorem State.modRisk_durObjs (s : State) (f : Risk → Risk) : (s.modRisk f).durObjs = s.durObjs := rfl
@[simp] theorem State.modRisk_durLines (s : State) (f : Risk → Risk) : (s.modRisk f).durLines = s.durLines := rfl
@[simp] theorem State.modRisk_heldValid (s : State) (f : Risk → Risk) : (s.modRisk f).heldValid = s.heldValid := rfl
@[simp] theorem State.modRisk_walks (s : State) (f : Risk → Risk) : (s.modRisk f).walks = s.walks := rfl
@[simp] theorem State.modRisk_health (s : State) (f : Risk → Risk) : (s.modRisk f).health = s.health := rfl
@[simp] theorem State.modRisk_healthHigh (s : State) (f : Risk → Risk) : (s.modRisk f).healthHigh = s.healthHigh := rfl
@[simp] theorem State.modRisk_healthMark (s : State) (f : Risk → Risk) : (s.modRisk f).healthMark = s.healthMark := rfl
@[simp] theorem State.modRisk_flash (s : State) (f : Risk → Risk) : (s.modRisk f).flash = s.flash := rfl
@[simp] theorem State.modRisk_dram (s : State) (f : Risk → Risk) : (s.modRisk f).dram = s.dram := rfl
@[simp] theorem State.modRisk_spad (s : State) (f : Risk → Risk) : (s.modRisk f).spad = s.spad := rfl
@[simp] theorem State.modRisk_sump (s : State) (f : Risk → Risk) : (s.modRisk f).sump = s.sump := rfl
@[simp] theorem State.modRisk_jobs (s : State) (f : Risk → Risk) : (s.modRisk f).jobs = s.jobs := rfl
@[simp] theorem State.modRisk_cores (s : State) (f : Risk → Risk) : (s.modRisk f).cores = s.cores := rfl
@[simp] theorem State.modRisk_tables (s : State) (f : Risk → Risk) : (s.modRisk f).tables = s.tables := rfl
@[simp] theorem State.modRisk_indexes (s : State) (f : Risk → Risk) : (s.modRisk f).indexes = s.indexes := rfl
@[simp] theorem State.modRisk_passes (s : State) (f : Risk → Risk) : (s.modRisk f).passes = s.passes := rfl
@[simp] theorem State.modRisk_nextPass (s : State) (f : Risk → Risk) : (s.modRisk f).nextPass = s.nextPass := rfl
@[simp] theorem State.modRisk_candEpochs (s : State) (f : Risk → Risk) : (s.modRisk f).candEpochs = s.candEpochs := rfl
@[simp] theorem State.modRisk_arrivals (s : State) (f : Risk → Risk) : (s.modRisk f).arrivals = s.arrivals := rfl
@[simp] theorem State.modRisk_fabric (s : State) (f : Risk → Risk) : (s.modRisk f).fabric = s.fabric := rfl
@[simp] theorem State.modRisk_host (s : State) (f : Risk → Risk) : (s.modRisk f).host = s.host := rfl
@[simp] theorem State.modRisk_od (s : State) (f : Risk → Risk) : (s.modRisk f).od = s.od := rfl
@[simp] theorem State.modRisk_sec (s : State) (f : Risk → Risk) : (s.modRisk f).sec = s.sec := rfl
@[simp] theorem State.modRisk_power (s : State) (f : Risk → Risk) : (s.modRisk f).power = s.power := rfl
@[simp] theorem State.modRisk_fresh (s : State) (f : Risk → Risk) : (s.modRisk f).fresh = s.fresh := rfl

/-! ## modObj -/

@[simp] theorem State.modObj_objs (s : State) (h : Nat) (f : Obj → Obj) : (s.modObj h f).objs = kmod s.objs h f := rfl
@[simp] theorem State.modObj_pending (s : State) (h : Nat) (f : Obj → Obj) : (s.modObj h f).pending = s.pending := rfl
@[simp] theorem State.modObj_ident (s : State) (h : Nat) (f : Obj → Obj) : (s.modObj h f).ident = s.ident := rfl
@[simp] theorem State.modObj_regs (s : State) (h : Nat) (f : Obj → Obj) : (s.modObj h f).regs = s.regs := rfl
@[simp] theorem State.modObj_pages (s : State) (h : Nat) (f : Obj → Obj) : (s.modObj h f).pages = s.pages := rfl
@[simp] theorem State.modObj_rings (s : State) (h : Nat) (f : Obj → Obj) : (s.modObj h f).rings = s.rings := rfl
@[simp] theorem State.modObj_execs (s : State) (h : Nat) (f : Obj → Obj) : (s.modObj h f).execs = s.execs := rfl
@[simp] theorem State.modObj_nextOrder (s : State) (h : Nat) (f : Obj → Obj) : (s.modObj h f).nextOrder = s.nextOrder := rfl
@[simp] theorem State.modObj_numHigh (s : State) (h : Nat) (f : Obj → Obj) : (s.modObj h f).numHigh = s.numHigh := rfl
@[simp] theorem State.modObj_reserved (s : State) (h : Nat) (f : Obj → Obj) : (s.modObj h f).reserved = s.reserved := rfl
@[simp] theorem State.modObj_dasNext (s : State) (h : Nat) (f : Obj → Obj) : (s.modObj h f).dasNext = s.dasNext := rfl
@[simp] theorem State.modObj_parcels (s : State) (h : Nat) (f : Obj → Obj) : (s.modObj h f).parcels = s.parcels := rfl
@[simp] theorem State.modObj_seq (s : State) (h : Nat) (f : Obj → Obj) : (s.modObj h f).seq = s.seq := rfl
@[simp] theorem State.modObj_versions (s : State) (h : Nat) (f : Obj → Obj) : (s.modObj h f).versions = s.versions := rfl
@[simp] theorem State.modObj_txs (s : State) (h : Nat) (f : Obj → Obj) : (s.modObj h f).txs = s.txs := rfl
@[simp] theorem State.modObj_txHigh (s : State) (h : Nat) (f : Obj → Obj) : (s.modObj h f).txHigh = s.txHigh := rfl
@[simp] theorem State.modObj_branches (s : State) (h : Nat) (f : Obj → Obj) : (s.modObj h f).branches = s.branches := rfl
@[simp] theorem State.modObj_outcomes (s : State) (h : Nat) (f : Obj → Obj) : (s.modObj h f).outcomes = s.outcomes := rfl
@[simp] theorem State.modObj_durObjs (s : State) (h : Nat) (f : Obj → Obj) : (s.modObj h f).durObjs = s.durObjs := rfl
@[simp] theorem State.modObj_durLines (s : State) (h : Nat) (f : Obj → Obj) : (s.modObj h f).durLines = s.durLines := rfl
@[simp] theorem State.modObj_heldValid (s : State) (h : Nat) (f : Obj → Obj) : (s.modObj h f).heldValid = s.heldValid := rfl
@[simp] theorem State.modObj_walks (s : State) (h : Nat) (f : Obj → Obj) : (s.modObj h f).walks = s.walks := rfl
@[simp] theorem State.modObj_health (s : State) (h : Nat) (f : Obj → Obj) : (s.modObj h f).health = s.health := rfl
@[simp] theorem State.modObj_healthHigh (s : State) (h : Nat) (f : Obj → Obj) : (s.modObj h f).healthHigh = s.healthHigh := rfl
@[simp] theorem State.modObj_healthMark (s : State) (h : Nat) (f : Obj → Obj) : (s.modObj h f).healthMark = s.healthMark := rfl
@[simp] theorem State.modObj_flash (s : State) (h : Nat) (f : Obj → Obj) : (s.modObj h f).flash = s.flash := rfl
@[simp] theorem State.modObj_dram (s : State) (h : Nat) (f : Obj → Obj) : (s.modObj h f).dram = s.dram := rfl
@[simp] theorem State.modObj_spad (s : State) (h : Nat) (f : Obj → Obj) : (s.modObj h f).spad = s.spad := rfl
@[simp] theorem State.modObj_sump (s : State) (h : Nat) (f : Obj → Obj) : (s.modObj h f).sump = s.sump := rfl
@[simp] theorem State.modObj_jobs (s : State) (h : Nat) (f : Obj → Obj) : (s.modObj h f).jobs = s.jobs := rfl
@[simp] theorem State.modObj_cores (s : State) (h : Nat) (f : Obj → Obj) : (s.modObj h f).cores = s.cores := rfl
@[simp] theorem State.modObj_tables (s : State) (h : Nat) (f : Obj → Obj) : (s.modObj h f).tables = s.tables := rfl
@[simp] theorem State.modObj_indexes (s : State) (h : Nat) (f : Obj → Obj) : (s.modObj h f).indexes = s.indexes := rfl
@[simp] theorem State.modObj_passes (s : State) (h : Nat) (f : Obj → Obj) : (s.modObj h f).passes = s.passes := rfl
@[simp] theorem State.modObj_nextPass (s : State) (h : Nat) (f : Obj → Obj) : (s.modObj h f).nextPass = s.nextPass := rfl
@[simp] theorem State.modObj_candEpochs (s : State) (h : Nat) (f : Obj → Obj) : (s.modObj h f).candEpochs = s.candEpochs := rfl
@[simp] theorem State.modObj_arrivals (s : State) (h : Nat) (f : Obj → Obj) : (s.modObj h f).arrivals = s.arrivals := rfl
@[simp] theorem State.modObj_fabric (s : State) (h : Nat) (f : Obj → Obj) : (s.modObj h f).fabric = s.fabric := rfl
@[simp] theorem State.modObj_host (s : State) (h : Nat) (f : Obj → Obj) : (s.modObj h f).host = s.host := rfl
@[simp] theorem State.modObj_od (s : State) (h : Nat) (f : Obj → Obj) : (s.modObj h f).od = s.od := rfl
@[simp] theorem State.modObj_sec (s : State) (h : Nat) (f : Obj → Obj) : (s.modObj h f).sec = s.sec := rfl
@[simp] theorem State.modObj_power (s : State) (h : Nat) (f : Obj → Obj) : (s.modObj h f).power = s.power := rfl
@[simp] theorem State.modObj_risk (s : State) (h : Nat) (f : Obj → Obj) : (s.modObj h f).risk = s.risk := rfl
@[simp] theorem State.modObj_fresh (s : State) (h : Nat) (f : Obj → Obj) : (s.modObj h f).fresh = s.fresh := rfl

/-! ## modReg -/

@[simp] theorem State.modReg_regs (s : State) (r : Nat) (f : TaskReg → TaskReg) : (s.modReg r f).regs = kset s.regs r (f (s.reg r)) := rfl
@[simp] theorem State.modReg_pending (s : State) (r : Nat) (f : TaskReg → TaskReg) : (s.modReg r f).pending = s.pending := rfl
@[simp] theorem State.modReg_ident (s : State) (r : Nat) (f : TaskReg → TaskReg) : (s.modReg r f).ident = s.ident := rfl
@[simp] theorem State.modReg_pages (s : State) (r : Nat) (f : TaskReg → TaskReg) : (s.modReg r f).pages = s.pages := rfl
@[simp] theorem State.modReg_rings (s : State) (r : Nat) (f : TaskReg → TaskReg) : (s.modReg r f).rings = s.rings := rfl
@[simp] theorem State.modReg_execs (s : State) (r : Nat) (f : TaskReg → TaskReg) : (s.modReg r f).execs = s.execs := rfl
@[simp] theorem State.modReg_nextOrder (s : State) (r : Nat) (f : TaskReg → TaskReg) : (s.modReg r f).nextOrder = s.nextOrder := rfl
@[simp] theorem State.modReg_objs (s : State) (r : Nat) (f : TaskReg → TaskReg) : (s.modReg r f).objs = s.objs := rfl
@[simp] theorem State.modReg_numHigh (s : State) (r : Nat) (f : TaskReg → TaskReg) : (s.modReg r f).numHigh = s.numHigh := rfl
@[simp] theorem State.modReg_reserved (s : State) (r : Nat) (f : TaskReg → TaskReg) : (s.modReg r f).reserved = s.reserved := rfl
@[simp] theorem State.modReg_dasNext (s : State) (r : Nat) (f : TaskReg → TaskReg) : (s.modReg r f).dasNext = s.dasNext := rfl
@[simp] theorem State.modReg_parcels (s : State) (r : Nat) (f : TaskReg → TaskReg) : (s.modReg r f).parcels = s.parcels := rfl
@[simp] theorem State.modReg_seq (s : State) (r : Nat) (f : TaskReg → TaskReg) : (s.modReg r f).seq = s.seq := rfl
@[simp] theorem State.modReg_versions (s : State) (r : Nat) (f : TaskReg → TaskReg) : (s.modReg r f).versions = s.versions := rfl
@[simp] theorem State.modReg_txs (s : State) (r : Nat) (f : TaskReg → TaskReg) : (s.modReg r f).txs = s.txs := rfl
@[simp] theorem State.modReg_txHigh (s : State) (r : Nat) (f : TaskReg → TaskReg) : (s.modReg r f).txHigh = s.txHigh := rfl
@[simp] theorem State.modReg_branches (s : State) (r : Nat) (f : TaskReg → TaskReg) : (s.modReg r f).branches = s.branches := rfl
@[simp] theorem State.modReg_outcomes (s : State) (r : Nat) (f : TaskReg → TaskReg) : (s.modReg r f).outcomes = s.outcomes := rfl
@[simp] theorem State.modReg_durObjs (s : State) (r : Nat) (f : TaskReg → TaskReg) : (s.modReg r f).durObjs = s.durObjs := rfl
@[simp] theorem State.modReg_durLines (s : State) (r : Nat) (f : TaskReg → TaskReg) : (s.modReg r f).durLines = s.durLines := rfl
@[simp] theorem State.modReg_heldValid (s : State) (r : Nat) (f : TaskReg → TaskReg) : (s.modReg r f).heldValid = s.heldValid := rfl
@[simp] theorem State.modReg_walks (s : State) (r : Nat) (f : TaskReg → TaskReg) : (s.modReg r f).walks = s.walks := rfl
@[simp] theorem State.modReg_health (s : State) (r : Nat) (f : TaskReg → TaskReg) : (s.modReg r f).health = s.health := rfl
@[simp] theorem State.modReg_healthHigh (s : State) (r : Nat) (f : TaskReg → TaskReg) : (s.modReg r f).healthHigh = s.healthHigh := rfl
@[simp] theorem State.modReg_healthMark (s : State) (r : Nat) (f : TaskReg → TaskReg) : (s.modReg r f).healthMark = s.healthMark := rfl
@[simp] theorem State.modReg_flash (s : State) (r : Nat) (f : TaskReg → TaskReg) : (s.modReg r f).flash = s.flash := rfl
@[simp] theorem State.modReg_dram (s : State) (r : Nat) (f : TaskReg → TaskReg) : (s.modReg r f).dram = s.dram := rfl
@[simp] theorem State.modReg_spad (s : State) (r : Nat) (f : TaskReg → TaskReg) : (s.modReg r f).spad = s.spad := rfl
@[simp] theorem State.modReg_sump (s : State) (r : Nat) (f : TaskReg → TaskReg) : (s.modReg r f).sump = s.sump := rfl
@[simp] theorem State.modReg_jobs (s : State) (r : Nat) (f : TaskReg → TaskReg) : (s.modReg r f).jobs = s.jobs := rfl
@[simp] theorem State.modReg_cores (s : State) (r : Nat) (f : TaskReg → TaskReg) : (s.modReg r f).cores = s.cores := rfl
@[simp] theorem State.modReg_tables (s : State) (r : Nat) (f : TaskReg → TaskReg) : (s.modReg r f).tables = s.tables := rfl
@[simp] theorem State.modReg_indexes (s : State) (r : Nat) (f : TaskReg → TaskReg) : (s.modReg r f).indexes = s.indexes := rfl
@[simp] theorem State.modReg_passes (s : State) (r : Nat) (f : TaskReg → TaskReg) : (s.modReg r f).passes = s.passes := rfl
@[simp] theorem State.modReg_nextPass (s : State) (r : Nat) (f : TaskReg → TaskReg) : (s.modReg r f).nextPass = s.nextPass := rfl
@[simp] theorem State.modReg_candEpochs (s : State) (r : Nat) (f : TaskReg → TaskReg) : (s.modReg r f).candEpochs = s.candEpochs := rfl
@[simp] theorem State.modReg_arrivals (s : State) (r : Nat) (f : TaskReg → TaskReg) : (s.modReg r f).arrivals = s.arrivals := rfl
@[simp] theorem State.modReg_fabric (s : State) (r : Nat) (f : TaskReg → TaskReg) : (s.modReg r f).fabric = s.fabric := rfl
@[simp] theorem State.modReg_host (s : State) (r : Nat) (f : TaskReg → TaskReg) : (s.modReg r f).host = s.host := rfl
@[simp] theorem State.modReg_od (s : State) (r : Nat) (f : TaskReg → TaskReg) : (s.modReg r f).od = s.od := rfl
@[simp] theorem State.modReg_sec (s : State) (r : Nat) (f : TaskReg → TaskReg) : (s.modReg r f).sec = s.sec := rfl
@[simp] theorem State.modReg_power (s : State) (r : Nat) (f : TaskReg → TaskReg) : (s.modReg r f).power = s.power := rfl
@[simp] theorem State.modReg_risk (s : State) (r : Nat) (f : TaskReg → TaskReg) : (s.modReg r f).risk = s.risk := rfl
@[simp] theorem State.modReg_fresh (s : State) (r : Nat) (f : TaskReg → TaskReg) : (s.modReg r f).fresh = s.fresh := rfl

/-! ## modJob -/

@[simp] theorem State.modJob_jobs (s : State) (h : Nat) (f : Job → Job) : (s.modJob h f).jobs = kmod s.jobs h f := rfl
@[simp] theorem State.modJob_pending (s : State) (h : Nat) (f : Job → Job) : (s.modJob h f).pending = s.pending := rfl
@[simp] theorem State.modJob_ident (s : State) (h : Nat) (f : Job → Job) : (s.modJob h f).ident = s.ident := rfl
@[simp] theorem State.modJob_regs (s : State) (h : Nat) (f : Job → Job) : (s.modJob h f).regs = s.regs := rfl
@[simp] theorem State.modJob_pages (s : State) (h : Nat) (f : Job → Job) : (s.modJob h f).pages = s.pages := rfl
@[simp] theorem State.modJob_rings (s : State) (h : Nat) (f : Job → Job) : (s.modJob h f).rings = s.rings := rfl
@[simp] theorem State.modJob_execs (s : State) (h : Nat) (f : Job → Job) : (s.modJob h f).execs = s.execs := rfl
@[simp] theorem State.modJob_nextOrder (s : State) (h : Nat) (f : Job → Job) : (s.modJob h f).nextOrder = s.nextOrder := rfl
@[simp] theorem State.modJob_objs (s : State) (h : Nat) (f : Job → Job) : (s.modJob h f).objs = s.objs := rfl
@[simp] theorem State.modJob_numHigh (s : State) (h : Nat) (f : Job → Job) : (s.modJob h f).numHigh = s.numHigh := rfl
@[simp] theorem State.modJob_reserved (s : State) (h : Nat) (f : Job → Job) : (s.modJob h f).reserved = s.reserved := rfl
@[simp] theorem State.modJob_dasNext (s : State) (h : Nat) (f : Job → Job) : (s.modJob h f).dasNext = s.dasNext := rfl
@[simp] theorem State.modJob_parcels (s : State) (h : Nat) (f : Job → Job) : (s.modJob h f).parcels = s.parcels := rfl
@[simp] theorem State.modJob_seq (s : State) (h : Nat) (f : Job → Job) : (s.modJob h f).seq = s.seq := rfl
@[simp] theorem State.modJob_versions (s : State) (h : Nat) (f : Job → Job) : (s.modJob h f).versions = s.versions := rfl
@[simp] theorem State.modJob_txs (s : State) (h : Nat) (f : Job → Job) : (s.modJob h f).txs = s.txs := rfl
@[simp] theorem State.modJob_txHigh (s : State) (h : Nat) (f : Job → Job) : (s.modJob h f).txHigh = s.txHigh := rfl
@[simp] theorem State.modJob_branches (s : State) (h : Nat) (f : Job → Job) : (s.modJob h f).branches = s.branches := rfl
@[simp] theorem State.modJob_outcomes (s : State) (h : Nat) (f : Job → Job) : (s.modJob h f).outcomes = s.outcomes := rfl
@[simp] theorem State.modJob_durObjs (s : State) (h : Nat) (f : Job → Job) : (s.modJob h f).durObjs = s.durObjs := rfl
@[simp] theorem State.modJob_durLines (s : State) (h : Nat) (f : Job → Job) : (s.modJob h f).durLines = s.durLines := rfl
@[simp] theorem State.modJob_heldValid (s : State) (h : Nat) (f : Job → Job) : (s.modJob h f).heldValid = s.heldValid := rfl
@[simp] theorem State.modJob_walks (s : State) (h : Nat) (f : Job → Job) : (s.modJob h f).walks = s.walks := rfl
@[simp] theorem State.modJob_health (s : State) (h : Nat) (f : Job → Job) : (s.modJob h f).health = s.health := rfl
@[simp] theorem State.modJob_healthHigh (s : State) (h : Nat) (f : Job → Job) : (s.modJob h f).healthHigh = s.healthHigh := rfl
@[simp] theorem State.modJob_healthMark (s : State) (h : Nat) (f : Job → Job) : (s.modJob h f).healthMark = s.healthMark := rfl
@[simp] theorem State.modJob_flash (s : State) (h : Nat) (f : Job → Job) : (s.modJob h f).flash = s.flash := rfl
@[simp] theorem State.modJob_dram (s : State) (h : Nat) (f : Job → Job) : (s.modJob h f).dram = s.dram := rfl
@[simp] theorem State.modJob_spad (s : State) (h : Nat) (f : Job → Job) : (s.modJob h f).spad = s.spad := rfl
@[simp] theorem State.modJob_sump (s : State) (h : Nat) (f : Job → Job) : (s.modJob h f).sump = s.sump := rfl
@[simp] theorem State.modJob_cores (s : State) (h : Nat) (f : Job → Job) : (s.modJob h f).cores = s.cores := rfl
@[simp] theorem State.modJob_tables (s : State) (h : Nat) (f : Job → Job) : (s.modJob h f).tables = s.tables := rfl
@[simp] theorem State.modJob_indexes (s : State) (h : Nat) (f : Job → Job) : (s.modJob h f).indexes = s.indexes := rfl
@[simp] theorem State.modJob_passes (s : State) (h : Nat) (f : Job → Job) : (s.modJob h f).passes = s.passes := rfl
@[simp] theorem State.modJob_nextPass (s : State) (h : Nat) (f : Job → Job) : (s.modJob h f).nextPass = s.nextPass := rfl
@[simp] theorem State.modJob_candEpochs (s : State) (h : Nat) (f : Job → Job) : (s.modJob h f).candEpochs = s.candEpochs := rfl
@[simp] theorem State.modJob_arrivals (s : State) (h : Nat) (f : Job → Job) : (s.modJob h f).arrivals = s.arrivals := rfl
@[simp] theorem State.modJob_fabric (s : State) (h : Nat) (f : Job → Job) : (s.modJob h f).fabric = s.fabric := rfl
@[simp] theorem State.modJob_host (s : State) (h : Nat) (f : Job → Job) : (s.modJob h f).host = s.host := rfl
@[simp] theorem State.modJob_od (s : State) (h : Nat) (f : Job → Job) : (s.modJob h f).od = s.od := rfl
@[simp] theorem State.modJob_sec (s : State) (h : Nat) (f : Job → Job) : (s.modJob h f).sec = s.sec := rfl
@[simp] theorem State.modJob_power (s : State) (h : Nat) (f : Job → Job) : (s.modJob h f).power = s.power := rfl
@[simp] theorem State.modJob_risk (s : State) (h : Nat) (f : Job → Job) : (s.modJob h f).risk = s.risk := rfl
@[simp] theorem State.modJob_fresh (s : State) (h : Nat) (f : Job → Job) : (s.modJob h f).fresh = s.fresh := rfl

/-! ## modParcel -/

@[simp] theorem State.modParcel_parcels (s : State) (n : Nat) (f : Parcel → Parcel) : (s.modParcel n f).parcels = kmod s.parcels n f := rfl
@[simp] theorem State.modParcel_pending (s : State) (n : Nat) (f : Parcel → Parcel) : (s.modParcel n f).pending = s.pending := rfl
@[simp] theorem State.modParcel_ident (s : State) (n : Nat) (f : Parcel → Parcel) : (s.modParcel n f).ident = s.ident := rfl
@[simp] theorem State.modParcel_regs (s : State) (n : Nat) (f : Parcel → Parcel) : (s.modParcel n f).regs = s.regs := rfl
@[simp] theorem State.modParcel_pages (s : State) (n : Nat) (f : Parcel → Parcel) : (s.modParcel n f).pages = s.pages := rfl
@[simp] theorem State.modParcel_rings (s : State) (n : Nat) (f : Parcel → Parcel) : (s.modParcel n f).rings = s.rings := rfl
@[simp] theorem State.modParcel_execs (s : State) (n : Nat) (f : Parcel → Parcel) : (s.modParcel n f).execs = s.execs := rfl
@[simp] theorem State.modParcel_nextOrder (s : State) (n : Nat) (f : Parcel → Parcel) : (s.modParcel n f).nextOrder = s.nextOrder := rfl
@[simp] theorem State.modParcel_objs (s : State) (n : Nat) (f : Parcel → Parcel) : (s.modParcel n f).objs = s.objs := rfl
@[simp] theorem State.modParcel_numHigh (s : State) (n : Nat) (f : Parcel → Parcel) : (s.modParcel n f).numHigh = s.numHigh := rfl
@[simp] theorem State.modParcel_reserved (s : State) (n : Nat) (f : Parcel → Parcel) : (s.modParcel n f).reserved = s.reserved := rfl
@[simp] theorem State.modParcel_dasNext (s : State) (n : Nat) (f : Parcel → Parcel) : (s.modParcel n f).dasNext = s.dasNext := rfl
@[simp] theorem State.modParcel_seq (s : State) (n : Nat) (f : Parcel → Parcel) : (s.modParcel n f).seq = s.seq := rfl
@[simp] theorem State.modParcel_versions (s : State) (n : Nat) (f : Parcel → Parcel) : (s.modParcel n f).versions = s.versions := rfl
@[simp] theorem State.modParcel_txs (s : State) (n : Nat) (f : Parcel → Parcel) : (s.modParcel n f).txs = s.txs := rfl
@[simp] theorem State.modParcel_txHigh (s : State) (n : Nat) (f : Parcel → Parcel) : (s.modParcel n f).txHigh = s.txHigh := rfl
@[simp] theorem State.modParcel_branches (s : State) (n : Nat) (f : Parcel → Parcel) : (s.modParcel n f).branches = s.branches := rfl
@[simp] theorem State.modParcel_outcomes (s : State) (n : Nat) (f : Parcel → Parcel) : (s.modParcel n f).outcomes = s.outcomes := rfl
@[simp] theorem State.modParcel_durObjs (s : State) (n : Nat) (f : Parcel → Parcel) : (s.modParcel n f).durObjs = s.durObjs := rfl
@[simp] theorem State.modParcel_durLines (s : State) (n : Nat) (f : Parcel → Parcel) : (s.modParcel n f).durLines = s.durLines := rfl
@[simp] theorem State.modParcel_heldValid (s : State) (n : Nat) (f : Parcel → Parcel) : (s.modParcel n f).heldValid = s.heldValid := rfl
@[simp] theorem State.modParcel_walks (s : State) (n : Nat) (f : Parcel → Parcel) : (s.modParcel n f).walks = s.walks := rfl
@[simp] theorem State.modParcel_health (s : State) (n : Nat) (f : Parcel → Parcel) : (s.modParcel n f).health = s.health := rfl
@[simp] theorem State.modParcel_healthHigh (s : State) (n : Nat) (f : Parcel → Parcel) : (s.modParcel n f).healthHigh = s.healthHigh := rfl
@[simp] theorem State.modParcel_healthMark (s : State) (n : Nat) (f : Parcel → Parcel) : (s.modParcel n f).healthMark = s.healthMark := rfl
@[simp] theorem State.modParcel_flash (s : State) (n : Nat) (f : Parcel → Parcel) : (s.modParcel n f).flash = s.flash := rfl
@[simp] theorem State.modParcel_dram (s : State) (n : Nat) (f : Parcel → Parcel) : (s.modParcel n f).dram = s.dram := rfl
@[simp] theorem State.modParcel_spad (s : State) (n : Nat) (f : Parcel → Parcel) : (s.modParcel n f).spad = s.spad := rfl
@[simp] theorem State.modParcel_sump (s : State) (n : Nat) (f : Parcel → Parcel) : (s.modParcel n f).sump = s.sump := rfl
@[simp] theorem State.modParcel_jobs (s : State) (n : Nat) (f : Parcel → Parcel) : (s.modParcel n f).jobs = s.jobs := rfl
@[simp] theorem State.modParcel_cores (s : State) (n : Nat) (f : Parcel → Parcel) : (s.modParcel n f).cores = s.cores := rfl
@[simp] theorem State.modParcel_tables (s : State) (n : Nat) (f : Parcel → Parcel) : (s.modParcel n f).tables = s.tables := rfl
@[simp] theorem State.modParcel_indexes (s : State) (n : Nat) (f : Parcel → Parcel) : (s.modParcel n f).indexes = s.indexes := rfl
@[simp] theorem State.modParcel_passes (s : State) (n : Nat) (f : Parcel → Parcel) : (s.modParcel n f).passes = s.passes := rfl
@[simp] theorem State.modParcel_nextPass (s : State) (n : Nat) (f : Parcel → Parcel) : (s.modParcel n f).nextPass = s.nextPass := rfl
@[simp] theorem State.modParcel_candEpochs (s : State) (n : Nat) (f : Parcel → Parcel) : (s.modParcel n f).candEpochs = s.candEpochs := rfl
@[simp] theorem State.modParcel_arrivals (s : State) (n : Nat) (f : Parcel → Parcel) : (s.modParcel n f).arrivals = s.arrivals := rfl
@[simp] theorem State.modParcel_fabric (s : State) (n : Nat) (f : Parcel → Parcel) : (s.modParcel n f).fabric = s.fabric := rfl
@[simp] theorem State.modParcel_host (s : State) (n : Nat) (f : Parcel → Parcel) : (s.modParcel n f).host = s.host := rfl
@[simp] theorem State.modParcel_od (s : State) (n : Nat) (f : Parcel → Parcel) : (s.modParcel n f).od = s.od := rfl
@[simp] theorem State.modParcel_sec (s : State) (n : Nat) (f : Parcel → Parcel) : (s.modParcel n f).sec = s.sec := rfl
@[simp] theorem State.modParcel_power (s : State) (n : Nat) (f : Parcel → Parcel) : (s.modParcel n f).power = s.power := rfl
@[simp] theorem State.modParcel_risk (s : State) (n : Nat) (f : Parcel → Parcel) : (s.modParcel n f).risk = s.risk := rfl
@[simp] theorem State.modParcel_fresh (s : State) (n : Nat) (f : Parcel → Parcel) : (s.modParcel n f).fresh = s.fresh := rfl

/-! ## modTx -/

@[simp] theorem State.modTx_txs (s : State) (l : Nat) (f : Tx → Tx) : (s.modTx l f).txs = kmod s.txs l f := rfl
@[simp] theorem State.modTx_pending (s : State) (l : Nat) (f : Tx → Tx) : (s.modTx l f).pending = s.pending := rfl
@[simp] theorem State.modTx_ident (s : State) (l : Nat) (f : Tx → Tx) : (s.modTx l f).ident = s.ident := rfl
@[simp] theorem State.modTx_regs (s : State) (l : Nat) (f : Tx → Tx) : (s.modTx l f).regs = s.regs := rfl
@[simp] theorem State.modTx_pages (s : State) (l : Nat) (f : Tx → Tx) : (s.modTx l f).pages = s.pages := rfl
@[simp] theorem State.modTx_rings (s : State) (l : Nat) (f : Tx → Tx) : (s.modTx l f).rings = s.rings := rfl
@[simp] theorem State.modTx_execs (s : State) (l : Nat) (f : Tx → Tx) : (s.modTx l f).execs = s.execs := rfl
@[simp] theorem State.modTx_nextOrder (s : State) (l : Nat) (f : Tx → Tx) : (s.modTx l f).nextOrder = s.nextOrder := rfl
@[simp] theorem State.modTx_objs (s : State) (l : Nat) (f : Tx → Tx) : (s.modTx l f).objs = s.objs := rfl
@[simp] theorem State.modTx_numHigh (s : State) (l : Nat) (f : Tx → Tx) : (s.modTx l f).numHigh = s.numHigh := rfl
@[simp] theorem State.modTx_reserved (s : State) (l : Nat) (f : Tx → Tx) : (s.modTx l f).reserved = s.reserved := rfl
@[simp] theorem State.modTx_dasNext (s : State) (l : Nat) (f : Tx → Tx) : (s.modTx l f).dasNext = s.dasNext := rfl
@[simp] theorem State.modTx_parcels (s : State) (l : Nat) (f : Tx → Tx) : (s.modTx l f).parcels = s.parcels := rfl
@[simp] theorem State.modTx_seq (s : State) (l : Nat) (f : Tx → Tx) : (s.modTx l f).seq = s.seq := rfl
@[simp] theorem State.modTx_versions (s : State) (l : Nat) (f : Tx → Tx) : (s.modTx l f).versions = s.versions := rfl
@[simp] theorem State.modTx_txHigh (s : State) (l : Nat) (f : Tx → Tx) : (s.modTx l f).txHigh = s.txHigh := rfl
@[simp] theorem State.modTx_branches (s : State) (l : Nat) (f : Tx → Tx) : (s.modTx l f).branches = s.branches := rfl
@[simp] theorem State.modTx_outcomes (s : State) (l : Nat) (f : Tx → Tx) : (s.modTx l f).outcomes = s.outcomes := rfl
@[simp] theorem State.modTx_durObjs (s : State) (l : Nat) (f : Tx → Tx) : (s.modTx l f).durObjs = s.durObjs := rfl
@[simp] theorem State.modTx_durLines (s : State) (l : Nat) (f : Tx → Tx) : (s.modTx l f).durLines = s.durLines := rfl
@[simp] theorem State.modTx_heldValid (s : State) (l : Nat) (f : Tx → Tx) : (s.modTx l f).heldValid = s.heldValid := rfl
@[simp] theorem State.modTx_walks (s : State) (l : Nat) (f : Tx → Tx) : (s.modTx l f).walks = s.walks := rfl
@[simp] theorem State.modTx_health (s : State) (l : Nat) (f : Tx → Tx) : (s.modTx l f).health = s.health := rfl
@[simp] theorem State.modTx_healthHigh (s : State) (l : Nat) (f : Tx → Tx) : (s.modTx l f).healthHigh = s.healthHigh := rfl
@[simp] theorem State.modTx_healthMark (s : State) (l : Nat) (f : Tx → Tx) : (s.modTx l f).healthMark = s.healthMark := rfl
@[simp] theorem State.modTx_flash (s : State) (l : Nat) (f : Tx → Tx) : (s.modTx l f).flash = s.flash := rfl
@[simp] theorem State.modTx_dram (s : State) (l : Nat) (f : Tx → Tx) : (s.modTx l f).dram = s.dram := rfl
@[simp] theorem State.modTx_spad (s : State) (l : Nat) (f : Tx → Tx) : (s.modTx l f).spad = s.spad := rfl
@[simp] theorem State.modTx_sump (s : State) (l : Nat) (f : Tx → Tx) : (s.modTx l f).sump = s.sump := rfl
@[simp] theorem State.modTx_jobs (s : State) (l : Nat) (f : Tx → Tx) : (s.modTx l f).jobs = s.jobs := rfl
@[simp] theorem State.modTx_cores (s : State) (l : Nat) (f : Tx → Tx) : (s.modTx l f).cores = s.cores := rfl
@[simp] theorem State.modTx_tables (s : State) (l : Nat) (f : Tx → Tx) : (s.modTx l f).tables = s.tables := rfl
@[simp] theorem State.modTx_indexes (s : State) (l : Nat) (f : Tx → Tx) : (s.modTx l f).indexes = s.indexes := rfl
@[simp] theorem State.modTx_passes (s : State) (l : Nat) (f : Tx → Tx) : (s.modTx l f).passes = s.passes := rfl
@[simp] theorem State.modTx_nextPass (s : State) (l : Nat) (f : Tx → Tx) : (s.modTx l f).nextPass = s.nextPass := rfl
@[simp] theorem State.modTx_candEpochs (s : State) (l : Nat) (f : Tx → Tx) : (s.modTx l f).candEpochs = s.candEpochs := rfl
@[simp] theorem State.modTx_arrivals (s : State) (l : Nat) (f : Tx → Tx) : (s.modTx l f).arrivals = s.arrivals := rfl
@[simp] theorem State.modTx_fabric (s : State) (l : Nat) (f : Tx → Tx) : (s.modTx l f).fabric = s.fabric := rfl
@[simp] theorem State.modTx_host (s : State) (l : Nat) (f : Tx → Tx) : (s.modTx l f).host = s.host := rfl
@[simp] theorem State.modTx_od (s : State) (l : Nat) (f : Tx → Tx) : (s.modTx l f).od = s.od := rfl
@[simp] theorem State.modTx_sec (s : State) (l : Nat) (f : Tx → Tx) : (s.modTx l f).sec = s.sec := rfl
@[simp] theorem State.modTx_power (s : State) (l : Nat) (f : Tx → Tx) : (s.modTx l f).power = s.power := rfl
@[simp] theorem State.modTx_risk (s : State) (l : Nat) (f : Tx → Tx) : (s.modTx l f).risk = s.risk := rfl
@[simp] theorem State.modTx_fresh (s : State) (l : Nat) (f : Tx → Tx) : (s.modTx l f).fresh = s.fresh := rfl

/-! ## modPort -/

@[simp] theorem State.modPort_ports (s : State) (n : Nat) (f : Port → Port) : (s.modPort n f).fabric.ports = s.fabric.ports.modify n f := rfl
@[simp] theorem State.modPort_pending (s : State) (n : Nat) (f : Port → Port) : (s.modPort n f).pending = s.pending := rfl
@[simp] theorem State.modPort_ident (s : State) (n : Nat) (f : Port → Port) : (s.modPort n f).ident = s.ident := rfl
@[simp] theorem State.modPort_regs (s : State) (n : Nat) (f : Port → Port) : (s.modPort n f).regs = s.regs := rfl
@[simp] theorem State.modPort_pages (s : State) (n : Nat) (f : Port → Port) : (s.modPort n f).pages = s.pages := rfl
@[simp] theorem State.modPort_rings (s : State) (n : Nat) (f : Port → Port) : (s.modPort n f).rings = s.rings := rfl
@[simp] theorem State.modPort_execs (s : State) (n : Nat) (f : Port → Port) : (s.modPort n f).execs = s.execs := rfl
@[simp] theorem State.modPort_nextOrder (s : State) (n : Nat) (f : Port → Port) : (s.modPort n f).nextOrder = s.nextOrder := rfl
@[simp] theorem State.modPort_objs (s : State) (n : Nat) (f : Port → Port) : (s.modPort n f).objs = s.objs := rfl
@[simp] theorem State.modPort_numHigh (s : State) (n : Nat) (f : Port → Port) : (s.modPort n f).numHigh = s.numHigh := rfl
@[simp] theorem State.modPort_reserved (s : State) (n : Nat) (f : Port → Port) : (s.modPort n f).reserved = s.reserved := rfl
@[simp] theorem State.modPort_dasNext (s : State) (n : Nat) (f : Port → Port) : (s.modPort n f).dasNext = s.dasNext := rfl
@[simp] theorem State.modPort_parcels (s : State) (n : Nat) (f : Port → Port) : (s.modPort n f).parcels = s.parcels := rfl
@[simp] theorem State.modPort_seq (s : State) (n : Nat) (f : Port → Port) : (s.modPort n f).seq = s.seq := rfl
@[simp] theorem State.modPort_versions (s : State) (n : Nat) (f : Port → Port) : (s.modPort n f).versions = s.versions := rfl
@[simp] theorem State.modPort_txs (s : State) (n : Nat) (f : Port → Port) : (s.modPort n f).txs = s.txs := rfl
@[simp] theorem State.modPort_txHigh (s : State) (n : Nat) (f : Port → Port) : (s.modPort n f).txHigh = s.txHigh := rfl
@[simp] theorem State.modPort_branches (s : State) (n : Nat) (f : Port → Port) : (s.modPort n f).branches = s.branches := rfl
@[simp] theorem State.modPort_outcomes (s : State) (n : Nat) (f : Port → Port) : (s.modPort n f).outcomes = s.outcomes := rfl
@[simp] theorem State.modPort_durObjs (s : State) (n : Nat) (f : Port → Port) : (s.modPort n f).durObjs = s.durObjs := rfl
@[simp] theorem State.modPort_durLines (s : State) (n : Nat) (f : Port → Port) : (s.modPort n f).durLines = s.durLines := rfl
@[simp] theorem State.modPort_heldValid (s : State) (n : Nat) (f : Port → Port) : (s.modPort n f).heldValid = s.heldValid := rfl
@[simp] theorem State.modPort_walks (s : State) (n : Nat) (f : Port → Port) : (s.modPort n f).walks = s.walks := rfl
@[simp] theorem State.modPort_health (s : State) (n : Nat) (f : Port → Port) : (s.modPort n f).health = s.health := rfl
@[simp] theorem State.modPort_healthHigh (s : State) (n : Nat) (f : Port → Port) : (s.modPort n f).healthHigh = s.healthHigh := rfl
@[simp] theorem State.modPort_healthMark (s : State) (n : Nat) (f : Port → Port) : (s.modPort n f).healthMark = s.healthMark := rfl
@[simp] theorem State.modPort_flash (s : State) (n : Nat) (f : Port → Port) : (s.modPort n f).flash = s.flash := rfl
@[simp] theorem State.modPort_dram (s : State) (n : Nat) (f : Port → Port) : (s.modPort n f).dram = s.dram := rfl
@[simp] theorem State.modPort_spad (s : State) (n : Nat) (f : Port → Port) : (s.modPort n f).spad = s.spad := rfl
@[simp] theorem State.modPort_sump (s : State) (n : Nat) (f : Port → Port) : (s.modPort n f).sump = s.sump := rfl
@[simp] theorem State.modPort_jobs (s : State) (n : Nat) (f : Port → Port) : (s.modPort n f).jobs = s.jobs := rfl
@[simp] theorem State.modPort_cores (s : State) (n : Nat) (f : Port → Port) : (s.modPort n f).cores = s.cores := rfl
@[simp] theorem State.modPort_tables (s : State) (n : Nat) (f : Port → Port) : (s.modPort n f).tables = s.tables := rfl
@[simp] theorem State.modPort_indexes (s : State) (n : Nat) (f : Port → Port) : (s.modPort n f).indexes = s.indexes := rfl
@[simp] theorem State.modPort_passes (s : State) (n : Nat) (f : Port → Port) : (s.modPort n f).passes = s.passes := rfl
@[simp] theorem State.modPort_nextPass (s : State) (n : Nat) (f : Port → Port) : (s.modPort n f).nextPass = s.nextPass := rfl
@[simp] theorem State.modPort_candEpochs (s : State) (n : Nat) (f : Port → Port) : (s.modPort n f).candEpochs = s.candEpochs := rfl
@[simp] theorem State.modPort_arrivals (s : State) (n : Nat) (f : Port → Port) : (s.modPort n f).arrivals = s.arrivals := rfl
@[simp] theorem State.modPort_host (s : State) (n : Nat) (f : Port → Port) : (s.modPort n f).host = s.host := rfl
@[simp] theorem State.modPort_od (s : State) (n : Nat) (f : Port → Port) : (s.modPort n f).od = s.od := rfl
@[simp] theorem State.modPort_sec (s : State) (n : Nat) (f : Port → Port) : (s.modPort n f).sec = s.sec := rfl
@[simp] theorem State.modPort_power (s : State) (n : Nat) (f : Port → Port) : (s.modPort n f).power = s.power := rfl
@[simp] theorem State.modPort_risk (s : State) (n : Nat) (f : Port → Port) : (s.modPort n f).risk = s.risk := rfl
@[simp] theorem State.modPort_fresh (s : State) (n : Nat) (f : Port → Port) : (s.modPort n f).fresh = s.fresh := rfl

end Sys2Proof.Machine
end

