-- ==== Sys2Proof/Laws/Ops.lean ====
section
/-! SUPPORT. Laws/Ops.lean: what the shared operations leave and what they set: counters, settings, the journal's queue, accesses to task
registers, and the step. -/

namespace Sys2Proof.Machine

/-! ## A meaning's answer -/

theorem done_eq {s t : State} (hp : t.pending = s.pending) (hi : t.ident = s.ident) : done s t = .next t := by
  cases t; simp_all [done]

theorem done_next (s t : State) : done s t = .next { t with pending := s.pending, ident := s.ident } := rfl

/-! ## Counters (18 R471) -/

@[simp] theorem bump_pending (s : State) (i j n : Nat) : (bump s i j n).pending = s.pending := by unfold bump; split <;> rfl
@[simp] theorem bump_ident (s : State) (i j n : Nat) : (bump s i j n).ident = s.ident := by unfold bump; split <;> rfl
@[simp] theorem bump_regs (s : State) (i j n : Nat) : (bump s i j n).regs = s.regs := by unfold bump; split <;> rfl
@[simp] theorem bump_pages (s : State) (i j n : Nat) : (bump s i j n).pages = s.pages := by unfold bump; split <;> rfl
@[simp] theorem bump_rings (s : State) (i j n : Nat) : (bump s i j n).rings = s.rings := by unfold bump; split <;> rfl
@[simp] theorem bump_execs (s : State) (i j n : Nat) : (bump s i j n).execs = s.execs := by unfold bump; split <;> rfl
@[simp] theorem bump_nextOrder (s : State) (i j n : Nat) : (bump s i j n).nextOrder = s.nextOrder := by unfold bump; split <;> rfl
@[simp] theorem bump_objs (s : State) (i j n : Nat) : (bump s i j n).objs = s.objs := by unfold bump; split <;> rfl
@[simp] theorem bump_numHigh (s : State) (i j n : Nat) : (bump s i j n).numHigh = s.numHigh := by unfold bump; split <;> rfl
@[simp] theorem bump_reserved (s : State) (i j n : Nat) : (bump s i j n).reserved = s.reserved := by unfold bump; split <;> rfl
@[simp] theorem bump_dasNext (s : State) (i j n : Nat) : (bump s i j n).dasNext = s.dasNext := by unfold bump; split <;> rfl
@[simp] theorem bump_parcels (s : State) (i j n : Nat) : (bump s i j n).parcels = s.parcels := by unfold bump; split <;> rfl
@[simp] theorem bump_seq (s : State) (i j n : Nat) : (bump s i j n).seq = s.seq := by unfold bump; split <;> rfl
@[simp] theorem bump_versions (s : State) (i j n : Nat) : (bump s i j n).versions = s.versions := by unfold bump; split <;> rfl
@[simp] theorem bump_txs (s : State) (i j n : Nat) : (bump s i j n).txs = s.txs := by unfold bump; split <;> rfl
@[simp] theorem bump_txHigh (s : State) (i j n : Nat) : (bump s i j n).txHigh = s.txHigh := by unfold bump; split <;> rfl
@[simp] theorem bump_branches (s : State) (i j n : Nat) : (bump s i j n).branches = s.branches := by unfold bump; split <;> rfl
@[simp] theorem bump_outcomes (s : State) (i j n : Nat) : (bump s i j n).outcomes = s.outcomes := by unfold bump; split <;> rfl
@[simp] theorem bump_durObjs (s : State) (i j n : Nat) : (bump s i j n).durObjs = s.durObjs := by unfold bump; split <;> rfl
@[simp] theorem bump_durLines (s : State) (i j n : Nat) : (bump s i j n).durLines = s.durLines := by unfold bump; split <;> rfl
@[simp] theorem bump_heldValid (s : State) (i j n : Nat) : (bump s i j n).heldValid = s.heldValid := by unfold bump; split <;> rfl
@[simp] theorem bump_walks (s : State) (i j n : Nat) : (bump s i j n).walks = s.walks := by unfold bump; split <;> rfl
@[simp] theorem bump_health (s : State) (i j n : Nat) : (bump s i j n).health = s.health := by unfold bump; split <;> rfl
@[simp] theorem bump_healthHigh (s : State) (i j n : Nat) : (bump s i j n).healthHigh = s.healthHigh := by unfold bump; split <;> rfl
@[simp] theorem bump_healthMark (s : State) (i j n : Nat) : (bump s i j n).healthMark = s.healthMark := by unfold bump; split <;> rfl
@[simp] theorem bump_flash (s : State) (i j n : Nat) : (bump s i j n).flash = s.flash := by unfold bump; split <;> rfl
@[simp] theorem bump_dram (s : State) (i j n : Nat) : (bump s i j n).dram = s.dram := by unfold bump; split <;> rfl
@[simp] theorem bump_spad (s : State) (i j n : Nat) : (bump s i j n).spad = s.spad := by unfold bump; split <;> rfl
@[simp] theorem bump_sump (s : State) (i j n : Nat) : (bump s i j n).sump = s.sump := by unfold bump; split <;> rfl
@[simp] theorem bump_jobs (s : State) (i j n : Nat) : (bump s i j n).jobs = s.jobs := by unfold bump; split <;> rfl
@[simp] theorem bump_cores (s : State) (i j n : Nat) : (bump s i j n).cores = s.cores := by unfold bump; split <;> rfl
@[simp] theorem bump_tables (s : State) (i j n : Nat) : (bump s i j n).tables = s.tables := by unfold bump; split <;> rfl
@[simp] theorem bump_indexes (s : State) (i j n : Nat) : (bump s i j n).indexes = s.indexes := by unfold bump; split <;> rfl
@[simp] theorem bump_passes (s : State) (i j n : Nat) : (bump s i j n).passes = s.passes := by unfold bump; split <;> rfl
@[simp] theorem bump_nextPass (s : State) (i j n : Nat) : (bump s i j n).nextPass = s.nextPass := by unfold bump; split <;> rfl
@[simp] theorem bump_candEpochs (s : State) (i j n : Nat) : (bump s i j n).candEpochs = s.candEpochs := by unfold bump; split <;> rfl
@[simp] theorem bump_arrivals (s : State) (i j n : Nat) : (bump s i j n).arrivals = s.arrivals := by unfold bump; split <;> rfl
@[simp] theorem bump_fabric (s : State) (i j n : Nat) : (bump s i j n).fabric = s.fabric := by unfold bump; split <;> rfl
@[simp] theorem bump_host (s : State) (i j n : Nat) : (bump s i j n).host = s.host := by unfold bump; split <;> rfl
@[simp] theorem bump_sec (s : State) (i j n : Nat) : (bump s i j n).sec = s.sec := by unfold bump; split <;> rfl
@[simp] theorem bump_power (s : State) (i j n : Nat) : (bump s i j n).power = s.power := by unfold bump; split <;> rfl
@[simp] theorem bump_risk (s : State) (i j n : Nat) : (bump s i j n).risk = s.risk := by unfold bump; split <;> rfl
@[simp] theorem bump_fresh (s : State) (i j n : Nat) : (bump s i j n).fresh = s.fresh := by unfold bump; split <;> rfl
@[simp] theorem bump_reg (s : State) (i j n r : Nat) : (bump s i j n).reg r = s.reg r := by unfold bump; split <;> rfl

@[simp] theorem bumpP_pending (s : State) (p i j n : Nat) : (bumpP s p i j n).pending = s.pending := by unfold bumpP; split <;> rfl
@[simp] theorem bumpP_ident (s : State) (p i j n : Nat) : (bumpP s p i j n).ident = s.ident := by unfold bumpP; split <;> rfl
@[simp] theorem bumpP_regs (s : State) (p i j n : Nat) : (bumpP s p i j n).regs = s.regs := by unfold bumpP; split <;> rfl
@[simp] theorem bumpP_pages (s : State) (p i j n : Nat) : (bumpP s p i j n).pages = s.pages := by unfold bumpP; split <;> rfl
@[simp] theorem bumpP_rings (s : State) (p i j n : Nat) : (bumpP s p i j n).rings = s.rings := by unfold bumpP; split <;> rfl
@[simp] theorem bumpP_execs (s : State) (p i j n : Nat) : (bumpP s p i j n).execs = s.execs := by unfold bumpP; split <;> rfl
@[simp] theorem bumpP_nextOrder (s : State) (p i j n : Nat) : (bumpP s p i j n).nextOrder = s.nextOrder := by unfold bumpP; split <;> rfl
@[simp] theorem bumpP_objs (s : State) (p i j n : Nat) : (bumpP s p i j n).objs = s.objs := by unfold bumpP; split <;> rfl
@[simp] theorem bumpP_numHigh (s : State) (p i j n : Nat) : (bumpP s p i j n).numHigh = s.numHigh := by unfold bumpP; split <;> rfl
@[simp] theorem bumpP_reserved (s : State) (p i j n : Nat) : (bumpP s p i j n).reserved = s.reserved := by unfold bumpP; split <;> rfl
@[simp] theorem bumpP_dasNext (s : State) (p i j n : Nat) : (bumpP s p i j n).dasNext = s.dasNext := by unfold bumpP; split <;> rfl
@[simp] theorem bumpP_parcels (s : State) (p i j n : Nat) : (bumpP s p i j n).parcels = s.parcels := by unfold bumpP; split <;> rfl
@[simp] theorem bumpP_seq (s : State) (p i j n : Nat) : (bumpP s p i j n).seq = s.seq := by unfold bumpP; split <;> rfl
@[simp] theorem bumpP_versions (s : State) (p i j n : Nat) : (bumpP s p i j n).versions = s.versions := by unfold bumpP; split <;> rfl
@[simp] theorem bumpP_txs (s : State) (p i j n : Nat) : (bumpP s p i j n).txs = s.txs := by unfold bumpP; split <;> rfl
@[simp] theorem bumpP_txHigh (s : State) (p i j n : Nat) : (bumpP s p i j n).txHigh = s.txHigh := by unfold bumpP; split <;> rfl
@[simp] theorem bumpP_branches (s : State) (p i j n : Nat) : (bumpP s p i j n).branches = s.branches := by unfold bumpP; split <;> rfl
@[simp] theorem bumpP_outcomes (s : State) (p i j n : Nat) : (bumpP s p i j n).outcomes = s.outcomes := by unfold bumpP; split <;> rfl
@[simp] theorem bumpP_durObjs (s : State) (p i j n : Nat) : (bumpP s p i j n).durObjs = s.durObjs := by unfold bumpP; split <;> rfl
@[simp] theorem bumpP_durLines (s : State) (p i j n : Nat) : (bumpP s p i j n).durLines = s.durLines := by unfold bumpP; split <;> rfl
@[simp] theorem bumpP_heldValid (s : State) (p i j n : Nat) : (bumpP s p i j n).heldValid = s.heldValid := by unfold bumpP; split <;> rfl
@[simp] theorem bumpP_walks (s : State) (p i j n : Nat) : (bumpP s p i j n).walks = s.walks := by unfold bumpP; split <;> rfl
@[simp] theorem bumpP_health (s : State) (p i j n : Nat) : (bumpP s p i j n).health = s.health := by unfold bumpP; split <;> rfl
@[simp] theorem bumpP_healthHigh (s : State) (p i j n : Nat) : (bumpP s p i j n).healthHigh = s.healthHigh := by unfold bumpP; split <;> rfl
@[simp] theorem bumpP_healthMark (s : State) (p i j n : Nat) : (bumpP s p i j n).healthMark = s.healthMark := by unfold bumpP; split <;> rfl
@[simp] theorem bumpP_flash (s : State) (p i j n : Nat) : (bumpP s p i j n).flash = s.flash := by unfold bumpP; split <;> rfl
@[simp] theorem bumpP_dram (s : State) (p i j n : Nat) : (bumpP s p i j n).dram = s.dram := by unfold bumpP; split <;> rfl
@[simp] theorem bumpP_spad (s : State) (p i j n : Nat) : (bumpP s p i j n).spad = s.spad := by unfold bumpP; split <;> rfl
@[simp] theorem bumpP_sump (s : State) (p i j n : Nat) : (bumpP s p i j n).sump = s.sump := by unfold bumpP; split <;> rfl
@[simp] theorem bumpP_jobs (s : State) (p i j n : Nat) : (bumpP s p i j n).jobs = s.jobs := by unfold bumpP; split <;> rfl
@[simp] theorem bumpP_cores (s : State) (p i j n : Nat) : (bumpP s p i j n).cores = s.cores := by unfold bumpP; split <;> rfl
@[simp] theorem bumpP_tables (s : State) (p i j n : Nat) : (bumpP s p i j n).tables = s.tables := by unfold bumpP; split <;> rfl
@[simp] theorem bumpP_indexes (s : State) (p i j n : Nat) : (bumpP s p i j n).indexes = s.indexes := by unfold bumpP; split <;> rfl
@[simp] theorem bumpP_passes (s : State) (p i j n : Nat) : (bumpP s p i j n).passes = s.passes := by unfold bumpP; split <;> rfl
@[simp] theorem bumpP_nextPass (s : State) (p i j n : Nat) : (bumpP s p i j n).nextPass = s.nextPass := by unfold bumpP; split <;> rfl
@[simp] theorem bumpP_candEpochs (s : State) (p i j n : Nat) : (bumpP s p i j n).candEpochs = s.candEpochs := by unfold bumpP; split <;> rfl
@[simp] theorem bumpP_arrivals (s : State) (p i j n : Nat) : (bumpP s p i j n).arrivals = s.arrivals := by unfold bumpP; split <;> rfl
@[simp] theorem bumpP_fabric (s : State) (p i j n : Nat) : (bumpP s p i j n).fabric = s.fabric := by unfold bumpP; split <;> rfl
@[simp] theorem bumpP_host (s : State) (p i j n : Nat) : (bumpP s p i j n).host = s.host := by unfold bumpP; split <;> rfl
@[simp] theorem bumpP_sec (s : State) (p i j n : Nat) : (bumpP s p i j n).sec = s.sec := by unfold bumpP; split <;> rfl
@[simp] theorem bumpP_power (s : State) (p i j n : Nat) : (bumpP s p i j n).power = s.power := by unfold bumpP; split <;> rfl
@[simp] theorem bumpP_risk (s : State) (p i j n : Nat) : (bumpP s p i j n).risk = s.risk := by unfold bumpP; split <;> rfl
@[simp] theorem bumpP_fresh (s : State) (p i j n : Nat) : (bumpP s p i j n).fresh = s.fresh := by unfold bumpP; split <;> rfl

@[simp] theorem bumpB_pending (s : State) (p i j n : Nat) : (bumpB s p i j n).pending = s.pending := by simp [bumpB]
@[simp] theorem bumpB_ident (s : State) (p i j n : Nat) : (bumpB s p i j n).ident = s.ident := by simp [bumpB]
@[simp] theorem bumpB_regs (s : State) (p i j n : Nat) : (bumpB s p i j n).regs = s.regs := by simp [bumpB]
@[simp] theorem bumpB_pages (s : State) (p i j n : Nat) : (bumpB s p i j n).pages = s.pages := by simp [bumpB]
@[simp] theorem bumpB_rings (s : State) (p i j n : Nat) : (bumpB s p i j n).rings = s.rings := by simp [bumpB]
@[simp] theorem bumpB_execs (s : State) (p i j n : Nat) : (bumpB s p i j n).execs = s.execs := by simp [bumpB]
@[simp] theorem bumpB_nextOrder (s : State) (p i j n : Nat) : (bumpB s p i j n).nextOrder = s.nextOrder := by simp [bumpB]
@[simp] theorem bumpB_objs (s : State) (p i j n : Nat) : (bumpB s p i j n).objs = s.objs := by simp [bumpB]
@[simp] theorem bumpB_numHigh (s : State) (p i j n : Nat) : (bumpB s p i j n).numHigh = s.numHigh := by simp [bumpB]
@[simp] theorem bumpB_reserved (s : State) (p i j n : Nat) : (bumpB s p i j n).reserved = s.reserved := by simp [bumpB]
@[simp] theorem bumpB_dasNext (s : State) (p i j n : Nat) : (bumpB s p i j n).dasNext = s.dasNext := by simp [bumpB]
@[simp] theorem bumpB_parcels (s : State) (p i j n : Nat) : (bumpB s p i j n).parcels = s.parcels := by simp [bumpB]
@[simp] theorem bumpB_seq (s : State) (p i j n : Nat) : (bumpB s p i j n).seq = s.seq := by simp [bumpB]
@[simp] theorem bumpB_versions (s : State) (p i j n : Nat) : (bumpB s p i j n).versions = s.versions := by simp [bumpB]
@[simp] theorem bumpB_txs (s : State) (p i j n : Nat) : (bumpB s p i j n).txs = s.txs := by simp [bumpB]
@[simp] theorem bumpB_txHigh (s : State) (p i j n : Nat) : (bumpB s p i j n).txHigh = s.txHigh := by simp [bumpB]
@[simp] theorem bumpB_branches (s : State) (p i j n : Nat) : (bumpB s p i j n).branches = s.branches := by simp [bumpB]
@[simp] theorem bumpB_outcomes (s : State) (p i j n : Nat) : (bumpB s p i j n).outcomes = s.outcomes := by simp [bumpB]
@[simp] theorem bumpB_durObjs (s : State) (p i j n : Nat) : (bumpB s p i j n).durObjs = s.durObjs := by simp [bumpB]
@[simp] theorem bumpB_durLines (s : State) (p i j n : Nat) : (bumpB s p i j n).durLines = s.durLines := by simp [bumpB]
@[simp] theorem bumpB_heldValid (s : State) (p i j n : Nat) : (bumpB s p i j n).heldValid = s.heldValid := by simp [bumpB]
@[simp] theorem bumpB_walks (s : State) (p i j n : Nat) : (bumpB s p i j n).walks = s.walks := by simp [bumpB]
@[simp] theorem bumpB_health (s : State) (p i j n : Nat) : (bumpB s p i j n).health = s.health := by simp [bumpB]
@[simp] theorem bumpB_healthHigh (s : State) (p i j n : Nat) : (bumpB s p i j n).healthHigh = s.healthHigh := by simp [bumpB]
@[simp] theorem bumpB_healthMark (s : State) (p i j n : Nat) : (bumpB s p i j n).healthMark = s.healthMark := by simp [bumpB]
@[simp] theorem bumpB_flash (s : State) (p i j n : Nat) : (bumpB s p i j n).flash = s.flash := by simp [bumpB]
@[simp] theorem bumpB_dram (s : State) (p i j n : Nat) : (bumpB s p i j n).dram = s.dram := by simp [bumpB]
@[simp] theorem bumpB_spad (s : State) (p i j n : Nat) : (bumpB s p i j n).spad = s.spad := by simp [bumpB]
@[simp] theorem bumpB_sump (s : State) (p i j n : Nat) : (bumpB s p i j n).sump = s.sump := by simp [bumpB]
@[simp] theorem bumpB_jobs (s : State) (p i j n : Nat) : (bumpB s p i j n).jobs = s.jobs := by simp [bumpB]
@[simp] theorem bumpB_cores (s : State) (p i j n : Nat) : (bumpB s p i j n).cores = s.cores := by simp [bumpB]
@[simp] theorem bumpB_tables (s : State) (p i j n : Nat) : (bumpB s p i j n).tables = s.tables := by simp [bumpB]
@[simp] theorem bumpB_indexes (s : State) (p i j n : Nat) : (bumpB s p i j n).indexes = s.indexes := by simp [bumpB]
@[simp] theorem bumpB_passes (s : State) (p i j n : Nat) : (bumpB s p i j n).passes = s.passes := by simp [bumpB]
@[simp] theorem bumpB_nextPass (s : State) (p i j n : Nat) : (bumpB s p i j n).nextPass = s.nextPass := by simp [bumpB]
@[simp] theorem bumpB_candEpochs (s : State) (p i j n : Nat) : (bumpB s p i j n).candEpochs = s.candEpochs := by simp [bumpB]
@[simp] theorem bumpB_arrivals (s : State) (p i j n : Nat) : (bumpB s p i j n).arrivals = s.arrivals := by simp [bumpB]
@[simp] theorem bumpB_fabric (s : State) (p i j n : Nat) : (bumpB s p i j n).fabric = s.fabric := by simp [bumpB]
@[simp] theorem bumpB_host (s : State) (p i j n : Nat) : (bumpB s p i j n).host = s.host := by simp [bumpB]
@[simp] theorem bumpB_sec (s : State) (p i j n : Nat) : (bumpB s p i j n).sec = s.sec := by simp [bumpB]
@[simp] theorem bumpB_power (s : State) (p i j n : Nat) : (bumpB s p i j n).power = s.power := by simp [bumpB]
@[simp] theorem bumpB_risk (s : State) (p i j n : Nat) : (bumpB s p i j n).risk = s.risk := by simp [bumpB]
@[simp] theorem bumpB_fresh (s : State) (p i j n : Nat) : (bumpB s p i j n).fresh = s.fresh := by simp [bumpB]
@[simp] theorem bumpB_reg (s : State) (p i j n r : Nat) : (bumpB s p i j n).reg r = s.reg r := by simp [State.reg]

/-- A counter that is advanced reads its old value and the amount. -/
theorem cnt_bump (s : State) (i j n : Nat) : cnt (bump s i j n) i j = cnt s i j + n := by
  unfold bump
  split
  · next h => simp [h]
  · simp [cnt, State.modOd, kcount]

/-- Moving one counter leaves the others. -/
theorem cnt_bump_other (s : State) {i j a b : Nat} (n : Nat) (h : odKey a b ≠ odKey i j) : cnt (bump s i j n) a b = cnt s a b := by
  unfold bump
  split
  · rfl
  · simp [cnt, State.modOd, kcount, kget_kset_other _ _ h]

@[simp] theorem cnt_bumpP (s : State) (p i j n a b : Nat) : cnt (bumpP s p i j n) a b = cnt s a b := by
  unfold bumpP; split <;> rfl

/-- Settings read the same after a counter has moved. -/
@[simp] theorem od_bump (s : State) (i j n a b : Nat) : od (bump s i j n) a b = od s a b := by
  unfold bump; split <;> rfl

/-! ## The journal's queue (13 R358) -/

@[simp] theorem jadd_pending (s : State) (r : JRec) : (jadd s r).2.pending = s.pending := rfl
@[simp] theorem jadd_ident (s : State) (r : JRec) : (jadd s r).2.ident = s.ident := rfl
@[simp] theorem jadd_regs (s : State) (r : JRec) : (jadd s r).2.regs = s.regs := rfl
@[simp] theorem jadd_pages (s : State) (r : JRec) : (jadd s r).2.pages = s.pages := rfl
@[simp] theorem jadd_rings (s : State) (r : JRec) : (jadd s r).2.rings = s.rings := rfl
@[simp] theorem jadd_execs (s : State) (r : JRec) : (jadd s r).2.execs = s.execs := rfl
@[simp] theorem jadd_nextOrder (s : State) (r : JRec) : (jadd s r).2.nextOrder = s.nextOrder := rfl
@[simp] theorem jadd_objs (s : State) (r : JRec) : (jadd s r).2.objs = s.objs := rfl
@[simp] theorem jadd_numHigh (s : State) (r : JRec) : (jadd s r).2.numHigh = s.numHigh := rfl
@[simp] theorem jadd_reserved (s : State) (r : JRec) : (jadd s r).2.reserved = s.reserved := rfl
@[simp] theorem jadd_dasNext (s : State) (r : JRec) : (jadd s r).2.dasNext = s.dasNext := rfl
@[simp] theorem jadd_parcels (s : State) (r : JRec) : (jadd s r).2.parcels = s.parcels := rfl
@[simp] theorem jadd_versions (s : State) (r : JRec) : (jadd s r).2.versions = s.versions := rfl
@[simp] theorem jadd_txs (s : State) (r : JRec) : (jadd s r).2.txs = s.txs := rfl
@[simp] theorem jadd_txHigh (s : State) (r : JRec) : (jadd s r).2.txHigh = s.txHigh := rfl
@[simp] theorem jadd_branches (s : State) (r : JRec) : (jadd s r).2.branches = s.branches := rfl
@[simp] theorem jadd_outcomes (s : State) (r : JRec) : (jadd s r).2.outcomes = s.outcomes := rfl
@[simp] theorem jadd_durObjs (s : State) (r : JRec) : (jadd s r).2.durObjs = s.durObjs := rfl
@[simp] theorem jadd_durLines (s : State) (r : JRec) : (jadd s r).2.durLines = s.durLines := rfl
@[simp] theorem jadd_heldValid (s : State) (r : JRec) : (jadd s r).2.heldValid = s.heldValid := rfl
@[simp] theorem jadd_walks (s : State) (r : JRec) : (jadd s r).2.walks = s.walks := rfl
@[simp] theorem jadd_health (s : State) (r : JRec) : (jadd s r).2.health = s.health := rfl
@[simp] theorem jadd_healthHigh (s : State) (r : JRec) : (jadd s r).2.healthHigh = s.healthHigh := rfl
@[simp] theorem jadd_healthMark (s : State) (r : JRec) : (jadd s r).2.healthMark = s.healthMark := rfl
@[simp] theorem jadd_dram (s : State) (r : JRec) : (jadd s r).2.dram = s.dram := rfl
@[simp] theorem jadd_spad (s : State) (r : JRec) : (jadd s r).2.spad = s.spad := rfl
@[simp] theorem jadd_sump (s : State) (r : JRec) : (jadd s r).2.sump = s.sump := rfl
@[simp] theorem jadd_jobs (s : State) (r : JRec) : (jadd s r).2.jobs = s.jobs := rfl
@[simp] theorem jadd_cores (s : State) (r : JRec) : (jadd s r).2.cores = s.cores := rfl
@[simp] theorem jadd_tables (s : State) (r : JRec) : (jadd s r).2.tables = s.tables := rfl
@[simp] theorem jadd_indexes (s : State) (r : JRec) : (jadd s r).2.indexes = s.indexes := rfl
@[simp] theorem jadd_passes (s : State) (r : JRec) : (jadd s r).2.passes = s.passes := rfl
@[simp] theorem jadd_nextPass (s : State) (r : JRec) : (jadd s r).2.nextPass = s.nextPass := rfl
@[simp] theorem jadd_candEpochs (s : State) (r : JRec) : (jadd s r).2.candEpochs = s.candEpochs := rfl
@[simp] theorem jadd_arrivals (s : State) (r : JRec) : (jadd s r).2.arrivals = s.arrivals := rfl
@[simp] theorem jadd_fabric (s : State) (r : JRec) : (jadd s r).2.fabric = s.fabric := rfl
@[simp] theorem jadd_host (s : State) (r : JRec) : (jadd s r).2.host = s.host := rfl
@[simp] theorem jadd_od (s : State) (r : JRec) : (jadd s r).2.od = s.od := rfl
@[simp] theorem jadd_sec (s : State) (r : JRec) : (jadd s r).2.sec = s.sec := rfl
@[simp] theorem jadd_power (s : State) (r : JRec) : (jadd s r).2.power = s.power := rfl
@[simp] theorem jadd_risk (s : State) (r : JRec) : (jadd s r).2.risk = s.risk := rfl
@[simp] theorem jadd_fresh (s : State) (r : JRec) : (jadd s r).2.fresh = s.fresh := rfl

/-- A record takes the next number of the module's sequence and joins the end of the queue. -/
theorem jadd_flash (s : State) (r : JRec) :
    (jadd s r).1 = s.seq + 1 ∧ (jadd s r).2.seq = s.seq + 1 ∧ (jadd s r).2.flash.jpend = s.flash.jpend ++ [(s.seq + 1, r)] :=
  ⟨rfl, rfl, rfl⟩

/-! ## The health log (13 R370) -/

@[simp] theorem logHealth_pending (s : State) (t : Nat) (a : Bool) (d : List Int) : (logHealth s t a d).pending = s.pending := by unfold logHealth; simp only []; split <;> rfl
@[simp] theorem logHealth_ident (s : State) (t : Nat) (a : Bool) (d : List Int) : (logHealth s t a d).ident = s.ident := by unfold logHealth; simp only []; split <;> rfl
@[simp] theorem logHealth_regs (s : State) (t : Nat) (a : Bool) (d : List Int) : (logHealth s t a d).regs = s.regs := by unfold logHealth; simp only []; split <;> rfl
@[simp] theorem logHealth_pages (s : State) (t : Nat) (a : Bool) (d : List Int) : (logHealth s t a d).pages = s.pages := by unfold logHealth; simp only []; split <;> rfl
@[simp] theorem logHealth_rings (s : State) (t : Nat) (a : Bool) (d : List Int) : (logHealth s t a d).rings = s.rings := by unfold logHealth; simp only []; split <;> rfl
@[simp] theorem logHealth_execs (s : State) (t : Nat) (a : Bool) (d : List Int) : (logHealth s t a d).execs = s.execs := by unfold logHealth; simp only []; split <;> rfl
@[simp] theorem logHealth_nextOrder (s : State) (t : Nat) (a : Bool) (d : List Int) : (logHealth s t a d).nextOrder = s.nextOrder := by unfold logHealth; simp only []; split <;> rfl
@[simp] theorem logHealth_objs (s : State) (t : Nat) (a : Bool) (d : List Int) : (logHealth s t a d).objs = s.objs := by unfold logHealth; simp only []; split <;> rfl
@[simp] theorem logHealth_numHigh (s : State) (t : Nat) (a : Bool) (d : List Int) : (logHealth s t a d).numHigh = s.numHigh := by unfold logHealth; simp only []; split <;> rfl
@[simp] theorem logHealth_reserved (s : State) (t : Nat) (a : Bool) (d : List Int) : (logHealth s t a d).reserved = s.reserved := by unfold logHealth; simp only []; split <;> rfl
@[simp] theorem logHealth_dasNext (s : State) (t : Nat) (a : Bool) (d : List Int) : (logHealth s t a d).dasNext = s.dasNext := by unfold logHealth; simp only []; split <;> rfl
@[simp] theorem logHealth_parcels (s : State) (t : Nat) (a : Bool) (d : List Int) : (logHealth s t a d).parcels = s.parcels := by unfold logHealth; simp only []; split <;> rfl
@[simp] theorem logHealth_versions (s : State) (t : Nat) (a : Bool) (d : List Int) : (logHealth s t a d).versions = s.versions := by unfold logHealth; simp only []; split <;> rfl
@[simp] theorem logHealth_txs (s : State) (t : Nat) (a : Bool) (d : List Int) : (logHealth s t a d).txs = s.txs := by unfold logHealth; simp only []; split <;> rfl
@[simp] theorem logHealth_txHigh (s : State) (t : Nat) (a : Bool) (d : List Int) : (logHealth s t a d).txHigh = s.txHigh := by unfold logHealth; simp only []; split <;> rfl
@[simp] theorem logHealth_branches (s : State) (t : Nat) (a : Bool) (d : List Int) : (logHealth s t a d).branches = s.branches := by unfold logHealth; simp only []; split <;> rfl
@[simp] theorem logHealth_outcomes (s : State) (t : Nat) (a : Bool) (d : List Int) : (logHealth s t a d).outcomes = s.outcomes := by unfold logHealth; simp only []; split <;> rfl
@[simp] theorem logHealth_durObjs (s : State) (t : Nat) (a : Bool) (d : List Int) : (logHealth s t a d).durObjs = s.durObjs := by unfold logHealth; simp only []; split <;> rfl
@[simp] theorem logHealth_durLines (s : State) (t : Nat) (a : Bool) (d : List Int) : (logHealth s t a d).durLines = s.durLines := by unfold logHealth; simp only []; split <;> rfl
@[simp] theorem logHealth_heldValid (s : State) (t : Nat) (a : Bool) (d : List Int) : (logHealth s t a d).heldValid = s.heldValid := by unfold logHealth; simp only []; split <;> rfl
@[simp] theorem logHealth_walks (s : State) (t : Nat) (a : Bool) (d : List Int) : (logHealth s t a d).walks = s.walks := by unfold logHealth; simp only []; split <;> rfl
@[simp] theorem logHealth_dram (s : State) (t : Nat) (a : Bool) (d : List Int) : (logHealth s t a d).dram = s.dram := by unfold logHealth; simp only []; split <;> rfl
@[simp] theorem logHealth_spad (s : State) (t : Nat) (a : Bool) (d : List Int) : (logHealth s t a d).spad = s.spad := by unfold logHealth; simp only []; split <;> rfl
@[simp] theorem logHealth_sump (s : State) (t : Nat) (a : Bool) (d : List Int) : (logHealth s t a d).sump = s.sump := by unfold logHealth; simp only []; split <;> rfl
@[simp] theorem logHealth_jobs (s : State) (t : Nat) (a : Bool) (d : List Int) : (logHealth s t a d).jobs = s.jobs := by unfold logHealth; simp only []; split <;> rfl
@[simp] theorem logHealth_cores (s : State) (t : Nat) (a : Bool) (d : List Int) : (logHealth s t a d).cores = s.cores := by unfold logHealth; simp only []; split <;> rfl
@[simp] theorem logHealth_tables (s : State) (t : Nat) (a : Bool) (d : List Int) : (logHealth s t a d).tables = s.tables := by unfold logHealth; simp only []; split <;> rfl
@[simp] theorem logHealth_indexes (s : State) (t : Nat) (a : Bool) (d : List Int) : (logHealth s t a d).indexes = s.indexes := by unfold logHealth; simp only []; split <;> rfl
@[simp] theorem logHealth_passes (s : State) (t : Nat) (a : Bool) (d : List Int) : (logHealth s t a d).passes = s.passes := by unfold logHealth; simp only []; split <;> rfl
@[simp] theorem logHealth_nextPass (s : State) (t : Nat) (a : Bool) (d : List Int) : (logHealth s t a d).nextPass = s.nextPass := by unfold logHealth; simp only []; split <;> rfl
@[simp] theorem logHealth_candEpochs (s : State) (t : Nat) (a : Bool) (d : List Int) : (logHealth s t a d).candEpochs = s.candEpochs := by unfold logHealth; simp only []; split <;> rfl
@[simp] theorem logHealth_arrivals (s : State) (t : Nat) (a : Bool) (d : List Int) : (logHealth s t a d).arrivals = s.arrivals := by unfold logHealth; simp only []; split <;> rfl
@[simp] theorem logHealth_fabric (s : State) (t : Nat) (a : Bool) (d : List Int) : (logHealth s t a d).fabric = s.fabric := by unfold logHealth; simp only []; split <;> rfl
@[simp] theorem logHealth_host (s : State) (t : Nat) (a : Bool) (d : List Int) : (logHealth s t a d).host = s.host := by unfold logHealth; simp only []; split <;> rfl
@[simp] theorem logHealth_od (s : State) (t : Nat) (a : Bool) (d : List Int) : (logHealth s t a d).od = s.od := by unfold logHealth; simp only []; split <;> rfl
@[simp] theorem logHealth_sec (s : State) (t : Nat) (a : Bool) (d : List Int) : (logHealth s t a d).sec = s.sec := by unfold logHealth; simp only []; split <;> rfl
@[simp] theorem logHealth_power (s : State) (t : Nat) (a : Bool) (d : List Int) : (logHealth s t a d).power = s.power := by unfold logHealth; simp only []; split <;> rfl
@[simp] theorem logHealth_risk (s : State) (t : Nat) (a : Bool) (d : List Int) : (logHealth s t a d).risk = s.risk := by unfold logHealth; simp only []; split <;> rfl
@[simp] theorem logHealth_fresh (s : State) (t : Nat) (a : Bool) (d : List Int) : (logHealth s t a d).fresh = s.fresh := by unfold logHealth; simp only []; split <;> rfl
@[simp] theorem logHealth_healthHigh (s : State) (t : Nat) (a : Bool) (d : List Int) : (logHealth s t a d).healthHigh = s.healthHigh + 1 := by unfold logHealth; simp only []; split <;> rfl

/-! ## Settings -/

@[simp] theorem odSet_pending (s : State) (i j v : Nat) : (odSet s i j v).pending = s.pending := rfl
@[simp] theorem odSet_ident (s : State) (i j v : Nat) : (odSet s i j v).ident = s.ident := rfl
@[simp] theorem odSet_regs (s : State) (i j v : Nat) : (odSet s i j v).regs = s.regs := rfl
@[simp] theorem odSet_pages (s : State) (i j v : Nat) : (odSet s i j v).pages = s.pages := rfl
@[simp] theorem odSet_rings (s : State) (i j v : Nat) : (odSet s i j v).rings = s.rings := rfl
@[simp] theorem odSet_execs (s : State) (i j v : Nat) : (odSet s i j v).execs = s.execs := rfl
@[simp] theorem odSet_nextOrder (s : State) (i j v : Nat) : (odSet s i j v).nextOrder = s.nextOrder := rfl
@[simp] theorem odSet_objs (s : State) (i j v : Nat) : (odSet s i j v).objs = s.objs := rfl
@[simp] theorem odSet_numHigh (s : State) (i j v : Nat) : (odSet s i j v).numHigh = s.numHigh := rfl
@[simp] theorem odSet_reserved (s : State) (i j v : Nat) : (odSet s i j v).reserved = s.reserved := rfl
@[simp] theorem odSet_dasNext (s : State) (i j v : Nat) : (odSet s i j v).dasNext = s.dasNext := rfl
@[simp] theorem odSet_parcels (s : State) (i j v : Nat) : (odSet s i j v).parcels = s.parcels := rfl
@[simp] theorem odSet_seq (s : State) (i j v : Nat) : (odSet s i j v).seq = s.seq := rfl
@[simp] theorem odSet_versions (s : State) (i j v : Nat) : (odSet s i j v).versions = s.versions := rfl
@[simp] theorem odSet_txs (s : State) (i j v : Nat) : (odSet s i j v).txs = s.txs := rfl
@[simp] theorem odSet_txHigh (s : State) (i j v : Nat) : (odSet s i j v).txHigh = s.txHigh := rfl
@[simp] theorem odSet_branches (s : State) (i j v : Nat) : (odSet s i j v).branches = s.branches := rfl
@[simp] theorem odSet_outcomes (s : State) (i j v : Nat) : (odSet s i j v).outcomes = s.outcomes := rfl
@[simp] theorem odSet_durObjs (s : State) (i j v : Nat) : (odSet s i j v).durObjs = s.durObjs := rfl
@[simp] theorem odSet_durLines (s : State) (i j v : Nat) : (odSet s i j v).durLines = s.durLines := rfl
@[simp] theorem odSet_heldValid (s : State) (i j v : Nat) : (odSet s i j v).heldValid = s.heldValid := rfl
@[simp] theorem odSet_walks (s : State) (i j v : Nat) : (odSet s i j v).walks = s.walks := rfl
@[simp] theorem odSet_health (s : State) (i j v : Nat) : (odSet s i j v).health = s.health := rfl
@[simp] theorem odSet_healthHigh (s : State) (i j v : Nat) : (odSet s i j v).healthHigh = s.healthHigh := rfl
@[simp] theorem odSet_healthMark (s : State) (i j v : Nat) : (odSet s i j v).healthMark = s.healthMark := rfl
@[simp] theorem odSet_flash (s : State) (i j v : Nat) : (odSet s i j v).flash = s.flash := rfl
@[simp] theorem odSet_dram (s : State) (i j v : Nat) : (odSet s i j v).dram = s.dram := rfl
@[simp] theorem odSet_spad (s : State) (i j v : Nat) : (odSet s i j v).spad = s.spad := rfl
@[simp] theorem odSet_sump (s : State) (i j v : Nat) : (odSet s i j v).sump = s.sump := rfl
@[simp] theorem odSet_jobs (s : State) (i j v : Nat) : (odSet s i j v).jobs = s.jobs := rfl
@[simp] theorem odSet_cores (s : State) (i j v : Nat) : (odSet s i j v).cores = s.cores := rfl
@[simp] theorem odSet_tables (s : State) (i j v : Nat) : (odSet s i j v).tables = s.tables := rfl
@[simp] theorem odSet_indexes (s : State) (i j v : Nat) : (odSet s i j v).indexes = s.indexes := rfl
@[simp] theorem odSet_passes (s : State) (i j v : Nat) : (odSet s i j v).passes = s.passes := rfl
@[simp] theorem odSet_nextPass (s : State) (i j v : Nat) : (odSet s i j v).nextPass = s.nextPass := rfl
@[simp] theorem odSet_candEpochs (s : State) (i j v : Nat) : (odSet s i j v).candEpochs = s.candEpochs := rfl
@[simp] theorem odSet_arrivals (s : State) (i j v : Nat) : (odSet s i j v).arrivals = s.arrivals := rfl
@[simp] theorem odSet_fabric (s : State) (i j v : Nat) : (odSet s i j v).fabric = s.fabric := rfl
@[simp] theorem odSet_host (s : State) (i j v : Nat) : (odSet s i j v).host = s.host := rfl
@[simp] theorem odSet_sec (s : State) (i j v : Nat) : (odSet s i j v).sec = s.sec := rfl
@[simp] theorem odSet_power (s : State) (i j v : Nat) : (odSet s i j v).power = s.power := rfl
@[simp] theorem odSet_risk (s : State) (i j v : Nat) : (odSet s i j v).risk = s.risk := rfl
@[simp] theorem odSet_fresh (s : State) (i j v : Nat) : (odSet s i j v).fresh = s.fresh := rfl

/-! ## Accesses to task registers (03 R67, R68) -/

@[simp] theorem wake_pending (s : State) : (wake s).pending = s.pending := by unfold wake; split <;> rfl
@[simp] theorem wake_ident (s : State) : (wake s).ident = s.ident := by unfold wake; split <;> rfl
@[simp] theorem wake_regs (s : State) : (wake s).regs = s.regs := by unfold wake; split <;> rfl
@[simp] theorem wake_pages (s : State) : (wake s).pages = s.pages := by unfold wake; split <;> rfl
@[simp] theorem wake_rings (s : State) : (wake s).rings = s.rings := by unfold wake; split <;> rfl
@[simp] theorem wake_execs (s : State) : (wake s).execs = s.execs := by unfold wake; split <;> rfl
@[simp] theorem wake_nextOrder (s : State) : (wake s).nextOrder = s.nextOrder := by unfold wake; split <;> rfl
@[simp] theorem wake_objs (s : State) : (wake s).objs = s.objs := by unfold wake; split <;> rfl
@[simp] theorem wake_numHigh (s : State) : (wake s).numHigh = s.numHigh := by unfold wake; split <;> rfl
@[simp] theorem wake_reserved (s : State) : (wake s).reserved = s.reserved := by unfold wake; split <;> rfl
@[simp] theorem wake_dasNext (s : State) : (wake s).dasNext = s.dasNext := by unfold wake; split <;> rfl
@[simp] theorem wake_parcels (s : State) : (wake s).parcels = s.parcels := by unfold wake; split <;> rfl
@[simp] theorem wake_seq (s : State) : (wake s).seq = s.seq := by unfold wake; split <;> rfl
@[simp] theorem wake_versions (s : State) : (wake s).versions = s.versions := by unfold wake; split <;> rfl
@[simp] theorem wake_txs (s : State) : (wake s).txs = s.txs := by unfold wake; split <;> rfl
@[simp] theorem wake_txHigh (s : State) : (wake s).txHigh = s.txHigh := by unfold wake; split <;> rfl
@[simp] theorem wake_branches (s : State) : (wake s).branches = s.branches := by unfold wake; split <;> rfl
@[simp] theorem wake_outcomes (s : State) : (wake s).outcomes = s.outcomes := by unfold wake; split <;> rfl
@[simp] theorem wake_durObjs (s : State) : (wake s).durObjs = s.durObjs := by unfold wake; split <;> rfl
@[simp] theorem wake_durLines (s : State) : (wake s).durLines = s.durLines := by unfold wake; split <;> rfl
@[simp] theorem wake_heldValid (s : State) : (wake s).heldValid = s.heldValid := by unfold wake; split <;> rfl
@[simp] theorem wake_walks (s : State) : (wake s).walks = s.walks := by unfold wake; split <;> rfl
@[simp] theorem wake_health (s : State) : (wake s).health = s.health := by unfold wake; split <;> rfl
@[simp] theorem wake_healthHigh (s : State) : (wake s).healthHigh = s.healthHigh := by unfold wake; split <;> rfl
@[simp] theorem wake_healthMark (s : State) : (wake s).healthMark = s.healthMark := by unfold wake; split <;> rfl
@[simp] theorem wake_flash (s : State) : (wake s).flash = s.flash := by unfold wake; split <;> rfl
@[simp] theorem wake_dram (s : State) : (wake s).dram = s.dram := by unfold wake; split <;> rfl
@[simp] theorem wake_spad (s : State) : (wake s).spad = s.spad := by unfold wake; split <;> rfl
@[simp] theorem wake_sump (s : State) : (wake s).sump = s.sump := by unfold wake; split <;> rfl
@[simp] theorem wake_jobs (s : State) : (wake s).jobs = s.jobs := by unfold wake; split <;> rfl
@[simp] theorem wake_cores (s : State) : (wake s).cores = s.cores := by unfold wake; split <;> rfl
@[simp] theorem wake_tables (s : State) : (wake s).tables = s.tables := by unfold wake; split <;> rfl
@[simp] theorem wake_indexes (s : State) : (wake s).indexes = s.indexes := by unfold wake; split <;> rfl
@[simp] theorem wake_passes (s : State) : (wake s).passes = s.passes := by unfold wake; split <;> rfl
@[simp] theorem wake_nextPass (s : State) : (wake s).nextPass = s.nextPass := by unfold wake; split <;> rfl
@[simp] theorem wake_candEpochs (s : State) : (wake s).candEpochs = s.candEpochs := by unfold wake; split <;> rfl
@[simp] theorem wake_arrivals (s : State) : (wake s).arrivals = s.arrivals := by unfold wake; split <;> rfl
@[simp] theorem wake_fabric (s : State) : (wake s).fabric = s.fabric := by unfold wake; split <;> rfl
@[simp] theorem wake_od (s : State) : (wake s).od = s.od := by unfold wake; split <;> rfl
@[simp] theorem wake_sec (s : State) : (wake s).sec = s.sec := by unfold wake; split <;> rfl
@[simp] theorem wake_power (s : State) : (wake s).power = s.power := by unfold wake; split <;> rfl
@[simp] theorem wake_risk (s : State) : (wake s).risk = s.risk := by unfold wake; split <;> rfl
@[simp] theorem wake_fresh (s : State) : (wake s).fresh = s.fresh := by unfold wake; split <;> rfl
@[simp] theorem wake_reg (s : State) (r : Nat) : (wake s).reg r = s.reg r := by simp [State.reg]

@[simp] theorem modReg_reg (s : State) (r : Nat) (f : TaskReg → TaskReg) : (s.modReg r f).reg r = f (s.reg r) := by
  simp [State.reg]

theorem condOf_wake (s : State) (fn reg : Nat) : condOf (wake s) fn reg = condOf s fn reg := by simp [condOf]

/-- An access that the link and the page let through is made with the link awake. -/
theorem withReg_reaches {s : State} {fn reg : Nat} {pg : PageCond} (f : State → PageCond → State) (h : Reaches s fn reg pg) :
    withReg s fn reg f = f (wake s) pg := by
  obtain ⟨h1, h2⟩ := h
  simp [withReg, h1, h2]

/-- A write that no page lets through is counted and discarded. -/
theorem withReg_foreign {s : State} {fn reg : Nat} (f : State → PageCond → State) (h1 : cxlUp s = true)
    (h2 : condOf (wake s) fn reg = none) : withReg s fn reg f = bump (wake s) 0x9500 3 1 := by
  simp [withReg, h1, h2]

/-! ## The step -/

/-- A step with a command at the front of the queue is that command's meaning on the queue's rest. -/
theorem step_cons (s : State) (c : Instr) (rest : List Instr) (h : s.pending = c :: rest) :
    step s = exec c { s with pending := rest } := by
  simp [step, h]

/-- A step on an empty queue lets a microsecond pass. -/
theorem step_nil (s : State) (h : s.pending = []) : step s = .next (tick s) := by
  simp [step, h]

end Sys2Proof.Machine
end

