-- ==== Sys2Proof/Laws/Commands.lean ====
section
/-! SUPPORT. Laws/Commands.lean: how a task command reaches its effect (03 R77-R81). -/

namespace Sys2Proof.Machine

/-- A task command of the queue is a trigger of its opcode. -/
theorem exec_task {i : Instr} {op : Nat} {c : TaskCmd} (h : opOf i = some (op, c)) (s : State) :
    exec i s = done s (trigger op c s) := by
  cases i <;> simp only [opOf, Option.some.injEq, Prod.mk.injEq, reduceCtorEq] at h <;>
    (obtain ⟨rfl, rfl⟩ := h; rfl)

/-- A trigger that is admitted runs its effect from the state that `begun` gives. -/
theorem trigger_admitted {s : State} {op : Nat} {c : TaskCmd} {pg : PageCond} (h : Admitted s op c pg) :
    trigger op c s = runEffect (begun s op c pg) c.reg false := by
  have hn : ¬ (((wake s).reg c.reg).state = .pending ∨ ((wake s).reg c.reg).state = .executing) := by
    rintro (hx | hx) <;> rcases h.free with hf | hf <;> rw [hf] at hx <;> cases hx
  unfold trigger
  rw [withReg_reaches _ h.reach]
  simp only [hn, if_false, h.checks, begun]
  rfl

/-- The command in execution once it has begun. -/
theorem begun_exec (s : State) (op : Nat) (c : TaskCmd) (pg : PageCond) :
    kget (begun s op c pg).execs c.reg =
      some { fn := c.fn, opcode := op, cmd := c, order := s.nextOrder, polder := pg.polder, wait := .retry } := by
  simp [begun]

/-! ## What the beginning leaves (03 R78: no effect on objects, media or transactions) -/

@[simp] theorem begun_pending (s : State) (op : Nat) (c : TaskCmd) (pg : PageCond) : (begun s op c pg).pending = s.pending := by simp [begun]
@[simp] theorem begun_ident (s : State) (op : Nat) (c : TaskCmd) (pg : PageCond) : (begun s op c pg).ident = s.ident := by simp [begun]
@[simp] theorem begun_pages (s : State) (op : Nat) (c : TaskCmd) (pg : PageCond) : (begun s op c pg).pages = s.pages := by simp [begun]
@[simp] theorem begun_rings (s : State) (op : Nat) (c : TaskCmd) (pg : PageCond) : (begun s op c pg).rings = s.rings := by simp [begun]
@[simp] theorem begun_objs (s : State) (op : Nat) (c : TaskCmd) (pg : PageCond) : (begun s op c pg).objs = s.objs := by simp [begun]
@[simp] theorem begun_numHigh (s : State) (op : Nat) (c : TaskCmd) (pg : PageCond) : (begun s op c pg).numHigh = s.numHigh := by simp [begun]
@[simp] theorem begun_reserved (s : State) (op : Nat) (c : TaskCmd) (pg : PageCond) : (begun s op c pg).reserved = s.reserved := by simp [begun]
@[simp] theorem begun_dasNext (s : State) (op : Nat) (c : TaskCmd) (pg : PageCond) : (begun s op c pg).dasNext = s.dasNext := by simp [begun]
@[simp] theorem begun_parcels (s : State) (op : Nat) (c : TaskCmd) (pg : PageCond) : (begun s op c pg).parcels = s.parcels := by simp [begun]
@[simp] theorem begun_seq (s : State) (op : Nat) (c : TaskCmd) (pg : PageCond) : (begun s op c pg).seq = s.seq := by simp [begun]
@[simp] theorem begun_versions (s : State) (op : Nat) (c : TaskCmd) (pg : PageCond) : (begun s op c pg).versions = s.versions := by simp [begun]
@[simp] theorem begun_txs (s : State) (op : Nat) (c : TaskCmd) (pg : PageCond) : (begun s op c pg).txs = s.txs := by simp [begun]
@[simp] theorem begun_txHigh (s : State) (op : Nat) (c : TaskCmd) (pg : PageCond) : (begun s op c pg).txHigh = s.txHigh := by simp [begun]
@[simp] theorem begun_branches (s : State) (op : Nat) (c : TaskCmd) (pg : PageCond) : (begun s op c pg).branches = s.branches := by simp [begun]
@[simp] theorem begun_outcomes (s : State) (op : Nat) (c : TaskCmd) (pg : PageCond) : (begun s op c pg).outcomes = s.outcomes := by simp [begun]
@[simp] theorem begun_durObjs (s : State) (op : Nat) (c : TaskCmd) (pg : PageCond) : (begun s op c pg).durObjs = s.durObjs := by simp [begun]
@[simp] theorem begun_durLines (s : State) (op : Nat) (c : TaskCmd) (pg : PageCond) : (begun s op c pg).durLines = s.durLines := by simp [begun]
@[simp] theorem begun_health (s : State) (op : Nat) (c : TaskCmd) (pg : PageCond) : (begun s op c pg).health = s.health := by simp [begun]
@[simp] theorem begun_healthHigh (s : State) (op : Nat) (c : TaskCmd) (pg : PageCond) : (begun s op c pg).healthHigh = s.healthHigh := by simp [begun]
@[simp] theorem begun_healthMark (s : State) (op : Nat) (c : TaskCmd) (pg : PageCond) : (begun s op c pg).healthMark = s.healthMark := by simp [begun]
@[simp] theorem begun_flash (s : State) (op : Nat) (c : TaskCmd) (pg : PageCond) : (begun s op c pg).flash = s.flash := by simp [begun]
@[simp] theorem begun_dram (s : State) (op : Nat) (c : TaskCmd) (pg : PageCond) : (begun s op c pg).dram = s.dram := by simp [begun]
@[simp] theorem begun_spad (s : State) (op : Nat) (c : TaskCmd) (pg : PageCond) : (begun s op c pg).spad = s.spad := by simp [begun]
@[simp] theorem begun_sump (s : State) (op : Nat) (c : TaskCmd) (pg : PageCond) : (begun s op c pg).sump = s.sump := by simp [begun]
@[simp] theorem begun_jobs (s : State) (op : Nat) (c : TaskCmd) (pg : PageCond) : (begun s op c pg).jobs = s.jobs := by simp [begun]
@[simp] theorem begun_cores (s : State) (op : Nat) (c : TaskCmd) (pg : PageCond) : (begun s op c pg).cores = s.cores := by simp [begun]
@[simp] theorem begun_tables (s : State) (op : Nat) (c : TaskCmd) (pg : PageCond) : (begun s op c pg).tables = s.tables := by simp [begun]
@[simp] theorem begun_indexes (s : State) (op : Nat) (c : TaskCmd) (pg : PageCond) : (begun s op c pg).indexes = s.indexes := by simp [begun]
@[simp] theorem begun_passes (s : State) (op : Nat) (c : TaskCmd) (pg : PageCond) : (begun s op c pg).passes = s.passes := by simp [begun]
@[simp] theorem begun_nextPass (s : State) (op : Nat) (c : TaskCmd) (pg : PageCond) : (begun s op c pg).nextPass = s.nextPass := by simp [begun]
@[simp] theorem begun_candEpochs (s : State) (op : Nat) (c : TaskCmd) (pg : PageCond) : (begun s op c pg).candEpochs = s.candEpochs := by simp [begun]
@[simp] theorem begun_arrivals (s : State) (op : Nat) (c : TaskCmd) (pg : PageCond) : (begun s op c pg).arrivals = s.arrivals := by simp [begun]
@[simp] theorem begun_fabric (s : State) (op : Nat) (c : TaskCmd) (pg : PageCond) : (begun s op c pg).fabric = s.fabric := by simp [begun]
@[simp] theorem begun_sec (s : State) (op : Nat) (c : TaskCmd) (pg : PageCond) : (begun s op c pg).sec = s.sec := by simp [begun]
@[simp] theorem begun_power (s : State) (op : Nat) (c : TaskCmd) (pg : PageCond) : (begun s op c pg).power = s.power := by simp [begun]
@[simp] theorem begun_risk (s : State) (op : Nat) (c : TaskCmd) (pg : PageCond) : (begun s op c pg).risk = s.risk := by simp [begun]
@[simp] theorem begun_fresh (s : State) (op : Nat) (c : TaskCmd) (pg : PageCond) : (begun s op c pg).fresh = s.fresh := by simp [begun]

/-- Host memory and the host's answers do not depend on the link's low-power state. -/
theorem begun_host_mem (s : State) (op : Nat) (c : TaskCmd) (pg : PageCond) : (begun s op c pg).host.mem = s.host.mem := by
  simp only [begun, bumpB_host]; unfold wake; split <;> rfl

theorem begun_host_bindings (s : State) (op : Nat) (c : TaskCmd) (pg : PageCond) :
    (begun s op c pg).host.bindings = s.host.bindings := by
  simp only [begun, bumpB_host]; unfold wake; split <;> rfl

/-- Settings read the same in the state in which the effect runs. -/
@[simp] theorem od_begun (s : State) (op : Nat) (c : TaskCmd) (pg : PageCond) (i j : Nat) :
    Sys2Proof.Machine.od (begun s op c pg) i j = Sys2Proof.Machine.od s i j := by
  simp only [begun, bumpB, bumpP, bump, wake]
  split <;> split <;> split <;> rfl

/-- Of the counters, the beginning moves only OD 0x9200:05. -/
theorem cnt_begun (s : State) (op : Nat) (c : TaskCmd) (pg : PageCond) {a b : Nat} (h : odKey a b ≠ odKey 0x9200 5) :
    cnt (begun s op c pg) a b = cnt s a b := by
  simp only [begun, bumpB, cnt_bumpP, cnt_bump_other _ _ h]
  simp only [cnt, wake]
  split <;> rfl

/-- An admitted command that nothing refuses before its effect: the next state is its effect's, waiting for what it names. -/
theorem trigger_effect {s : State} {op : Nat} {c : TaskCmd} {pg : PageCond} (h : Admitted s op c pg) :
    trigger op c s = after (effectOf op (reqOf c pg) (touchTx (begun s op c pg) (reqOf c pg).tx)) c.reg := by
  rw [trigger_admitted h]
  have hp := h.gate
  have hr : (begun s op c pg).power.restarting = false := by simp [begun, h.serves.1]
  have hb : (begun s op c pg).sec.boot = .ready := by simp [begun, h.serves.2]
  unfold reqOf at hp ⊢
  unfold runEffect
  rw [begun_exec]
  simp only [hr, hb, Option.isSome_none, Bool.or_self, Bool.false_eq_true, if_false, hp, ne_eq, not_true_eq_false, after,
    beq_iff_eq, reduceCtorEq, Bool.or_eq_true, or_self]

/-- A task command that is admitted, its effect named by its opcode. -/
theorem exec_admitted {i : Instr} {op : Nat} {c : TaskCmd} {pg : PageCond} {s : State} (hi : opOf i = some (op, c))
    (h : Admitted s op c pg) :
    exec i s = done s (after (effectOf op (reqOf c pg) (touchTx (begun s op c pg) (reqOf c pg).tx)) c.reg) := by
  rw [exec_task hi, trigger_effect h]

/-- A command that carries no transaction touches none. -/
theorem touchTx_zero (s : State) : touchTx s 0 = s := rfl

theorem reqOf_tx_zero {c : TaskCmd} (pg : PageCond) (h : c.tx = 0) : (reqOf c pg).tx = 0 := by simp [reqOf, Req.tx, h]

/-- What the command waits for after an effect that leaves it in execution. -/
theorem waitOf_after {e : Eff} {reg : Nat} {x : Exec} (h : kget e.1.execs reg = some x) : waitOf (after e reg) reg = some e.2.1 := by
  simp [waitOf, after, kget_kmod_same _ h]

theorem execs_begun_some (s : State) (op : Nat) (c : TaskCmd) (pg : PageCond) :
    (kget (begun s op c pg).execs c.reg).isSome = true := by rw [begun_exec]; rfl

/-- An admitted command without a transaction, its effect evaluated: what holds of the state that the effect leaves holds of the next
state. -/
theorem answers_of_effect {i : Instr} {op : Nat} {c : TaskCmd} {pg : PageCond} {s s1 : State} {w : Wait} {n : Nat}
    {P : State → Prop} (hi : opOf i = some (op, c)) (h : Admitted s op c pg) (ht : c.tx = 0)
    (he : effectOf op (reqOf c pg) (begun s op c pg) = (s1, w, n)) (hx : (kget s1.execs c.reg).isSome = true)
    (hP : ∀ t, waitOf t c.reg = some w → (t = { after (s1, w, n) c.reg with pending := s.pending, ident := s.ident }) → P t) :
    Answers i s P := by
  refine ⟨_, by rw [exec_admitted hi h, reqOf_tx_zero pg ht, touchTx_zero, he, done_next], ?_⟩
  apply hP _ _ rfl
  obtain ⟨x, hx⟩ := Option.isSome_iff_exists.1 hx
  exact waitOf_after (e := (s1, w, n)) hx

/-- DMA runs whenever a command is admitted: the link is up. -/
theorem begun_ioUp {s : State} {op : Nat} {c : TaskCmd} {pg : PageCond} (h : Admitted s op c pg) :
    ioUp (begun s op c pg) = true := by
  have := h.reach.1
  simp only [cxlUp, Bool.or_eq_true, beq_iff_eq] at this
  simp only [ioUp, begun, bumpB_host, bne_iff_ne]
  rcases this with h | h <;> simp [wake, h]

theorem begun_hostServes (s : State) (op : Nat) (c : TaskCmd) (pg : PageCond) (f a n : Nat) :
    hostServes (begun s op c pg) f a n = hostServes s f a n := by
  simp only [hostServes, begun, bumpB_host]; unfold wake; split <;> rfl

@[simp] theorem moduleId_begun (s : State) (op : Nat) (c : TaskCmd) (pg : PageCond) :
    moduleId (begun s op c pg) = moduleId s := by simp [moduleId]

end Sys2Proof.Machine
end

