-- ==== Sys2Proof/Laws/Frames.lean ====
section
/-! SUPPORT. Laws/Frames.lean: what the shared operations can change, each said once: counters, the health log, packets of this module,
answers of the dictionary, and the configuration flash. -/

namespace Sys2Proof.Machine

/-- Only counters of the dictionary move, module-wide and of the polders. -/
def CountsOnly (s t : State) : Prop := t = { s with od := { s.od with cnt := t.od.cnt, pcnt := t.od.pcnt } }

/-- Only what sending changes moves: ports, stream numbers and routes last used, packets waiting and sent, and counters. -/
def SendsOnly (s t : State) : Prop :=
  t = { s with
    fabric := { s.fabric with
      ports := t.fabric.ports, sentSeq := t.fabric.sentSeq, lastRoute := t.fabric.lastRoute, waiting := t.fabric.waiting
      out := t.fabric.out }
    od := { s.od with cnt := t.od.cnt, pcnt := t.od.pcnt } }

/-- Only the security unit and counters move. -/
def SecOnly (s t : State) : Prop := t = { s with sec := t.sec, od := { s.od with cnt := t.od.cnt, pcnt := t.od.pcnt } }

/-- Only the health log, the journal's queue with its sequence numbers, and counters move. -/
def LogOnly (s t : State) : Prop :=
  t = { s with
    healthHigh := t.healthHigh, health := t.health, healthMark := t.healthMark, seq := t.seq
    flash := { s.flash with jpend := t.flash.jpend, jsince := t.flash.jsince }, od := { s.od with cnt := t.od.cnt, pcnt := t.od.pcnt } }

theorem bump_countsOnly (s : State) (i k n : Nat) : CountsOnly s (bump s i k n) := by
  unfold CountsOnly bump; split <;> rfl

theorem setCnt_countsOnly (s : State) (i k n : Nat) : CountsOnly s (setCnt s i k n) := rfl

theorem SendsOnly.refl (s : State) : SendsOnly s s := rfl

theorem SendsOnly.trans {s t u : State} (h : SendsOnly s t) (g : SendsOnly t u) : SendsOnly s u := by
  unfold SendsOnly at *; rw [g, h]

theorem SecOnly.refl (s : State) : SecOnly s s := rfl

theorem SecOnly.trans {s t u : State} (h : SecOnly s t) (g : SecOnly t u) : SecOnly s u := by
  unfold SecOnly at *; rw [g, h]

theorem LogOnly.refl (s : State) : LogOnly s s := rfl

theorem LogOnly.trans {s t u : State} (h : LogOnly s t) (g : LogOnly t u) : LogOnly s u := by
  unfold LogOnly at *; rw [g, h]

theorem CountsOnly.sends {s t : State} (h : CountsOnly s t) : SendsOnly s t := by
  unfold CountsOnly SendsOnly at *; rw [h]

theorem CountsOnly.sec {s t : State} (h : CountsOnly s t) : SecOnly s t := by
  unfold CountsOnly SecOnly at *; rw [h]

theorem CountsOnly.log {s t : State} (h : CountsOnly s t) : LogOnly s t := by
  unfold CountsOnly LogOnly at *; rw [h]

theorem modPort_sendsOnly (s : State) (n : Nat) (f : Port → Port) : SendsOnly s (s.modPort n f) := rfl

theorem transmit_sendsOnly (s : State) (n : Nat) (p : Packet) : SendsOnly s (transmit s n p) :=
  (bump_countsOnly _ _ _ _).sends.trans (modPort_sendsOnly _ _ _)

theorem serveEgress_sendsOnly (fuel : Nat) (s : State) (n : Nat) : SendsOnly s (serveEgress fuel s n) := by
  induction fuel generalizing s with
  | zero => exact .refl s
  | succ k ih =>
    unfold serveEgress
    dsimp only
    split
    · exact .refl s
    · exact ((modPort_sendsOnly _ _ _).trans (transmit_sendsOnly _ _ _)).trans (ih _)

theorem enqueue_sendsOnly (s : State) (n : Nat) (p : Packet) : SendsOnly s (enqueue s n p) :=
  (modPort_sendsOnly _ _ _).trans (serveEgress_sendsOnly _ _ _)

/-- A packet of this module changes only what sending changes. -/
theorem sendPacket_sendsOnly (s : State) (p : Packet) : SendsOnly s (sendPacket s p).2 := by
  unfold sendPacket
  split
  · exact .refl s
  · dsimp only
    split
    · exact .refl s
    · split
      · rfl
      · split
        · rfl
        · refine SendsOnly.trans ?_ (enqueue_sendsOnly _ _ _)
          rfl

theorem respond_sendsOnly (s : State) (p : Packet) (status : Nat) (b : List Byte) : SendsOnly s (respond s p status b) :=
  sendPacket_sendsOnly _ _

/-- So does a message between runtimes. -/
theorem sendMsg_sendsOnly (s : State) (dest : Nat) (m : Msg) (tx status : Nat) (fields : List Nat) (body : List Byte) :
    SendsOnly s (sendMsg s dest m tx status fields body) := sendPacket_sendsOnly _ _

theorem sendWaiting_sendsOnly (s : State) (dest : Nat) : SendsOnly s (sendWaiting s dest) := by
  unfold sendWaiting
  dsimp only
  generalize (s.fabric.waiting.filter fun p => p.dest == dest) = w
  have h : SendsOnly s (s.modFab fun f => { f with waiting := f.waiting.filter fun p => p.dest != dest }) := rfl
  generalize (s.modFab fun f => { f with waiting := f.waiting.filter fun p => p.dest != dest }) = u at *
  induction w generalizing u with
  | nil => exact h
  | cons p r ih => exact ih _ (h.trans (sendPacket_sendsOnly u p))

/-- An answer by a mailbox or over MCTP changes the host interface alone. -/
theorem answerOd_host (s : State) (path : OdPath) (status : Nat) (b : List Byte) :
    answerOd s path status b = { s with host := (answerOd s path status b).host } := rfl

/-- An answer on a path changes the host interface, what sending changes, and counters. -/
theorem answerPath_frame (s : State) (path : OdPath) (type tag status : Nat) (b : List Byte) :
    answerPath s path type tag status b = { s with
      host := (answerPath s path type tag status b).host, fabric := (answerPath s path type tag status b).fabric
      od := { s.od with cnt := (answerPath s path type tag status b).od.cnt, pcnt := (answerPath s path type tag status b).od.pcnt } } := by
  unfold answerPath
  split
  · have h := sendPacket_sendsOnly s { blankPacket with
      type := type, dest := ‹Nat›, tclass := 3, tag := tag, status := BitVec.ofNat 16 status, payload := if status = 0 then b else [] }
    unfold SendsOnly at h
    generalize (sendPacket s _).2 = t at *
    rw [h]
  · rfl

theorem modCfgOp_secOnly (s : State) (f : CfgOp → CfgOp) : SecOnly s (modCfgOp s f) := rfl

theorem cfgSuspend_secOnly (s : State) : SecOnly s (cfgSuspend s) := by
  unfold cfgSuspend
  split
  · exact .refl s
  · split
    · exact .refl s
    · split
      · exact (modCfgOp_secOnly _ _).trans (bump_countsOnly _ _ _ _).sec
      · split
        · exact .refl s
        · exact (modCfgOp_secOnly _ _).trans (bump_countsOnly _ _ _ _).sec

theorem cfgStart_secOnly (s : State) (erase : Bool) (sector rank : Nat) : SecOnly s (cfgStart s erase sector rank) := by
  unfold cfgStart
  split
  · exact .refl s
  · split
    · rfl
    · dsimp only
      split
      · exact modCfgOp_secOnly _ _
      · exact (modCfgOp_secOnly _ _).trans (cfgSuspend_secOnly _)

/-- A write of persistent entries waits in the store's queue; only the security unit and counters change. -/
theorem storeWriteFor_secOnly (s : State) (items : List (Nat × Nat)) (path : Option OdPath) (tag cores : Nat) :
    SecOnly s (storeWriteFor s items path tag cores) := by
  unfold storeWriteFor
  dsimp only
  have h : SecOnly s (s.modSec fun c => { c with
    storeQ := c.storeQ ++ [{ items := items, path := path, tag := tag, cores := cores }] }) := rfl
  split
  · exact h.trans (cfgStart_secOnly _ _ _ _)
  · exact h.trans (cfgStart_secOnly _ _ _ _)

/-! ## The cells of the configuration flash (19 R477) -/

/-- Only the cells of the configuration flash change. -/
def CellsOnly (s t : State) : Prop := t = { s with sec := { s.sec with cells := t.sec.cells } }

theorem CellsOnly.refl (s : State) : CellsOnly s s := rfl

theorem CellsOnly.trans {s t u : State} (h : CellsOnly s t) (g : CellsOnly t u) : CellsOnly s u := by
  unfold CellsOnly at *; rw [g, h]

theorem CellsOnly.sec {s t : State} (h : CellsOnly s t) : SecOnly s t := by
  unfold CellsOnly SecOnly at *; rw [h]

/-- What holds of one step of a fold holds of the fold. -/
theorem cellsOnly_foldl {α : Type} (f : State → α → State) (h : ∀ s a, CellsOnly s (f s a)) (l : List α) (s : State) :
    CellsOnly s (l.foldl f s) := by
  induction l generalizing s with
  | nil => exact .refl s
  | cons a r ih => exact (h s a).trans (ih _)

theorem putCell_cellsOnly (s : State) (a : Nat) (c : BitVec 40) : CellsOnly s (putCell s a c) := rfl

/-- Programs and erases, and the status words of a slot, are cells alone. -/
theorem programWords_cellsOnly (s : State) (a : Nat) (l : List (BitVec 32)) : CellsOnly s (programWords s a l) :=
  cellsOnly_foldl _ (fun _ _ => putCell_cellsOnly _ _ _) _ s

theorem eraseSector_cellsOnly (s : State) (k : Nat) : CellsOnly s (eraseSector s k) :=
  cellsOnly_foldl _ (fun _ _ => putCell_cellsOnly _ _ _) _ s

theorem rewriteSector_cellsOnly (s : State) (k : Nat) (l : List (BitVec 32)) : CellsOnly s (rewriteSector s k l) :=
  (eraseSector_cellsOnly s k).trans (programWords_cellsOnly _ _ _)

theorem setStatus_cellsOnly (s : State) (slot word : Nat) (v : BitVec 32) : CellsOnly s (setStatus s slot word v) := rfl

theorem restatus_cellsOnly (s : State) (slot : Nat) (l : List (Nat × BitVec 32)) : CellsOnly s (restatus s slot l) :=
  (cellsOnly_foldl _ (fun s _ => eraseSector_cellsOnly s _) _ s).trans (cellsOnly_foldl _ (fun _ _ => setStatus_cellsOnly _ _ _ _) _ _)

theorem jadd_logOnly (s : State) (r : JRec) : LogOnly s (jadd s r).2 := by rfl

theorem logHealth_logOnly (s : State) (type : Nat) (admin : Bool) (detail : List Int) : LogOnly s (logHealth s type admin detail) := by
  unfold logHealth
  dsimp only
  split <;> rfl

theorem yielded_logOnly (s : State) (x y : Nat) (a b : Party) : LogOnly s (yielded s x y a b) :=
  (logHealth_logOnly _ _ _ _).trans (bump_countsOnly _ _ _ _).log

theorem dikeFail_countsOnly (s : State) (p : Nat) : CountsOnly s (dikeFail s p) := by
  unfold CountsOnly dikeFail bumpP bump
  simp only []
  split <;> split <;> rfl

/-- What runs on at a brown-out changes the security block and its flash alone. -/
theorem opRunsOn_sec (s : State) : opRunsOn s = { s with sec := (opRunsOn s).sec } := by
  unfold opRunsOn
  split <;> rfl

end Sys2Proof.Machine
end

