-- ==== Sys2Proof/Laws/Objects.lean ====
section
/-! SUPPORT. Laws/Objects.lean: what making an object does (02 R31, R36). -/

namespace Sys2Proof.Machine

/-- An object that fits is listed under the next number, and its journal record is queued. -/
theorem makeObj_ok {s s1 : State} {n : NewObj} {hidden : Bool} {base : Nat} (hl : s.objs.length < 16777216)
    (hp : poolAllows s n.pool = true) (hq : quotaAllows s n.owner n.need = true)
    (ha : (if (n.obj hidden).extent = 0 then some (0, s) else allocDas s ((n.obj hidden).extent / 65536)) = some (base, s1)) :
    makeObj s n hidden = (.ok (mkHandle s1 n.area.code (s1.numHigh + 1),
        (journalObj (placeObj s1 n hidden base) (mkHandle s1 n.area.code (s1.numHigh + 1))).1),
      (journalObj (placeObj s1 n hidden base) (mkHandle s1 n.area.code (s1.numHigh + 1))).2) := by
  unfold makeObj
  simp only [if_neg (Nat.not_le.2 hl), hp, hq, Bool.not_true, Bool.false_eq_true, if_false, ha]

/-- Allocation moves only the place where the next search starts. -/
theorem allocDas_eq {s s1 : State} {n base : Nat} (h : allocDas s n = some (base, s1)) : ∃ k, s1 = { s with dasNext := k } := by
  unfold allocDas at h
  simp only [Option.map_eq_some_iff, Prod.mk.injEq] at h
  obtain ⟨k, -, -, rfl⟩ := h
  exact ⟨_, rfl⟩

/-- The object that was placed. -/
theorem placeObj_get (s : State) (n : NewObj) (hidden : Bool) (base : Nat) :
    kget (placeObj s n hidden base).objs (mkHandle s n.area.code (s.numHigh + 1)) =
      some { n.obj hidden with base := base, created := s.seq + 1 } := by
  simp [placeObj]

@[simp] theorem mkHandle_begun (s : State) (op : Nat) (c : TaskCmd) (pg : PageCond) (type number : Nat) :
    mkHandle (begun s op c pg) type number = mkHandle s type number := by simp [mkHandle]

end Sys2Proof.Machine
end

