-- ==== Sys2Proof/Laws/Records.lean ====
section
/-! SUPPORT. Laws/Records.lean: what a record does once its context issues, and how the steps of its operation follow on each other. -/

namespace Sys2Proof.Machine

/-! ## Steps of an operation -/

theorem Runs.bind {α β : Type} {m : Eng α} {f : α → Eng β} {s t u : State} {a : α} {b : β} (h : Runs m s a t) (k : Runs (f a) t b u) :
    Runs (m >>= f) s b u := by
  unfold Runs at *
  show StateT.run (ExceptT.run (m >>= f)) s = _
  rw [ExceptT.run_bind, StateT.run_bind, h]
  exact k

theorem runs_getThe (s : State) : Runs (getThe State : Eng State) s s s := rfl
theorem runs_pure {α : Type} (a : α) (s : State) : Runs (pure a : Eng α) s a s := rfl
theorem runs_mutate (f : State → State) (s : State) : Runs (mutate f) s () (f s) := rfl
theorem runs_runs {α : Type} (f : State → α × State) (s : State) : Runs (runs f) s (f s).1 (f s).2 := rfl
theorem runs_faultIf {b : Bool} (code off : Nat) (s : State) (h : b = false) : Runs (faultIf b code off) s () s := by
  unfold faultIf; rw [h]; rfl

theorem runs_forM_nil {α : Type} (f : α → Eng PUnit) (s : State) : Runs (List.forM [] f) s () s := rfl
theorem runs_forM_cons {α : Type} {f : α → Eng PUnit} {a : α} {l : List α} {s t u : State} (h : Runs (f a) s () t) (k : Runs (l.forM f) t () u) :
    Runs ((a :: l).forM f) s () u := Runs.bind h k

/-- No output meets an input: the check of their overlap passes. -/
theorem runs_checkOverlap {outs ins : List (Ref × Nat)} (s : State) (h : apart outs ins = true) : Runs (checkOverlap outs ins) s () s := by
  induction outs with
  | nil => rfl
  | cons o l ih =>
    simp only [apart, List.all_cons, Bool.and_eq_true] at h
    exact runs_forM_cons (runs_faultIf _ _ _ (by simpa using h.1)) (ih h.2)

/-! ## Contexts -/

theorem getCtx_modCtx {s : State} {x : CtxId} {j : Job} {c : Ctx} (f : Ctx → Ctx) (h : getCtx s x = some (j, c)) :
    getCtx (modCtx s x f) x = some ({ j with ctxs := j.ctxs.modify x.idx f }, f c) := by
  unfold getCtx at h
  unfold getCtx modCtx
  rw [State.modJob_jobs]
  cases hk : kget s.jobs x.job with
  | none => rw [hk] at h; cases h
  | some j' =>
    rw [hk] at h
    rw [kget_kmod_same _ hk]
    simp only [Option.map_eq_some_iff, Prod.mk.injEq] at h
    obtain ⟨c', hc, rfl, rfl⟩ := h
    simp [hc]

/-- A context that issues waits for nothing. -/
theorem Issuing.awake {s : State} {x : CtxId} {j : Job} {c : Ctx} (h : Issuing s x j c) : c.wait = .none ∧ c.awaiting = 0 := by
  have hr := h.issues
  unfold Machine.issues at hr
  rw [h.ctx] at hr
  simp only at hr
  split at hr
  · simp only [Bool.and_eq_true] at hr
    have hn := hr.2
    unfold runnable at hn
    rw [h.ctx] at hn
    simp only [Bool.and_eq_true, beq_iff_eq] at hn
    exact ⟨hn.1.2, hn.2⟩
  · cases hr

theorem Issuing.noRetry {s : State} {x : CtxId} {j : Job} {c : Ctx} (h : Issuing s x j c) : mayRetry s x c = false := by
  unfold mayRetry; rw [h.awake.1]; simp

/-- It runs its record, at a fret no more. -/
theorem Issuing.ready {s : State} {x : CtxId} {j : Job} {c : Ctx} (h : Issuing s x j c) :
    readyToRun s x = (true, modCtx s x fun c => { c with atFret := false }) := by
  unfold readyToRun
  rw [h.ctx]
  simp only [h.noFret, h.noRetry, Bool.false_and, Bool.false_eq_true, if_false, h.issues, if_true]

/-- No drain of its core's array is due. -/
theorem Issuing.drainOut {s : State} {x : CtxId} {j : Job} {c : Ctx} (h : Issuing s x j c) :
    Machine.drainOut (modCtx s x fun c => { c with atFret := false }) x = modCtx s x fun c => { c with atFret := false } := by
  unfold Machine.drainOut
  rw [getCtx_modCtx _ h.ctx]
  simp only [h.drained, if_true]

/-- A record that steers its context, and issues. -/
theorem steer_issuing {s : State} {x : CtxId} {j : Job} {c : Ctx} (f : State → Ctx → State) (h : Issuing s x j c) :
    steer x f s = f (modCtx s x fun c => { c with atFret := false }) { c with atFret := false } := by
  unfold steer
  rw [h.ready]
  simp only [h.drainOut, getCtx_modCtx _ h.ctx]

/-- A record whose context issues: it starts, and its outcome follows. -/
theorem runRecordOf_issuing {s : State} {x : CtxId} {j : Job} {c : Ctx} (heavy : Bool) (r : BitVec 512) (start : State → State)
    (body : Bool → Eng Unit) (h : Issuing s x j c) :
    runRecordOf heavy x r start body s =
      recordOutcome (start (modCtx s x fun c => { c with atFret := false })) x (fretAfter r)
        ((body false).run.run (start (modCtx s x fun c => { c with atFret := false }))) := by
  unfold runRecordOf
  simp only [h.ctx, h.noRetry, h.ready, h.drainOut, Bool.false_eq_true, if_false, ite_self]

/-- A record of `operationOf` whose context issues. -/
theorem exec_record {i : Instr} {x : CtxId} {r : BitVec 512} {m : Eng Unit} {s : State} {j : Job} {c : Ctx}
    (h : operationOf i = some (x, r, m)) (hi : Issuing s x j c) :
    exec i s = done s (recordOutcome (started i s x) x (fretAfter r) (m.run.run (started i s x))) := by
  cases i <;> first | (cases h; exact congrArg (done s) (runRecordOf_issuing _ _ _ _ hi)) | cases h

/-- An operation that ends well: the record is carried out. -/
theorem exec_record_runs {i : Instr} {x : CtxId} {r : BitVec 512} {m : Eng Unit} {s u : State} {j : Job} {c : Ctx}
    (h : operationOf i = some (x, r, m)) (hi : Issuing s x j c) (hr : Runs m (started i s x) () u) : Becomes i s (carriedOut u x r) := by
  unfold Becomes
  rw [exec_record h hi, hr]
  rfl

end Sys2Proof.Machine
end

