-- ==== Sys2Proof/Tests/Slice0.lean ====
section
/-! SUPPORT. Tests/Slice0.lean: for every hypothesis of every statement concrete states and operands that meet it, an ill-formed
command for each check of WellFormed, and a few single steps with values worked out by hand from the manual. -/

set_option Elab.async false
set_option maxRecDepth 20000

open Sys2Proof Sys2Proof.Machine

namespace Sys2Proof.Tests

/-! ## Small states and commands -/

/-- A task command of the PF's admin page with nothing in it. -/
def blank : TaskCmd := ⟨0, 0, 0, 0, 0, 0, 0, 0, 0, 0, 0, 0xFF, 0⟩

/-- The command with its CRC. -/
def withCrc (op : Nat) (c : TaskCmd) : TaskCmd := { c with crc := crc32 (cmdBytes op c) }

/-- The PF's admin page. -/
def pg0 : PageCond := ⟨0, 0xFF⟩

/-- The checks of `Admitted`, as one test. -/
def admits (s : State) (op : Nat) (c : TaskCmd) (pg : PageCond) : Bool :=
  cxlUp s && condOf (wake s) c.fn c.reg == some pg && (((wake s).reg c.reg).state == .idle || ((wake s).reg c.reg).state == .done) &&
  acceptance (wake s) op c pg == (0, true) && !s.power.restarting && s.sec.boot == .ready &&
  preStatus (begun s op c pg) op (reqOf c pg) == 0

theorem admitted_of {s : State} {op : Nat} {c : TaskCmd} {pg : PageCond} (h : admits s op c pg = true) : Admitted s op c pg := by
  simp only [admits, Bool.and_eq_true, Bool.or_eq_true, beq_iff_eq, Bool.not_eq_true'] at h
  obtain ⟨⟨⟨⟨⟨⟨h1, h2⟩, h3⟩, h4⟩, h5⟩, h6⟩, h7⟩ := h
  exact ⟨⟨h1, h2⟩, h3, h4, ⟨h5, h6⟩, h7⟩

/-- An operation of a record that ends well: its value and its state. -/
def okOf {α : Type} (m : Eng α) (s : State) : Option α := match (m.run.run s).1 with | .ok a => some a | .error _ => none
def stopOf {α : Type} (m : Eng α) (s : State) : Option Stop := match (m.run.run s).1 with | .ok _ => none | .error e => some e
def stateOf {α : Type} (m : Eng α) (s : State) : State := (m.run.run s).2

theorem runs_of {α : Type} {m : Eng α} {s : State} {a : α} (h : okOf m s = some a) : Runs m s a (stateOf m s) := by
  unfold okOf at h; unfold Runs stateOf
  split at h
  · rename_i b hb; cases h; exact Prod.ext hb rfl
  · cases h
theorem stops_of {α : Type} {m : Eng α} {s : State} {e : Stop} (h : stopOf m s = some e) : Stops m s e (stateOf m s) := by
  unfold stopOf at h; unfold Stops stateOf
  split at h
  · cases h
  · rename_i b hb; cases h; exact Prod.ext hb rfl
/-- A chain of operations that end well, tested as one: what follows is tested of the value and the state of each. -/
def chk {α : Type} (m : Eng α) (s : State) (k : α → State → Bool) : Bool := match m.run.run s with | (.ok a, t) => k a t | _ => false
theorem chk_runs {α : Type} {m : Eng α} {s : State} {k : α → State → Bool} (h : chk m s k = true) : ∃ a t, Runs m s a t ∧ k a t = true := by
  unfold chk at h
  split at h
  · rename_i a t e; exact ⟨a, t, e, h⟩
  · cases h
theorem some_of {α : Type} {o : Option α} (h : o.isSome = true) : ∃ a, o = some a := Option.isSome_iff_exists.1 h

/-- A record of fields: byte offset, bytes, value. -/
def recOf (l : List (Nat × Nat × Nat)) : BitVec 512 := BitVec.ofNat 512 (l.foldl (fun a e => a + e.2.2 * 256 ^ e.1) 0)
/-- Operand references: the share at an offset, the object of a handle slot. -/
def inShare (off : Nat) : Nat := 0xFFF * 4503599627370496 + off
def inSlot (slot off : Nat) : Nat := slot * 4503599627370496 + off

/-- A field of the next state, none of a fault or a refusal. -/
def stateAfter {α : Type} (o : Host.Outcome State Fault Refusal) (f : State → α) : Option α := match o with | .next t => some (f t) | _ => none

/-! ## Ill-formed commands: for each check of WellFormed a command that it refuses -/

theorem test_wf_fn : (Instr.flr 64).wf = false ∧ (Instr.flr 63).wf = true ∧ (Instr.ack 64 0).wf = false := by decide
theorem test_wf_register : (Instr.read { blank with reg := 1048576 }).wf = false ∧ (Instr.read { blank with fn := 64 }).wf = false ∧
    (Instr.ack 0 1048576).wf = false ∧ (Instr.dmaCompletionTimeout 1048576).wf = false := by decide
theorem test_wf_result : (Instr.resultRead 0 0 0 0).wf = false ∧ (Instr.resultRead 0 0 127 2).wf = false := by decide
theorem test_wf_ring : (Instr.ringEnable 0 0 true 1024).wf = false ∧ (Instr.headWrite 0 0 0 4294967296).wf = false := by decide
theorem test_wf_registerWrite : (Instr.registerWrite 0 0 []).wf = false ∧ (Instr.registerWrite 0 127 [1, 2]).wf = false ∧
    (Instr.registerWrite 0 134217728 [1]).wf = false := by decide
theorem test_wf_module : (Instr.prepare 1024 1).wf = false ∧ (Instr.groupClaim 1024 7).wf = false ∧
    (Instr.membershipReplyTimeout 7 1024).wf = false ∧ (Instr.linkStateFlood 1024 0 true 0).wf = false := by decide
theorem test_wf_port : (Instr.portEnableWrite .pf 4 1).wf = false ∧ (Instr.retryTimer 4).wf = false ∧
    (Instr.portTrainingComplete 0 ⟨0xFF, 1, 1, 4⟩).wf = false := by decide
theorem test_wf_group : (Instr.groupClaim 1 256).wf = false ∧ (Instr.groupBarrierComplete 256 1).wf = false ∧
    (Instr.directoryExchange 0 [⟨256, 0, 0, []⟩]).wf = false := by decide
theorem test_wf_core : (Instr.timeSliceExpiry 32).wf = false ∧ (Instr.prefetchComplete 32 0 true [] 0).wf = false := by decide
theorem test_wf_polder : (Instr.contextPlacement 32).wf = false ∧ (Instr.polderApply .pf 32).wf = false := by decide
theorem test_wf_ppa : (Instr.nandPageReadComplete 34359738368 .hard).wf = false ∧ (Instr.nandPageReadComplete (1080 * 4096) .hard).wf = false ∧
    (Instr.blockRefresh 1080).wf = false ∧ (Instr.closeTimer (1080 * 1024)).wf = false := by decide
theorem test_wf_die : (Instr.suspendRunTime 1024).wf = false ∧ (Instr.gcStart 4096).wf = false ∧ (Instr.bermBufferGrant 64).wf = false := by decide
theorem test_wf_tx : (Instr.inDoubtQuery 4294967296).wf = false ∧ (Instr.inDoubtQuery 4194304).wf = false ∧
    (Instr.commitPoint 0).wf = false ∧ (Instr.commitPoint 4194304).wf = false := by decide
theorem test_wf_path : (Instr.maintenanceExit (.vf 0)).wf = false ∧ (Instr.maintenanceExit (.vf 64)).wf = false ∧
    (Instr.maintenanceExit (.mctp 256)).wf = false ∧ (Instr.maintenanceExit (.fabric 1024)).wf = false ∧
    (Instr.mctpControl 256 2).wf = false ∧ (Instr.ownerKeyWrite .pf 256 []).wf = false := by decide
theorem test_wf_od : (Instr.odRead ⟨.pf, 65536, 0, none, 0, 0⟩).wf = false ∧ (Instr.odRead ⟨.pf, 0, 256, none, 0, 0⟩).wf = false ∧
    (Instr.odRead ⟨.pf, 0, 0, some 1024, 0, 0⟩).wf = false := by decide
theorem test_wf_packet : (Instr.remoteRead { blankPacket with dest := 1024 }).wf = false ∧ (Instr.remoteRead { blankPacket with src := 1024 }).wf = false ∧
    (Instr.remoteRead { blankPacket with tclass := 4 }).wf = false ∧ (Instr.packetTransit 0 { blankPacket with hops := 64 }).wf = false := by decide
theorem test_wf_payload : (Instr.remoteWrite { blankPacket with payload := List.replicate 4097 0 }).wf = false ∧
    (Instr.prefetchComplete 0 0 true (List.replicate 65537 0) 0).wf = false := by decide +kernel
theorem test_wf_flit : (Instr.flitReceive 0 ⟨65536, 0, false, false, 0, 0, [], true, 0, 0⟩).wf = false ∧
    (Instr.flitReceive 0 ⟨0, 65536, false, false, 0, 0, [], true, 0, 0⟩).wf = false ∧
    (Instr.flitReceive 0 ⟨0, 0, false, false, 0, 0, [{ blankPacket with dest := 1024 }], true, 0, 0⟩).wf = false := by decide
theorem test_wf_window : (Instr.cxlMemRead 0 0).wf = false ∧ (Instr.cxlMemRead 0 65).wf = false ∧ (Instr.cxlMemRead 549755813887 2).wf = false ∧
    (Instr.cxlMemWrite 0 []).wf = false ∧ (Instr.cxlMemWrite 63 [1, 2]).wf = false ∧ (Instr.cxlMemWrite 549755813888 [1]).wf = false := by decide
theorem test_wf_dram : (Instr.dramRefresh 256 []).wf = false ∧ (Instr.dramRefresh 0 [(0, 68, 1)]).wf = false := by decide
theorem test_wf_board : (Instr.railTimeout 0).wf = false ∧ (Instr.railTimeout 11).wf = false ∧ (Instr.holdupReady 256).wf = false ∧
    (Instr.thermalTrip 3 0).wf = false ∧ (Instr.cfgEarlyWarningRefresh 32768 0).wf = false ∧ (Instr.emitterFailover 6).wf = false := by decide
theorem test_wf_collective : (Instr.collectivePacket ⟨256, 1, 1, 0, 0, 10, 0, 4, 0, []⟩).wf = false ∧
    (Instr.collectivePacket ⟨7, 1, 1, 256, 0, 10, 0, 4, 0, []⟩).wf = false := by decide

/-- A BLOB of one parcel, of the module, in the first DAS parcel. -/
def blob1 : Obj := { base := 0x100000000, length := 65536, created := 1, owner := 0xFF, policy := 2, area := .blob 0 }

/-- The BLOB's handle; a NAMESPACE's. -/
def hBlob : Nat := mkHandle State.reset 2 1
def hNs : Nat := mkHandle State.reset 1 2

/-- A namespace of 16 blocks of 4 KiB. -/
def ns1 : Obj := { base := 0x200000000, length := 65536, created := 2, owner := 0xFF, policy := 1, area := .nspace 1 4096 16 0 }

/-- The reset state with the two objects, its BLOB's parcel in DRAM frame 0. -/
def objects : State := { State.reset with
  objs := [(hNs, ns1), (hBlob, blob1)], numHigh := 2,
  parcels := [(0x10000, { state := .dramClean, obj := hBlob, frame := 0 })] }

/-- The register 0 of the state, changed. -/
def reg0 (s : State) (r : TaskReg) : State := { s with regs := [(0, r)] }

/-- What is left of the register's history when a command is executed: nothing. -/
def withExec (s : State) (op : Nat) (c : TaskCmd) (w : Wait) : State :=
  { reg0 s { state := .executing } with execs := [(0, { fn := 0, opcode := op, cmd := c, order := 0, polder := 0xFF, wait := w })] }

/-! ## Task registers -/

theorem test_AckRetiresResult_reach : Reaches State.reset 0 0 pg0 := ⟨rfl, rfl⟩
theorem test_AckRetiresResult_done :
    Reaches (reg0 State.reset { state := .done }) 0 0 pg0 ∧ ((wake (reg0 State.reset { state := .done })).reg 0).state = .done :=
  ⟨⟨rfl, rfl⟩, by decide⟩
theorem test_AckRetiresResult_idle : ((wake State.reset).reg 0).state ≠ .done := by decide

theorem test_ForeignPageAccessDiscarded : cxlUp State.reset = true ∧ condOf (wake State.reset) 1 0 = none ∧
    opOf (.read { blank with fn := 1 }) = some (1, { blank with fn := 1 }) ∧ 0 < 128 := by decide

theorem test_SlotOverrunDropsTrigger : opOf (.read blank) = some (1, blank) ∧
    Reaches (reg0 State.reset { state := .executing }) 0 0 pg0 ∧
    ((wake (reg0 State.reset { state := .executing })).reg 0).state = .executing := ⟨rfl, ⟨rfl, rfl⟩, by decide⟩

theorem test_RegisterAccessesAct_ring :
    (kget (wake { State.reset with rings := [(1, { base := 64 })] }).rings 1).getD {} = { base := 64 } ∧
    ({ base := 64 : Ring }).fn = 0 := by decide
theorem test_RegisterAccessesAct_slot : Reaches State.reset 0 31 pg0 ∧ 31 < 1048576 ∧ 0x3E + [(5 : Byte)].length ≤ 0x3F :=
  ⟨⟨rfl, rfl⟩, by decide⟩

theorem test_TriggersAreCheckedThenRun_torn : opOf (.read blank) = some (1, blank) ∧
    ((wake State.reset).reg 0).state = .idle ∧ crc32 (cmdBytes 1 blank) ≠ blank.crc := by decide +kernel
theorem test_TriggersAreCheckedThenRun_sequence :
    (withCrc 1 { blank with seq := 7 }).seq ≠ ((wake State.reset).reg 0).nextSeq := by decide
theorem test_TriggersAreCheckedThenRun_accepted :
    Admitted State.reset 0x20 (withCrc 0x20 blank) pg0 := admitted_of (by decide +kernel)

theorem test_CommandEndsWithItsResult : let s := withExec State.reset 1 blank (.ready 0 4096)
    (kget s.execs 0).isSome = true ∧ (kget s.execs 0).map (·.wait) = some (.ready 0 4096) ∧
    (s.reg 0).enable = false := by decide

/-! ## Task commands -/

/-- READ of the BLOB's header to host address 0; of its payload to address 128. -/
def readHeaderCmd : TaskCmd := withCrc 1 { blank with target := BitVec.ofNat 64 hBlob, flags := 4, length := 128 }
def readCmd : TaskCmd := withCrc 1 { blank with target := BitVec.ofNat 64 hBlob, length := 64, haddr := 128 }

theorem test_ReadDelivers_header : Admitted objects 1 readHeaderCmd pg0 ∧ readHeaderCmd.tx = 0 ∧
    readHeaderCmd.flags.getLsbD 2 = true ∧ readHeaderCmd.flags.getLsbD 3 = false ∧ readHeaderCmd.length = 128 ∧
    bitsAt readHeaderCmd.ops.toNat 0 64 = 0 ∧ kget objects.objs readHeaderCmd.target.toNat = some blob1 ∧
    hostServes objects 0 readHeaderCmd.haddr.toNat 128 = true := ⟨admitted_of (by decide +kernel), by decide +kernel⟩
theorem test_ReadDelivers_payload :
    let s := begun objects 1 readCmd pg0
    let s1 := usedPages (touchHeat s hBlob 0x100000000 64 (whoReg 0)) .command (flashPages s 0x100000000 64)
    let s2 := (readPayload s1 0x100000000 64 0).2
    Admitted objects 1 readCmd pg0 ∧ readCmd.tx = 0 ∧ readCmd.flags = 0 ∧ homeOf hBlob = moduleId objects ∧
    kget objects.objs readCmd.target.toNat = some blob1 ∧ bitsAt readCmd.ops.toNat 0 64 + 64 ≤ blob1.length ∧
    missingPages s .command (flashPages s 0x100000000 64) = [] ∧ (∃ m, (readPayload s1 0x100000000 64 0).1 = .ok m) ∧
    ioUp s2 = true ∧ hostServes s2 0 128 64 = true ∧ (kget s2.execs 0).isSome = true :=
  ⟨admitted_of (by decide +kernel), by decide +kernel, by decide +kernel, by decide +kernel, by decide +kernel, by decide +kernel,
   by decide +kernel, ⟨[], by decide +kernel⟩, by decide +kernel⟩

def writeCmd : TaskCmd := withCrc 2 { blank with target := BitVec.ofNat 64 hBlob, length := 64 }
theorem test_WriteStoresPayload :
    let f := (reqOf writeCmd pg0).fetch (begun objects 2 writeCmd pg0)
    let b := List.replicate 64 (0 : Byte)
    let t := storeAt f.2 0 hBlob 0 b (whoReg 0)
    Admitted objects 2 writeCmd pg0 ∧ writeCmd.tx = 0 ∧ writeCmd.flags = 0 ∧ homeOf hBlob = moduleId objects ∧
    kget objects.objs writeCmd.target.toNat = some blob1 ∧ objects.flash.readOnly = false ∧ f.1 = .ok b ∧ t.1 = .ok ∧
    (kget t.2.execs 0).isSome = true := ⟨admitted_of (by decide +kernel), by decide +kernel⟩

def flushCmd : TaskCmd := withCrc 3 { blank with target := BitVec.ofNat 64 hBlob }
def volatileBlob : Obj := { blob1 with volatile := true }
def trimCmd : TaskCmd := withCrc 4 { blank with target := BitVec.ofNat 64 hBlob, length := 65536 }
theorem test_FlushAndTrimEnd_volatile :
    let s := { objects with objs := [(hBlob, volatileBlob)] }
    Admitted s 3 flushCmd pg0 ∧ flushCmd.flags.getLsbD 1 = false ∧ numberOf hBlob ≠ 0 ∧ homeOf hBlob = moduleId s ∧
    kget s.objs flushCmd.target.toNat = some volatileBlob ∧ volatileBlob.volatile = true :=
  ⟨admitted_of (by decide +kernel), by decide +kernel⟩
theorem test_FlushAndTrimEnd_clean :
    let s := { objects with parcels := [] }
    Admitted s 3 flushCmd pg0 ∧ kget s.objs flushCmd.target.toNat = some blob1 ∧ blob1.volatile = false ∧
    dirtyIn s blob1 0 blob1.extent = [] ∧ s.flash.courses = [] := ⟨admitted_of (by decide +kernel), by decide +kernel⟩
theorem test_FlushAndTrimEnd_trim :
    let t := trimPlain (begun objects 4 trimCmd pg0) hBlob 0 65536 (whoReg 0)
    Admitted objects 4 trimCmd pg0 ∧ trimCmd.flags.getLsbD 1 = false ∧ kget objects.objs trimCmd.target.toNat = some blob1 ∧
    t.1 = .ok ∧ (kget t.2.execs 0).isSome = true := ⟨admitted_of (by decide +kernel), by decide +kernel⟩

def createCmd : TaskCmd := withCrc 0x10 { blank with ops := 0x0202, length := 65536 }
def nsCreateCmd : TaskCmd := withCrc 0x100 { blank with ops := 0x0000000100001000, length := 16 }
theorem test_CreateMakesObjects_create : Admitted State.reset 0x10 createCmd pg0 ∧
    bitsAt createCmd.ops.toNat 0 8 = 2 ∧ bitsAt createCmd.ops.toNat 8 8 = 2 ∧ bitsAt createCmd.ops.toNat 16 8 = 0 ∧
    poolAllows State.reset 65536 = true ∧ (allocDas (begun State.reset 0x10 createCmd pg0) 1).isSome = true :=
  ⟨admitted_of (by decide +kernel), by decide +kernel⟩
theorem test_CreateMakesObjects_namespace : Admitted State.reset 0x100 nsCreateCmd pg0 ∧
    bitsAt nsCreateCmd.ops.toNat 0 32 = 4096 ∧ bitsAt nsCreateCmd.ops.toNat 32 32 = 1 ∧ nsCreateCmd.length.toNat = 16 ∧
    poolAllows State.reset 65536 = true := ⟨admitted_of (by decide +kernel), by decide +kernel⟩

def destroyCmd : TaskCmd := withCrc 0x11 { blank with target := BitVec.ofNat 64 hBlob }
def nsDeleteCmd : TaskCmd := withCrc 0x101 { blank with target := BitVec.ofNat 64 hNs }
theorem test_DestroyHidesObject_destroy : Admitted objects 0x11 destroyCmd pg0 ∧ blob1.pinCount = 0 ∧
    kget objects.objs destroyCmd.target.toNat = some blob1 ∧ isMapped (begun objects 0x11 destroyCmd pg0) hBlob = false ∧
    jobNames objects hBlob = false ∧ txHolds objects hBlob blob1 = false := ⟨admitted_of (by decide +kernel), by decide +kernel⟩
theorem test_DestroyHidesObject_namespace : Admitted objects 0x101 nsDeleteCmd pg0 ∧
    kget objects.objs nsDeleteCmd.target.toNat = some ns1 ∧
    (allTxs objects).any (fun e => (e.2.writes ++ e.2.reads.map (·.1)).any fun i => i != .header hNs && itemOf hNs ns1 i) = false :=
  ⟨admitted_of (by decide +kernel), by decide +kernel⟩

/-- The BLOB, which already has a pin and a binding of its one parcel at window offset 65,536. -/
def pinnedBlob : Obj := { blob1 with pins := 1, maps := 1 }
def pinned : State := { objects with objs := [(hBlob, pinnedBlob)], host := { objects.host with
  bindings := [(65536, ⟨hBlob, 0, 65536, 0xFF⟩)] } }
def pinCmd : TaskCmd := withCrc 0x13 { blank with target := BitVec.ofNat 64 hBlob }
def unpinCmd : TaskCmd := withCrc 0x13 { blank with target := BitVec.ofNat 64 hBlob, flags := 0x100 }
def policyCmd : TaskCmd := withCrc 0x14 { blank with target := BitVec.ofNat 64 hBlob, ops := 0x100000002 }
def mapCmd : TaskCmd := withCrc 0x12 { blank with target := BitVec.ofNat 64 hBlob, length := 65536 }
def unbindCmd : TaskCmd := withCrc 0x12 { blank with target := BitVec.ofNat 64 hBlob, flags := 0x100, ops := 65536 <<< 64 }
theorem test_PinPolicyAndMapAct_pin : Admitted objects 0x13 pinCmd pg0 ∧ opOf (.pin pinCmd) = some (0x13, pinCmd) ∧
    kget objects.objs pinCmd.target.toNat = some blob1 ∧ blob1.pinCount < 255 ∧
    pinAllowed (begun objects 0x13 pinCmd pg0) hBlob blob1 = true := ⟨admitted_of (by decide +kernel), by decide +kernel⟩
theorem test_PinPolicyAndMapAct_unpin : Admitted pinned 0x13 unpinCmd pg0 ∧ opOf (.unpin unpinCmd) = some (0x13, unpinCmd) ∧
    kget pinned.objs unpinCmd.target.toNat = some pinnedBlob ∧ 0 < pinnedBlob.pinCount :=
  ⟨admitted_of (by decide +kernel), by decide +kernel⟩
theorem test_PinPolicyAndMapAct_policy : Admitted objects 0x14 policyCmd pg0 ∧
    kget objects.objs policyCmd.target.toNat = some blob1 ∧ bitsAt policyCmd.ops.toNat 0 8 = 2 ∧
    bitsAt policyCmd.ops.toNat 8 8 ≤ 4 ∧ bitsAt policyCmd.ops.toNat 16 8 ≤ 1 ∧
    BitVec.ofNat 32 (bitsAt policyCmd.ops.toNat 32 32) ≠ blob1.readMask ∧
    (begun objects 0x14 policyCmd pg0).host.bindings = [] := ⟨admitted_of (by decide +kernel), by decide +kernel⟩
theorem test_PinPolicyAndMapAct_map : Admitted objects 0x12 mapCmd pg0 ∧ opOf (.map mapCmd) = some (0x12, mapCmd) ∧
    kget objects.objs mapCmd.target.toNat = some blob1 ∧ mapCmd.length.toNat = 65536 ∧ bitsAt mapCmd.ops.toNat 0 128 = 0 ∧
    blob1.extent = 65536 ∧ pinAllowed (begun objects 0x12 mapCmd pg0) hBlob blob1 = true ∧ allTxs objects = [] ∧
    (bindMap (begun objects 0x12 mapCmd pg0) 0 65536).isSome = true := ⟨admitted_of (by decide +kernel), by decide +kernel⟩
theorem test_PinPolicyAndMapAct_unbind : Admitted pinned 0x12 unbindCmd pg0 ∧
    opOf (.mapUnbind unbindCmd) = some (0x12, unbindCmd) ∧ kget pinned.objs unbindCmd.target.toNat = some pinnedBlob ∧
    (kget (begun pinned 0x12 unbindCmd pg0).host.bindings (bitsAt unbindCmd.ops.toNat 64 64)).map (·.handle) = some hBlob ∧
    0 < pinnedBlob.maps ∧ keysRise (begun pinned 0x12 unbindCmd pg0).host.bindings = true :=
  ⟨admitted_of (by decide +kernel), by decide +kernel⟩

/-! ## Transactions -/

/-- An open transaction of the PF's admin page; the state with it under local number 1, 1,000 s after reset. -/
def tx1 : Tx := { owner := .page 0 0xFF }
def withTx (x : Tx) : State := { objects with txs := [(1, x)], txHigh := 1, power := { objects.power with uptime := 1000000000 } }
def beginCmd : TaskCmd := withCrc 0x20 blank
def commitCmd : TaskCmd := withCrc 0x21 { blank with tx := 1 }
def abortCmd : TaskCmd := withCrc 0x22 { blank with tx := 1 }

theorem test_TransactionCommandsAct_begin : Admitted State.reset 0x20 beginCmd pg0 ∧ beginCmd.tx = 0 ∧
    State.reset.txs.length < 4096 ∧ nextLocal (begun State.reset 0x20 beginCmd pg0) 4097 State.reset.txHigh = some 1 :=
  ⟨admitted_of (by decide +kernel), by decide +kernel⟩
theorem test_TransactionCommandsAct_commit : Admitted (withTx tx1) 0x21 commitCmd pg0 ∧ commitCmd.tx.toNat % 4194304 ≠ 0 ∧
    coordOf commitCmd.tx.toNat = moduleId (withTx tx1) ∧ kget (withTx tx1).txs (localOf commitCmd.tx.toNat) = some tx1 ∧
    tx1.owner = .page 0 0xFF ∧ tx1.state = .open ∧ tx1.participants = [] ∧ tx1.units = [] ∧ tx1.recordSeq = none ∧
    (withTx tx1).flash.readOnly = false ∧ (withTx tx1).flash.courses = [] ∧ (withTx tx1).execs = [] ∧ tx1.reads = [] :=
  ⟨admitted_of (by decide +kernel), by decide +kernel⟩
theorem test_TransactionCommandsAct_abort : Admitted (withTx tx1) 0x22 abortCmd pg0 ∧ tx1.undo = [] ∧
    kget (withTx tx1).txs (localOf abortCmd.tx.toNat) = some tx1 ∧ keysRise (withTx tx1).txs = true :=
  ⟨admitted_of (by decide +kernel), by decide +kernel⟩

theorem test_TransactionTimersAct_idle : kget (withTx tx1).txs 1 = some tx1 ∧ tx1.state = .open ∧ od (withTx tx1) 0x3300 1 ≠ 0 ∧
    tx1.lastNamed + od (withTx tx1) 0x3300 1 * 1000 ≤ now (withTx tx1) := by decide +kernel
/-- A commit that waits for module 5's vote; one whose COMMIT is not acknowledged; one whose participant has acknowledged. -/
def txVote : Tx := { tx1 with state := .committing, preparedAt := some 999999000, participants := [{ module := 5 }] }
def txSent : Tx := { tx1 with state := .committed, participants := [{ module := 5, vote := some true }] }
def txAcked : Tx := { tx1 with state := .committed, participants := [{ module := 5, vote := some true, acked := true }] }
theorem test_TransactionTimersAct_prepare : let x := { txVote with preparedAt := some 0 }
    kget (withTx x).txs 1 = some x ∧ x.state = .committing ∧ x.recordSeq = none ∧
    x.participants.any (fun p => p.vote.isNone) = true ∧ 0 + od (withTx x) 0x4600 1 ≤ now (withTx x) := by decide +kernel
theorem test_TransactionTimersAct_acked : kget (withTx txAcked).txs 1 = some txAcked ∧ txAcked.state = .committed ∧
    txAcked.repeatAt + od (withTx txAcked) 0x4600 2 ≤ now (withTx txAcked) ∧ txAcked.participants.all (fun p => p.acked) = true := by
  decide +kernel
theorem test_TransactionTimersAct_repeat : kget (withTx txSent).txs 1 = some txSent ∧ txSent.state = .committed ∧
    txSent.repeatAt + od (withTx txSent) 0x4600 2 ≤ now (withTx txSent) ∧
    (txSent.participants.filter fun p => !p.acked).map (·.module) = [5] ∧
    txSent.commitAt + 100 * od (withTx txSent) 0x4600 2 ≤ now (withTx txSent) ∧ txSent.owner = .page 0 0xFF := by decide +kernel
/-- A prepared branch of module 5's transaction 7, and an open one of its transaction 8. -/
def tx57 : Nat := 5 * 4194304 + 7
def branches : State := { withTx tx1 with branches :=
  [(tx57, { owner := .coordinator 5 0, state := .prepared, preparedAt := some 0 }), (tx57 + 1, { owner := .coordinator 5 0 })] }
theorem test_TransactionTimersAct_query : ∃ x, kget branches.branches tx57 = some x ∧ x.state = .prepared ∧
    x.preparedAt.isSome = true ∧ x.repeatAt + od branches 0x4600 2 ≤ now branches := ⟨_, rfl, by decide +kernel⟩
theorem test_TransactionTimersAct_branch : ∃ x, kget branches.branches (tx57 + 1) = some x ∧ x.state ≠ .prepared ∧
    x.lastNamed + od branches 0x4600 3 * 1000 ≤ now branches := ⟨_, rfl, by decide +kernel⟩

theorem test_TwoPhaseCommitMessagesAct_source : coordOf tx57 = 5 := by decide
theorem test_TwoPhaseCommitMessagesAct_vote : coordOf 1 = moduleId (withTx txVote) ∧
    kget (withTx txVote).txs (localOf 1) = some txVote ∧ now (withTx txVote) ≤ 999999000 + od (withTx txVote) 0x4600 1 ∧
    txVote.state = .committing ∧ txVote.participants.any (fun p => p.module == 5 && p.vote.isNone) = true := by decide +kernel
theorem test_TwoPhaseCommitMessagesAct_ack :
    let x := { txSent with participants := txSent.participants ++ [{ module := 6 }] }
    kget (withTx x).txs (localOf 1) = some x ∧ x.state = .committed ∧
    (x.participants.any fun p => p.module ≠ 5 ∧ p.acked = false) = true := by decide +kernel
theorem test_TwoPhaseCommitMessagesAct_unknown : coordOf 2 = moduleId (withTx tx1) ∧ kget (withTx tx1).txs (localOf 2) = none ∧
    ((withTx tx1).outcomes.any fun o => o.loc == localOf 2) = false := by decide +kernel
theorem test_TwoPhaseCommitMessagesAct_commit :
    let x := { tx1 with state := .committing, recordSeq := some 1 }
    let s := { withTx x with power := { (withTx x).power with holdup := true } }
    kget s.txs 1 = some x ∧ canProgram s = true := by decide +kernel

/-! ## Jobs -/

/-- A program's handle, and its object: 64 KiB, sealed. -/
def hProg : Nat := mkHandle State.reset 6 3
def hJob : Nat := mkHandle State.reset 7 9
def cancelCmd : TaskCmd := withCrc 0x31 { blank with target := BitVec.ofNat 64 hJob }
/-- A job of one context at record 0, being secured. -/
def ctx0 : Ctx := { recIdx := 0, x := List.replicate 15 0, rpRec := 0, rpX := List.replicate 15 0 }
def jobArea1 : JobArea := ⟨hProg, 0, 0, 0, 0xFF, 0, 0, 0, 0, 0, 0, 0, 0, 0, 0, 0, 0⟩
def jobObj : Obj := { base := 0x500000000, length := 0, created := 9, owner := 0xFF, policy := 3, area := .job jobArea1 }
def secured : State := { objects with objs := objects.objs ++ [(hJob, jobObj)], jobs := [(hJob, { ctxs := [ctx0], securing := some 0 })] }
theorem test_JobsAreAdmittedAndCancelled_none : Admitted { secured with jobs := [] } 0x31 cancelCmd pg0 ∧
    homeOf cancelCmd.target.toNat = moduleId secured := ⟨admitted_of (by decide +kernel), by decide +kernel⟩
theorem test_JobsAreAdmittedAndCancelled_securing : Admitted secured 0x31 cancelCmd pg0 ∧
    kget secured.jobs cancelCmd.target.toNat = some { ctxs := [ctx0], securing := some 0 } :=
  ⟨admitted_of (by decide +kernel), by decide +kernel⟩

/-! ## Indexes and tables -/

/-- An index of 64-component int8 vectors, one partition, eight records at most; and a table of four rows of sixteen values. -/
def hIdx : Nat := mkHandle State.reset 5 4
def hTab : Nat := mkHandle State.reset 4 5
def indexArea1 : IndexArea := ⟨64, 3, 0, false, 1, 1, 8, 0, 0, 0, 0, 0⟩
def tableArea1 : TableArea := ⟨4, 16, 10, false, true, 0, 0, 0, 0, 0, 0, 65536, 131072, 0, 1, 0, 0⟩
def indexObj : Obj := { base := 0x600000000, length := 65536, created := 4, owner := 0xFF, policy := 1, area := .index indexArea1 }
def tableObj : Obj := { base := 0x700000000, length := 196608, created := 5, owner := 0xFF, policy := 2, area := .table tableArea1 }
/-- The host holds id 1 in its first 8 bytes. -/
def stores : State := { objects with objs := objects.objs ++ [(hTab, tableObj), (hIdx, indexObj)]
                                     host := { objects.host with mem := [(0, 1)] } }

def searchCmd : TaskCmd := withCrc 0x40 { blank with
  target := BitVec.ofNat 64 hIdx, length := BitVec.ofNat 64 (vectorBytes indexArea1 + 64)
  ops := BitVec.ofNat 128 (hBlob + 0x000100010001 * 18446744073709551616) }
theorem test_IndexCommandsAct_search :
    let f := (reqOf searchCmd pg0).fetch (begun stores 0x40 searchCmd pg0)
    Admitted stores 0x40 searchCmd pg0 ∧ bitsAt searchCmd.ops.toNat 64 48 = 0x000100010001 ∧
    homeOf searchCmd.target.toNat = moduleId stores ∧ numberOf (bitsAt searchCmd.ops.toNat 0 64) ≠ 0 ∧
    okType (typeOf (bitsAt searchCmd.ops.toNat 0 64)) = true ∧ indexArea1.sharded = false ∧
    indexArea (begun stores 0x40 searchCmd pg0) searchCmd.target.toNat = some indexArea1 ∧
    resultStatus (begun stores 0x40 searchCmd pg0) 0xFF (bitsAt searchCmd.ops.toNat 0 64) 80 = 0 ∧
    searchCmd.length.toNat = vectorBytes indexArea1 + 64 ∧
    ∃ b, f.1 = .ok b ∧ predicateOk (predicateOf indexArea1 b) = true ∧
    (kget (joinPass f.2 hIdx indexArea1.epoch [⟨.register 0, b, 1, 1, 1, hBlob, 0xFF⟩] (od f.2 0x3E00 2)).2.execs 0).isSome = true :=
  ⟨admitted_of (by decide +kernel), by decide +kernel, by decide +kernel, by decide +kernel, by decide +kernel, by decide +kernel,
   by decide +kernel, by decide +kernel, by decide +kernel, _, rfl, by decide +kernel⟩
def insertCmd : TaskCmd := withCrc 0x41 { blank with
  target := BitVec.ofNat 64 hIdx, length := BitVec.ofNat 64 (vectorBytes indexArea1 + 64), ops := 1 }
def insertBytesOf : List Byte := (1 : Byte) :: List.replicate (vectorBytes indexArea1 + 63) 0
theorem test_IndexCommandsAct_insert :
    let f := (reqOf insertCmd pg0).fetch (begun stores 0x41 insertCmd pg0)
    let rs := parseInserts indexArea1 1 insertBytesOf
    let g := changeIndex f.2 pg0.polder 0 hIdx (rs.map fun r => insertOf r f.2 hIdx indexArea1) (64 + vectorBytes indexArea1)
    Admitted stores 0x41 insertCmd pg0 ∧ bitsAt insertCmd.ops.toNat 0 32 = 1 ∧
    insertCmd.length.toNat = 1 * (64 + vectorBytes indexArea1) ∧ indexArea (begun stores 0x41 insertCmd pg0) hIdx = some indexArea1 ∧ f.1 = .ok insertBytesOf ∧
    (rs.any fun r => !okId r.1 || !(decide (r.2.1 < indexArea1.partitions) || r.2.1 == 0xFFFFFFFF || indexArea1.sharded) ||
      !r.2.2.2.2) = false ∧ hasRepeat (rs.map (·.1)) = false ∧ (f.2.idx hIdx).recs.length + 1 ≤ indexArea1.capacity ∧
    g.1 = .journal 2 ∧ (kget g.2.execs 0).isSome = true := ⟨admitted_of (by decide +kernel), by decide +kernel⟩
def deleteCmd : TaskCmd := withCrc 0x42 { blank with target := BitVec.ofNat 64 hIdx, length := 8, ops := 1 }
theorem test_IndexCommandsAct_delete :
    let f := (reqOf deleteCmd pg0).fetch (begun stores 0x42 deleteCmd pg0)
    let g := changeIndex f.2 pg0.polder 0 hIdx [.delete 1] 8
    Admitted stores 0x42 deleteCmd pg0 ∧ bitsAt deleteCmd.ops.toNat 0 32 = 1 ∧ f.1 = .ok [1, 0, 0, 0, 0, 0, 0, 0] ∧
    indexArea f.2 hIdx = some indexArea1 ∧ moduleId f.2 = moduleId stores ∧ okId 1 = true ∧ g.1 = .journal 2 ∧
    (kget g.2.execs 0).isSome = true := ⟨admitted_of (by decide +kernel), by decide +kernel⟩

/-- One row of additions: 8 + 16 × 4 bytes, rounded up to 80. -/
def updateCmd : TaskCmd := withCrc 0x51 { blank with target := BitVec.ofNat 64 hTab, length := 80, ops := 0x100000001 }
def updateBytes : List Byte := (1 : Byte) :: List.replicate 79 0
theorem test_TableCommandsAct_update :
    let f := (reqOf updateCmd pg0).fetch (begun stores 0x51 updateCmd pg0)
    let rows := parseUpdates tableArea1 1 updateBytes
    let g := addRows f.2 0 hTab 0 1 (rows.map fun x => (x.1, 0, x.2))
    Admitted stores 0x51 updateCmd pg0 ∧ bitsAt updateCmd.ops.toNat 0 96 = 0x100000001 ∧ f.1 = .ok updateBytes ∧
    homeOf hTab = moduleId f.2 ∧ tableArea f.2 hTab = some tableArea1 ∧
    updateCmd.length.toNat = roundUp (8 + tableArea1.dim * (elemBits tableArea1.updateFormat / 8)) 16 ∧
    rows.map (·.1) = [1] ∧ stepWindow f.2 tableArea1 1 = .ok ∧ (kget f.2.execs 0).map (·.carried) = some none ∧
    g.1 = .ok ∧ (kget (noteStep g.2 hTab 0 1).execs 0).isSome = true := ⟨admitted_of (by decide +kernel), by decide +kernel⟩
/-- LOOKUP of row 1, which no addition has touched, as FP32 to host address 4,096. -/
def lookupCmd : TaskCmd := withCrc 0x50 { blank with
  target := BitVec.ofNat 64 hTab, length := 8, ops := BitVec.ofNat 128 (4096 + 10 * 18446744073709551616) }
theorem test_TableCommandsAct_lookup :
    let f := (reqOf lookupCmd pg0).fetch (begun stores 0x50 lookupCmd pg0)
    let e := rowEntry f.2 tableObj 1
    let heated := heatUp f.2 hTab 1
    let freed := heated.modTbl hTab fun t => { t with readers := t.readers.filter fun r => r.1 != 0 }
    let r := readRows { freed with execs := kmod freed.execs 0 fun e => { e with answer := [] } } tableObj tableArea1 10 [some e]
    Admitted stores 0x50 lookupCmd pg0 ∧ bitsAt lookupCmd.ops.toNat 64 8 = 10 ∧ f.1 = .ok [1, 0, 0, 0, 0, 0, 0, 0] ∧
    homeOf hTab = moduleId f.2 ∧ kget f.2.objs hTab = some tableObj ∧ tableArea f.2 hTab = some tableArea1 ∧
    1 < tableArea1.rows ∧ groupsOf 4096 2 [1] = [[1]] ∧ entryPresent e = false ∧ onMedia heated [] = [] ∧ r.1 = some (List.replicate 64 0) ∧
    (deliver r.2 0 [(4096, 64)] (List.replicate 64 0)).1 = true ∧
    (kget (deliver r.2 0 [(4096, 64)] (List.replicate 64 0)).2.execs 0).isSome = true :=
  ⟨admitted_of (by decide +kernel), by decide +kernel⟩

/-! ## Administration and firmware -/

def powerCmd (b : BitVec 128) : TaskCmd := withCrc 0x102 { blank with ops := b }
/-- A board that the sense pins limit to PS2; one with a transition under way. -/
def limited : State := { State.reset with power := { State.reset.power with pins := ⟨false, false, true⟩ } }
def moving : State := { State.reset with power := { State.reset.power with target := some 3 } }
theorem test_AdminCommandsBegin_above : Admitted limited 0x102 (powerCmd 1) pg0 ∧
    bitsAt (powerCmd 1).ops.toNat 0 8 < admittedState limited.power.pins := ⟨admitted_of (by decide +kernel), by decide +kernel⟩
theorem test_AdminCommandsBegin_second : Admitted moving 0x102 (powerCmd 5) pg0 ∧ bitsAt (powerCmd 5).ops.toNat 0 8 = 5 ∧
    admittedState moving.power.pins ≤ 5 ∧ moving.power.target.isSome = true := ⟨admitted_of (by decide +kernel), by decide +kernel⟩
theorem test_AdminCommandsBegin_starts : Admitted State.reset 0x102 (powerCmd 5) pg0 ∧ State.reset.power.target = none ∧
    State.reset.jobs = [] ∧ ∀ k, (State.reset.core k).residents = [] :=
  ⟨admitted_of (by decide +kernel), rfl, rfl, fun _ => rfl⟩
def sanitizeCmd : TaskCmd := withCrc 0x103 blank
def sanitizing : State := { State.reset with power := { State.reset.power with sanitize := { pending := true, step := 1 } } }
theorem test_AdminCommandsBegin_sanitize : Admitted State.reset 0x103 sanitizeCmd pg0 ∧
    State.reset.power.sanitize.pending = false ∧ Admitted sanitizing 0x103 sanitizeCmd pg0 ∧ sanitizing.power.sanitize.pending = true :=
  ⟨admitted_of (by decide +kernel), rfl, admitted_of (by decide +kernel), rfl⟩
def scrubCmd : TaskCmd := withCrc 0x106 { blank with ops := 64 <<< 64 }
theorem test_AdminCommandsBegin_scrub : Admitted State.reset 0x106 scrubCmd pg0 ∧ bitsAt scrubCmd.ops.toNat 0 64 % 64 = 0 ∧
    bitsAt scrubCmd.ops.toNat 64 64 = 64 := ⟨admitted_of (by decide +kernel), by decide +kernel⟩

/-- An open staging session; a verified image in slot B. -/
def stagingState : State := { State.reset with sec := { State.reset.sec with session := true } }
def fwStageCmd : TaskCmd := withCrc 0x104 { blank with length := 4096 }
theorem test_FirmwareCommandsAct_stage :
    let f := (reqOf fwStageCmd pg0).fetch (begun stagingState 0x104 fwStageCmd pg0)
    Admitted stagingState 0x104 fwStageCmd pg0 ∧ fwStageCmd.length.toNat = 4096 ∧ fwStageCmd.flags.getLsbD 8 = false ∧
    (∃ b, f.1 = .ok b) ∧ f.2.sec = stagingState.sec ∧ f.2.power = stagingState.power ∧
    (kget f.2.execs 0).isSome = true ∧ stagingState.sec.active = false :=
  ⟨admitted_of (by decide +kernel), by decide +kernel, by decide +kernel, ⟨_, rfl⟩, rfl, rfl, by decide +kernel, rfl⟩
def verifiedState : State := { State.reset with sec := { State.reset.sec with slotB := { verified := true, usable := true } } }
def fwActivateCmd : TaskCmd := withCrc 0x105 blank
theorem test_FirmwareCommandsAct_activate : Admitted verifiedState 0x105 fwActivateCmd pg0 ∧ verifiedState.sec.active = false ∧
    bitsAt fwActivateCmd.ops.toNat 0 8 = 0 ∧ verifiedState.sec.slotB.verified = true ∧ verifiedState.sec.slotB.usable = true ∧
    verifiedState.sec.slotB.rejected = false := ⟨admitted_of (by decide +kernel), by decide +kernel⟩

/-! ## Management paths -/

theorem test_MailboxAndManagementAct_free : odUp State.reset = true ∧ BoxFree State.reset 0 ∧ BoxFree State.reset 63 ∧
    24 + 0 ≤ 24 ∧ 24 < 0 + 25 := ⟨rfl, ⟨rfl, rfl⟩, ⟨rfl, rfl⟩, by decide⟩
def busyBox : State := { State.reset with host := { State.reset.host with mailboxes := [(0, { control := 1 })] } }
theorem test_MailboxAndManagementAct_busy : odUp busyBox = true ∧ mailboxUp busyBox 0 = true ∧
    (boxOf busyBox 0).control.getLsbD 0 = true := by decide +kernel
/-- Remote accesses of the PF to module 5 under tags 1 and 2, and the end-to-end timeout over. -/
def remoteOd : State := { withTx tx1 with fabric := { State.reset.fabric with
  reqs := [(1, { owner := .mailbox .pf false, dest := 5, type := 11, sentAt := 0 }),
           (2, { owner := .mailbox .pf false, dest := 5, type := 11, sentAt := 1000000000 })] } }
theorem test_MailboxAndManagementAct_late : ∃ r, kget remoteOd.fabric.reqs 1 = some r ∧ r.owner = .mailbox .pf false ∧
    r.sentAt + od remoteOd 0x4400 1 ≤ remoteOd.power.uptime ∧
    (kdel remoteOd.fabric.reqs 1).any (fun e => e.2.dest == r.dest) = true := ⟨_, rfl, by decide +kernel⟩
theorem test_MailboxAndManagementAct_early : ∃ r, kget remoteOd.fabric.reqs 2 = some r ∧ r.owner = .mailbox .pf false ∧
    remoteOd.power.uptime < r.sentAt + od remoteOd 0x4400 1 := ⟨_, rfl, by decide +kernel⟩
def noAux : State := { State.reset with power := { State.reset.power with aux := false } }
theorem test_MailboxAndManagementAct_aux : State.reset.power.aux = true ∧ noAux.power.aux = false := ⟨rfl, rfl⟩

/-- Port 0 up. -/
def upPort : State := { State.reset with fabric := { State.reset.fabric with ports := [{ state := .up }, {}, {}, {}] } }
/-- The end-to-end timeout, by every kind of path. -/
def timeoutReq (path : OdPath) : OdReq := ⟨path, 0x4400, 1, none, 0, 4⟩
theorem test_DictionaryReadsAndWrites_entry : ∃ e, odEntry 0x4400 1 = some e ∧ e.size = 4 ∧ e.kind = .scalar ∧ e.access = .rw ∧
    e.lo ≤ 5000 ∧ 5000 ≤ e.hi ∧ isMeasured 0x4400 1 = false ∧ isOrder 0x4400 1 = false := ⟨_, rfl, by decide +kernel⟩
theorem test_DictionaryReadsAndWrites_paths : PathOpen upPort .pf true ∧ PathOpen upPort .pf false ∧ PathOpen upPort (.mctp 8) true ∧
    PathOpen upPort (.fabric 1023) true ∧ mailboxOf .pf = some 0 ∧ (upPort.port 0).state.carries = true ∧
    (upPort.port 0).state ≠ .upLow :=
  ⟨⟨rfl, rfl, rfl⟩, ⟨rfl, rfl, rfl⟩, ⟨rfl, rfl, fun _ => by decide +kernel⟩, ⟨rfl, fun _ => by decide +kernel⟩, by decide +kernel⟩
theorem test_DictionaryReadsAndWrites_mctp :
    (BitVec.ofNat 16 (Config.constValue (odKey 0x1000 2))).toNat = Config.constValue (odKey 0x1000 2) % 65536 := by simp
theorem test_DictionaryReadsAndWrites_write : viewAllows (writing upPort .pf 4) (viewOf (writing upPort .pf 4) .pf) true 0x4400 1 = true ∧
    viewAllows (opened upPort .pf false 0) (viewOf (opened upPort .pf false 0) .pf) false 0x4400 1 = true ∧
    ∀ tag, specialWrite (writing upPort .pf 4) .pf 0x4400 1 5000 tag = none := ⟨rfl, rfl, fun _ => rfl⟩

/-- The PF has selected page 5 and staged VF 3 and polder 0 for it, and group 7; polder 0 exists, with one core, no quota and no prefetch area. -/
def staging : State := { State.reset with od := { State.reset.od with
  vals := [(0x300001, 1), (0x300003, 0), (0x340003, 0)], paths := [(.pf, { selPage := 5, selGroup := 7, staged := [(0x300001, 1), (0x311002, 3), (0x311003, 0)] })] } }
theorem test_DictionaryOrdersAct_path : ModulePath .pf ∧ PathOpen staging .pf true := ⟨trivial, rfl, rfl, rfl⟩
theorem test_DictionaryOrdersAct_page : (pathSt staging .pf).selPage ≠ 0 ∧
    (staging.regs.any fun e => e.1 / 32 == (pathSt staging .pf).selPage && e.2.state != .idle) = false ∧
    staged staging .pf 0x3110 2 = some 3 ∧ staged staging .pf 0x3110 3 = some 0 ∧ polderDefined staging 0 = true := by decide +kernel
/-- A second polder wants the first one's core. -/
def greedy : State := { staging with od := { staging.od with paths := [(.pf, { staged := [(0x300101, 1)] })] } }
theorem test_DictionaryOrdersAct_polder : polderRefused (writing greedy .pf 1) .pf 1 = true ∧
    polderRefused (writing staging .pf 1) .pf 0 = false ∧
    ∀ k, k < 32 → coreOfPolder staging 0 k = true → (polderField (writing staging .pf 1) .pf 0 1).testBit k = true := by
  refine ⟨by decide +kernel, by decide +kernel, by decide +kernel⟩
theorem test_DictionaryOrdersAct_port : 3 < 4 ∧ (1 : Byte).toNat ≤ 1 ∧ od State.reset (0x4010 + 3) 5 = (1 : Byte).toNat := by
  decide +kernel
/-- Group 7 kept by this module, and by module 5. -/
def keeping (m : Nat) : State := { staging with fabric := { staging.fabric with
  groups := [(7, { keeper := m, epoch := 1, members := [(0, 0, none)] })] } }
theorem test_DictionaryOrdersAct_group : (∃ g, kget (keeping 0).fabric.groups (pathSt (keeping 0) .pf).selGroup = some g ∧
    g.keeper = moduleId (keeping 0)) ∧ ∃ g, kget (keeping 5).fabric.groups (pathSt (keeping 5) .pf).selGroup = some g ∧
    g.keeper ≠ moduleId (keeping 5) := ⟨⟨_, rfl, by decide +kernel⟩, _, rfl, by decide +kernel⟩
theorem test_DictionaryOrdersAct_job : (kget secured.jobs (BitVec.ofNat 64 hJob).toNat).isSome = true ∧
    kget staging.jobs (0 : U64).toNat = none ∧ staging.flash.courses = [] ∧ staging.od.modes = [] ∧
    (boxOf staging 0).bgOp = false := by decide +kernel

/-- The PF holds a nonce; it holds maintenance mode, with a prepared branch in doubt; VF 1 holds it. -/
def nonced : State := { State.reset with od := { State.reset.od with paths := [(.pf, { nonce := some [1] })] } }
def maintained (path : OdPath) : State := { branches with od := { branches.od with maint := some path, vals := [(0x250001, 4096)] } }
theorem test_MaintenanceCommandsAct_entry : PathOpen nonced .pf true ∧ (List.replicate 384 (0 : Byte)).length = 384 ∧
    nonced.od.maint = none ∧ (pathSt nonced .pf).nonce = some [1] := ⟨⟨rfl, rfl, rfl⟩, by decide +kernel⟩
theorem test_MaintenanceCommandsAct_other : PathOpen (maintained (.mctp 8)) .pf true ∧
    (maintained (.mctp 8)).od.maint = some (.mctp 8) ∧ OdPath.mctp 8 ≠ .pf ∧ (List.replicate 388 (0 : Byte)).length = 388 :=
  ⟨⟨rfl, rfl, rfl⟩, by decide +kernel⟩
theorem test_MaintenanceCommandsAct_doubt : PathOpen (maintained .pf) .pf true ∧ (maintained .pf).od.maint = some .pf ∧
    (kget (maintained .pf).branches tx57).map (·.state) = some .prepared ∧ tx57 < 4294967296 := ⟨⟨rfl, rfl, rfl⟩, by decide +kernel⟩
theorem test_MaintenanceCommandsAct_raw : 16415 + 1 ≤ 16416 ∧ 1 ≤ pathLimit .pf ∧
    (kget (maintained .pf).flash.dies (ppaDie (od (maintained .pf) 0x2500 1))).any
      (fun d => d.erase && d.target == ppaBlock (od (maintained .pf) 0x2500 1)) = false := by decide +kernel

/-! ## Fabric: requests -/

/-- A four-module ring in which this module is 0; module 1 on port 0, module 3 on port 1, both up. Group 7 has all of it. -/
def ring4 : State := { objects with
  objs := [(hBlob, { blob1 with exported := true, exportGroup := 7, readMask := 0xFFFFFFFF, writeMask := 0xFFFFFFFF })]
  power := { objects.power with uptime := 1000000000 }
  fabric := { objects.fabric with
    kind := 1, sizeX := 4, sizeY := 1
    ports := [{ state := .up, signal := true, lit := true, lanes := 0xFF, peer := 1, peerPort := 1 },
              { state := .up, signal := true, lit := true, lanes := 0xFF, peer := 3, peerPort := 0, emitter := 1 },
              { emitter := 2 }, { emitter := 3 }]
    groups := [(7, { keeper := 3, epoch := 1, members := [(0, 0, none), (1, 1, none), (3, 2, none)] })] } }
/-- A request of module 1 for the BLOB's first eight bytes. -/
def request (type : Nat) (payload : List Byte) : Packet := { blankPacket with
  type := type, dest := 0, src := 1, length := 8, tag := 4, addr := 0x100000000, polder := 0, group := 7, payload := payload }

theorem test_RequestsActOrAreRefused_served :
    let q := request 1 []
    let r := serveRequest (arrived ring4 q) q
    Quiet ring4 ∧ InTurn ring4 q ∧ r.1 = .answer 0 (List.replicate 8 0) ∧ r.2.fabric.heldReqs = [q] :=
  ⟨⟨rfl, rfl, rfl⟩, ⟨rfl, rfl⟩, by decide +kernel⟩
theorem test_RequestsActOrAreRefused_served_branch : let p := { request 2 [1] with tx := 4194305 }
    Quiet ring4 ∧ InTurn ring4 p ∧ 1 ≤ p.type ∧ p.type ≤ 6 ∧ p.tx.toNat % 4194304 ≠ 0 ∧
    (∃ st b, (serveRequest (arrived ring4 p) p).1 = .answer st b) ∧ (serveRequest (arrived ring4 p) p).2.fabric.heldReqs = [p] :=
  ⟨⟨rfl, rfl, rfl⟩, ⟨rfl, rfl⟩, by decide +kernel, by decide +kernel, by decide +kernel, ⟨_, _, rfl⟩, by decide +kernel⟩
theorem test_RequestsActOrAreRefused_served_foreign : ({ request 1 [] with dest := 2 } : Packet).dest ≠ moduleId ring4 := by decide +kernel

/-- A payload read of the BLOB's first eight bytes for module 1. -/
def blobRead (v : State) : ReadEnd × State :=
  readPayload (usedPages (touchHeat v hBlob 0x100000000 8 (whoPeer 1)) (.peer 1) (flashPages v 0x100000000 8)) 0x100000000 8 0
theorem test_RequestsActOrAreRefused_read : let p := request 1 []; let v := arrived ring4 p
    Requests (.remoteRead p) p 1 ∧ Quiet ring4 ∧ InTurn ring4 p ∧ Enters v p 0 v ∧
    (∃ o, requestObject ring4 p = some (hBlob, o) ∧ requestRight ring4 p o = true ∧ requestStatus p hBlob o = 0 ∧ o.base = 0x100000000) ∧
    missingPages v (.peer 1) (flashPages v 0x100000000 8) = [] ∧ ∃ m, (blobRead v).1 = .ok m :=
  ⟨.inl (by decide +kernel), ⟨rfl, rfl, rfl⟩, ⟨rfl, rfl⟩, .inl ⟨by decide +kernel, rfl, rfl⟩, ⟨_, rfl, by decide +kernel⟩,
   by decide +kernel, [], by decide +kernel⟩
theorem test_RequestsActOrAreRefused_write : let p := request 2 [1]; let v := arrived ring4 p
    Requests (.remoteWrite p) p 2 ∧ InTurn ring4 p ∧ Enters v p 0 v ∧
    (∃ o, requestObject ring4 p = some (hBlob, o) ∧ requestRight ring4 p o = true ∧ requestStatus p hBlob o = 0) ∧
    (storeAt v 0 hBlob 0 [1] (whoPeer 1)).1 = .ok :=
  ⟨.inl (by decide +kernel), ⟨rfl, rfl⟩, .inl ⟨by decide +kernel, rfl, rfl⟩, ⟨_, rfl, by decide +kernel⟩, by decide +kernel⟩
/-- An action of a branch of module 1's transaction 1. -/
theorem test_RequestsActOrAreRefused_branch : let p := { request 2 [1] with tx := 4194305 }; let v := arrived ring4 p
    Requests (.branchAction p) p 2 ∧ InTurn ring4 p ∧ ∃ t, Enters v p 4194305 t ∧
    (storeAt t 4194305 hBlob 0 [1] (whoPeer 1)).1 = .ok :=
  ⟨.inr ⟨rfl, rfl, by decide +kernel⟩, ⟨rfl, rfl⟩, _, .inr ⟨by decide +kernel, rfl, by decide +kernel, rfl, _, rfl, by decide +kernel⟩,
   by decide +kernel⟩
theorem test_RequestsActOrAreRefused_atomics : let p := request 5 (toLE 8 0 ++ toLE 8 9); let v := arrived ring4 p
    let w := meetLines v 0x100000000 8; let u := blobRead w.2
    (∃ o, requestObject ring4 p = some (hBlob, o) ∧ requestRight ring4 p o = true ∧ requestStatus p hBlob o = 0) ∧
    requestSize p = 8 ∧ w.1 = .free ∧ missingPages w.2 (.peer 1) (flashPages w.2 0x100000000 8) = [] ∧ u.1 = .ok [] ∧
    leNat (mread [] 0 8) = fieldAt p.payload 0 8 ∧ leNat (mread [] 0 8) ≠ fieldAt (request 5 (toLE 8 1 ++ toLE 8 9)).payload 0 8 ∧
    (storeAt u.2 0 hBlob 0 (toLE 8 9) (whoPeer 1)).1 = .ok := ⟨⟨_, rfl, by decide +kernel⟩, by decide +kernel⟩
/-- ROW_ADD of two FP32 values to a TENSOR in the BLOB's place, FETCH_ADD64 and SWAP64. -/
def hTensor : Nat := mkHandle State.reset 3 6
def tensorHome : State := { ring4 with objs := [(hTensor, { blob1 with
  exported := true, exportGroup := 7, writeMask := 1, area := .tensor ⟨10, 2, 0, 0, [2, 1], 0, 0, 0⟩ })] }
theorem test_RequestsActOrAreRefused_sums : let r := request 3 (List.replicate 8 0); let v := arrived tensorHome r
    let w := meetLines v 0x100000000 8
    let u := readPayload (usedPages (touchHeat w.2 hTensor 0x100000000 8 (whoPeer 1)) (.peer 1) (flashPages w.2 0x100000000 8)) 0x100000000 8 0
    ∃ o, requestObject tensorHome r = some (hTensor, o) ∧ requestRight tensorHome r o = true ∧ requestStatus r hTensor o = 0 ∧
    requestStatus (request 4 (toLE 8 1)) hTensor o = 0 ∧ requestStatus (request 6 (toLE 8 1)) hTensor o = 0 ∧ w.1 = .free ∧ missingPages w.2 (.peer 1) (flashPages w.2 0x100000000 8) = [] ∧
    requestSize r = 8 ∧ u.1 = .ok [] ∧
    (storeAt u.2 0 hTensor 0 (sumRow (rowAddFormat hTensor o) (mread [] 0 8) (groupsOf 8 8 r.payload)) (whoPeer 1)).1 = .ok :=
  ⟨_, rfl, by decide +kernel⟩
theorem test_RequestsActOrAreRefused_none :
    requestObject ring4 { request 1 [] with addr := 0x900000000 } = none ∧
    ∃ o, requestObject ring4 { request 1 [] with group := 8 } = some (hBlob, o) ∧
      requestRight ring4 { request 1 [] with group := 8 } o = false := ⟨by decide +kernel, _, rfl, by decide +kernel⟩

/-- A WRITE of register 0 whose one piece module 1 has under tag 4, sent at once or just now. -/
def remoteWriting (at' : Nat) (fua : BitVec 16 := 0) : State :=
  let c : TaskCmd := { blank with length := 8, flags := fua, target := BitVec.ofNat 64 (mkHandle ring4 2 5 + 18014398509481984) }
  let s := withExec ring4 2 c (.remote [(4, 8)] 0)
  { s with fabric := { s.fabric with reqs := [(4, { owner := .register 0 0, dest := 1, type := 2, sentAt := at', length := 8 })] } }
theorem test_RemoteCommandsEnd_response : ∃ r e, kget (remoteWriting 0).fabric.reqs 4 = some r ∧ r.dest = 1 ∧
    moduleId (remoteWriting 0) = 0 ∧ r.owner = .register 0 0 ∧ r.type = 2 ∧ kget (remoteWriting 0).execs 0 = some e ∧
    e.wait = .remote [(4, 8)] 0 ∧ e.opcode = 2 ∧ e.cmd.tx = 0 ∧ e.cmd.flags.getLsbD 0 = false ∧
    (kget (remoteWriting 0 1).execs 0).map (·.cmd.flags.getLsbD 0) = some true ∧ (remoteWriting 0).fabric.waiting = [] ∧
    r.sentAt + od (remoteWriting 0) 0x4400 1 ≤ now (remoteWriting 0) := ⟨_, _, rfl, rfl, rfl, rfl, rfl, rfl, by decide +kernel⟩
theorem test_RemoteCommandsEnd_early : ∃ r, kget (remoteWriting 1000000000).fabric.reqs 4 = some r ∧
    now (remoteWriting 1000000000) < r.sentAt + od (remoteWriting 1000000000) 0x4400 1 := ⟨_, rfl, by decide +kernel⟩
/-- A command that module 1 carries here for the BLOB: one that has no home effect, and a SEARCH-class one (FLUSH). -/
def carriedCmd (op : Nat) : Carried := ⟨1, op, 6, 0, 7, hBlob, 0, 8, 0, 0, []⟩
theorem test_RemoteCommandsEnd_carried : carriedOk ring4 (carriedCmd 0x13) = true ∧ Quiet ring4 ∧
    [0x1, 0x2, 0x3, 0x4, 0x30, 0x31, 0x40, 0x41, 0x42, 0x50, 0x51, scanCode, rerankCode].contains (carriedCmd 0x13).opcode = false ∧
    carriedOk ring4 (carriedCmd 0x3) = true ∧ [0x3, 0x4, 0x31, 0x40, 0x41, 0x42, 0x50, 0x51].contains (carriedCmd 0x3).opcode = true ∧
    (carriedCmd 0x3).tx % 4194304 = 0 := ⟨by decide +kernel, ⟨rfl, rfl, rfl⟩, by decide +kernel⟩

/-! ## Groups -/

def withFab (f : Fabric → Fabric) : State := ring4.modFab f
theorem test_GroupMembershipActs_claim : ring4.power.restarting = false ∧ (ring4.fabric.claims.any fun c => c.number == 9) = false ∧
    kget ring4.fabric.groups 9 = none ∧ (kget ring4.fabric.groups 7).map (·.keeper) = some 3 ∧ ring4.fabric.claims = [] ∧
    ring4.fabric.colls = [] := by decide +kernel
/-- The same ring without a directory; the entry of a group kept by module 2, which no route reaches once port 0 is down. -/
def lonely : State := withFab fun f => { f with groups := [], ports := [{}, f.ports.getD 1 {}, {}, {}], sizeX := 2 }
theorem test_GroupMembershipActs_directory : ∃ e : GroupEntry, lonely.power.restarting = false ∧ (lonely.port 1).state.carries = true ∧ lonely.fabric.groups = [] ∧
    e.keeper ≠ moduleId lonely ∧ reaches lonely e.keeper = false := ⟨⟨3, 700, 1, []⟩, by decide +kernel⟩
theorem test_GroupMembershipActs_member :
    let s := withFab fun f => { f with groups := f.groups.map fun e => (e.1, { e.2 with held := true, started := 2 }) }
    ∃ g, s.power.restarting = false ∧ kget s.fabric.groups 7 = some g ∧ g.keeper = 3 ∧ 3 ≠ moduleId s ∧ isMember g.members (moduleId s) = true ∧
      g.held = true ∧ 2 ≤ g.started ∧ g.epoch < 2 ∧ s.fabric.colls = [] := ⟨_, rfl, rfl, by decide +kernel⟩
/-- The runtime restarts; messages of group 7 that arrive are held. -/
def restarting : State := { ring4 with power := { ring4.power with restarting := true } }
def heldThen (c : Instr) : Bool := match exec c restarting with | .next t => t.fabric.heldMsgs == [c] | _ => false
theorem test_GroupMembershipActs_held : restarting.power.restarting = true ∧ heldThen (.groupHold 3 7 1) = true ∧
    heldThen (.groupRelease 3 7) = true ∧ heldThen (.directoryExchange 3 []) = true ∧ heldThen (.groupInstall 3 ⟨7, 3, 2, []⟩) = true := by
  decide +kernel
/-- Group 7 kept here, with a change under way that waits for two members. -/
def changing (step : ChangeStep) (req : MemberReq) (waiting : List Nat) (members : List (Nat × Nat × Option Nat)) : State :=
  withFab fun f => { f with
    groups := [(7, { keeper := 0, epoch := 1, members := members })]
    changes := [{ number := 7, req := req, path := none, running := true, step := step, waiting := waiting }] }
theorem test_GroupMembershipActs_reply : let s := changing .drain (.add 2 3) [1, 3] [(0, 0, none), (1, 1, none), (3, 2, none)]
    ∃ c g, s.power.restarting = false ∧ s.fabric.changes = [c] ∧ c.number = 7 ∧ c.running = true ∧ kget s.fabric.groups 7 = some g ∧ c.waiting = [1, 3] ∧
      c.step ≠ .hold := ⟨_, _, rfl, rfl, rfl, rfl, rfl, by decide +kernel⟩
theorem test_GroupMembershipActs_silent : let s := changing .drain (.remove 3) [3, 1] [(0, 0, none), (1, 1, none), (3, 2, none)]
    ∃ c, s.fabric.changes = [c] ∧ c.step = .drain ∧ c.waiting = [3, 1] ∧ c.req = .remove 3 ∧ c.since + 100000 ≤ s.power.uptime :=
  ⟨_, rfl, by decide +kernel⟩
theorem test_GroupMembershipActs_givenUp : let s := changing .hold (.add 2 3) [1] [(0, 0, none)]
    ∃ c g, s.fabric.changes = [c] ∧ kget s.fabric.groups 7 = some g ∧ c.step = .hold ∧ c.waiting = [1] ∧ c.req ≠ .remove 1 ∧
      c.since + 100000 ≤ s.power.uptime ∧ c.path = none ∧ (∀ e ∈ g.members, e.1 = moduleId s) := ⟨_, _, rfl, rfl, by decide +kernel⟩
theorem test_GroupMembershipActs_install : let s := changing .install (.add 2 3) [1] [(0, 0, none), (1, 1, none)]
    ∃ c, s.fabric.changes = [c] ∧ c.step = .install ∧ c.waiting = [1] ∧ reaches s 1 = true ∧ c.since + 100000 ≤ s.power.uptime :=
  ⟨_, rfl, by decide +kernel⟩
/-- An AUTO group kept here whose member 700 no route reaches. -/
def failing : State :=
  let s := withFab fun f => { f with
    groups := [(7, { keeper := 0, epoch := 1, members := [(0, 0, none), (700, 1, none)] })], lost := [(7 * 1024 + 700, 0)] }
  { s with objs := s.objs ++ [(mkHandle s 8 6, { base := 0x800000000, length := 65536, created := 6, owner := 0xFF, policy := 1,
                                                 area := .group ⟨7, true, false, 2, 1, 5, 0⟩ })] }
theorem test_GroupMembershipActs_failure : ∃ h a g, keptGroup failing 7 = some (h, a) ∧ kget failing.fabric.groups 7 = some g ∧
    kget failing.fabric.lost (7 * 1024 + 700) = some 0 ∧ a.auto = true ∧ isMember g.members 700 = true ∧ 700 ≠ g.keeper ∧
    reaches failing 700 = false ∧ 0 + a.failTimeout * 1000 ≤ failing.power.uptime ∧ failing.fabric.changes = [] :=
  ⟨_, _, _, rfl, rfl, by decide +kernel⟩
def part1 : CollPart := ⟨7, 1, 5, 1, 0, 10, 0, 4, 0, [0, 0, 0, 0]⟩
theorem test_GroupWorkArrives_part : ∃ g, kget ring4.fabric.groups part1.group = some g ∧ g.epoch = part1.epoch ∧
    (g.members.any fun m => m.2.1 == part1.member) = true ∧ isMember g.members (moduleId ring4) = true ∧
    (ring4.fabric.colls.any fun c => c.group == part1.group && c.number == part1.number) = false ∧
    g.epoch ≠ ({ part1 with epoch := 2 } : CollPart).epoch := ⟨_, rfl, by decide +kernel⟩
theorem test_GroupWorkArrives_refused : polderDefined ring4 5 = false := by decide +kernel

/-! ## Ports -/

def flit0 : Flit := ⟨0, 0, false, false, 0, 0, [], true, 0, 0⟩
theorem test_FlitsAreCheckedInOrder_flit : (ring4.port 1).state.carries = true ∧
    ({ flit0 with intact := false } : Flit).intact = false ∧ flit0.intact = true ∧ flit0.badWords = 0 ∧ flit0.idle = false ∧
    (flit0.seq + 65536 - (ring4.port 1).rxSeq) % 65536 = 0 ∧ (32767 + 65536 - (ring4.port 1).rxSeq) % 65536 < 32768 ∧
    32768 ≤ (65535 + 65536 - (ring4.port 1).rxSeq) % 65536 ∧ flit0.nak = false ∧ (ring4.port 1).egress = [] := by decide +kernel
theorem test_FlitsAreCheckedInOrder_timer :
    let s := withFab fun f => { f with ports := [{ state := .up, replay := [(0, 0, [])] }, {}, {}, {}] }
    ((s.port 0).replay.any fun r => decide (r.2.1 + od s 0x4400 2 ≤ s.power.uptime)) = true ∧
    ((ring4.port 0).replay.any fun r => decide (r.2.1 + od ring4 0x4400 2 ≤ ring4.power.uptime)) = false := by decide +kernel

/-- The ring with one port 0 as given. -/
def port0 (p : Port) : State := withFab fun f => { f with ports := [p, f.ports.getD 1 {}, { emitter := 2 }, { emitter := 3 }] }
theorem test_PortsAndPacketsAct_failed : let s := port0 { state := .failed }
    (s.port 0).state = .failed ∧ (s.port 0).failedAt + 1000 ≤ s.power.uptime ∧ portWanted s 0 = true := by decide +kernel
def training0 : State := port0 { state := .training }
def peer1 : PeerIdent := ⟨0xFF, BitVec.ofNat 64 (od ring4 0x4000 2), 1, 1⟩
theorem test_PortsAndPacketsAct_training : (training0.port 0).state = .training ∧
    (training0.port 0).trainAt + 100000 ≤ training0.power.uptime ∧ portWanted training0 0 = true ∧ lanesUp 0xEE = 0 ∧
    lanesUp peer1.lanes ≠ 0 ∧ peer1.fabricId.toNat = od training0 0x4000 2 ∧ peer1.module ≠ moduleId training0 ∧
    ({ peer1 with module := 0 } : PeerIdent).module = moduleId training0 ∧ training0.fabric.kind ≠ 5 ∧ training0.power.ps ≠ 4 ∧
    neighbour training0 (moduleId training0) 0 = some peer1.module ∧ peer1.port = meets 0 ∧
    neighbour training0 (moduleId training0) 0 ≠ some 2 := by decide +kernel
def dark0 : State := port0 { lit := true }
theorem test_PortsAndPacketsAct_signal : (ring4.port 0).signal = true ∧ (dark0.port 0).signal = false ∧ (dark0.port 0).state = .down ∧
    portWanted (dark0.modPort 0 fun t => { t with signal := true }) 0 = true ∧ (dark0.port 0).lit = true ∧
    (dark0.port 0).dark0 + 1000000 < dark0.power.uptime ∧ (ring4.port 2).signal = false ∧
    portWanted (ring4.modPort 2 fun t => { t with signal := true }) 2 = false := by decide +kernel
theorem test_PortsAndPacketsAct_emitter : ring4.fabric.badEmitters.contains 0 = false ∧
    findFirst (fun k => (ring4.port k).emitter == 0) [0, 1, 2, 3] = some 0 ∧
    ((withFab fun f => { f with badEmitters := [4] }).fabric.badEmitters ++ [0]).contains 4 = true ∧
    (ring4.fabric.badEmitters ++ [0]).contains 4 = false ∧ (ring4.fabric.ports.any fun t => t.emitter == 4) = false ∧
    (ring4.port 0).state ≠ .down ∧ (ring4.port 0).state = .up ∧ 0 < ring4.fabric.ports.length := by decide +kernel
theorem test_PortsAndPacketsAct_flood : let s := withFab fun f => { f with groups := [] }
    3 ≠ moduleId s ∧ kget s.fabric.links (3 * 4 + 1) = none ∧ 0 < 1 ∧ s.fabric.colls = [] ∧ s.fabric.reqs = [] := by decide +kernel
theorem test_PortsAndPacketsAct_transit :
    let p : Packet := { blankPacket with type := 1, dest := 3, src := 1 }
    p.dest ≠ moduleId ring4 ∧ (ring4.port 0).state.carries = true ∧ od ring4 0x4000 6 ≤ 64 ∧ p.tclass = 0 ∧
    p.hops < od ring4 0x4000 6 ∧ (egressOf ring4 p (some 0)).map (·.1) = some 1 ∧ (ring4.port 1).state.carries = true ∧
    egressOf (withFab fun f => { f with kind := 5 }) { p with dest := 700 } (some 0) = none := by decide +kernel

/-! ## The host link and its window -/

theorem test_HostLinkEventsAct_link : State.reset.host.link ≠ .down ∧ cxlUp State.reset = true ∧ State.reset.host.ide = true := by
  decide +kernel
theorem test_HostLinkEventsAct_rekey : let s := { State.reset with sec := { State.reset.sec with sessions := [(true, true)] } }
    cxlUp s = true ∧ s.sec.sessions.contains (true, true) = true := by decide +kernel
theorem test_HostLinkEventsAct_dma : let s := withExec State.reset 1 blank (.reads [5])
    ∃ e, kget s.execs 0 = some e ∧ e.silent = false ∧ e.carried = none ∧ e.wait.transfers = true ∧ s.dram.scrubbing ≠ some 0 :=
  ⟨_, rfl, by decide +kernel⟩
def sleeping : State := { State.reset with
  host := { State.reset.host with aspmL1 := true }, power := { State.reset.power with ps := 5, uptime := 10000 } }
theorem test_HostLinkEventsAct_sleep : sleeping.power.ps = 5 ∧ sleeping.host.aspmL1 = true ∧ sleeping.host.link = .l0 ∧
    sleeping.power.odAt + 10000 ≤ sleeping.power.uptime ∧ State.reset.power.ps ≠ 5 := by decide +kernel

/-- The BLOB bound at window offset 65,536, the window at host address 0 and the DRAM parcel as given. -/
def window (p : List (Nat × Parcel)) (o : Obj) : State := { pinned with
  objs := [(hBlob, o)], parcels := p, host := { pinned.host with hdm := some 0 } }
def inDramParcel : Parcel := { state := .dramClean, obj := hBlob }
def windowDram : State := window [(0x10000, inDramParcel)] pinnedBlob
def windowFlash : State := window [(0x10000, { inDramParcel with state := .flash })] pinnedBlob
theorem test_HostAccessesTheWindow_unbound : memUp windowDram = true ∧ 0 < 64 ∧ 0 % 64 + 64 ≤ 64 ∧ boundAt windowDram 0 = none ∧
    windowDram.host.heldWrites = [] := by decide +kernel
theorem test_HostAccessesTheWindow_flash : boundAt windowFlash 65536 = some (hBlob, pinnedBlob, 0) ∧
    outOfDram windowFlash ((pinnedBlob.base + 0) / 65536) = true ∧ pinnedBlob.readOnly = false ∧ memUp windowFlash = true := by decide +kernel
theorem test_HostAccessesTheWindow_unbacked : boundAt (window [] pinnedBlob) 131071 = some (hBlob, pinnedBlob, 65535) ∧
    131071 % 64 + 1 ≤ 64 ∧ parcelState (window [] pinnedBlob) ((pinnedBlob.base + 65535) / 65536) = .unbacked ∧
    memUp (window [] pinnedBlob) = true := by decide +kernel
theorem test_HostAccessesTheWindow_dram : memUp windowDram = true ∧ boundAt windowDram 65536 = some (hBlob, pinnedBlob, 0) ∧
    (parcelState windowDram 0x10000).inDram = true ∧ outOfDram windowDram 0x10000 = false ∧
    windowDram.dram.poison.contains 0x4000000 = false ∧ kget windowDram.dram.damage 0x4000000 = none ∧
    undoCopy windowDram 0x4000000 0 = none ∧ 0 + 64 ≤ pinnedBlob.length ∧ 0 % 64 + 64 ≤ 64 ∧ pinnedBlob.base % 64 = 0 ∧
    pinnedBlob.base / 64 = 0x4000000 := by decide +kernel
def windowPoison : State := windowDram.modDram fun d => { d with poison := [0x4000000] }
theorem test_HostAccessesTheWindow_poison : memUp windowPoison = true ∧ boundAt windowPoison 65536 = some (hBlob, pinnedBlob, 0) ∧
    (parcelState windowPoison 0x10000).inDram = true ∧ outOfDram windowPoison 0x10000 = false ∧
    windowPoison.dram.poison.contains 0x4000000 = true := by decide +kernel
theorem test_HostAccessesTheWindow_readOnly : let o := { pinnedBlob with readOnly := true }
    boundAt (window [] o) 65536 = some (hBlob, o, 0) ∧ o.readOnly = true := by decide +kernel
theorem test_HostAccessesTheWindow_write : pinnedBlob.readOnly = false ∧
    (storeRaw ((wake windowDram).modHost fun g => { g with heldWrites := [(65536, [1])] }) hBlob 0 [1] whoHost).1 = .ok := by
  decide +kernel

/-! ## The DRAM tier -/

theorem test_DramEventsAct_repair : windowPoison.dram.poison.contains 0x4000000 = true ∧ repairable windowPoison 0x4000000 = true ∧
    parcelFlash windowPoison (0x4000000 / 1024) = some [] ∧ windowDram.dram.poison.contains 0x4000000 = false := by decide +kernel
/-- A merge entry of line 0x4000000, of one byte or full, aged by `t` microseconds. -/
def merging (n t : Nat) : State := (windowDram.modDram fun d => { d with
  merge := [⟨0x4000000, (List.range n).map fun i => (i, 7), 0⟩] }).modPower fun p => { p with uptime := t }
theorem test_DramEventsAct_full : ∃ m, findFirst (fun e => e.line == 0x4000000) (merging 64 1).dram.merge = some m ∧
    m.since + 1 ≤ (merging 64 1).power.uptime ∧ 64 ≤ m.bytes.length := ⟨_, rfl, by decide +kernel⟩
theorem test_DramEventsAct_part : ∃ m, findFirst (fun e => e.line == 0x4000000) (merging 1 1).dram.merge = some m ∧
    m.since + 1 ≤ (merging 1 1).power.uptime ∧ m.bytes.length < 64 ∧ (merging 1 1).dram.poison.contains 0x4000000 = false ∧
    kget (merging 1 1).dram.damage 0x4000000 = none ∧ (merging 1 0).power.uptime < m.since + 1 := ⟨_, rfl, by decide +kernel⟩
def retiring : State := windowDram.modDram fun d => { d with retireQ := [0x10000], nextFrame := 1 }
theorem test_DramEventsAct_frame : let s := { retiring with objs := [] }
    s.dram.retireQ.contains 0x10000 = true ∧ ownerOfAddr s (0x10000 * 65536) = none ∧ kget s.parcels 0x10000 = some inDramParcel ∧
    inDramParcel.state.inDram = true ∧ s.dram.retired.length < 4096 ∧ s.dram.freeFrames = [] ∧ s.dram.damage = [] ∧
    windowDram.dram.retireQ.contains 0x10000 = false := by decide +kernel
theorem test_DramEventsAct_refresh : (1 : Byte) ≠ 0 ∧ windowDram.dram.poison.contains 0x4000000 = false ∧
    (parcelState windowDram (0x4000000 / 1024)).inDram = true := by decide +kernel

def damaged : State := windowDram.modDram fun d => { d with damage := [(0x4000000, [(67, 255)])] }
theorem test_OneDamagedSymbolIsCorrected : memUp damaged = true ∧ boundAt damaged 65536 = some (hBlob, pinnedBlob, 0) ∧
    pinnedBlob.base % 64 = 0 ∧ 67 < 68 ∧ (255 : Byte) ≠ 0 ∧ (parcelState damaged 0x10000).inDram = true ∧
    outOfDram damaged 0x10000 = false ∧ damaged.dram.poison.contains 0x4000000 = false ∧
    kget damaged.dram.damage 0x4000000 = some [(67, 255)] ∧ undoCopy damaged 0x4000000 0 = none := by decide +kernel

/-- The flash quadrants parked (PS4). -/
def parked : State := State.reset.modFlash fun f => { f with parked := true }
def boundJob : Job := { ctxs := [ctx0], stepBound := 5, riskTime := some 0 }
/-- Uptime and risk as given, beside a job with a step bound that a risk has secured at uptime 0. -/
def risky (up r : Nat) : State := { secured with
  jobs := [(hJob, boundJob)]
  power := { secured.power with uptime := up }, risk := { secured.risk with risk := r } }
theorem test_RiskArmsSecuring_tick : (risky 1 0).power.uptime % 100000 ≠ 0 ∧ (risky 100000 0).power.uptime % 100000 = 0 ∧
    monitorOn (risky 100000 0) = true ∧ monitorOn ((risky 100000 0).modPower fun p => { p with pd := p.pd.set 19 .ret }) = false ∧
    (risky 0 0).risk.risk < od (risky 0 0) 0x7002 1 := by decide +kernel
theorem test_RiskArmsSecuring_rearm : let s := risky 1000000000 65535
    monitorOn s = true ∧ od s 0x7002 1 ≤ s.risk.risk ∧ kget s.jobs hJob = some boundJob ∧ boundJob.riskTime = some 0 ∧ boundJob.stepBound ≠ 0 ∧
    0 + od s 0x7002 3 * 1000 ≤ s.power.uptime := by decide +kernel

theorem test_ParcelsMoveBetweenTiers_heat : od (risky 0 0) 0x3200 4 ≠ 0 ∧
    (risky 0 0).power.uptime % (od (risky 0 0) 0x3200 4 * 1000) = 0 ∧
    (risky 1 0).power.uptime % (od (risky 1 0) 0x3200 4 * 1000) ≠ 0 := by decide +kernel
def parcelAs (p : Parcel) : State := { objects with parcels := [(0x10000, p)], power := { objects.power with uptime := 1000000000 } }
theorem test_ParcelsMoveBetweenTiers_promote : let p : Parcel := { state := .flash, obj := hBlob, queued := true }
    flashOn (parcelAs p) = true ∧ kget (parcelAs p).parcels 0x10000 = some p ∧ kget (parcelAs p).objs p.obj = some blob1 ∧ p.state = .flash ∧ p.queued = true ∧
    quotaAllows (parcelAs p) blob1.owner 65536 = true ∧ inDramParcel.state ≠ .flash := by decide +kernel
theorem test_ParcelsMoveBetweenTiers_watermark :
    tierParcels State.reset * 65536 * 100 ≤ od State.reset 0x3200 5 * dramCapacity State.reset := by
  rw [show tierParcels State.reset = 0 from by decide +kernel]; simp
/-- One cold parcel in DRAM is above a high watermark of 0. -/
def oneFrame : State := { parcelAs inDramParcel with od := { objects.od with vals := [(0x320005, 0)] } }
theorem test_ParcelsMoveBetweenTiers_demote : flashOn oneFrame = true ∧
    od oneFrame 0x3200 5 * dramCapacity oneFrame < tierParcels oneFrame * 65536 * 100 ∧ flashOn parked = false := by
  rw [show od oneFrame 0x3200 5 = 0 from by decide +kernel, show tierParcels oneFrame = 1 from by decide +kernel, Nat.zero_mul]
  decide +kernel
theorem test_ParcelsMoveBetweenTiers_up : let p : Parcel := { state := .migUp, obj := 0 }
    kget (parcelAs p).parcels 0x10000 = some p ∧ (parcelAs p).flash.reads = [] ∧ parcelFlash (parcelAs p) 0x10000 = some [] ∧
    kget (parcelAs p).objs p.obj = none := by decide +kernel
theorem test_ParcelsMoveBetweenTiers_down : let p : Parcel := { state := .migDown, obj := 0, writing := [20] }
    let s := (parcelAs p).modFlash fun f => { f with pages := [(20, { lu := 0, kind := .data, seq := 1, keyGen := 1 })] }
    kget s.parcels 0x10000 = some p ∧ p.state = .migDown ∧ ∃ x ∈ p.writing, pageClosed s x = false :=
  ⟨by decide +kernel, rfl, 20, by decide +kernel⟩
theorem test_ParcelsMoveBetweenTiers_landed : let p : Parcel := { state := .migDown, obj := 0, writing := [20] }
    let s := (parcelAs p).modFlash fun f => { f with pages := [(20, { lu := 0, kind := .data, seq := 1, keyGen := 1, closed := true })] }
    kget s.parcels 0x10000 = some p ∧ p.state = .migDown ∧ p.writing.all (pageClosed s) = true := by decide +kernel
theorem test_ParcelsMoveBetweenTiers_back : let p : Parcel := { state := .dramDirty, obj := hBlob }
    let s := (parcelAs p).modFlash fun f => { f with courses := [(5, { stream := .openHost })] }
    flashOn s = true ∧ p.state = .dramDirty ∧ parcelObj s 0x10000 = some (p, blob1) ∧ blob1.volatile = false ∧ od s 0x3200 0xA ≠ 0 ∧
    p.lastStore + od s 0x3200 0xA * 1000 ≤ s.power.uptime ∧ blob1.policy = 2 ∧ p.lastStore + od s 0x3200 9 ≤ s.power.uptime ∧
    p.writing = [] ∧ s.flash.readOnly = false ∧ (writeParcel s 0x10000 false).isSome = true := by decide +kernel
theorem test_ParcelsMoveBetweenTiers_volatile : let s := { parcelAs inDramParcel with objs := [(hBlob, volatileBlob)] }
    parcelObj s 0x10000 = some (inDramParcel, volatileBlob) ∧ volatileBlob.volatile = true := by decide +kernel

/-! ## The flash tier -/

def readOf20 : PageRead := ⟨20, 2, 0, .command⟩

/-- Course 5 of block 0 is full and die 0 programs it, with one page of unit 9; or it holds metadata. -/
def programming (p : Page) (m : List (Nat × Nat)) : State := State.reset.modFlash fun f => { f with
  courses := [(5, { stream := .openHost, filled := 4, sent := 4 })]
  dies := [(0, { erase := false, target := 5, startedAt := 0 })], pages := [(20, p)], map := m }
def dataPage : Page := { lu := 9, kind := .data, seq := 1, keyGen := 1 }
theorem test_DieOperationsEnd_padding : let s := programming { dataPage with kind := .padding } []
    ∃ k, kget s.flash.courses 5 = some k ∧ k.filled = 4 ∧ k.sent = 4 ∧ dieRuns s (ppaDie (5 * 4)) false 5 = true ∧ k.waitedSince = none ∧
      s.flash.readOnly = false ∧ ∀ i, i < 4 → ∀ p, kget s.flash.pages (5 * 4 + i) = some p → p.kind ≠ .data := by
  refine ⟨_, rfl, rfl, rfl, by decide +kernel, rfl, rfl, fun i hi p h => ?_⟩
  match i, hi with
  | 0, _ => cases h; decide
  | 1, _ => cases h
  | 2, _ => cases h
  | 3, _ => cases h
theorem test_DieOperationsEnd_data : let s := programming dataPage [(9, 20)]
    dieRuns s (ppaDie (5 * 4)) false 5 = true ∧ kget s.flash.pages (5 * 4) = some dataPage ∧ dataPage.kind = .data ∧ dataPage.lu = 9 ∧
    kget s.flash.map 9 = some (5 * 4) ∧ kget s.flash.durMap 9 = none := by decide +kernel
theorem test_DieOperationsEnd_pass : let s := (programming dataPage []).modFlash fun f => { f with
      courses := [(5, { stream := .openHost, filled := 1, sent := 1 })] }
    ∃ k, kget s.flash.courses 5 = some k ∧ k.sent ≠ 4 ∧ dieRuns s (ppaDie (5 * 4)) false 5 = true := ⟨_, rfl, by decide, by decide +kernel⟩
theorem test_DieOperationsEnd_idle : dieRuns State.reset (ppaDie (5 * 4)) false 5 = false ∧ dieRuns State.reset (7 / 8192) true 7 = false := by
  decide +kernel
/-- Die 0 erases block 7; its erase is being suspended, or is suspended, with a LOOKUP read waiting or none. -/
def erasing (d : DieOp) (reads : List PageRead) : State := State.reset.modFlash fun f => { f with dies := [(0, d)], reads := reads }
def eraseOp : DieOp := { erase := true, target := 7, startedAt := 0 }
theorem test_DieOperationsEnd_erase : dieRuns (erasing eraseOp []) (7 / 8192) true 7 = true := by decide +kernel
theorem test_DieOperationsEnd_suspend :
    let d := { eraseOp with held := true }
    let s := (erasing d [readOf20]).modPower fun p => { p with uptime := 1000000 }
    kget s.flash.dies 0 = some d ∧ d.suspended = false ∧ d.startedAt + od s 0x2250 1 ≤ s.power.uptime ∧ 0 < suspenders s 0 ∧
    s.power.resetReq = none ∧ d.suspends < od s 0x2250 2 ∧
    (erasing d []).power.uptime < d.startedAt + od (erasing d []) 0x2250 1 := by decide +kernel
theorem test_DieOperationsEnd_resume : let d := { eraseOp with suspended := true }
    kget (erasing d []).flash.dies 0 = some d ∧ d.suspended = true ∧ suspenders (erasing d []) 0 = 0 ∧
    0 < suspenders (erasing d [readOf20]) 0 ∧ d.reads < 16 := by decide +kernel

/-- An open course on which a durable event waits since uptime 0; a journal with one record queued since then. -/
def waiting0 (up : Nat) : State := (State.reset.modFlash fun f => { f with
  courses := [(5, { stream := .openHost, filled := 1, waitedSince := some 0 })], pages := [(20, dataPage)]
  jpend := [(1, .stream)], jsince := some 0 }).modPower fun p => { p with uptime := up, holdup := true }
theorem test_FlashUpkeepActs_timers : ∃ k, kget (waiting0 1000000).flash.courses 5 = some k ∧ k.waitedSince = some 0 ∧
    0 + od (waiting0 1000000) 0x2231 0 ≤ (waiting0 1000000).power.uptime ∧ k.filled ≤ 4 ∧
    (waiting0 0).power.uptime < 0 + od (waiting0 0) 0x2231 0 ∧ (waiting0 1000000).flash.jsince = some 0 ∧
    0 + od (waiting0 1000000) 0x2210 0 ≤ (waiting0 1000000).power.uptime ∧ canProgram (waiting0 1000000) = true ∧
    (waiting0 1000000).flash.jpend ≠ [] ∧ (waiting0 0).power.uptime < 0 + od (waiting0 0) 0x2210 0 := ⟨_, rfl, by decide +kernel⟩
/-- Plane 0 with a full block 3 and a much worn block 4, its free blocks at or below the collection's limit; block 3 to be refreshed. -/
def fullPlane : State := { State.reset with
  flash := { State.reset.flash with
    blocks := [(3, { state := .full, eraseCount := 1 }), (4, { eraseCount := 100000 })], refreshQ := [3], patrolQ := [3]
    pages := [(12288, { dataPage with closed := true })] }
  od := { State.reset.od with vals := [(0x224002, 65535)] }
  power := { State.reset.power with holdup := true, uptime := 1000001 } }
theorem test_FlashUpkeepActs_checkpoint : flashOn State.reset = true ∧ flashOn parked = false := by decide +kernel
theorem test_FlashUpkeepActs_clear : fullPlane.flash.readOnly = false ∧ canProgram fullPlane = true ∧
    (freeBlocks fullPlane 0).length ≤ od fullPlane 0x2240 2 ∧ (fullBlocks fullPlane 0) = [3] ∧
    od State.reset 0x2240 2 < (freeBlocks State.reset 0).length := by decide +kernel
theorem test_FlashUpkeepActs_wear : 4 ∈ planeBlocks fullPlane 0 ∧ 3 ∈ planeBlocks fullPlane 0 ∧
    (blockOf fullPlane 3).eraseCount + od fullPlane 0x2200 7 < (blockOf fullPlane 4).eraseCount := by decide +kernel
theorem test_FlashUpkeepActs_refresh : fullPlane.flash.refreshQ.contains 3 = true ∧ (fullBlocks fullPlane (3 / 2048)).contains 3 = true ∧
    fullPlane.flash.refreshQ.contains 4 = false ∧ 1000000 < fullPlane.power.uptime ∧ fullPlane.flash.patrolQ.contains 3 = true ∧
    (fullPlane.flash.pages.any fun e => ppaBlock e.1 == 3) = true := by decide +kernel
theorem test_FlashUpkeepActs_readOnly : (State.reset.modFlash fun f => { f with readOnly := true }).flash.readOnly = true ∧
    (sleeping.modPower fun p => { p with uptime := 1000001 }).flash.patrolQ = [] := ⟨rfl, rfl⟩

def reading : State := State.reset.modFlash fun f => { f with reads := [readOf20], bermWait := [⟨3, 1, 2, none⟩] }
theorem test_PageReadsEnd_none : flashOn parked = false ∧ ∀ r, r ∈ State.reset.flash.reads → r.ppa ≠ 20 ∨ r.use = .prefetch := by decide +kernel
theorem test_PageReadsEnd_die : kget (erasing eraseOp [readOf20]).flash.dies (ppaDie 20) = some eraseOp ∧ eraseOp.suspended = false := by
  decide +kernel
theorem test_PageReadsEnd_read : flashOn reading = true ∧ kget reading.flash.dies (ppaDie 20) = none ∧
    findFirst (fun r => r.ppa == 20 && r.use != .prefetch) reading.flash.reads = some readOf20 ∧
    reading.flash.bermWait = [⟨3, 1, 2, none⟩] ∧ kcount reading.flash.reservedUsed 3 < 6 ∧
    ∀ w, w ∈ reading.flash.bermWait → w.channel ≠ 4 := by decide +kernel

/-! ## Tables and searches -/

/-- The table after contributor 0 named step 2, with the additions given. -/
def tableWith (t : TableSt) : State := { stores with tables := [(hTab, t)] }
def addition1 : Addition := ⟨1, 1, 0, 0, 0, 0, List.replicate 16 0⟩
def closedTable : State := tableWith { closed := [(0, 2)] }
theorem test_TableEventsAct_table : liveObj closedTable hTab = some tableObj ∧ tableArea closedTable hTab = some tableArea1 ∧
    contributors closedTable tableObj tableArea1 = [0] ∧ tableArea1.fixed = true ∧ (closedTable.tbl hTab).held = [] ∧
    (∀ m ∈ contributors closedTable tableObj tableArea1, tableArea1.applied + 1 < kcount (closedTable.tbl hTab).closed m) ∧
    (∀ x ∈ (closedTable.tbl hTab).pend, x.step ≠ tableArea1.applied + 1) := by decide +kernel
theorem test_TableEventsAct_open :
    ∀ m ∈ contributors stores tableObj tableArea1, kcount (stores.tbl hTab).closed m ≤ tableArea1.applied + 1 := by decide +kernel
theorem test_TableEventsAct_staged : let s := tableWith { closed := [(0, 2)], pend := [{ addition1 with tx := 1 }], waited := true }
    (s.tbl hTab).waited = true ∧ ∃ x ∈ (s.tbl hTab).pend, x.step = tableArea1.applied + 1 ∧ x.tx ≠ 0 := by decide +kernel
/-- The table's row 1 is present in an FP32 slot whose parcel is in DRAM. -/
def rowEntry1 : Nat := 0x2000000000000000 + 131072 / 16
def presentRow : State := { (tableWith { closed := [(0, 2)], pend := [addition1] }) with
  parcels := [(0x70000, { state := .dramClean, obj := hTab }), (0x70002, { state := .dramClean, obj := hTab, frame := 1 })]
  dram := { stores.dram with mem := mwrite [] (0x700000000 + 8) (toLE 8 rowEntry1) } }
theorem test_TableEventsAct_apply : (presentRow.tbl hTab).pend = [addition1] ∧ addition1.step = tableArea1.applied + 1 ∧
    addition1.tx = 0 ∧ let u := (applyRow presentRow hTab addition1.row (rowDelta tableArea1.dim [addition1])).getD presentRow
    (applyRow presentRow hTab addition1.row (rowDelta tableArea1.dim [addition1])).isSome = true ∧ (u.tbl hTab).held = [] ∧
    (kget u.objs hTab).map (·.area) = some tableObj.area := by decide +kernel
/-- A table of the same rows that ends where its slots would begin. -/
def fullTable : State := { tableWith { closed := [(0, 2)], pend := [addition1] } with objs := [(hTab, { tableObj with length := 131072 })] }
theorem test_TableEventsAct_stuck : liveObj fullTable hTab = some { tableObj with length := 131072 } ∧
    tableArea fullTable hTab = some tableArea1 ∧
    applyRow fullTable hTab addition1.row (rowDelta tableArea1.dim [addition1]) = none := by decide +kernel
def rowAdd1 : RowAdd := { src := 1, table := hTab, row := some 3, step := 1, pos := 0, values := List.replicate 16 0, tx := 0, polder := 0, group := 7 }
/-- The table exported to group 7, of which module 1 is a member. -/
def exportedObj : Obj := { tableObj with exported := true, exportGroup := 7, writeMask := 1 }
def exportedTable : State := { stores with objs := objects.objs ++ [(hTab, exportedObj), (hIdx, indexObj)], fabric := ring4.fabric }
theorem test_TableEventsAct_refused : liveObj stores hTab = some tableObj ∧ rowAdd1.table = hTab ∧ tableObj.exported = false := by decide +kernel
theorem test_TableEventsAct_message : liveObj exportedTable hTab = some exportedObj ∧ tableArea exportedTable hTab = some tableArea1 ∧
    exportedObj.exported = true ∧ maskBit exportedObj.writeMask rowAdd1.polder = true ∧ exportedObj.readOnly = false ∧
    (∃ g, kget exportedTable.fabric.groups exportedObj.exportGroup = some g ∧ (g.members.any fun m => m.1 == rowAdd1.src) = true) ∧
    ({ rowAdd1 with step := 0 } : RowAdd).step ≤ tableArea1.applied ∧ tableArea1.applied + od exportedTable 0x3D00 2 < 100 ∧
    tableArea1.applied < rowAdd1.step ∧ rowAdd1.step ≤ tableArea1.applied + od exportedTable 0x3D00 2 ∧ 3 < tableArea1.rows ∧
    rowAdd1.values.length = tableArea1.dim ∧ rowAdd1.tx = 0 ∧
    (addRows exportedTable 0 hTab 1 1 [(3, 0, rowAdd1.values)]).1 = .ok :=
  ⟨by decide +kernel, by decide +kernel, by decide +kernel, by decide +kernel, by decide +kernel, ⟨_, rfl, by decide +kernel⟩, by decide +kernel⟩
/-- A migration of row 1 to a slot of the first class, read at entry `e`. -/
def migrating (e : Nat) : State := presentRow.modTbl hTab fun t => { t with migs := [{ row := 1, slot := 131136, cls := 0, entry := e }] }
theorem test_TableEventsAct_migration : (findFirst (fun x => x.row == 1) ((migrating 7).tbl hTab).migs).isSome = true ∧
    rowEntry (migrating 7) tableObj 1 ≠ 7 ∧ rowEntry (migrating rowEntry1) tableObj 1 = rowEntry1 ∧
    (swapEntry (migrating rowEntry1) hTab tableObj 1 0 131136).1 = true ∧
    findFirst (fun x => x.row == 1) (stores.tbl hTab).migs = none ∧ (stores.tbl hTab).migQ.contains 1 = false := by decide +kernel
/-- A slot released at tag 3, with or without the reader given; register 0 executes. -/
def releasing (readers : List (Nat × Nat)) : State :=
  { withExec stores 0x50 blank .retry with tables := [(hTab, { released := [(131072, 0, 3)], readers := readers })] }
theorem test_TableEventsAct_release :
    findFirst (fun r => r.1 == 131072) ((releasing []).tbl hTab).released = some (131072, 0, 3) ∧
    (∀ r ∈ ((releasing []).tbl hTab).readers, readerLives (releasing []) r = true → 3 < r.2) ∧
    ∃ r ∈ ((releasing [(0, 3)]).tbl hTab).readers, readerLives (releasing [(0, 3)]) r = true ∧ r.2 ≤ 3 := by decide +kernel

/-- A pass of the index opened at uptime 0 for register 0, at the uptime given. -/
def query1 : Query := ⟨.register 0, List.replicate 128 0, 1, 1, 1, hBlob, 0xFF⟩
def passing (up : Nat) : State := { (withExec stores 0x40 blank (.pass 1)) with
  objs := stores.objs, host := stores.host, passes := [(1, ⟨hIdx, 0, 0, [query1]⟩)], power := { stores.power with uptime := up } }
theorem test_SearchEventsAct_pass : let p : Pass := ⟨hIdx, 0, 0, [query1]⟩
    kget (passing 0).passes 1 = some p ∧ now (passing 0) < p.openedAt + od (passing 0) 0x3E00 1 ∧
    p.queries.length < od (passing 0) 0x3E00 2 ∧ p.openedAt + od (passing 1000000) 0x3E00 1 ≤ now (passing 1000000) ∧
    query1.owner = .register 0 ∧ (kget (passing 1000000).execs 0).map (·.wait) = some (.pass 1) := by decide +kernel
def deadRecord : IRec := ⟨1, 0, 1, 2, 0, List.replicate 8 0, 0, []⟩
def withDead : State := { stores with
  objs := objects.objs ++ [(hIdx, { indexObj with area := .index { indexArea1 with epoch := 2000000 } })], indexes := [(hIdx, { recs := [deadRecord] })] }
theorem test_SearchEventsAct_compaction : (∀ r ∈ (withDead.idx hIdx).recs, r.partition ≠ 5) ∧ (withDead.idx hIdx).recs = [deadRecord] ∧
    deadRecord.partition = 0 ∧ deadRecord.delEpoch ≠ 0 ∧ kcount (withDead.idx hIdx).intake 0 = 0 ∧ od withDead 0x3E00 5 ≤ 100 ∧
    deadRecord.delEpoch ≤ horizon withDead hIdx := by decide +kernel
/-- Module 1 asks a shard here. -/
def shardQ1 : ShardQ := { coord := 1, tag := 3, shard := 0, index := hIdx, k := 1, cap := 1, lists := 1, polder := 0, group := 7, query := List.replicate 128 0 }
def shardIndex : Obj := { indexObj with exported := true, exportGroup := 7, readMask := 1 }
def shardHome : State := { exportedTable with objs := objects.objs ++ [(hIdx, shardIndex)] }
theorem test_SearchEventsAct_shard : liveObj State.reset shardQ1.index = none ∧ liveObj shardHome shardQ1.index = some shardIndex ∧
    indexArea shardHome shardQ1.index = some indexArea1 ∧ shardQ1.coord ≠ moduleId shardHome ∧ shardQ1.group = shardIndex.exportGroup ∧
    peerRight shardHome shardIndex shardQ1.coord shardQ1.polder false = true ∧ indexArea1.sharded = false ∧
    shardQ1.query.length = vectorBytes indexArea1 + 64 := by decide +kernel
def shardR1 : ShardR := ⟨3, 0, 0x6002, false, 0, 0, 0, 64, 3, 0, []⟩
def awaitingShards (homes : List Nat) : State := { shardHome with
  fabric := { shardHome.fabric with shardWaits := [(3, ⟨0, hIdx, 1, hBlob, homes, [], []⟩)] } }
theorem test_SearchEventsAct_reply : let w : ShardWait := ⟨0, hIdx, 1, hBlob, [1], [], []⟩
    (awaitingShards [1]).fabric.reqs = [] ∧ kget (awaitingShards [1]).fabric.shardWaits shardR1.tag = some w ∧ w.homes.length = 1 ∧
    2 ≤ [1, 2].length ∧ indexArea (awaitingShards [1]) w.index = some indexArea1 ∧ replyStatus indexArea1 shardR1 ≠ 0 ∧
    indexArea { awaitingShards [1] with objs := [] } w.index = none := by decide +kernel

/-! ## Records -/

/-- A context that issues on core 0. Its job's handles: slot 2 the BLOB, slot 3 an object of module 1, slot 4 the index. Its share holds
the lists [1, 3] at 0 and [3] at 4,096, an empty list of 16-byte elements at 8,192 and output lists of capacity 4 beyond. -/
def xid : CtxId := ⟨hJob, 0⟩
def ctxRun : Ctx := { ctx0 with resident := some (0, 0, 0), atFret := false }
def hRemote : Nat := mkHandle { ring4 with od := { ring4.od with vals := [(0x400001, 1)] } } 2 5
def jobRun : Job := { ctxs := [ctxRun], handles := [0, 0, hBlob, hRemote, hIdx], area := ⟨0x200, 0, 4, 0, 1, 1, 0, 0, 0, 5, 0, 0, 0, 0, 0⟩ }
def listHead (n cap w : Nat) : List Byte := toLE 8 n ++ toLE 8 cap ++ toLE 4 2 ++ toLE 1 w
def spad1 : Memory :=
  mwrite (mwrite (mwrite (mwrite (mwrite (mwrite (mwrite [] 0 (listHead 2 4 8)) 64 (toLE 8 1 ++ toLE 8 3)) 4096 (listHead 1 4 8)) 4160 (toLE 8 3))
    8192 (listHead 0 4 16)) 12288 (listHead 0 4 8)) 16384 (listHead 0 4 16)
def running : State := { ring4 with
  objs := ring4.objs ++ [(hIdx, indexObj), (hJob, jobObj)], jobs := [(hJob, jobRun)], spad := spad1
  cores := [(0, { residents := [xid], issuing := some xid })] }
theorem issuing_running : Issuing running xid jobRun ctxRun := ⟨by decide +kernel, by decide +kernel, by decide +kernel, rfl⟩

def intersectRec (a b out : Nat) : BitVec 512 := recOf [(4, 1, 0), (5, 1, 8), (8, 8, a), (0x10, 8, b), (0x18, 8, out)]
def intersectOk : BitVec 512 := intersectRec (inShare 0) (inShare 4096) (inShare 12288)

/-- A transaction of the context that has been aborted, the BLOB holding an output list at 4,096; a scale stream that is none; the index
scanned by a SKETCH_SCAN; a sum for module 1. -/
def aborted : State := { running with
  jobs := [(hJob, { jobRun with ctxs := [{ ctxRun with tx := some 1 }] })]
  dram := { running.dram with mem := mwrite [] 0x100001000 (listHead 0 4 8) }
  txs := [(1, { owner := .context hJob 0 0xFF, state := .aborted, abort := 0x3001 })] }
def badScales : BitVec 512 := recOf [(4, 1, 0x43), (5, 1, 10), (6, 1, 10), (8, 8, inShare 0), (0x18, 8, inShare 20480), (0x20, 8, 1)]
def scanRec : BitVec 512 :=
  recOf [(4, 2, 1), (6, 2, 1), (8, 8, inSlot 4 0), (0x10, 8, inShare 32768), (0x18, 8, inShare 16384), (0x20, 2, 4)]
def remoteAdd : BitVec 512 :=
  recOf [(4, 1, 8), (5, 1, 10), (8, 8, inSlot 3 0), (0x10, 8, inShare 4096), (0x18, 8, inShare 32768), (0x20, 4, 16), (0x28, 8, 8)]
/-- Port 0 has no credits left, so that what it sends stays queued. -/
def congested : State := running.modPort 0 fun t => { t with used := [(0, 5000)] }
/-- The BLOB's first logical unit lies on page 20 alone. -/
def onFlash : State := { running with
  parcels := [(0x10000, { state := .flash, obj := hBlob })]
  flash := { running.flash with pages := [(20, { lu := parcelLu 0x10000 0, kind := .data, seq := 1, keyGen := 1, closed := true })], map := [(parcelLu 0x10000 0, 20)] } }

/-- Where a record stands when it starts: no fret, its run-ahead sent. -/
abbrev atStart (i : Instr) (s : State) : State := started i s xid
theorem test_RecordsComplete_none : operationOf (.intersect xid intersectOk) = some (xid, intersectOk, intersect xid intersectOk) ∧
    getCtx State.reset xid = none := ⟨rfl, by decide +kernel⟩
theorem test_RecordsComplete_ends : let m := intersect xid intersectOk; let t := atStart (.intersect xid intersectOk) running
    Issuing running xid jobRun ctxRun ∧ Runs m t () (stateOf m t) ∧
    (getCtx (endStall (stateOf m t) xid) xid).map (fun e => (e.2.awaiting, e.2.wait)) = some (0, .none) :=
  ⟨issuing_running, runs_of (by decide +kernel), by decide +kernel⟩
theorem test_RecordsComplete_stores : let m := scatterAdd xid remoteAdd false; let t := atStart (.scatterAdd xid remoteAdd) congested
    Issuing congested xid jobRun ctxRun ∧ Runs m t () (stateOf m t) ∧
    (getCtx (endStall (stateOf m t) xid) xid).map (·.2.awaiting) = some 1 :=
  ⟨⟨by decide +kernel, by decide +kernel, by decide +kernel, rfl⟩, runs_of (by decide +kernel), by decide +kernel⟩
theorem test_RecordsComplete_pass : let m := sketchScan xid scanRec; let t := atStart (.sketchScan xid scanRec) running
    Runs m t () (stateOf m t) ∧
    (getCtx (endStall (stateOf m t) xid) xid).map (fun e => (e.2.awaiting, e.2.wait)) = some (0, .pass 1 false) :=
  ⟨runs_of (by decide +kernel), by decide +kernel⟩
theorem test_RecordsComplete_fault : let r := intersectRec (inShare 8192) (inShare 4096) (inShare 12288)
    let t := atStart (.intersect xid r) running
    Stops (intersect xid r) t (.fault 6 8192) (stateOf (intersect xid r) t) := stops_of (by decide +kernel)
theorem test_RecordsComplete_desync : let m := elemwise xid badScales; let t := atStart (.elemwise xid badScales) running
    operationOf (.elemwise xid badScales) = some (xid, badScales, m) ∧ Stops m t .desync (stateOf m t) ∧
    (getCtx (beginEnd (endStall (stateOf m t) xid) xid.job 0x1011) xid).map (fun e => (e.2.awaiting, e.2.wait)) = some (0, .none) :=
  ⟨rfl, stops_of (by decide +kernel), by decide +kernel⟩
theorem test_RecordsComplete_aborted : let r := intersectRec (inShare 0) (inShare 4096) (inSlot 2 4096)
    let t := atStart (.intersect xid r) aborted
    (∃ j c, Issuing aborted xid j c) ∧ Stops (intersect xid r) t (.aborted 0x3001) (stateOf (intersect xid r) t) :=
  ⟨⟨_, _, rfl, by decide +kernel, rfl, rfl⟩, stops_of (by decide +kernel)⟩
theorem test_RecordsComplete_waits : let r := intersectRec (inSlot 3 0) (inShare 4096) (inShare 12288)
    let t := atStart (.intersect xid r) running
    Stops (intersect xid r) t (.waits 5) (stateOf (intersect xid r) t) := stops_of (by decide +kernel)
theorem test_RecordsComplete_reads : let r := intersectRec (inSlot 2 0) (inShare 4096) (inShare 12288)
    let t := atStart (.intersect xid r) onFlash
    Stops (intersect xid r) t (.reads [20] []) (stateOf (intersect xid r) t) := stops_of (by decide +kernel)

/-! ## What the records read and store -/

theorem test_RecordsComplete_intersectWrites : let r := intersectOk; let t := atStart (.intersect xid r) running
    ∃ a b out s1 s2 s3 s4 s5, let l := combine (fld r 4 1) a b
    Runs (loadSet xid (tracks r) (oref t xid (fld r 8 8)) 8) t a s1 ∧ Runs (loadSet xid (tracks r) (oref t xid (fld r 0x10 8)) 8) s1 b s2 ∧
    Runs (outList xid (tracks r) (oref t xid (fld r 0x18 8))) s2 out s3 ∧
    listOverlaps t out 8 l.length (oref t xid (fld r 8 8)) 8 a.length = false ∧
    listOverlaps t out 8 l.length (oref t xid (fld r 0x10 8)) 8 b.length = false ∧ Runs (prepList xid out 8 (idElems 8 l) false) s3 () s4 ∧
    Runs (saveLists xid [(out, idElems 8 l, 2)]) s4 () s5 := by
  have h : (let r := intersectOk; let t := atStart (.intersect xid r) running
    chk (loadSet xid (tracks r) (oref t xid (fld r 8 8)) 8) t fun a s1 => chk (loadSet xid (tracks r) (oref t xid (fld r 0x10 8)) 8) s1 fun b s2 =>
    chk (outList xid (tracks r) (oref t xid (fld r 0x18 8))) s2 fun out s3 =>
    let l := combine (fld r 4 1) a b
    chk (prepList xid out 8 (idElems 8 l) false) s3 fun _ s4 => chk (saveLists xid [(out, idElems 8 l, 2)]) s4 fun _ _ =>
      !listOverlaps t out 8 l.length (oref t xid (fld r 8 8)) 8 a.length &&
      !listOverlaps t out 8 l.length (oref t xid (fld r 0x10 8)) 8 b.length) = true := by decide +kernel
  obtain ⟨a, s1, h1, h⟩ := chk_runs h
  obtain ⟨b, s2, h2, h⟩ := chk_runs h
  obtain ⟨out, s3, h3, h⟩ := chk_runs h
  obtain ⟨_, s4, h4, h⟩ := chk_runs h
  obtain ⟨_, s5, h5, h⟩ := chk_runs h
  simp only [Bool.and_eq_true, Bool.not_eq_true'] at h
  exact ⟨a, b, out, s1, s2, s3, s4, s5, h1, h2, h3, h.1, h.2, h4, h5⟩

def sortRec (src out tmp : Nat) : BitVec 512 := recOf [(4, 1, 2), (6, 1, 8), (8, 8, src), (0x10, 8, out), (0x18, 8, tmp)]
theorem test_RecordsComplete_sortWrites : let r := sortRec (inShare 0) (inShare 12288) 0; let t := atStart (.sort xid r) running
    ∃ (l : Lst) (out : OutList) (s1 s2 s4 s5 : State),
    Runs (loadList xid (tracks r) (oref t xid (fld r 8 8)) 8) t l s1 ∧ Runs (outList xid (tracks r) (oref t xid (fld r 0x10 8))) s1 out s2 ∧
    ¬ (shareOf t xid).2 < l.elems.length * 8 ∧
    listOverlaps t out 8 (sorted r l.elems).length (oref t xid (fld r 8 8)) 8 l.elems.length = false ∧
    Runs (prepList xid out 8 (sorted r l.elems) false) s2 () s4 ∧ Runs (saveLists xid [(out, sorted r l.elems, 0)]) s4 () s5 := by
  have h : (let r := sortRec (inShare 0) (inShare 12288) 0; let t := atStart (.sort xid r) running
    chk (loadList xid (tracks r) (oref t xid (fld r 8 8)) 8) t fun l s1 => chk (outList xid (tracks r) (oref t xid (fld r 0x10 8))) s1 fun out s2 =>
    chk (prepList xid out 8 (sorted r l.elems) false) s2 fun _ s4 => chk (saveLists xid [(out, sorted r l.elems, 0)]) s4 fun _ _ =>
      !decide ((shareOf t xid).2 < l.elems.length * 8) &&
      !listOverlaps t out 8 (sorted r l.elems).length (oref t xid (fld r 8 8)) 8 l.elems.length) = true := by decide +kernel
  obtain ⟨l, s1, h1, h⟩ := chk_runs h
  obtain ⟨out, s2, h2, h⟩ := chk_runs h
  obtain ⟨_, s4, h4, h⟩ := chk_runs h
  obtain ⟨_, s5, h5, h⟩ := chk_runs h
  simp only [Bool.and_eq_true, Bool.not_eq_true', decide_eq_false_iff_not] at h
  exact ⟨l, out, s1, s2, s4, s5, h1, h2, h.1, h.2, h4, h5⟩
/-- A program without a share: the list [9, 2] lies in the BLOB at 0, the output and the merge area beyond. -/
def listsInBlob : Memory :=
  mwrite (mwrite (mwrite [] 0x100000000 (listHead 2 4 8)) 0x100000040 (toLE 8 9 ++ toLE 8 2)) 0x100001000 (listHead 0 4 8)
def noShare : State := { running with
  jobs := [(hJob, { jobRun with area := ⟨0x200, 0, 4, 0, 1, 0, 0, 0, 0, 5, 0, 0, 0, 0, 0⟩ })], dram := { running.dram with mem := listsInBlob } }
theorem test_RecordsComplete_sortLarge : let r := sortRec (inSlot 2 0) (inSlot 2 4096) (inSlot 2 8192); let t := atStart (.sort xid r) noShare
    ∃ (l : Lst) (out : OutList) (s1 s2 s3 s4 s5 : State),
    Runs (loadList xid (tracks r) (oref t xid (fld r 8 8)) 8) t l s1 ∧ Runs (outList xid (tracks r) (oref t xid (fld r 0x10 8))) s1 out s2 ∧
    (shareOf t xid).2 < l.elems.length * 8 ∧ fld r 0x18 8 ≠ 0 ∧
    listOverlaps t out 8 (sorted r l.elems).length (oref t xid (fld r 8 8)) 8 l.elems.length = false ∧
    rangesOverlap (oref t xid (fld r 0x18 8)) (l.elems.length * 8) (listRef t (oref t xid (fld r 8 8)))
      (listSize t (oref t xid (fld r 8 8)) 8 l.elems.length) = false ∧
    Runs (useTemp xid (oref t xid (fld r 0x18 8)) (l.elems.length * 8)) s2 () s3 ∧
    Runs (prepList xid out 8 (sorted r l.elems) false) s3 () s4 ∧ Runs (saveLists xid [(out, sorted r l.elems, 0)]) s4 () s5 := by
  have h : (let r := sortRec (inSlot 2 0) (inSlot 2 4096) (inSlot 2 8192); let t := atStart (.sort xid r) noShare
    chk (loadList xid (tracks r) (oref t xid (fld r 8 8)) 8) t fun l s1 => chk (outList xid (tracks r) (oref t xid (fld r 0x10 8))) s1 fun out s2 =>
    chk (useTemp xid (oref t xid (fld r 0x18 8)) (l.elems.length * 8)) s2 fun _ s3 =>
    chk (prepList xid out 8 (sorted r l.elems) false) s3 fun _ s4 => chk (saveLists xid [(out, sorted r l.elems, 0)]) s4 fun _ _ =>
      decide ((shareOf t xid).2 < l.elems.length * 8) && decide (fld r 0x18 8 ≠ 0) &&
      !listOverlaps t out 8 (sorted r l.elems).length (oref t xid (fld r 8 8)) 8 l.elems.length &&
      !rangesOverlap (oref t xid (fld r 0x18 8)) (l.elems.length * 8) (listRef t (oref t xid (fld r 8 8)))
        (listSize t (oref t xid (fld r 8 8)) 8 l.elems.length)) = true := by decide +kernel
  obtain ⟨l, s1, h1, h⟩ := chk_runs h
  obtain ⟨out, s2, h2, h⟩ := chk_runs h
  obtain ⟨_, s3, h3, h⟩ := chk_runs h
  obtain ⟨_, s4, h4, h⟩ := chk_runs h
  obtain ⟨_, s5, h5, h⟩ := chk_runs h
  simp only [Bool.and_eq_true, Bool.not_eq_true', decide_eq_true_eq] at h
  exact ⟨l, out, s1, s2, s3, s4, s5, h1, h2, h.1.1.1, h.1.1.2, h.1.2, h.2, h3, h4, h5⟩

def topkRec : BitVec 512 := recOf [(4, 2, 4), (6, 2, 1), (8, 8, inShare 8192), (0x10, 8, 64), (0x18, 8, inShare 16384)]
theorem test_RecordsComplete_topkWrites : let r := topkRec; let t := atStart (.topkMerge xid r) running
    ∃ out e s1 s2 s3 s4, let merged := mergeTop (fld r 4 2) (Prod.fst e)
    Runs (outList xid (tracks r) (oref t xid (fld r 0x18 8))) t out s1 ∧ Runs (topkLists xid r out) s1 e s2 ∧
    Runs (prepList xid out 16 (merged.map fun e => resultElem e.1 e.2) false) s2 () s3 ∧
    Runs (saveLists xid [(out, merged.map fun e => resultElem e.1 e.2, if e.2 then 1 else 0)]) s3 () s4 := by
  have h : (let r := topkRec; let t := atStart (.topkMerge xid r) running
    chk (outList xid (tracks r) (oref t xid (fld r 0x18 8))) t fun out s1 => chk (topkLists xid r out) s1 fun e s2 =>
    let merged := (mergeTop (fld r 4 2) e.1).map fun e => resultElem e.1 e.2
    chk (prepList xid out 16 merged false) s2 fun _ s3 => chk (saveLists xid [(out, merged, if e.2 then 1 else 0)]) s3 fun _ _ => true) = true := by
    decide +kernel
  obtain ⟨out, s1, h1, h⟩ := chk_runs h
  obtain ⟨e, s2, h2, h⟩ := chk_runs h
  obtain ⟨_, s3, h3, h⟩ := chk_runs h
  obtain ⟨_, s4, h4, h⟩ := chk_runs h
  exact ⟨out, e, s1, s2, s3, s4, h1, h2, h3, h4⟩

/-- One row, one column, one step, BF16 in and FP32 out, all zeros in the share; no chain. -/
def matmulRec : BitVec 512 := recOf [(4, 1, 8), (5, 1, 8), (6, 1, 10), (8, 8, inShare 24576), (0x10, 8, inShare 24640), (0x18, 8, inShare 24704),
  (0x20, 4, 1), (0x24, 4, 1), (0x28, 4, 1)]
theorem test_MatrixRecordsComplete_matmul (transposed : Bool) : let r := matmulRec; let t := atStart (.matmul xid r) running
    let tr := tracks r
    let u := matmulUse t xid r transposed
    ∃ (l : MatmulIn) (p : Places) (s1 s2 s3 s4 s5 s6 s7 : State),
    Runs (loadMat xid tr u.a) t l.a s1 ∧ Runs (loadMat xid tr u.b) s1 l.b s2 ∧ l.a.streamWrong = false ∧ l.b.streamWrong = false ∧
    Runs (loadArgs xid tr u.shapeIn u.chain.pro) s2 l.pro s3 ∧ Runs (loadArgs xid tr u.shapeOut u.chain.epi) s3 l.epi s4 ∧
    Runs (loadInit xid tr (bitAt (fld r 7 1) 0) u.c) s4 l.init s5 ∧ Runs (loadOld xid u.c (u.final t xid l.epi).2.isSome) s5 l.old s6 ∧
    apart (u.outs t xid l) (u.ins t xid l) = true ∧ u.places t xid r l = some p ∧
    let o := u.out t xid r l
    Runs (writeOutputs xid (u.results t xid l o) (u.vector t xid o)) (drainBefore s6 xid (u.ins t xid l ++ u.outs t xid l)) () s7 := by
  have h : ∀ b : Bool, (let r := matmulRec; let t := atStart (.matmul xid r) running
    let tr := tracks r
    let u := matmulUse t xid r b
    chk (loadMat xid tr u.a) t fun a s1 => chk (loadMat xid tr u.b) s1 fun b s2 => !a.streamWrong && !b.streamWrong &&
    chk (loadArgs xid tr u.shapeIn u.chain.pro) s2 fun pro s3 => chk (loadArgs xid tr u.shapeOut u.chain.epi) s3 fun epi s4 =>
    chk (loadInit xid tr (bitAt (fld r 7 1) 0) u.c) s4 fun i s5 => chk (loadOld xid u.c (u.final t xid epi).2.isSome) s5 fun old s6 =>
    let l : MatmulIn := ⟨a, b, pro, epi, i, old⟩
    apart (u.outs t xid l) (u.ins t xid l) && (u.places t xid r l).isSome &&
    let o := u.out t xid r l
    chk (writeOutputs xid (u.results t xid l o) (u.vector t xid o)) (drainBefore s6 xid (u.ins t xid l ++ u.outs t xid l)) fun _ _ => true) = true := by
    decide +kernel
  have h := h transposed
  obtain ⟨a, s1, h1, h⟩ := chk_runs h
  obtain ⟨b, s2, h2, h⟩ := chk_runs h
  simp only [Bool.and_eq_true, Bool.not_eq_true'] at h
  obtain ⟨⟨w1, w2⟩, h⟩ := h
  obtain ⟨pro, s3, h3, h⟩ := chk_runs h
  obtain ⟨epi, s4, h4, h⟩ := chk_runs h
  obtain ⟨i, s5, h5, h⟩ := chk_runs h
  obtain ⟨old, s6, h6, h⟩ := chk_runs h
  simp only [Bool.and_eq_true] at h
  obtain ⟨⟨w3, w4⟩, h⟩ := h
  obtain ⟨_, s7, h7, _⟩ := chk_runs h
  obtain ⟨p, hp⟩ := some_of w4
  exact ⟨⟨a, b, pro, epi, i, old⟩, p, s1, s2, s3, s4, s5, s6, s7, h1, h2, w1, w2, h3, h4, h5, h6, w3, hp, h7⟩

def gradRec : BitVec 512 := recOf [(4, 1, 8), (5, 1, 8), (6, 1, 8), (7, 1, 10), (8, 8, inShare 24576), (0x10, 8, inShare 24640),
  (0x18, 8, inShare 24704), (0x20, 8, inShare 24768), (0x28, 8, inShare 24832), (0x30, 4, 1), (0x34, 4, 1), (0x38, 4, 1)]
theorem test_MatrixRecordsComplete_grad : let r := gradRec; let t := atStart (.matmul xid r) running
    let tr := tracks r
    let u := gradUse t xid r
    ∃ (l : GradIn) (p q : Places) (s1 s2 s3 s4 s5 s6 s7 s8 s9 : State),
    Runs (loadMat xid tr u.w) t l.w s1 ∧ Runs (loadMat xid tr u.dy) s1 l.dy s2 ∧ Runs (loadMat xid tr u.h) s2 l.h s3 ∧
    l.w.streamWrong = false ∧ l.dy.streamWrong = false ∧ l.h.streamWrong = false ∧
    Runs (loadArgs xid tr u.shape u.chain.epi) s3 l.epi s4 ∧ Runs (loadInit xid tr (bitAt (fld r 0x3E 1) 0) u.dx) s4 l.initX s5 ∧
    Runs (loadInit xid tr (bitAt (fld r 0x3E 1) 1) u.da) s5 l.initA s6 ∧ Runs (loadOld xid u.dx (u.final t xid l.epi).2.isSome) s6 l.oldX s7 ∧
    Runs (loadOld xid u.da false) s7 l.oldA s8 ∧ apart (u.outsX t xid l ++ u.outsA l) (u.ins t xid l) = true ∧
    apart (u.outsA l) (u.outsX t xid l) = true ∧ u.placesX t xid l = some p ∧ u.placesA t xid l = some q ∧
    Runs (writeOutputs xid (u.results t xid l (u.outX t xid l) (u.outA t l)) none) (drainBefore s8 xid (u.operands t xid l)) () s9 := by
  have h : (let r := gradRec; let t := atStart (.matmul xid r) running
    let tr := tracks r
    let u := gradUse t xid r
    chk (loadMat xid tr u.w) t fun w s1 => chk (loadMat xid tr u.dy) s1 fun dy s2 => chk (loadMat xid tr u.h) s2 fun h s3 =>
    !w.streamWrong && !dy.streamWrong && !h.streamWrong && chk (loadArgs xid tr u.shape u.chain.epi) s3 fun epi s4 =>
    chk (loadInit xid tr (bitAt (fld r 0x3E 1) 0) u.dx) s4 fun ix s5 => chk (loadInit xid tr (bitAt (fld r 0x3E 1) 1) u.da) s5 fun ia s6 =>
    chk (loadOld xid u.dx (u.final t xid epi).2.isSome) s6 fun ox s7 => chk (loadOld xid u.da false) s7 fun oa s8 =>
    let l : GradIn := ⟨w, dy, h, epi, ix, ia, ox, oa⟩
    apart (u.outsX t xid l ++ u.outsA l) (u.ins t xid l) && apart (u.outsA l) (u.outsX t xid l) &&
    (u.placesX t xid l).isSome && (u.placesA t xid l).isSome &&
    chk (writeOutputs xid (u.results t xid l (u.outX t xid l) (u.outA t l)) none) (drainBefore s8 xid (u.operands t xid l)) fun _ _ => true) = true := by
    decide +kernel
  obtain ⟨w, s1, h1, h⟩ := chk_runs h
  obtain ⟨dy, s2, h2, h⟩ := chk_runs h
  obtain ⟨hh, s3, h3, h⟩ := chk_runs h
  simp only [Bool.and_eq_true, Bool.not_eq_true'] at h
  obtain ⟨⟨⟨w1, w2⟩, w3⟩, h⟩ := h
  obtain ⟨epi, s4, h4, h⟩ := chk_runs h
  obtain ⟨ix, s5, h5, h⟩ := chk_runs h
  obtain ⟨ia, s6, h6, h⟩ := chk_runs h
  obtain ⟨ox, s7, h7, h⟩ := chk_runs h
  obtain ⟨oa, s8, h8, h⟩ := chk_runs h
  simp only [Bool.and_eq_true] at h
  obtain ⟨⟨⟨⟨a1, a2⟩, p1⟩, p2⟩, h⟩ := h
  obtain ⟨_, s9, h9, _⟩ := chk_runs h
  obtain ⟨p, hp⟩ := some_of p1
  obtain ⟨q, hq⟩ := some_of p2
  exact ⟨⟨w, dy, hh, epi, ix, ia, ox, oa⟩, p, q, s1, s2, s3, s4, s5, s6, s7, s8, s9, h1, h2, h3, w1, w2, w3, h4, h5, h6, h7, h8, a1, a2, hp, hq, h9⟩

def pairRec : BitVec 512 := recOf [(4, 1, 8), (5, 1, 8), (6, 1, 8), (7, 1, 10), (8, 8, inShare 24576), (0x10, 8, inShare 24640),
  (0x18, 8, inShare 24704), (0x20, 8, inShare 24768), (0x28, 4, 1), (0x2C, 4, 1), (0x30, 4, 1), (0x34, 4, 1)]
theorem test_MatrixRecordsComplete_pair : let r := pairRec; let t := atStart (.matmul xid r) running
    let tr := tracks r
    let u := pairUse t xid r
    ∃ (l : PairIn) (p : Places) (s1 s2 s3 s4 s5 s6 s7 s8 : State),
    Runs (loadMat xid tr u.a) t l.a s1 ∧ Runs (loadMat xid tr u.b1) s1 l.b1 s2 ∧ Runs (loadMat xid tr u.b2) s2 l.b2 s3 ∧
    l.a.streamWrong = false ∧ l.b1.streamWrong = false ∧ l.b2.streamWrong = false ∧
    Runs (loadArgs xid tr u.shapeIn u.chain.pro) s3 l.pro s4 ∧ Runs (loadArgs xid tr u.shapeS u.before) s4 l.pre s5 ∧
    Runs (loadArgs xid tr u.shapeO u.after) s5 l.post s6 ∧ Runs (loadOld xid u.c (u.final t xid l.post).2.isSome) s6 l.old s7 ∧
    apart (u.outs t xid l) (u.ins t xid l) = true ∧ u.places t xid r l = some p ∧
    Runs (writeOutputs xid (u.results t xid l (u.out t xid r l)) none) (drainBefore s7 xid (u.ins t xid l ++ u.outs t xid l)) () s8 := by
  have h : (let r := pairRec; let t := atStart (.matmul xid r) running
    let tr := tracks r
    let u := pairUse t xid r
    chk (loadMat xid tr u.a) t fun a s1 => chk (loadMat xid tr u.b1) s1 fun b1 s2 => chk (loadMat xid tr u.b2) s2 fun b2 s3 =>
    !a.streamWrong && !b1.streamWrong && !b2.streamWrong && chk (loadArgs xid tr u.shapeIn u.chain.pro) s3 fun pro s4 =>
    chk (loadArgs xid tr u.shapeS u.before) s4 fun pre s5 => chk (loadArgs xid tr u.shapeO u.after) s5 fun post s6 =>
    chk (loadOld xid u.c (u.final t xid post).2.isSome) s6 fun old s7 =>
    let l : PairIn := ⟨a, b1, b2, pro, pre, post, old⟩
    apart (u.outs t xid l) (u.ins t xid l) && (u.places t xid r l).isSome &&
    chk (writeOutputs xid (u.results t xid l (u.out t xid r l)) none) (drainBefore s7 xid (u.ins t xid l ++ u.outs t xid l)) fun _ _ => true) = true := by
    decide +kernel
  obtain ⟨a, s1, h1, h⟩ := chk_runs h
  obtain ⟨b1, s2, h2, h⟩ := chk_runs h
  obtain ⟨b2, s3, h3, h⟩ := chk_runs h
  simp only [Bool.and_eq_true, Bool.not_eq_true'] at h
  obtain ⟨⟨⟨w1, w2⟩, w3⟩, h⟩ := h
  obtain ⟨pro, s4, h4, h⟩ := chk_runs h
  obtain ⟨pre, s5, h5, h⟩ := chk_runs h
  obtain ⟨post, s6, h6, h⟩ := chk_runs h
  obtain ⟨old, s7, h7, h⟩ := chk_runs h
  simp only [Bool.and_eq_true] at h
  obtain ⟨⟨a1, p1⟩, h⟩ := h
  obtain ⟨_, s8, h8, _⟩ := chk_runs h
  obtain ⟨p, hp⟩ := some_of p1
  exact ⟨⟨a, b1, b2, pro, pre, post, old⟩, p, s1, s2, s3, s4, s5, s6, s7, s8, h1, h2, h3, w1, w2, w3, h4, h5, h6, h7, a1, hp, h8⟩

def rowfnRec : BitVec 512 := recOf [(4, 1, 8), (5, 1, 10), (8, 8, inShare 24576), (0x10, 8, inShare 24640), (0x18, 4, 1), (0x1C, 4, 1)]
theorem test_MatrixRecordsComplete_rowfn : let r := rowfnRec; let t := atStart (.rowfn xid r) running
    let tr := tracks r
    let u := rowUse t xid r
    ∃ (l : RowIn) (p : Places) (s1 s2 s3 s4 s5 : State),
    Runs (loadMat xid tr u.a) t l.a s1 ∧ Runs (checkSync xid l.a) s1 () s2 ∧ Runs (loadArgs xid tr u.shape u.chain.epi) s2 l.epi s3 ∧
    Runs (loadOld xid u.c (u.final t xid l.epi).2.isSome) s3 l.old s4 ∧ apart (u.outs t xid l) (u.ins t xid l) = true ∧
    u.places t xid l = some p ∧ Runs (writeOutputs xid (u.results t xid l (u.out t xid l)) (u.vector t xid (u.out t xid l))) s4 () s5 := by
  have h : (let r := rowfnRec; let t := atStart (.rowfn xid r) running
    let tr := tracks r
    let u := rowUse t xid r
    chk (loadMat xid tr u.a) t fun a s1 => chk (checkSync xid a) s1 fun _ s2 => chk (loadArgs xid tr u.shape u.chain.epi) s2 fun epi s3 =>
    chk (loadOld xid u.c (u.final t xid epi).2.isSome) s3 fun old s4 =>
    let l : RowIn := ⟨a, epi, old⟩
    apart (u.outs t xid l) (u.ins t xid l) && (u.places t xid l).isSome &&
    chk (writeOutputs xid (u.results t xid l (u.out t xid l)) (u.vector t xid (u.out t xid l))) s4 fun _ _ => true) = true := by decide +kernel
  obtain ⟨a, s1, h1, h⟩ := chk_runs h
  obtain ⟨_, s2, h2, h⟩ := chk_runs h
  obtain ⟨epi, s3, h3, h⟩ := chk_runs h
  obtain ⟨old, s4, h4, h⟩ := chk_runs h
  simp only [Bool.and_eq_true] at h
  obtain ⟨⟨a1, p1⟩, h⟩ := h
  obtain ⟨_, s5, h5, _⟩ := chk_runs h
  obtain ⟨p, hp⟩ := some_of p1
  exact ⟨⟨a, epi, old⟩, p, s1, s2, s3, s4, s5, h1, h2, h3, h4, a1, hp, h5⟩

def elemRec : BitVec 512 := recOf [(4, 1, 8), (6, 1, 10), (8, 8, inShare 24576), (0x18, 8, inShare 24640), (0x20, 8, 2)]
theorem test_MatrixRecordsComplete_elemwise : let r := elemRec; let t := atStart (.rowfn xid r) running
    let tr := tracks r
    let u := elemUse t xid r
    ∃ (l : RowIn) (s1 s2 s3 s4 s5 s6 : State),
    Runs (loadMat xid tr u.a) t l.a s1 ∧ Runs (checkSync xid l.a) s1 () s2 ∧ Runs (loadArgs xid tr u.shape u.chain.epi) s2 l.epi s3 ∧
    Runs (loadOld xid u.c (u.final t xid l.epi).2.isSome) s3 l.old s4 ∧ apart (u.outs t xid l) (u.ins t xid l) = true ∧
    let p := u.plan s4 t xid l
    p.wrong = false ∧ Runs (prepPlan xid p) s4 () s5 ∧ Runs (watching xid p.stores (doPlan xid p)) s5 () s6 := by
  have h : (let r := elemRec; let t := atStart (.rowfn xid r) running
    let tr := tracks r
    let u := elemUse t xid r
    chk (loadMat xid tr u.a) t fun a s1 => chk (checkSync xid a) s1 fun _ s2 => chk (loadArgs xid tr u.shape u.chain.epi) s2 fun epi s3 =>
    chk (loadOld xid u.c (u.final t xid epi).2.isSome) s3 fun old s4 =>
    let l : RowIn := ⟨a, epi, old⟩
    apart (u.outs t xid l) (u.ins t xid l) &&
    let p := u.plan s4 t xid l
    !p.wrong && chk (prepPlan xid p) s4 fun _ s5 => chk (watching xid p.stores (doPlan xid p)) s5 fun _ _ => true) = true := by decide +kernel
  obtain ⟨a, s1, h1, h⟩ := chk_runs h
  obtain ⟨_, s2, h2, h⟩ := chk_runs h
  obtain ⟨epi, s3, h3, h⟩ := chk_runs h
  obtain ⟨old, s4, h4, h⟩ := chk_runs h
  simp only [Bool.and_eq_true, Bool.not_eq_true'] at h
  obtain ⟨a1, p1, h⟩ := h
  obtain ⟨_, s5, h5, h⟩ := chk_runs h
  obtain ⟨_, s6, h6, _⟩ := chk_runs h
  exact ⟨⟨a, epi, old⟩, s1, s2, s3, s4, s5, s6, h1, h2, h3, h4, a1, p1, h5, h6⟩

/-- Beside the BLOB, the remote object and the index, the job names the table (slot 5), a table and an index of module 1 (6, 7) and a graph
(8). What module 1 has answered a SKETCH_SCAN and a RERANK is staged, both without records. -/
def far (h : Nat) : Nat := h + 18014398509481984
def hGraph : Nat := mkHandle State.reset 9 11
def graphObj : Obj := { blob1 with base := 0x900000000, area := .graph ⟨4, 0, 0, 64, 0, 8, 0⟩ }
def ctxWide : Ctx := { ctxRun with staged := [(askKey (far hIdx) 3, List.replicate 8 0), (askKey (far hIdx) 4, List.replicate 8 0)] }
def jobWide : Job := { jobRun with ctxs := [ctxWide], handles := jobRun.handles ++ [hTab, far hTab, far hIdx, hGraph] }
def wide : State := { congested with
  objs := ring4.objs ++ [(hTab, tableObj), (hIdx, indexObj), (hJob, jobObj), (hGraph, graphObj), (far hTab, tableObj), (far hIdx, indexObj)]
  jobs := [(hJob, jobWide)]
  spad := mwrite congested.spad 22528 (listHead 0 4 4) }
theorem issuing_wide : Issuing wide xid jobWide ctxWide := ⟨by decide +kernel, by decide +kernel, by decide +kernel, rfl⟩

def gatherRec (list : Nat) : BitVec 512 :=
  recOf [(4, 1, 8), (8, 8, inShare 24576), (0x10, 8, list), (0x18, 8, inShare 32768), (0x20, 4, 16), (0x28, 8, 8)]
theorem test_IrregularRecordsComplete_gatherNone : let r := gatherRec (inShare 12288); let t := atStart (.gather xid r) wide
    let g := gatherUse t xid r
    ∃ s1, Runs (indices xid (tracks r) (oref t xid (fld r 0x10 8)) g.w g.limit g.sentinel) t [] s1 := ⟨_, runs_of (by decide +kernel)⟩
theorem test_IrregularRecordsComplete_gather : let r := gatherRec (inShare 4096); let t := atStart (.gather xid r) wide
    let g := gatherUse t xid r
    let dst := oref t xid (fld r 0x18 8)
    ∃ ids s1 rows s2 s3 s4, Runs (indices xid (tracks r) (oref t xid (fld r 0x10 8)) g.w g.limit g.sentinel) t ids s1 ∧
    ids ≠ [] ∧ gatherClash t xid r ids = false ∧ Runs (gatherRows xid (tracks r) g ids) s1 rows s2 ∧
    Runs (prepRef xid dst 0 (rowsSpan ids.length ((rows.map (·.length)).foldl max g.bytes))) s2 () s3 ∧
    Runs (saveAll xid (gatherStores dst g.bytes rows)) s3 () s4 := by
  have h : (let r := gatherRec (inShare 4096); let t := atStart (.gather xid r) wide
    let g := gatherUse t xid r
    let dst := oref t xid (fld r 0x18 8)
    chk (indices xid (tracks r) (oref t xid (fld r 0x10 8)) g.w g.limit g.sentinel) t fun ids s1 =>
    decide (ids ≠ []) && !gatherClash t xid r ids && chk (gatherRows xid (tracks r) g ids) s1 fun rows s2 =>
    chk (prepRef xid dst 0 (rowsSpan ids.length ((rows.map (·.length)).foldl max g.bytes))) s2 fun _ s3 =>
    chk (saveAll xid (gatherStores dst g.bytes rows)) s3 fun _ _ => true) = true := by decide +kernel
  obtain ⟨ids, s1, h1, h⟩ := chk_runs h
  simp only [Bool.and_eq_true, Bool.not_eq_true', decide_eq_true_eq] at h
  obtain ⟨⟨h2, h3⟩, h⟩ := h
  obtain ⟨rows, s2, h4, h⟩ := chk_runs h
  obtain ⟨_, s3, h5, h⟩ := chk_runs h
  obtain ⟨_, s4, h6, _⟩ := chk_runs h
  exact ⟨ids, s1, rows, s2, s3, s4, h1, h2, h3, h4, h5, h6⟩

/-- SCATTER_ADD of FP32 rows of 16 bytes, their list at 4,096 of the share, to the operand given. -/
def scatterRec (dst : Nat) : BitVec 512 :=
  recOf [(4, 1, 8), (5, 1, 10), (8, 8, dst), (0x10, 8, inShare 4096), (0x18, 8, inShare 32768), (0x20, 4, 16), (0x28, 8, 8), (0x30, 4, 1)]
/-- Its rows can be read, with what follows tested of them. -/
def scattered (dst : Nat) (k : ScatterUse → List (Option Nat) → List (Nat × Nat × List Byte) → State → Bool) : Bool :=
  let r := scatterRec dst; let t := atStart (.scatterAdd xid r) wide
  let u := scatterUse t xid r
  chk (indices xid (tracks r) u.ix u.w u.limit (bitAt (fld r 6 1) 0)) t fun ids s1 => chk (scatterRows xid (tracks r) u ids) s1 fun adds s2 =>
    k u ids adds s2
theorem scattered_runs {dst : Nat} {k : ScatterUse → List (Option Nat) → List (Nat × Nat × List Byte) → State → Bool} (h : scattered dst k = true) :
    let r := scatterRec dst; let t := atStart (.scatterAdd xid r) wide
    let u := scatterUse t xid r
    ∃ ids adds s1 s2, Runs (indices xid (tracks r) u.ix u.w u.limit (bitAt (fld r 6 1) 0)) t ids s1 ∧
      Runs (scatterRows xid (tracks r) u ids) s1 adds s2 ∧ k u ids adds s2 = true := by
  obtain ⟨ids, s1, h1, h⟩ := chk_runs h
  obtain ⟨adds, s2, h2, h⟩ := chk_runs h
  exact ⟨ids, adds, s1, s2, h1, h2, h⟩
theorem test_IrregularRecordsComplete_scatterHere : let r := scatterRec (inShare 24576); let t := atStart (.scatterAdd xid r) wide
    let u := scatterUse t xid r
    remoteTable t u.dst = none ∧ tableOf t u.dst = none ∧ (∀ h, u.dst.space = .obj h → homeOf h = moduleId t) ∧
    ∃ ids adds s1 s2, Runs (indices xid (tracks r) u.ix u.w u.limit (bitAt (fld r 6 1) 0)) t ids s1 ∧
    Runs (scatterRows xid (tracks r) u ids) s1 adds s2 ∧ scatterClash t u ids.length adds = false ∧
    ∃ all s3 s4 s5, let rows := byRow (adds.map fun e => (e.1, e.2.2))
    Runs (rows.forM fun e => prepRef xid u.dst (e.1 * u.stride) u.bytes) s2 () s3 ∧ Runs (scatterSums xid (tracks r) u rows) s3 all s4 ∧
    Runs (saveAll xid (all.map (·.2))) s4 () s5 := by
  have h : scattered (inShare 24576) (fun u ids adds s2 => !scatterClash (atStart (.scatterAdd xid (scatterRec (inShare 24576))) wide) u ids.length adds &&
    let rows := byRow (adds.map fun e => (e.1, e.2.2))
    chk (rows.forM fun e => prepRef xid u.dst (e.1 * u.stride) u.bytes) s2 fun _ s3 => chk (scatterSums xid false u rows) s3 fun all s4 =>
    chk (saveAll xid (all.map (·.2))) s4 fun _ _ => true) = true := by decide +kernel
  obtain ⟨ids, adds, s1, s2, h1, h2, h⟩ := scattered_runs h
  simp only [Bool.and_eq_true, Bool.not_eq_true'] at h
  obtain ⟨h3, h⟩ := h
  obtain ⟨_, s3, h4, h⟩ := chk_runs h
  obtain ⟨all, s4, h5, h⟩ := chk_runs h
  obtain ⟨_, s5, h6, _⟩ := chk_runs h
  exact ⟨by decide +kernel, by decide +kernel, fun h e => (by cases e), ids, adds, s1, s2, h1, h2, h3, all, s3, s4, s5, h4, h5, h6⟩
theorem test_IrregularRecordsComplete_scatterAway : let r := scatterRec (inSlot 3 0); let t := atStart (.scatterAdd xid r) wide
    let u := scatterUse t xid r
    remoteTable t u.dst = none ∧ tableOf t u.dst = none ∧ u.dst.space = .obj hRemote ∧ homeOf hRemote ≠ moduleId t ∧
    ∃ ids adds s1 s2, Runs (indices xid (tracks r) u.ix u.w u.limit (bitAt (fld r 6 1) 0)) t ids s1 ∧
    Runs (scatterRows xid (tracks r) u ids) s1 adds s2 ∧ scatterClash t u ids.length adds = false ∧
    ∃ s3, Runs (scatterAway xid u hRemote adds) s2 () s3 := by
  have h : scattered (inSlot 3 0) (fun u ids adds s2 => !scatterClash (atStart (.scatterAdd xid (scatterRec (inSlot 3 0))) wide) u ids.length adds &&
    chk (scatterAway xid u hRemote adds) s2 fun _ _ => true) = true := by decide +kernel
  obtain ⟨ids, adds, s1, s2, h1, h2, h⟩ := scattered_runs h
  simp only [Bool.and_eq_true, Bool.not_eq_true'] at h
  obtain ⟨h3, h⟩ := h
  obtain ⟨_, s3, h4, _⟩ := chk_runs h
  exact ⟨by decide +kernel, by decide +kernel, by decide +kernel, by decide +kernel, ids, adds, s1, s2, h1, h2, h3, s3, h4⟩
theorem test_IrregularRecordsComplete_scatterTable : let r := scatterRec (inSlot 5 0); let t := atStart (.scatterAdd xid r) wide
    let u := scatterUse t xid r
    remoteTable t u.dst = none ∧ tableOf t u.dst = some (hTab, tableObj, tableArea1) ∧
    ∃ ids adds s1 s2, Runs (indices xid (tracks r) u.ix u.w u.limit (bitAt (fld r 6 1) 0)) t ids s1 ∧
    Runs (scatterRows xid (tracks r) u ids) s1 adds s2 ∧
    ∃ o v, Runs (storeTarget xid hTab 0 0) s2 (some o) v ∧ stepWindow v tableArea1 (fld r 0x30 4) = .ok ∧
    ∃ w, addRows v (ctxTx v xid) hTab (moduleId v) (fld r 0x30 4) ((combinerRows t xid r adds).map fun e =>
      (e.1, e.2.1, (e.2.2 ++ List.replicate tableArea1.dim 0).take tableArea1.dim)) = (.ok, w) := by
  have h : scattered (inSlot 5 0) (fun _ _ adds s2 => chk (storeTarget xid hTab 0 0) s2 fun o v =>
    o.isSome && (stepWindow v tableArea1 1 == .ok) && ((addRows v (ctxTx v xid) hTab (moduleId v) 1 ((combinerRows
      (atStart (.scatterAdd xid (scatterRec (inSlot 5 0))) wide) xid (scatterRec (inSlot 5 0)) adds).map fun e =>
      (e.1, e.2.1, (e.2.2 ++ List.replicate tableArea1.dim 0).take tableArea1.dim))).1 == .ok)) = true := by decide +kernel
  obtain ⟨ids, adds, s1, s2, h1, h2, h⟩ := scattered_runs h
  obtain ⟨o, v, h3, h⟩ := chk_runs h
  simp only [Bool.and_eq_true, beq_iff_eq] at h
  obtain ⟨⟨h4, h5⟩, h6⟩ := h
  obtain ⟨o', rfl⟩ := some_of h4
  exact ⟨by decide +kernel, by decide +kernel, ids, adds, s1, s2, h1, h2, o', v, h3, h5, _, Prod.ext h6 rfl⟩
theorem test_IrregularRecordsComplete_scatterFarTable : let r := scatterRec (inSlot 6 0); let t := atStart (.scatterAdd xid r) wide
    let u := scatterUse t xid r
    remoteTable t u.dst = some (far hTab) ∧ ∃ ids adds s1 s2, Runs (indices xid (tracks r) u.ix u.w u.limit (bitAt (fld r 6 1) 0)) t ids s1 ∧
    Runs (scatterRows xid (tracks r) u ids) s1 adds s2 ∧ reaches s2 (homeOf (far hTab)) = true ∧ ctxTx s2 xid = 0 := by
  have h : scattered (inSlot 6 0) (fun _ _ _ s2 => reaches s2 (homeOf (far hTab)) && (ctxTx s2 xid == 0)) = true := by decide +kernel
  obtain ⟨ids, adds, s1, s2, h1, h2, h⟩ := scattered_runs h
  simp only [Bool.and_eq_true, beq_iff_eq] at h
  exact ⟨by decide +kernel, ids, adds, s1, s2, h1, h2, h.1, h.2⟩

/-- NEIGHBOURS of the list [1, 3] with their frontier positions: the vertices have none. -/
def neighboursRec : BitVec 512 :=
  recOf [(4, 1, 2), (8, 8, inSlot 8 0), (0x10, 8, inShare 0), (0x18, 8, inShare 12288), (0x20, 8, inShare 4096), (0x28, 8, inShare 22528)]
theorem test_IrregularRecordsComplete_neighbours : let r := neighboursRec; let t := atStart (.neighbours xid r) wide
    ∃ (g : GraphArea) (l : GraphIn) (s1 s2 s3 : State), graphOf t (oref t xid (fld r 8 8)) = some g ∧ Runs (graphIn xid r g) t l s1 ∧
    (∀ e ∈ l.lists r g, l.clash t xid r g e.2.1 e.1 (l.kept (bitAt (fld r 4 1) 0)).length = false) ∧
    Runs ((l.lists r g).forM fun e => prepList xid e.2.1 e.1 e.2.2.1 true) s1 () s2 ∧ Runs (saveLists xid ((l.lists r g).map (·.2))) s2 () s3 := by
  have h : (let r := neighboursRec; let t := atStart (.neighbours xid r) wide
    let g : GraphArea := ⟨4, 0, 0, 64, 0, 8, 0⟩
    chk (graphIn xid r g) t fun l s1 => decide (∀ e ∈ l.lists r g, l.clash t xid r g e.2.1 e.1 (l.kept (bitAt (fld r 4 1) 0)).length = false) &&
    chk ((l.lists r g).forM fun e => prepList xid e.2.1 e.1 e.2.2.1 true) s1 fun _ s2 => chk (saveLists xid ((l.lists r g).map (·.2))) s2 fun _ _ => true) =
    true := by decide +kernel
  obtain ⟨l, s1, h1, h⟩ := chk_runs h
  simp only [Bool.and_eq_true, decide_eq_true_eq] at h
  obtain ⟨h2, h⟩ := h
  obtain ⟨_, s2, h3, h⟩ := chk_runs h
  obtain ⟨_, s3, h4, _⟩ := chk_runs h
  exact ⟨_, l, s1, s2, s3, by decide +kernel, h1, h2, h3, h4⟩

/-- A scan of the index in a slot: its one query lies at 32,768, its candidate list at 16,384. -/
def scanOf (slot : Nat) : BitVec 512 :=
  recOf [(4, 2, 1), (6, 2, 1), (8, 8, inSlot slot 0), (0x10, 8, inShare 32768), (0x18, 8, inShare 16384), (0x20, 2, 4)]
theorem test_IrregularRecordsComplete_scan : let r := scanOf 4; let t := atStart (.rerank xid r) wide
    ∃ (h : Nat) (a : IndexArea) (block : Memory) (s1 s2 s3 : State), Runs (indexOf xid (fld r 8 8)) t (h, a) s1 ∧
    Runs (loadRef xid (tracks r) (oref s1 xid (fld r 0x10 8)) 0 (fld r 4 2 * (vectorBytes a + 64))) s1 block s2 ∧
    Runs (checkCandidates xid r (vectorBytes a + 64)) s2 () s3 ∧ homeOf h = moduleId s1 := by
  have h : (let r := scanOf 4; let t := atStart (.rerank xid r) wide
    chk (indexOf xid (fld r 8 8)) t fun q s1 => chk (loadRef xid (tracks r) (oref s1 xid (fld r 0x10 8)) 0 (fld r 4 2 * (vectorBytes q.2 + 64))) s1 fun _ s2 =>
    chk (checkCandidates xid r (vectorBytes q.2 + 64)) s2 fun _ _ => homeOf q.1 == moduleId s1) = true := by decide +kernel
  obtain ⟨q, s1, h1, h⟩ := chk_runs h
  obtain ⟨b, s2, h2, h⟩ := chk_runs h
  obtain ⟨_, s3, h3, h⟩ := chk_runs h
  exact ⟨q.1, q.2, b, s1, s2, s3, h1, h2, h3, by simpa using h⟩
theorem test_IrregularRecordsComplete_scanFar : let r := scanOf 7; let t := atStart (.rerank xid r) wide
    ∃ (h : Nat) (a : IndexArea) (block : Memory) (b : List Byte) (s1 s2 s3 s4 s5 : State), Runs (indexOf xid (fld r 8 8)) t (h, a) s1 ∧
    let stride := vectorBytes a + 64
    Runs (loadRef xid (tracks r) (oref s1 xid (fld r 0x10 8)) 0 (fld r 4 2 * stride)) s1 block s2 ∧
    Runs (checkCandidates xid r stride) s2 () s3 ∧ homeOf h ≠ moduleId s1 ∧
    Runs (askHome xid (tracks r) h 3 scanCode (fld r 4 2 * stride) (fld r 4 2 + fld r 0x20 2 * 65536 + fld r 6 2 * 4294967296 +
      (if tracks r then 281474976710656 else 0) + fld r 0x24 4 * 18446744073709551616) (mread block 0 (fld r 4 2 * stride))) s3 b s4 ∧
    Runs ((parseScan (fld r 4 2) (b.drop 8)).forM fun e => writeCandList xid (tracks r) (fld r 0x18 8) (fld r 0x20 2) e.position e.epoch e.elems
      e.truncated) s4 () s5 := by
  have h : (let r := scanOf 7; let t := atStart (.rerank xid r) wide
    chk (indexOf xid (fld r 8 8)) t fun q s1 => let stride := vectorBytes q.2 + 64
    chk (loadRef xid (tracks r) (oref s1 xid (fld r 0x10 8)) 0 (fld r 4 2 * stride)) s1 fun block s2 =>
    chk (checkCandidates xid r stride) s2 fun _ s3 => decide (homeOf q.1 ≠ moduleId s1) &&
    chk (askHome xid (tracks r) q.1 3 scanCode (fld r 4 2 * stride) (fld r 4 2 + fld r 0x20 2 * 65536 + fld r 6 2 * 4294967296 +
      (if tracks r then 281474976710656 else 0) + fld r 0x24 4 * 18446744073709551616) (mread block 0 (fld r 4 2 * stride))) s3 fun b s4 =>
    chk ((parseScan (fld r 4 2) (b.drop 8)).forM fun e => writeCandList xid (tracks r) (fld r 0x18 8) (fld r 0x20 2) e.position e.epoch e.elems
      e.truncated) s4 fun _ _ => true) = true := by decide +kernel
  obtain ⟨q, s1, h1, h⟩ := chk_runs h
  obtain ⟨block, s2, h2, h⟩ := chk_runs h
  obtain ⟨_, s3, h3, h⟩ := chk_runs h
  simp only [Bool.and_eq_true, decide_eq_true_eq] at h
  obtain ⟨h4, h⟩ := h
  obtain ⟨b, s4, h5, h⟩ := chk_runs h
  obtain ⟨_, s5, h6, _⟩ := chk_runs h
  exact ⟨q.1, q.2, block, b, s1, s2, s3, s4, s5, h1, h2, h3, h4, h5, h6⟩
/-- RERANK of the empty list at 8,192 by the index in a slot, its query at 32,768, to the list at 16,384. -/
def rerankRec (slot : Nat) : BitVec 512 :=
  recOf [(4, 2, 4), (8, 8, inSlot slot 0), (0x10, 8, inShare 32768), (0x18, 8, inShare 8192), (0x20, 8, inShare 16384)]
theorem test_IrregularRecordsComplete_rerank (far' : Bool) : let r := rerankRec (if far' then 7 else 4); let t := atStart (.rerank xid r) wide
    ∃ (h : Nat) (a : IndexArea) (q : Memory) (l : Lst) (out : OutList) (epoch : Nat) (elems : List (List Byte)) (s1 s2 s3 s4 s5 s6 s7 s8 : State),
    Runs (indexOf xid (fld r 8 8)) t (h, a) s1 ∧ let (cr, qr, n) := (oref s1 xid (fld r 0x18 8), oref s1 xid (fld r 0x10 8), fld r 4 2)
    Runs (loadRef xid (tracks r) qr 0 (vectorBytes a)) s1 q s2 ∧ Runs (loadList xid (tracks r) cr 16) s2 l s3 ∧
    Runs (outList xid (tracks r) (oref s1 xid (fld r 0x20 8))) s3 out s4 ∧
    listOverlaps s1 out 16 n cr 16 l.elems.length = false ∧ rangesOverlap out.ref (out.bytes 16 n) qr (vectorBytes a) = false ∧
    Runs (candEpoch (listRef s1 cr)) s4 epoch s5 ∧ Runs (rerankElems xid r h a epoch (mread q 0 (vectorBytes a)) l) s5 elems s6 ∧
    Runs (prepList xid out 16 elems false) s6 () s7 ∧ Runs (saveLists xid [(out, elems, l.flags % 2)]) s7 () s8 := by
  have h : ∀ b : Bool, (let r := rerankRec (if b then 7 else 4); let t := atStart (.rerank xid r) wide
    chk (indexOf xid (fld r 8 8)) t fun i s1 => let cr := oref s1 xid (fld r 0x18 8); let qr := oref s1 xid (fld r 0x10 8); let n := fld r 4 2
    chk (loadRef xid (tracks r) qr 0 (vectorBytes i.2)) s1 fun q s2 => chk (loadList xid (tracks r) cr 16) s2 fun l s3 =>
    chk (outList xid (tracks r) (oref s1 xid (fld r 0x20 8))) s3 fun out s4 =>
    !listOverlaps s1 out 16 n cr 16 l.elems.length && !rangesOverlap out.ref (out.bytes 16 n) qr (vectorBytes i.2) &&
    chk (candEpoch (listRef s1 cr)) s4 fun epoch s5 => chk (rerankElems xid r i.1 i.2 epoch (mread q 0 (vectorBytes i.2)) l) s5 fun elems s6 =>
    chk (prepList xid out 16 elems false) s6 fun _ s7 => chk (saveLists xid [(out, elems, l.flags % 2)]) s7 fun _ _ => true) = true := by decide +kernel
  have h := h far'
  obtain ⟨i, s1, h1, h⟩ := chk_runs h
  obtain ⟨q, s2, h2, h⟩ := chk_runs h
  obtain ⟨l, s3, h3, h⟩ := chk_runs h
  obtain ⟨out, s4, h4, h⟩ := chk_runs h
  simp only [Bool.and_eq_true, Bool.not_eq_true'] at h
  obtain ⟨⟨h5, h6⟩, h⟩ := h
  obtain ⟨epoch, s5, h7, h⟩ := chk_runs h
  obtain ⟨elems, s6, h8, h⟩ := chk_runs h
  obtain ⟨_, s7, h9, h⟩ := chk_runs h
  obtain ⟨_, s8, h10, _⟩ := chk_runs h
  exact ⟨i.1, i.2, q, l, out, epoch, elems, s1, s2, s3, s4, s5, s6, s7, s8, h1, h2, h3, h4, h5, h6, h7, h8, h9, h10⟩

/-! ## Steering, context events and placement -/

/-- The running context with its job, or itself, changed. -/
def ctxAs (f : Ctx → Ctx) : State := { running with jobs := [(hJob, { jobRun with ctxs := [f ctxRun] })] }
def jobAs (f : Job → Job) : State := { running with jobs := [(hJob, f jobRun)] }
def fullTxs : State := { running with txs := (List.range 4096).map fun k => (k, { owner := .context hJob 0 0xFF }) }
/-- Where a record of the context stands when it starts. -/
abbrev begunAt (s : State) : State := atStart (.fret xid 0) s
theorem test_SteeringRecordsAct_begin : Issuing running xid jobRun ctxRun ∧ ctxRun.tx = none ∧
    (beginTx (begunAt running) (.context xid.job xid.idx (jobPolder (begunAt running) xid.job))).isSome = true ∧
    Issuing fullTxs xid jobRun ctxRun ∧ beginTx (begunAt fullTxs) (.context xid.job xid.idx (jobPolder (begunAt fullTxs) xid.job)) = none :=
  ⟨issuing_running, rfl, by decide +kernel, ⟨rfl, by decide +kernel, rfl, rfl⟩, by decide +kernel⟩
theorem test_SteeringRecordsAct_inside : let c : Ctx := { ctxRun with tx := some 1 }
    Issuing aborted xid { jobRun with ctxs := [c] } c ∧ c.tx = some 1 ∧ (kget (begunAt aborted).txs 1).isSome = true :=
  ⟨⟨rfl, by decide +kernel, rfl, rfl⟩, by decide +kernel⟩
/-- LOOP of X1: adds 1, below 5 goes on at record 0, else leaves 0. -/
def loopRec (step limit : Nat) : BitVec 512 := recOf [(4, 1, 1), (8, 8, step), (0x10, 8, limit)]
theorem test_SteeringRecordsAct_loop : fld (loopRec 1 5) 0x10 8 = 5 ∧
    (ctxRun.x[fld (loopRec 1 5) 4 1 - 1]?.getD 0 + BitVec.ofNat 64 (fld (loopRec 1 5) 8 8)).toNat < 5 ∧
    5 ≤ (ctxRun.x[fld (loopRec 5 5) 4 1 - 1]?.getD 0 + BitVec.ofNat 64 (fld (loopRec 5 5) 8 8)).toNat := by decide +kernel
def waitRec (kind : Nat) (at' value : Nat) : BitVec 512 := recOf [(4, 1, kind), (8, 8, at'), (0x10, 8, value), (0x18, 4, 1)]
theorem test_SteeringRecordsAct_wait : fld (waitRec 1 0 3) 4 1 = 1 ∧ fld (waitRec 2 (inSlot 2 0) 3) 4 1 = 2 ∧
    (oref (begunAt running) xid (fld (waitRec 2 (inSlot 2 0) 3) 8 8)).space = .obj hBlob ∧ homeOf hBlob = moduleId (begunAt running) ∧
    (∃ o, liveObj (begunAt running) hBlob = some o ∧ canRead o (jobPolder (begunAt running) xid.job) = true ∧
      fld (waitRec 2 (inSlot 2 0) 0) 0x10 8 ≤ o.version ∧ o.version < fld (waitRec 2 (inSlot 2 0) 3) 0x10 8) ∧
    Issuing { running with objs := [(hJob, jobObj)] } xid jobRun ctxRun ∧ liveObj (begunAt { running with objs := [(hJob, jobObj)] }) hBlob = none :=
  ⟨by decide +kernel, by decide +kernel, by decide +kernel, by decide +kernel, ⟨_, rfl, by decide +kernel⟩,
   ⟨by decide +kernel, by decide +kernel, by decide +kernel, rfl⟩, by decide +kernel⟩
/-- The running context with a handle of group 7 in slot 5. -/
def hGroup : Nat := mkHandle State.reset 11 7
def grouped : State := { congested with
  objs := congested.objs ++ [(hGroup, { blob1 with base := 0x600000000, area := .group ⟨7, false, false, 3, 1, 0, 3⟩ })]
  jobs := [(hJob, { jobRun with handles := [0, 0, hBlob, hRemote, hIdx, hGroup] })]
  fabric := { congested.fabric with ports := congested.fabric.ports.map fun p => { p with used := [(0, 5000)] } } }
/-- REDUCE (0) of two FP32 values from the share at 0 to the share at 12,288, to all members. -/
def collRec (slot : Nat) : BitVec 512 := recOf [(4, 1, 0), (5, 1, 10), (6, 2, 0xFFFF), (8, 8, inSlot slot 0), (0x10, 8, inShare 0), (0x18, 8, inShare 12288), (0x20, 8, 8)]
theorem test_SteeringRecordsAct_collective : let r := collRec 5; let t := atStart (.fret xid r) grouped
    Issuing grouped xid { jobRun with handles := jobRun.handles ++ [hGroup] } ctxRun ∧ collOf grouped xid r = none ∧
    (∃ g, kget t.fabric.groups (collGroup t xid r) = some g ∧ unreached t g = false ∧ collHeld g = false ∧
      collFault t xid r (collGroup t xid r) g = none) ∧ groupUsable t (collGroup t xid r) = true ∧
    (∃ m u, Runs (loadRef xid (tracks r) (oref t xid (fld r 0x10 8)) 0 (fld r 0x20 8)) t m u) ∧
    collOf running xid (collRec 2) = none ∧ kget running.fabric.groups (collGroup running xid (collRec 2)) = none :=
  ⟨⟨by decide +kernel, by decide +kernel, by decide +kernel, rfl⟩, rfl, ⟨_, rfl, by decide +kernel⟩, by decide +kernel,
   (let ⟨m, u, h, _⟩ := chk_runs (k := fun _ _ => true) (by decide +kernel); ⟨m, u, h⟩), rfl, by decide +kernel⟩

/-- The issuing context of a program with fret spacing 3, at an uptime, changed. -/
def paced (up : Nat) (f : Ctx → Ctx) : State := { running with
  jobs := [(hJob, { jobRun with area := ⟨0x200, 0, 4, 0, 1, 1, 0, 3, 0, 5, 0, 0, 0, 0, 0⟩, ctxs := [f ctxRun] })]
  power := { running.power with uptime := up } }
theorem test_ContextEventsAct_frets : let s := paced 1000 id
    getCtx s xid = some ({ jobRun with area := ⟨0x200, 0, 4, 0, 1, 1, 0, 3, 0, 5, 0, 0, 0, 0, 0⟩, ctxs := [ctxRun] }, ctxRun) ∧
    ctxRun.atFret = false ∧ ctxRun.held = false ∧ ctxRun.ended = false ∧ ctxRun.wait = .none ∧ ctxRun.resident.isSome = true ∧ issues s xid = true ∧ 65536 ≤ (1000 - ctxRun.fretAt) * s.power.arr * 125 / 2 ∧
    (10 - ctxRun.fretAt) * (paced 10 id).power.arr * 125 / 2 < 65536 ∧ 0 < (jobProgram s xid.job).fretSpacing ∧
    3 ≤ ({ ctxRun with sinceFret := 3 } : Ctx).sinceFret ∧ ctxRun.sinceFret < (jobProgram s xid.job).fretSpacing := by decide +kernel
theorem test_ContextEventsAct_waits : let c := fun w => ({ ctxRun with wait := w, timeout := 1000, waitSince := 5 } : Ctx)
    ((100 : Nat) ≤ (paced 100 fun _ => c (.backoff 100)).power.uptime ∧ (paced 99 fun _ => c (.backoff 100)).power.uptime < 100) ∧
    (c (.jobBarrier 3)).wait.ofEvent = true ∧ (c (.jobBarrier 3)).waitSince + 1000 ≤ (paced 1005 fun _ => c (.jobBarrier 3)).power.uptime ∧
    ctxRun.timeout = 0 ∧ homeOf hBlob = moduleId running ∧
    (kget running.objs hBlob).map (·.version) = some 1 ∧ (ctxAs fun _ => c (.jobBarrier 3)).jobs.map (·.2.ctxs) = [[c (.jobBarrier 3)]] ∧
    xid.idx = 0 ∧ ctxRun.ended = false ∧ ctxRun.wait ≠ .jobBarrier 3 := by decide +kernel
/-- The job being secured: its record staged as the journal's record `k`. -/
def securingAt (k : Nat) : State := jobAs fun j => { j with securing := some 0, secStaged := some (0, 1, 0), secRecord := some k }
theorem test_ContextEventsAct_secured : (securingAt 0).flash.jdone = 0 ∧ (getCtx (securingAt 5) xid).map (fun e => (e.1.securing, e.1.secStaged, e.1.secRecord)) =
    some (some 0, some (0, 1, 0), some 5) := by decide +kernel
theorem test_ContextEventsAct_group : let s := ctxAs fun c => { c with wait := .groupBarrier 7 3 }
    (kget s.fabric.groups 7).map (·.held) = some false ∧ groupUsable s 7 = true ∧ atGroupBarrier s 7 3 = [xid] ∧
    (kget (s.modGroup 7 fun g => { g with held := true }).fabric.groups 7).map (·.held) = some true := by decide +kernel

/-- Two jobs of polder 0 with one context each; `a` and `b` say where the contexts are, and the priorities are given. -/
def hJob2 : Nat := mkHandle State.reset 7 10
def jobOf (n pri : Nat) : Nat × Obj := (mkHandle State.reset 7 n, { jobObj with base := 0x500000000 + n * 65536, created := n
                                                                                area := .job { jobArea1 with polder := 0, priority := pri } })
def twoJobs (pa pb : Nat) (a b : Ctx → Ctx) (cores : List (Nat × Core)) : State := { running with
  objs := [jobOf 9 pa, jobOf 10 pb], cores := cores
  jobs := [(hJob, { jobRun with ctxs := [a ctx0], handles := [], started := true }), (hJob2, { jobRun with ctxs := [b ctx0], handles := [], started := true })] }
def xid2 : CtxId := ⟨hJob2, 0⟩
def onCore (c : Ctx) : Ctx := { c with resident := some (0, 0, 0) }
def placed1 : State := twoJobs 1 1 onCore id [(0, { residents := [xid], issuing := some xid })]
theorem test_PlacementActs_place : waiting running 0 = [] ∧ waiting placed1 0 = [xid2] ∧
    (getCtx placed1 xid2).map (fun e => (e.2.resident, e.1.started)) = some (none, true) ∧ (coreFor placed1 xid2).isSome = true := by decide +kernel
/-- The waiting job has not started. -/
def newJob (s : State) : State := s.modJob hJob2 fun j => { j with started := false }
theorem test_PlacementActs_new : waiting (newJob placed1) 0 = [xid2] ∧
    (getCtx (newJob placed1) xid2).map (fun e => (e.2.resident, e.1.started)) = some (none, false) := by decide +kernel
/-- Polder 0 has only core 0, with one context to a core; `a` changes the one that is there, and its priority is below the other's. -/
def fullCore (evict : Nat) (a : Ctx → Ctx) : State := { twoJobs 1 2 (fun c => a (onCore c)) id [(0, { residents := [xid], blockedSince := some 0 })] with
  od := { running.od with vals := running.od.vals ++ [(0x300001, 1), (0x300008, evict), (0x300009, 1)] }, power := { running.power with uptime := 1000000 } }
theorem test_PlacementActs_evict : (od (fullCore 0 id) 0x3000 8).testBit 0 = false ∧ (od (fullCore 1 id) 0x3000 8).testBit 0 = true ∧
    (∀ k, leaving (fullCore 1 id) k = []) ∧ waiting (fullCore 1 id) 0 = [xid2] ∧ placeList (fullCore 1 id) (placedWith (fullCore 1 id) xid2) = none ∧
    (evictPlan (fullCore 1 id) xid2 (placedWith (fullCore 1 id) xid2).length (fun _ => true) false).isSome = true := by
  refine ⟨by decide +kernel, by decide +kernel, fun k => ?_, by decide +kernel, by decide +kernel, by decide +kernel⟩
  match k with
  | 0 => decide +kernel
  | k + 1 => rfl
/-- With another core there is room. -/
def roomy : State := { fullCore 1 id with od := { running.od with vals := running.od.vals ++ [(0x300001, 3), (0x300008, 1), (0x300009, 1)] } }
theorem test_PlacementActs_room : (od roomy 0x3000 8).testBit 0 = true ∧ (∀ k, leaving roomy k = []) ∧ waiting roomy 0 = [xid2] ∧
    (getCtx roomy xid2).map (·.2.resident) = some none ∧ (placeList roomy (placedWith roomy xid2)).isSome = true := by
  refine ⟨by decide +kernel, fun k => ?_, by decide +kernel, by decide +kernel, by decide +kernel⟩
  match k with
  | 0 => decide +kernel
  | k + 1 => rfl
def sliced : State := { twoJobs 1 1 (fun c => { onCore c with atFret := true }) (fun c => { c with resident := some (0, 1, 1) })
  [(0, { residents := [xid, xid2], issuing := some xid, runSince := some 0 })] with power := { running.power with uptime := 1000000 } }
theorem test_PlacementActs_slice : (sliced.core 0).residents = [xid, xid2] ∧ (sliced.core 0).issuing = some xid ∧ xid ≠ xid2 ∧
    runnable sliced xid = true ∧ runnable sliced xid2 = true ∧ ctxPriority sliced xid = ctxPriority sliced xid2 ∧
    (getCtx sliced xid).map (fun e => (e.2.atFret, e.2.turn)) = some (true, 0) ∧ (sliced.core 0).runSince = some 0 ∧
    od sliced 0x3100 1 ≤ 0 + (sliced.power.uptime - 0) ∧ (sliced.core 5).issuing = none := by decide +kernel
def blockedCore : State := fullCore 1 fun c => { c with wait := .jobBarrier 3 }
theorem test_PlacementActs_blocked : polderOfCore blockedCore 0 = some 0 ∧ (blockedCore.core 0).residents = [xid] ∧
    blocked blockedCore xid = true ∧ (blockedCore.core 0).blockedSince = some 0 ∧ 0 + od blockedCore 0x3104 0 * 1000 ≤ blockedCore.power.uptime ∧
    (od blockedCore 0x3000 8).testBit 0 = true ∧ waiting blockedCore 0 = [xid2] ∧ placeList blockedCore (placedWith blockedCore xid2) = none ∧
    (evictPlan blockedCore xid2 (placedWith blockedCore xid2).length (· == 0) true).isSome = true ∧
    xid ∈ (placed1.core 0).residents ∧ runnable placed1 xid = true := by decide +kernel
/-- Core 0 prefetches page 9 of this module, or of module 1. -/
def prefetching (remote : Option Nat) : State := { reading with cores := [(0, { prefetches := [{ id := 1, job := hJob, idx := 0, remote := remote, key := 7, stamp := 20 }] })] }
theorem test_PlacementActs_prefetch : let p : Prefetch := { id := 1, job := hJob, idx := 0, remote := none, key := 7, stamp := 20 }
    ((prefetching none).core 0).prefetches = [p] ∧ ((prefetching none).core 0).asks = [] ∧ p.arrived = false ∧ p.remote = none ∧
    ((prefetching (some 1)).core 0).prefetches = [{ p with remote := some 1 }] ∧ ((prefetching (some 1)).core 0).asks = [] ∧
    ∀ q ∈ (State.reset.core 0).prefetches, q.id ≠ 1 := by decide +kernel


/-! ## Supply, resets and security -/

/-- The module after reset with its power, or its security block, changed. -/
def powerAs (f : Power → Power) : State := { State.reset with power := f State.reset.power }
def secAs (f : Sec → Sec) : State := State.reset.modSec f
/-- At an uptime, with 12 V, in normal operation, the runtime booted or not. -/
def atTime (up : Nat) : State := powerAs fun p => { p with uptime := up }
def resetAsked (cause : Nat) : State := powerAs fun p => { p with resetReq := some cause }

theorem test_ChunksSumAndSaturate : (Val.inf (!false)) ∉ [Val.inf false] ∧ [(7 : Int), -3].length ≤ 2 ∧ -2147483648 ≤ [(7 : Int), -3].sum ∧
    [(7 : Int), -3].sum ≤ 2147483647 ∧ 2147483647 < [(2147483647 : Int), 1].sum ∧ [(-2147483648 : Int), -1].sum < -2147483648 ∧
    fIsInf f32Max = false ∧ (promote f32Max f32Max (.fin false 1 127)).2.satTotal = true ∧
    [((3 : Int), (-4 : Int))].length ≤ 2 ∧ ([((3 : Int), (-4 : Int))].map fun p => p.1 * p.2).sum = -12 := by decide +kernel

theorem test_ResetsAreRequested_links : State.reset.host.perst = false ∧ State.reset.power.phase = .running ∧
    (powerAs fun p => { p with phase := .rails }).power.phase ≠ .running ∧ State.reset.host.link ≠ .down ∧ State.reset.power.resetReq = none ∧
    State.reset.sec.boot = .ready ∧ State.reset.power.restarting = false ∧ (State.reset.modHost fun h => { h with perst := true }).host.perst = true :=
  by decide +kernel
theorem test_ResetsAreRequested_dogs : let s := atTime (1000 * od State.reset 0x5100 1)
    let b := { s with sec := { s.sec with boot := .booting }, power := { s.power with uptime := 1000 * od State.reset 0x5100 2 } }
    s.power.phase = .running ∧ s.sec.boot = .ready ∧ s.power.resetReq = none ∧ s.power.pd[19]? ≠ some .ret ∧
    s.sec.dogAt + 1000 * od s 0x5100 1 ≤ s.power.uptime ∧ s.sec.op = none ∧ b.sec.boot = .booting ∧
    b.sec.dogAt + 1000 * od b 0x5100 2 ≤ b.power.uptime ∧ b.power.phase = .running ∧ b.sec.op = none := by decide +kernel
theorem test_ResetsAreRequested_flr : (1 : Nat) ≠ 0 ∧ State.reset.execs = [] ∧ State.reset.txs = [] := by decide +kernel
theorem test_ModuleResetClears : (resetAsked 4).power.resetReq = some 4 ∧ (resetAsked 4).flash.dies = [] ∧ cfgQuiet (resetAsked 4) = true ∧
    (resetAsked 4).power.holdup = false ∧ (erasing eraseOp []).flash.dies ≠ [] ∧ State.reset.power.resetReq = none := by decide +kernel

def inPhase (p : Phase) : State := powerAs fun q => { q with phase := p, failedAt := 0, uptime := 1000000 }
/-- Power-loss mode 0 or 1 (OD 0x2230). -/
def lossMode (m : Nat) : State := { State.reset with od := { State.reset.od with vals := State.reset.od.vals ++ [(0x223000, m)] } }
theorem test_SupplyEventsMovePhases : (inPhase .off).power.phase = .off ∧ (inPhase .aux).power.phase = .aux ∧
    (inPhase .rails).power.phase = .rails ∧ (8 : Nat) ≤ 8 ∧ (inPhase .retryWait).power.phase = .retryWait ∧
    (inPhase .retryWait).power.failedAt + 1000000 ≤ (inPhase .retryWait).power.uptime ∧ (⟨true, false, true⟩ : SensePins) ≠ State.reset.power.pinsNow ∧
    supplied State.reset = true ∧ od (lossMode 1) 0x2230 0 = 1 ∧ supplied (lossMode 1) = true ∧ od (lossMode 0) 0x2230 0 = 0 ∧
    (inPhase .brownout).power.phase = .brownout ∧ (inPhase .aux).power.phase ≠ .off ∧ supplied (inPhase .aux) = false ∧
    (inPhase .tripped).power.phase = .tripped ∧ (115 : Int) ≤ 120 ∧ (70 : Int) < 80 ∧ (60 : Int) < 65 := by decide +kernel
def warm (die : Int) (power : Nat) : Sensors := { die := die, dieMin := 50, dieMean := 55, nand := 60, inlet := 30, power := power }
theorem test_MeasurementsAct : let day := { atTime 86400000000 with power := { (atTime 86400000000).power with holdup := true } }
    (atTime 5).power.phase = .running ∧ (atTime 5).power.holdup = false ∧ od (atTime 5) 0x6105 3 ≤ min 100 90 ∧
    day.power.holdup = true ∧ day.power.measuredAt + 86400000000 ≤ day.power.uptime ∧
    (atTime 5000).power.uptime % 1000 = 0 ∧ (atTime 5000).power.ps < 3 ∧ (od (atTime 5000) 0x6001 1 : Int) ≤ (warm 110 100).die ∧
    (atTime 5000).power.episode = none ∧ (warm 60 100).die < (od (atTime 5000) 0x6001 1 : Int) ∧ (warm 60 100).power ≤ powerCap 0 ∧
    0 < (atTime 3600000000).power.uptime ∧ (atTime 3600000000).power.uptime % 3600000000 = 0 := by decide +kernel
theorem test_MeasurementsAct_up : let s := powerAs fun p => { p with arr := 10, uptime := 1000000 }
    s.power.phase = .running ∧ s.power.arr < 15 ∧ (warm 60 100).die < (od s 0x6001 1 : Int) - (od s 0x6001 2 : Int) ∧
    (warm 60 100).power * 100 < powerCap s.power.ps * 95 ∧ s.power.stepAt + 10000 ≤ s.power.uptime := by decide +kernel

theorem test_SpdmAnswers : spdmUp State.reset true = true ∧ spdmUp State.reset false = true ∧
    (secAs fun c => { c with ownerChain := [1, 2] }).sec.ownerChain ≠ [] ∧ spdmUp (secAs fun c => { c with ownerChain := [1, 2] }) true = true ∧
    (2 : Nat) ≤ 2 ∧ (measurement State.reset 3).isSome = true ∧ State.reset.sec.sessions.length < 4 ∧
    4 ≤ (secAs fun c => { c with sessions := List.replicate 4 (true, false) }).sec.sessions.length := by decide +kernel

/-- The debug lock with a challenge to the TAP outstanding. -/
def debugAs (f : Debug → Debug) : State := secAs fun c => { c with lock := f { c.lock with challenge := some (true, [1]) } }
/-- A reopen record whose password is empty. -/
def reopen1 : Reopen := ⟨[], Config.sha256 [], 3, 5⟩
theorem test_DebugLockOpensAndCloses_password : let s := debugAs fun d => { d with reopen := some reopen1 }
    s.power.phase = .running ∧ s.sec.lock.challenge = some (true, [1]) ∧ s.sec.lock.scope = 0 ∧ s.sec.lock.reopen = some reopen1 ∧
    0 < (1 : Byte).toNat ∧ ((1 : Byte).toNat ||| reopen1.scope) = reopen1.scope ∧ 1 < reopen1.uses ∧ s.sec.op = none ∧ s.power.resetReq = none ∧
    Config.sha256 (reopen1.salt ++ []) = reopen1.hash ∧ s.sec.lock.failures < 2 :=
  ⟨rfl, rfl, rfl, rfl, by decide, by decide, by decide, rfl, rfl, rfl, by decide⟩
theorem test_DebugLockOpensAndCloses_wrong : let r : Reopen := ⟨[], 0 :: Config.sha256 [], 3, 5⟩
    Config.sha256 (r.salt ++ []) ≠ r.hash := fun h => by
  have := congrArg List.length h
  simp at this
theorem test_DebugLockOpensAndCloses_open : let s := debugAs fun d => { d with scope := 3, bySignature := true, onTap := true }
    s.sec.lock.scope ≠ 0 ∧ s.sec.lock.bySignature = true ∧ s.sec.lock.onTap = true ∧ s.sec.lock.onTap ≠ false ∧
    8 ≤ (List.replicate 8 (1 : Byte)).length ∧ s.sec.op = none ∧ s.power.resetReq = none ∧ s.sec.lock.scope / 2 % 2 = 1 ∧
    State.reset.sec.lock.scope / 2 % 2 ≠ 1 ∧ s.power.aux = true := by decide +kernel
theorem test_DebugLockOpensAndCloses_code : ∃ code : Byte, code.toNat ≠ Config.tapIdcode ∧ code.toNat ≠ Config.tapBypass := by
  by_cases h0 : (0 : Byte).toNat = Config.tapIdcode ∨ (0 : Byte).toNat = Config.tapBypass
  · by_cases h1 : (1 : Byte).toNat = Config.tapIdcode ∨ (1 : Byte).toNat = Config.tapBypass
    · refine ⟨2, ?_⟩
      simp at h0 h1 ⊢
      omega
    · exact ⟨1, by simpa using h1⟩
  · exact ⟨0, by simpa using h0⟩

/-- The configuration flash at work. -/
def flashOp (o : CfgOp) : State := { secAs (fun c => { c with op := some o }) with power := { State.reset.power with uptime := 1000 } }
def eraseCfg (q : List (Nat × Nat × Bool)) : CfgOp := { erase := true, sector := 200, startedAt := 100, queue := q, heldReq := true }
theorem test_ConfigurationFlashActs : (eraseCfg []).suspended = false ∧ (flashOp (eraseCfg [])).power.resetReq = none ∧
    (eraseCfg []).queue = [] ∧ (eraseCfg [(3, 33, false)]).queue = (3, 33, false) :: [] ∧ (eraseCfg []).startedAt + 500 ≤ (flashOp (eraseCfg [])).power.uptime ∧
    (eraseCfg []).suspends < 16 ∧ 0 < od State.reset 0x5312 0 ∧ od State.reset 0x5312 0 ≤ 100 ∧ State.reset.sec.op = none := by decide +kernel
theorem test_ConfigurationFlashActs_store : let s := secAs fun c => { c with storeRecs := [(0x300000, 0), (0x300000, 1), (0x300100, 2)], storeFree := 7 }
    let full := secAs fun c => { c with storeRecs := [(0x300000, 0)], storeFree := 8 }
    s.sec.storeRecs = [(0x300000, 0), (0x300000, 0 + 1)] ++ [(0x300100, 2)] ∧ (∀ r ∈ [((0x300100 : Nat), (2 : Nat))], r.2 ≠ 0) ∧ s.sec.storeFree < 8 ∧
    s.sec.op = none ∧ s.power.resetReq = none ∧ full.sec.storeRecs = (0x300000, 0) :: [] ∧ 8 ≤ full.sec.storeFree := by decide +kernel
theorem test_ConfigurationFlashActs_maintenance :
    let s := { atTime (1000 * od State.reset 0x5001 4) with od := { State.reset.od with maint := some (.mctp 0) } }
    s.od.maint.isSome = true ∧ s.od.maintAt + od s 0x5001 4 * 1000 ≤ s.power.uptime ∧
    ({ s with power := State.reset.power }).power.uptime < s.od.maintAt + od s 0x5001 4 * 1000 := by decide +kernel

theorem test_ConfigurationFlashActs_words : keysRise (secAs fun c => { c with cells := [] }).sec.cells = true ∧ 39 < 40 ∧ 38 < 39 ∧ 128 ≤ 200 ∧
    100 < 128 := by decide +kernel

/-- What the PUF yields at the first boot, and a stored check value that it does not. -/
theorem test_BootChoosesSlot_puf : let keys : PufKeys := { array := State.reset.fresh }
    let s := secAs fun c => { c with boot := .off, pufCheck := some (0 :: keys.check) }
    let t := secAs fun c => { c with boot := .off, pufCheck := some keys.check }
    s.power.phase = .running ∧ s.sec.boot = .off ∧ s.power.restarting = false ∧ keys.check ≠ 0 :: keys.check ∧
    (∀ c, t.sec.pufCheck = some c → keys.check = c) :=
  ⟨rfl, rfl, rfl, fun h => by have := congrArg List.length h; simp at this, fun _ h => by cases h; rfl⟩
def slotsAs (a b : Slot → Slot) (c : Sec → Sec) : State := secAs fun s => c { s with slotA := a s.slotA, slotB := b s.slotB }
theorem test_BootChoosesSlot : let off := slotsAs id id fun c => { c with boot := .off }
    let none' := slotsAs (fun t => { t with rejected := true }) id fun c => { c with boot := .off }
    let booting := { secAs (fun c => { c with boot := .booting }) with power := { State.reset.power with target := some 0 } }
    off.power.phase = .running ∧ off.sec.boot = .off ∧ off.power.restarting = false ∧ off.sec.pufCheck = none ∧ none'.sec.pufCheck = none ∧
    firstSlot off = some 0 ∧ (off.slot 0).ran = true ∧
    verifyImage off (off.slot 0) = 0 ∧ firstSlot none' = none ∧ none'.sec.boot = .off ∧ booting.sec.boot = .booting ∧ booting.flash.rebuild = none ∧
    booting.power.target.isSome = true ∧ booting.fabric.heldMsgs = [] ∧ State.reset.sec.boot ≠ .booting := by decide +kernel

/-! ## The block as a whole -/

/-- Three commands wait. -/
def queued : State := { State.reset with pending := [.hotReset, .auxPowerGood, .droopWarning] }
theorem test_StepRunsFrontCommand_idle : State.reset.pending = [] ∧ State.reset.power.phase.counts = true := by decide +kernel
theorem test_QueueIsWorkedOffInOrder : queued.pending.length = 3 := by decide +kernel
theorem test_StepsKeepIdentityAndQueue : queued.ident = State.reset.ident ∧ (∀ c ∈ queued.pending, c.wf = true) ∧ ∃ t, step queued = .next t :=
  ⟨rfl, by decide +kernel, _, rfl⟩

/-! ## A job that is admitted: a program of one FRET record, whatever the opcode bytes are -/

def polderPage : PageCond := ⟨0, 0⟩
def jobCmd : TaskCmd := { blank with reg := 32, target := BitVec.ofNat 64 hProg, polder := 0, crc := 1223139961 }
def progArea1 : ProgramArea := ⟨0x200, 0, 1, 0, 1, 1, 0, 0, 64, 2, 0, 0, 0, 0, 0⟩
def progObj : Obj := { base := 0x600000000, length := 65536, created := 3, owner := 0, policy := 6, readOnly := true, area := .program progArea1 }
/-- The program's one record has the opcode byte given. -/
def progState (b : Nat) : State := { State.reset with
  objs := [(hProg, progObj)], numHigh := 9, pages := (1, polderPage) :: State.reset.pages
  parcels := [(0x60000, { state := .dramClean, obj := hProg, frame := 0 })]
  dram := { State.reset.dram with mem := mset [] 0x600000000 (BitVec.ofNat 8 b) }, sec := { State.reset.sec with puf := none } }
def loaded (b : Nat) : Prog := ⟨hProg, progArea1, mset [] 0 (BitVec.ofNat 8 b), [b], [0, 0], 0⟩
/-- The opcode byte of FRET. -/
def fretByte : Nat := (Config.recordCode 17).val
theorem fretByte_lt : fretByte < 256 := (Config.recordCode 17).isLt
theorem kind_fret : kindOf fretByte = some 17 := by
  have h : Fin.ofNat 256 (bitsAt fretByte 0 8) = Config.recordCode 17 := by
    apply Fin.ext
    simp [bitsAt, fretByte, Fin.ofNat]
  unfold kindOf
  rw [h, Equiv.symm_apply_apply]
  decide +kernel

/-- The checks of a program of one FRET record. -/
theorem checked_fret {s : State} {p : Prog} {b : Nat} (hr : p.recs = [b]) (hk : kindOf b = some 17)
    (h1 : progSealed s p.handle = true) (h2 : headerOk p (progLength s p.handle) = true)
    (h3 : (crc32 (mread p.mem 0 p.area.dataEnd)).toNat = p.area.crc) (h4 : recReserved 17 b = true) (h7 : p.handles.drop 2 = [])
    (h8 : p.argument = 0) : checkProgram s p 0 = none ∧ secureInfo s p = none := by
  have one : ∀ check status (test : Nat → Nat → Nat → Bool), test 0 17 b = true → firstBad p check status test = none := by
    intro check status test ht
    simp [firstBad, hr, findFirst, hk, ht]
  have hs : secureOk s p = some none := by simp [secureOk, hr, hk]
  refine ⟨?_, by simp [secureInfo, hs]⟩
  have hh : handlesOk s p = none := by
    unfold handlesOk
    rw [h7]
    simp only [List.any_nil, Bool.false_eq_true, if_false]
    exact one _ _ _ rfl
  have hg : programRights s p 0 = true := by simp [programRights, h7, h8]
  unfold checkProgram
  simp only [h1, h2, h3, hs, hh, hg, ne_eq, not_true, Bool.not_true, Bool.false_eq_true, if_false, Option.isNone_some]
  rw [one 4 0x1004 _ h4, one 5 0x1007 _ rfl, one 6 0x1007 _ rfl, one 9 0x1007 _ rfl, one 10 0x1007 _ rfl]
  simp [hr, findFirst, hk]

/-- A job of it is admitted in a state that holds it and has room; the commands in execution stay. -/
theorem admit_fret {s : State} {b h k : Nat} (hk : kindOf b = some 17) (hh : homeOf hProg = moduleId s)
    (hl : loadProg s hProg 0 = (some (loaded b), s)) (h1 : progSealed s hProg = true)
    (h2 : headerOk (loaded b) (progLength s hProg) = true) (h4 : recReserved 17 b = true) (hc : couldHold s 0 progArea1 = true)
    (hm : (makeObj s ⟨0, 0, 3, 0, 0, 0, 0, .job ⟨hProg, 0, 0, 0, 0, 0, 0, 0, 0, 0, 0, 0, 0, 0, 0, 0, 0⟩⟩ false).1 = .ok (h, k)) :
    ∃ u, admitJob s hProg 0 0 0 0 = (.job h, u) ∧ u.execs =
      (makeObj s ⟨0, 0, 3, 0, 0, 0, 0, .job ⟨hProg, 0, 0, 0, 0, 0, 0, 0, 0, 0, 0, 0, 0, 0, 0, 0, 0⟩⟩ false).2.execs := by
  obtain ⟨hp, hi⟩ := checked_fret (s := s) (p := loaded b) rfl hk h1 h2
    (by show (crc32 []).toNat = 0; rw [show crc32 [] = 0#32 by decide +kernel]; rfl) h4 rfl rfl
  have ha : (loaded b).area = progArea1 := rfl
  unfold admitJob
  simp only [hh, hl, hp, hi, ha, hc, ne_eq, not_true, false_and, if_false, Bool.not_true, Bool.false_eq_true, Nat.zero_min]
  rcases hm' : makeObj s ⟨0, 0, 3, 0, 0, 0, 0, .job ⟨hProg, 0, 0, 0, 0, 0, 0, 0, 0, 0, 0, 0, 0, 0, 0, 0, 0⟩⟩ false with ⟨r, u⟩
  rw [hm'] at hm
  subst hm
  refine ⟨_, rfl, ?_⟩
  simp [schedBump]

/-- The state a command of a program of one FRET record is executed in. -/
def begunJob (b : Nat) : State := begun (progState b) 0x30 jobCmd polderPage
/-- The checks of a command's acceptance that follow those of its CRC and its sequence number. -/
def checked (s : State) (r : OpRow) (c : TaskCmd) (pg : PageCond) : Bool :=
  reservedOk r c && c.polder.toNat == pg.polder && !(r.admin && pg.polder != 0xFF) && targetStatus s r c == 0 && dikeOk s r c pg.polder &&
  powerOk s r.op (c.flags.getLsbD 2 && r.op == 1) pg.polder && decide ((s.execs.filter fun e => decide (e.1 < 1048576)).length < 16384)
theorem job_crc : crc32 (cmdBytes 0x30 jobCmd) = jobCmd.crc := by decide +kernel
theorem job_facts : ∀ b : Fin 256, let s := progState b; let u := begunJob b
    (cxlUp s = true ∧ condOf (wake s) 0 32 = some polderPage ∧ ((wake s).reg 32).state = .idle ∧ jobCmd.seq = ((wake s).reg 32).nextSeq ∧
     checked (wake s) ⟨0x0030, false, .no, true, false, false⟩ jobCmd polderPage = true ∧ s.power.restarting = false ∧ s.sec.boot = .ready ∧
     preStatus (begunJob b) 0x30 (reqOf jobCmd polderPage) = 0) ∧
    recReserved 17 b.val = true ∧ headerOk (loaded b) 65536 = true ∧
    (loadProg u hProg 0 = (some (loaded b), u) ∧ (kget u.objs hProg).map (fun o => (o.readOnly, o.length)) = some (true, 65536) ∧
     couldHold u 0 progArea1 = true ∧ od u 0x3000 8 = 1 ∧ moduleId u = homeOf hProg ∧
     let n := makeObj u ⟨0, 0, 3, 0, 0, 0, 0, .job ⟨hProg, 0, 0, 0, 0, 0, 0, 0, 0, 0, 0, 0, 0, 0, 0, 0, 0⟩⟩ false
     n.1 = .ok (1970324836974602, 1) ∧ (kget n.2.execs 32).isSome = true) := by decide +kernel
/-- For a command that the module admits, from the tests one by one. -/
theorem admitted_parts {s : State} {op : Nat} {c : TaskCmd} {pg : PageCond} {r : OpRow} (h1 : cxlUp s = true)
    (h2 : condOf (wake s) c.fn c.reg = some pg) (h3 : ((wake s).reg c.reg).state = .idle) (hc : crc32 (cmdBytes op c) = c.crc)
    (hs : c.seq = ((wake s).reg c.reg).nextSeq) (hr : opRow op = some r) (ho : r.op = op) (h4 : checked (wake s) r c pg = true)
    (h5 : s.power.restarting = false) (h6 : s.sec.boot = .ready) (h7 : preStatus (begun s op c pg) op (reqOf c pg) = 0) :
    Admitted s op c pg := by
  refine ⟨⟨h1, h2⟩, .inl h3, ?_, ⟨h5, h6⟩, h7⟩
  subst ho
  simp only [checked, Bool.and_eq_true, beq_iff_eq, Bool.not_eq_true', Bool.and_eq_false_iff, bne_eq_false_iff_eq, decide_eq_true_eq] at h4
  obtain ⟨⟨⟨⟨⟨⟨a1, a2⟩, a3⟩, a4⟩, a5⟩, a6⟩, a7⟩ := h4
  have a8 : ¬ (r.admin = true ∧ pg.polder ≠ 255) := by rintro ⟨x, y⟩; rcases a3 with z | z <;> simp_all
  simp only [acceptance, hc, hs, hr, a1, a2, a4, a5, a6, a8, ne_eq, not_true, if_false, Bool.not_true, Bool.false_eq_true, Nat.not_le.2 a7]

theorem test_JobsAreAdmittedAndCancelled_job : let s := progState fretByte; let u := begunJob fretByte
    Admitted s 0x30 jobCmd polderPage ∧ jobCmd.tx = 0 ∧ bitsAt jobCmd.ops.toNat 64 8 ≤ 7 ∧
    (∀ g, (loadProg u jobCmd.target.toNat (bitsAt jobCmd.ops.toNat 0 64)).1 = some g → forwardTo u polderPage.polder g = none) ∧
    ∃ (h : Nat) (t : State), admitJob u jobCmd.target.toNat (bitsAt jobCmd.ops.toNat 0 64) polderPage.polder (bitsAt jobCmd.ops.toNat 64 8)
      (bitsAt jobCmd.ops.toNat 96 32) = (Admit.job h, t) ∧
      (kget t.execs jobCmd.reg).isSome = true := by
  obtain ⟨⟨a1, a2, a3, a4, a5, a6, a7, a8⟩, b1, b2, c1, c2, c3, c4, c5, c6, c7⟩ := job_facts ⟨fretByte, fretByte_lt⟩
  have ht : jobCmd.target.toNat = hProg := by decide +kernel
  refine ⟨admitted_parts a1 a2 a3 job_crc a4 (by decide +kernel) rfl a5 a6 a7 a8, by decide +kernel, by decide +kernel, ?_, ?_⟩
  · intro g _
    have c4' : od (begunJob fretByte) (0x3000 + polderPage.polder) 8 = 1 := c4
    simp [forwardTo, c4', show Nat.testBit 1 1 = false from rfl]
  · have hx : progSealed (begunJob fretByte) hProg = true ∧ progLength (begunJob fretByte) hProg = 65536 := by
      simp only [progSealed, progLength, objLength]
      rcases hk : kget (begunJob fretByte).objs hProg with _ | o
      · simp [hk] at c2
      · simp [hk] at c2 ⊢; exact c2
    obtain ⟨t, d1, d2⟩ := admit_fret (k := 1) (h := 1970324836974602) kind_fret c5.symm c1 hx.1 (hx.2 ▸ b2) b1 c3 c6
    refine ⟨1970324836974602, t, ?_, by rw [d2]; exact c7⟩
    rw [ht]
    exact d1

/-- A job that module 1 forwards to polder 0, which takes jobs of group 7. -/
def takesJobs (b : Nat) : State := { progState b with od := { State.reset.od with vals := State.reset.od.vals ++ [(0x300008, 3), (0x30000B, 7)] } }
def fwdJob1 : FwdJob := ⟨1, 4, hProg, 0, 0, 7, 0, 0⟩
theorem fwd_facts : ∀ b : Fin 256, let u := takesJobs b
    loadProg u hProg 0 = (some (loaded b), u) ∧ (kget u.objs hProg).map (fun o => (o.readOnly, o.length)) = some (true, 65536) ∧
    couldHold u 0 progArea1 = true ∧ moduleId u = homeOf hProg ∧
    (makeObj u ⟨0, 0, 3, 0, 0, 0, 0, .job ⟨hProg, 0, 0, 0, 0, 0, 0, 0, 0, 0, 0, 0, 0, 0, 0, 0, 0⟩⟩ false).1 = .ok (1970324836974602, 1) ∧
    polderDefined u 0 = true ∧ (od u 0x3000 8).testBit 1 = true ∧ od u 0x3000 0xB = 7 := by decide +kernel
theorem test_GroupWorkArrives_job : let s := takesJobs fretByte
    polderDefined s fwdJob1.polder = true ∧ (od s (0x3000 + fwdJob1.polder) 8).testBit 1 = true ∧ od s (0x3000 + fwdJob1.polder) 0xB = fwdJob1.group ∧
    ∃ (h : Nat) (u : State), admitJob s fwdJob1.program fwdJob1.argument fwdJob1.polder fwdJob1.priority fwdJob1.seed.toNat = (Admit.job h, u) := by
  obtain ⟨c1, c2, c3, c5, c6, d1, d2, d3⟩ := fwd_facts ⟨fretByte, fretByte_lt⟩
  obtain ⟨-, b1, b2, -⟩ := job_facts ⟨fretByte, fretByte_lt⟩
  refine ⟨d1, d2, d3, ?_⟩
  have hx : progSealed (takesJobs fretByte) hProg = true ∧ progLength (takesJobs fretByte) hProg = 65536 := by
    simp only [progSealed, progLength, objLength]
    rcases hk : kget (takesJobs fretByte).objs hProg with _ | o
    · simp [hk] at c2
    · simp [hk] at c2 ⊢; exact c2
  obtain ⟨t, e1, -⟩ := admit_fret (k := 1) (h := 1970324836974602) kind_fret c5.symm c1 hx.1 (hx.2 ▸ b2) b1 c3 c6
  exact ⟨_, t, e1⟩

/-! ## One step, one value: expected results from the manual's rules by hand -/

/-- 03 R76: the CRC-32 of IEEE 802.3; its published check value over "123456789". -/
theorem test_crc_check_value : crc32 [0x31, 0x32, 0x33, 0x34, 0x35, 0x36, 0x37, 0x38, 0x39] = 0xCBF43926#32 := by decide +kernel
/-- 07 R189: values 1.0, the largest and the tie to even of the formats. -/
theorem test_formats_round_to_even : (pack bf16 (ofF32 0x3F808000#32)).1 = 0x3F80 ∧ (pack bf16 (ofF32 0x3F818000#32)).1 = 0x3F82 ∧
    (pack fp16 (ofF32 0x3F800000#32)).1 = 0x3C00 ∧ (pack e4m3 (ofF32 0x3F800000#32)).1 = 0x38 ∧ maxCode e4m3 = 0x7E ∧ maxCode e2m1 = 7 := by
  decide +kernel
/-- The one rounding of a fused multiply-add: 1 + 2⁻²³ squared, less 1, keeps the last product bit. -/
theorem test_ffma_rounds_once : ffma 0x3F800001#32 0x3F800001#32 0xBF800002#32 = 0x28800000#32 := by decide +kernel
/-- 20 R520: an idle microsecond. -/
theorem test_step_idle_ticks : stateAfter (step State.reset) (·.power.uptime) = some 1 := by decide +kernel
/-- 20 R512: the command at the front of the queue runs, the next one waits. -/
theorem test_step_hot_reset : stateAfter (step queued) (fun t => (t.host.link, t.power.resetReq, t.pending.length)) = some (.down, some 5, 2) := by
  decide +kernel
/-- 03 R73: ACK of a DONE register. -/
theorem test_ack_done : stateAfter (exec (.ack 0 0) (reg0 State.reset { state := .done, valid := true })) (fun t => (t.reg 0).state) = some .idle := by
  decide +kernel
/-- 05 R161: the intersection of [1, 3] and [3] is [3]: Count 1 and the element. -/
theorem test_intersect_writes : stateAfter (exec (.intersect xid intersectOk) running) (fun t => (mfield t.spad 12288 8, mfield t.spad 12352 8)) =
    some (1, 3) := by decide +kernel
/-- 05 R139: LOOP adds its step to X1. -/
theorem test_loop_adds : stateAfter (exec (.loop xid (loopRec 3 5)) running) (fun t => (getCtx t xid).map fun e => e.2.x[0]?) = some (some (some 3)) := by
  decide +kernel
/-- 20 R511: a die at its limit takes one step of the array's clock. -/
theorem test_throttle_step : stateAfter (exec (.throttleTick (warm 110 100)) (atTime 5000)) (·.power.arr) = some (State.reset.power.arr - 1) := by
  decide +kernel
/-- 17 R447, 20 R520: a critical word is rewritten by the majority of its copies' bits. -/
theorem test_vote : stateAfter (exec .criticalWordVote (powerAs fun p => { p with critical := [(0, 3, 5, 6)] })) (·.power.critical) =
    some [(0, 7, 7, 7)] := by decide +kernel

end Sys2Proof.Tests
end

/-! ## The step as a whole: every command answers, and the queue is worked off -/

namespace Sys2Proof.Machine

/-- Whatever the command, its meaning ends in `done`: the one place that speaks of all arms of `exec`. -/
theorem exec_eq_done (c : Instr) (s : State) : ∃ t, exec c s = done s t := by
  cases c
  all_goals exact ⟨_, rfl⟩

/-- No command faults or is refused, and none moves the queue or changes which module this is (00 R1, R4). -/
theorem exec_answers (c : Instr) (s : State) : Answers c s fun t => t.pending = s.pending ∧ t.ident = s.ident := by
  obtain ⟨t, ht⟩ := exec_eq_done c s
  exact ⟨_, ht.trans (done_next s t), rfl, rfl⟩

/-- A tick adds to the uptime and changes nothing else (20 R520). -/
theorem tick_eq (s : State) : tick s =
    { s with power := { s.power with uptime := s.power.uptime + if s.power.phase.counts then 1 else 0 } } := by
  cases h : s.power.phase.counts <;> simp [tick, State.modPower, h]

/-- What every step does: it answers, takes at most the front command from the queue, and keeps the identity. -/
theorem step_answers (s : State) : ∃ t, step s = .next t ∧ t.pending = s.pending.drop 1 ∧ t.ident = s.ident := by
  cases hq : s.pending with
  | nil => exact ⟨tick s, step_nil s hq, hq, rfl⟩
  | cons c rest =>
    rw [step_cons s c rest hq]
    exact exec_answers c { s with pending := rest }

/-- The state that a step answers. -/
def stepped (s : State) : State :=
  match step s with
  | .next t => t
  | .fault _ => s
  | .refused _ => s

theorem stepped_of_next {s t : State} (h : step s = .next t) : stepped s = t := by
  simp [stepped, h]

/-- A step never stops the module. -/
theorem step_eq_stepped (s : State) : step s = .next (stepped s) := by
  obtain ⟨t, ht, -⟩ := step_answers s
  rw [stepped_of_next ht, ht]

theorem step_safe (s : State) : Safe s := ⟨_, step_eq_stepped s⟩

@[simp] theorem stepped_pending (s : State) : (stepped s).pending = s.pending.drop 1 := by
  obtain ⟨t, ht, hq, -⟩ := step_answers s
  rw [stepped_of_next ht, hq]

@[simp] theorem stepped_ident (s : State) : (stepped s).ident = s.ident := by
  obtain ⟨t, ht, -, hi⟩ := step_answers s
  rw [stepped_of_next ht, hi]

/-- `n` steps take the first `n` waiting commands from the queue, in their order. -/
theorem iterate_stepped_pending (s : State) (n : Nat) : (stepped^[n] s).pending = s.pending.drop n := by
  induction n with
  | zero => rfl
  | succ n ih => rw [Function.iterate_succ_apply', stepped_pending, ih, List.drop_drop]

theorem iterate_stepped_ident (s : State) (n : Nat) : (stepped^[n] s).ident = s.ident := by
  induction n with
  | zero => rfl
  | succ n ih => rw [Function.iterate_succ_apply', stepped_ident, ih]

/-- Settles O58: the run is `stepped`, iterated; after `n` steps the first `n` commands are gone from the queue. -/
theorem queueIsWorkedOffInOrder : Obligations.QueueIsWorkedOffInOrder := by
  intro s
  refine ⟨fun n => stepped^[n] s, rfl, ?emptied, ?queue, ?steps⟩
  case emptied =>
    exact (iterate_stepped_pending s _).trans List.drop_length
  case queue =>
    exact fun n _ => ⟨iterate_stepped_pending s n, iterate_stepped_ident s n⟩
  case steps =>
    intro n _
    simp only [Function.iterate_succ_apply']
    exact ⟨step_eq_stepped _, step_safe _⟩

/-- Settles O59: what is left of the queue after a step is a part of the queue before it. -/
theorem stepsKeepIdentityAndQueue : Obligations.StepsKeepIdentityAndQueue := by
  intro id s t hid hwf hstep
  obtain rfl := stepped_of_next hstep
  have hq := stepped_pending s
  refine ⟨(stepped_ident s).trans hid, fun c hc => hwf c ?_, hq⟩
  exact List.mem_of_mem_drop (hq ▸ hc)

/-- Settles O57: the step's equations on a queue with a front command and on an empty one, and the answer of every command. -/
theorem stepRunsFrontCommand : Obligations.StepRunsFrontCommand := by
  refine ⟨?front, ?idle, exec_answers⟩
  case front => exact fun c rest s => step_cons { s with pending := c :: rest } c rest rfl
  case idle => exact fun s hq => (step_nil s hq).trans (congrArg _ (tick_eq s))

end Sys2Proof.Machine

/-! ## Objects and the address space (02): what the commands on objects do -/

namespace Sys2Proof.Machine

/-! ### The accepted command, as its effect reads it -/

section
variable (c : TaskCmd) (pg : PageCond)

@[simp] theorem reqOf_c : (reqOf c pg).c = c := rfl
@[simp] theorem reqOf_reg : (reqOf c pg).reg = c.reg := rfl
@[simp] theorem reqOf_p : (reqOf c pg).p = pg.polder := rfl
@[simp] theorem reqOf_flag (i : Nat) : (reqOf c pg).flag i = c.flags.getLsbD i := rfl
@[simp] theorem reqOf_op (o k : Nat) : (reqOf c pg).op o k = bitsAt c.ops.toNat (8 * o) (8 * k) := rfl

end

/-! ### What the beginning of a command leaves of the questions that effects ask -/

section
variable (s : State) (op : Nat) (c : TaskCmd) (pg : PageCond)

@[simp] theorem allTxs_begun : allTxs (begun s op c pg) = allTxs s := by simp [allTxs, txIdOf]
@[simp] theorem txHolds_begun (h : Nat) (o : Obj) : txHolds (begun s op c pg) h o = txHolds s h o := by simp [txHolds]
@[simp] theorem jobNames_begun (h : Nat) : jobNames (begun s op c pg) h = jobNames s h := by simp [jobNames, jobArea]
@[simp] theorem dirtyIn_begun (o : Obj) (off n : Nat) : dirtyIn (begun s op c pg) o off n = dirtyIn s o off n := by simp [dirtyIn]
@[simp] theorem spillBytes_begun : spillBytes (begun s op c pg) = spillBytes s := by
  unfold spillBytes; rw [begun_parcels, begun_objs]
@[simp] theorem poolAllows_begun (n : Nat) : poolAllows (begun s op c pg) n = poolAllows s n := by simp [poolAllows]
@[simp] theorem isRemote_begun (h : Nat) : isRemote (begun s op c pg) h = isRemote s h := by simp [isRemote]

end

theorem isRemote_home {s : State} {h : Nat} (hh : homeOf h = moduleId s) : isRemote s h = false := by simp [isRemote, hh]

/-! ### FLUSH and TRIM (02 R43, 03 R88, R89) -/

/-- FLUSH of an object homed here. -/
theorem effFlush_local {q : Req} {s : State} (hf : q.flag 1 = false) (hn : numberOf q.c.target.toNat ≠ 0)
    (hh : homeOf q.c.target.toNat = moduleId s) : effFlush q s = flushObj s q.c.target.toNat := by
  simp [effFlush, hf, hn, isRemote_home hh]

theorem flushObj_volatile {s : State} {h : Nat} {o : Obj} (ho : kget s.objs h = some o) (hv : o.volatile = true) :
    flushObj s h = ends s 0 := by
  simp [flushObj, ho, hv]

/-- Nothing to write back: no page is stored, and none waited for. -/
theorem afterWriteBack_nil (s : State) (value work : Nat) : afterWriteBack s [] value work = (s, .pages [] 0 value, work) := by
  simp [afterWriteBack, writeBack, awaitPages]

theorem flushObj_clean {s : State} {h : Nat} {o : Obj} (ho : kget s.objs h = some o) (hv : o.volatile = false)
    (hd : dirtyIn s o 0 o.extent = []) : flushObj s h = (s, .pages [] 0 0, 0) := by
  simp [flushObj, ho, hv, hd, afterWriteBack_nil]

/-- TRIM of an object homed here. -/
theorem effTrim_local {q : Req} {s : State} (h0 : 0 < q.c.length.toNat) (hl : q.c.length.toNat ≤ 68719476736) (hf : q.flag 1 = false)
    (hh : homeOf q.c.target.toNat = moduleId s) :
    effTrim q s = trimObj s q.tx q.c.target.toNat (q.op 0 8) q.c.length.toNat (whoReg q.reg) := by
  simp [effTrim, hf, isRemote_home hh, Nat.ne_of_gt h0, Nat.not_lt.2 hl]

/-- TRIM outside a transaction ends once the range is trimmed. -/
theorem trimObj_plain {s s1 : State} {h off n who : Nat} {o : Obj} (ho : kget s.objs h = some o) (hl : off + n ≤ o.length)
    (ht : trimPlain s h off n who = (.ok, s1)) : trimObj s 0 h off n who = ends s1 0 := by
  simp [trimObj, ho, Nat.not_lt.2 hl, ht]

/-- Settles O9: FLUSH of a VOLATILE object and of one without dirty parcels writes nothing back, and TRIM ends with what `trimPlain`
leaves. -/
theorem flushAndTrimEnd : Obligations.FlushAndTrimEnd := by
  refine ⟨?flush, ?trim⟩
  case flush =>
    intro c pg o s had htx hf hn hh ho
    have ho' : kget (begun s 0x0003 c pg).objs c.target.toNat = some o := by simpa using ho
    have heff : effectOf 0x0003 (reqOf c pg) (begun s 0x0003 c pg) = flushObj (begun s 0x0003 c pg) c.target.toNat :=
      effFlush_local (by simpa using hf) hn (by simpa using hh)
    refine ⟨fun hv => ?volatile, fun hv hd _ => ?clean⟩
    case volatile =>
      refine answers_of_effect rfl had htx (heff.trans (flushObj_volatile ho' hv)) (execs_begun_some ..) ?_
      rintro t hw rfl
      exact ⟨hw, by simp [after]⟩
    case clean =>
      refine answers_of_effect rfl had htx (heff.trans (flushObj_clean ho' hv (by simpa using hd))) (execs_begun_some ..) ?_
      rintro t hw rfl
      exact ⟨hw, by simp [after]⟩
  case trim =>
    intro c pg o s s1 had htx hf h0 hl hh ho hlen ht hx
    have heff : effectOf 0x0004 (reqOf c pg) (begun s 0x0004 c pg) = ends s1 0 := by
      refine (effTrim_local h0 hl (by simpa using hf) (by simpa using hh)).trans ?_
      rw [reqOf_tx_zero pg htx]
      exact trimObj_plain (o := o) (by simpa using ho) hlen ht
    refine answers_of_effect rfl had htx heff hx ?_
    rintro t hw rfl
    exact ⟨hw, rfl, rfl, rfl, rfl⟩

/-! ### CREATE and NS_CREATE (02 R31, R36-R38, 03 R90, R96) -/

/-- The state with an object made and its record queued. -/
def afterMake (s : State) (n : NewObj) (base : Nat) : State :=
  (journalObj (placeObj s n false base) (mkHandle s n.area.code (s.numHigh + 1))).2

section
variable (s : State) (n : NewObj) (base : Nat)

@[simp] theorem afterMake_execs : (afterMake s n base).execs = s.execs := rfl
@[simp] theorem afterMake_numHigh : (afterMake s n base).numHigh = s.numHigh + 1 := rfl
@[simp] theorem afterMake_reserved : (afterMake s n base).reserved = s.reserved + n.pool := rfl

theorem afterMake_get : kget (afterMake s n base).objs (mkHandle s n.area.code (s.numHigh + 1)) =
    some { n.obj false with base := base, created := s.seq + 1 } := placeObj_get s n false base

end

/-- `makeObj` of an object that fits, its base assigned in `s1`. -/
theorem makeObj_fits {s s1 : State} {n : NewObj} {base : Nat} (hl : s.objs.length < 16777216) (hp : poolAllows s n.pool = true)
    (hq : quotaAllows s n.owner n.need = true)
    (ha : (if (n.obj false).extent = 0 then some (0, s) else allocDas s ((n.obj false).extent / 65536)) = some (base, s1)) :
    makeObj s n false = (.ok (mkHandle s1 n.area.code (s1.numHigh + 1), s1.seq + 1), afterMake s1 n base) :=
  makeObj_ok hl hp hq ha

/-- Allocation leaves the objects' numbers, the pool and the commands. -/
theorem allocDas_leaves {s s1 : State} {n base : Nat} (h : allocDas s n = some (base, s1)) :
    s1.numHigh = s.numHigh ∧ s1.reserved = s.reserved ∧ s1.seq = s.seq ∧ s1.execs = s.execs ∧
    ∀ type number, mkHandle s1 type number = mkHandle s type number := by
  obtain ⟨next, rfl⟩ := allocDas_eq h
  exact ⟨rfl, rfl, rfl, rfl, fun _ _ => rfl⟩

/-- An image of zeros is a BLOB's. -/
theorem parseImage_blob (s : State) (length p : Nat) : parseImage s 2 length p (List.replicate 64 0) = some (.blob 0) := by
  have hz : zeroIn (List.replicate 64 0) [(0, 64)] = true := by decide
  simp only [parseImage, hz, if_true]

/-- The object that CREATE of a BLOB from a zero image asks for. -/
def blobAsked (q : Req) : NewObj :=
  ⟨q.c.length.toNat, q.p, q.op 1 1, q.op 2 1, q.op 3 1, BitVec.ofNat 32 (q.op 4 4), BitVec.ofNat 32 (q.op 8 4), .blob 0⟩

/-- The object that NS_CREATE asks for, its namespace id given. -/
def nspaceAsked (q : Req) (policy : Nat) : NewObj :=
  ⟨0, 0xFF, policy, 0, 0, 0, 0, .nspace (q.op 4 4) (q.op 0 4) q.c.length.toNat 0⟩

theorem blobAsked_pool {q : Req} (hflags : q.op 2 1 = 0) : (blobAsked q).pool = q.c.length.toNat := by
  simp [NewObj.pool, blobAsked, hasPayload, okType, Area.code, hflags]

/-- A BLOB that is neither VOLATILE nor PINNED_DRAM needs no quota: it is made at the base that the address space assigns. -/
theorem makeObj_blob {q : Req} {s s1 : State} {base : Nat} (hp1 : q.op 1 1 ≠ 1) (hflags : q.op 2 1 = 0) (h0 : 0 < q.c.length.toNat)
    (hl : s.objs.length < 16777216) (hp : poolAllows s q.c.length.toNat = true)
    (ha : allocDas s (roundUp q.c.length.toNat 65536 / 65536) = some (base, s1)) :
    makeObj s (blobAsked q) false = (.ok (mkHandle s1 2 (s1.numHigh + 1), s1.seq + 1), afterMake s1 (blobAsked q) base) := by
  have hext : ((blobAsked q).obj false).extent = roundUp q.c.length.toNat 65536 := rfl
  have hpos : roundUp q.c.length.toNat 65536 ≠ 0 := by unfold roundUp; omega
  refine makeObj_fits hl (by rwa [blobAsked_pool hflags]) ?quota (by rw [hext, if_neg hpos, ha])
  case quota => simp [NewObj.need, blobAsked, hp1, hflags, Area.code, Area.kept, quotaAllows]

/-- A namespace takes no address range and no quota. -/
theorem makeObj_nspace {q : Req} {s : State} (policy : Nat) (hl : s.objs.length < 16777216)
    (hp : poolAllows s (q.op 0 4 * q.c.length.toNat) = true) :
    makeObj s (nspaceAsked q policy) false = (.ok (mkHandle s 1 (s.numHigh + 1), s.seq + 1), afterMake s (nspaceAsked q policy) 0) :=
  makeObj_fits hl hp (by simp [NewObj.need, nspaceAsked, hasPayload, Area.code, quotaAllows])
    (by simp [NewObj.obj, nspaceAsked, Obj.extent, hasPayload, Area.code])

/-- CREATE of a BLOB from a zero image, its operands in range and its object made. -/
theorem effCreate_blob {q : Req} {s s1 : State} {h k : Nat} (ha : q.c.haddr = 0) (htype : q.op 0 1 = 2) (hp : 1 ≤ q.op 1 1)
    (hp4 : q.op 1 1 ≤ 4) (h0 : 0 < q.c.length.toNat) (hl : q.c.length.toNat ≤ 70368744177664)
    (hm : makeObj s (blobAsked q) false = (.ok (h, k), s1)) : effCreate q s = (s1, .journal k 0 h, 0) := by
  have hp0 : q.op 1 1 ≠ 0 := by omega
  have hargs : (!okType 2 || 2 == 1 || 2 == 7 || decide (4 < q.op 1 1)) = false := by simp [okType, hp4]
  have hlen : ¬ (q.c.length.toNat = 0 ∨ 70368744177664 < q.c.length.toNat) := by omega
  unfold blobAsked at hm
  simp only [effCreate, ha, htype, hp0, hargs, hlen, parseImage_blob, hm, if_true, if_false, Bool.false_and, Bool.false_eq_true,
    (by decide : ¬ (2 = 8))]

/-- NS_CREATE of a namespace id that is free. -/
theorem effNsCreate_free {q : Req} {s s1 : State} {h k : Nat} (h0 : 0 < q.c.length.toNat) (hb : q.op 0 4 = 4096 ∨ q.op 0 4 = 16384)
    (hi : 0 < q.op 4 4) (hi' : q.op 4 4 ≤ 1024) (hfree : (s.objs.map fun e => nsidOf e.2).contains (q.op 4 4) = false)
    (hm : makeObj s (nspaceAsked q (od s 0x3200 1)) false = (.ok (h, k), s1)) : effNsCreate q s = (s1, .journal k 0 h, 0) := by
  have hargs : ¬ (q.c.length.toNat = 0 ∨ (q.op 0 4 ≠ 4096 ∧ q.op 0 4 ≠ 16384) ∨ 1024 < q.op 4 4) := by omega
  unfold nspaceAsked at hm
  unfold effNsCreate
  simp only [if_neg hargs, if_neg (Nat.ne_of_gt hi), hfree, hm, Bool.false_eq_true, if_false]

/-- Settles O10: the object fits the pool and needs no quota, and `makeObj` lists it under the next number. -/
theorem createMakesObjects : Obligations.CreateMakesObjects := by
  refine ⟨?blob, ?nspace⟩
  case blob =>
    intro c pg base s s1 had htx ha htype hp hp4 hp1 hflags h0 hl hcount hpool halloc
    have hmake := makeObj_blob (q := reqOf c pg) hp1 hflags h0 (by simpa using hcount) (by simpa using hpool) halloc
    obtain ⟨hnum, hres, hseq, hexecs, hh⟩ := allocDas_leaves halloc
    rw [begun_numHigh] at hnum
    rw [begun_reserved] at hres
    rw [begun_seq] at hseq
    have hget := afterMake_get s1 (blobAsked (reqOf c pg)) base
    rw [show (blobAsked (reqOf c pg)).area.code = 2 from rfl, hh, mkHandle_begun, hnum] at hget
    rw [hh, mkHandle_begun, hnum, hseq] at hmake
    refine answers_of_effect rfl had htx (effCreate_blob ha htype hp hp4 h0 hl hmake) (by simp [hexecs, execs_begun_some]) ?_
    rintro t hw rfl
    refine ⟨by simp [after, hnum], by simp [after, hres, blobAsked_pool (q := reqOf c pg) hflags], ⟨_, hget, ?_⟩, hw⟩
    simp [blobAsked, NewObj.obj, Obj.pinCount, hseq]
  case nspace =>
    intro c pg s had htx h0 hb hi hi' hfree hcount hpool
    have hmake := makeObj_nspace (q := reqOf c pg) (s := begun s 0x0100 c pg) (od (begun s 0x0100 c pg) 0x3200 1)
      (by simpa using hcount) (by simpa using hpool)
    have hget := afterMake_get (begun s 0x0100 c pg) (nspaceAsked (reqOf c pg) (od (begun s 0x0100 c pg) 0x3200 1)) 0
    rw [show (nspaceAsked (reqOf c pg) _).area.code = 1 from rfl] at hget
    rw [mkHandle_begun, begun_numHigh, begun_seq] at hmake hget
    refine answers_of_effect rfl had htx (effNsCreate_free h0 hb hi hi' (by simpa using hfree) hmake)
      (by simp [execs_begun_some]) ?_
    rintro t hw rfl
    exact ⟨⟨_, hget, rfl, rfl, rfl, rfl⟩, by simp [after], by simp [after, NewObj.pool, nspaceAsked], hw⟩

/-! ### DESTROY and NS_DELETE (02 R39, 03 R96) -/

/-- DESTROY with its conditions clear: the object leaves. -/
theorem effDestroy_clear {q : Req} {s : State} {o : Obj} (ho : kget s.objs q.c.target.toNat = some o) (hp : o.pinCount = 0)
    (hm : isMapped s q.c.target.toNat = false) (hj : jobNames s q.c.target.toNat = false)
    (hx : txHolds s q.c.target.toNat o = false) :
    effDestroy q s = (s.modObj q.c.target.toNat fun o => { o with leaving := true }, .destroy q.c.target.toNat, 0) := by
  simp [effDestroy, ho, hp, hm, hj, hx]

/-- NS_DELETE of a namespace that no transaction holds: the object leaves. -/
theorem effNsDelete_clear {q : Req} {s : State} {o : Obj} (ho : kget s.objs q.c.target.toNat = some o)
    (hx : ((allTxs s).any fun e => (e.2.writes ++ e.2.reads.map (·.1)).any fun i =>
      i != .header q.c.target.toNat && itemOf q.c.target.toNat o i) = false) :
    effNsDelete q s = (s.modObj q.c.target.toNat fun o => { o with leaving := true }, .destroy q.c.target.toNat, 0) := by
  simp only [effNsDelete, ho, hx, Bool.false_eq_true, if_false]

/-- An object that leaves is named by nothing (02 R39 step 1). -/
theorem liveObj_leaving {s : State} {h : Nat} {o : Obj} (ho : kget s.objs h = some { o with leaving := true }) :
    liveObj s h = none := by
  simp [liveObj, ho]

/-- A command whose effect makes its target leave. -/
theorem answers_of_leaving {i : Instr} {op : Nat} {c : TaskCmd} {pg : PageCond} {o : Obj} {s : State} (hi : opOf i = some (op, c))
    (had : Admitted s op c pg) (htx : c.tx = 0) (ho : kget s.objs c.target.toNat = some o)
    (heff : effectOf op (reqOf c pg) (begun s op c pg) =
      ((begun s op c pg).modObj c.target.toNat fun o => { o with leaving := true }, .destroy c.target.toNat, 0)) :
    Answers i s fun t => kget t.objs c.target.toNat = some { o with leaving := true } ∧ liveObj t c.target.toNat = none ∧
      waitOf t c.reg = some (.destroy c.target.toNat) ∧ t.parcels = s.parcels ∧ t.flash = s.flash := by
  refine answers_of_effect hi had htx heff (execs_begun_some ..) ?_
  rintro t hw rfl
  have hget : kget (kmod s.objs c.target.toNat fun o => { o with leaving := true }) c.target.toNat = _ := kget_kmod_same _ ho
  rw [← begun_objs s op c pg] at hget
  exact ⟨hget, liveObj_leaving hget, hw, by simp [after], by simp [after]⟩

/-- Settles O11: both commands mark their target as leaving once their conditions are clear. -/
theorem destroyHidesObject : Obligations.DestroyHidesObject := by
  intro c pg o s htx ho
  refine ⟨fun had hp hm hj hx => ?destroy, fun had hx => ?delete⟩
  case destroy =>
    exact answers_of_leaving rfl had htx ho
      (effDestroy_clear (o := o) (by simpa using ho) hp hm (by simpa using hj) (by simpa using hx))
  case delete =>
    exact answers_of_leaving rfl had htx ho (effNsDelete_clear (o := o) (by simpa using ho) (by rw [allTxs_begun]; exact hx))

/-! ### PIN, UNPIN and SET_POLICY (02 R46, R47, R527, 03 R91) -/

/-! Pinning brings parcels up and counts demotions; nothing else changes. -/

section
variable (s : State) (h : Nat)

@[simp] theorem pinParcels_objs : (pinParcels s h).objs = s.objs := by simp [pinParcels]
@[simp] theorem pinParcels_execs : (pinParcels s h).execs = s.execs := by simp [pinParcels]
@[simp] theorem pinParcels_host : (pinParcels s h).host = s.host := by simp [pinParcels]
@[simp] theorem pinParcels_flash : (pinParcels s h).flash = s.flash := by simp [pinParcels]
@[simp] theorem pinParcels_txs : (pinParcels s h).txs = s.txs := by simp [pinParcels]

end

/-! A header's journal record joins the journal's queue. -/

section
variable (s : State) (h : Nat)

@[simp] theorem journalObj_objs : (journalObj s h).2.objs = s.objs := rfl
@[simp] theorem journalObj_execs : (journalObj s h).2.execs = s.execs := rfl
@[simp] theorem journalObj_host : (journalObj s h).2.host = s.host := rfl
@[simp] theorem journalObj_parcels : (journalObj s h).2.parcels = s.parcels := rfl
@[simp] theorem journalObj_txs : (journalObj s h).2.txs = s.txs := rfl
@[simp] theorem journalObj_map : (journalObj s h).2.flash.map = s.flash.map := rfl

end

/-- An UNPIN, or the end of a binding, takes one from the pin count of an object that has any pin. -/
theorem unpinOnce_pinCount {o : Obj} (binding : Bool) (h : 0 < o.pinCount) : (unpinOnce o binding).pinCount = o.pinCount - 1 := by
  unfold Obj.pinCount at h ⊢
  cases binding with
  | false =>
    by_cases hp : 0 < o.pins
    · simp only [unpinOnce, hp, if_true, Bool.false_eq_true, if_false]; omega
    · simp only [unpinOnce, hp, Bool.false_eq_true, if_false]; omega
  | true =>
    by_cases hm : 0 < o.maps
    · simp only [unpinOnce, hm, if_true]; omega
    · simp only [unpinOnce, hm, if_true, if_false]; omega

theorem effPin_pin {q : Req} {s : State} {o : Obj} (hf : q.flag 8 = false) (ho : kget s.objs q.c.target.toNat = some o)
    (hc : o.pinCount < 255) (ha : pinAllowed s q.c.target.toNat o = true) :
    effPin q s = ends (journalObj (pinParcels (s.modObj q.c.target.toNat fun o => { o with pins := o.pins + 1 })
      q.c.target.toNat) q.c.target.toNat).2 (o.pinCount + 1) := by
  simp [effPin, ho, hf, Nat.ne_of_lt hc, ha]

theorem effPin_unpin {q : Req} {s : State} {o : Obj} (hf : q.flag 8 = true) (ho : kget s.objs q.c.target.toNat = some o)
    (hc : 0 < o.pinCount) :
    effPin q s = ends (journalObj (s.modObj q.c.target.toNat fun o => unpinOnce o false) q.c.target.toNat).2 (o.pinCount - 1) := by
  simp [effPin, ho, hf, Nat.ne_of_gt hc]

/-! The UN-forms of MAP and PIN are flag bit 8 of their opcodes (03 R85). -/

theorem flag8_of_pin {c d : TaskCmd} {op : Nat} (h : opOf (.pin c) = some (op, d)) : d.flags.getLsbD 8 = false := by
  cases h; simp

theorem flag8_of_unpin {c d : TaskCmd} {op : Nat} (h : opOf (.unpin c) = some (op, d)) : d.flags.getLsbD 8 = true := by
  cases h; simp

theorem flag8_of_map {c d : TaskCmd} {op : Nat} (h : opOf (.map c) = some (op, d)) : d.flags.getLsbD 8 = false := by
  cases h; simp

theorem flag8_of_mapUnbind {c d : TaskCmd} {op : Nat} (h : opOf (.mapUnbind c) = some (op, d)) : d.flags.getLsbD 8 = true := by
  cases h; simp

/-- The header that SET_POLICY of the read mask alone leaves, its version apart. -/
def withReadMask (o : Obj) (q : Req) : Obj := { o with readMask := BitVec.ofNat 32 (q.op 4 4) }

/-- SET_POLICY of a new read mask alone, with nothing bound into the window: the header is changed once and journaled. -/
theorem effSetPolicy_readMask {q : Req} {s : State} {o : Obj} (ho : kget s.objs q.c.target.toNat = some o) (hsel : q.op 0 1 = 2)
    (hp : q.op 1 1 ≤ 4) (he : q.op 2 1 ≤ 1) (hnew : BitVec.ofNat 32 (q.op 4 4) ≠ o.readMask) (hb : s.host.bindings = []) :
    effSetPolicy q s = ends (journalObj (bumpVersion (s.modObj q.c.target.toNat fun _ => withReadMask o q) q.c.target.toNat)
      q.c.target.toNat).2 (o.version + 1) := by
  have hne : withReadMask o q ≠ o := fun h => hnew (congrArg Obj.readMask h)
  have hbits : (2 : Nat).testBit 0 = false ∧ (2 : Nat).testBit 1 = true ∧ (2 : Nat).testBit 2 = false ∧
      (2 : Nat).testBit 3 = false ∧ (2 : Nat).testBit 4 = false := by decide
  have hargs : ¬ (4 < q.op 1 1 ∨ 1 < q.op 2 1) := by omega
  unfold withReadMask at hne ⊢
  simp [effSetPolicy, ho, hsel, hbits, hargs, hne, hb, bumpVersion]

/-! ### MAP and UNBIND (02 R58, 03 R91) -/

/-- The window with a range of an object bound at an offset, and the object with one pin more. -/
def afterMap (s : State) (q : Req) (m : KMap WinEntry) (away : List Nat) : State :=
  ((pinParcels s q.c.target.toNat).modHost fun t => { t with
    bindings := kset t.bindings (q.op 8 8) ⟨q.c.target.toNat, q.op 0 8, q.c.length.toNat, q.p⟩, winMap := m
    nonResident := t.nonResident ++ away }).modObj q.c.target.toNat fun o => { o with maps := o.maps + 1 }

/-- MAP of an aligned range at a free window offset that no transaction has stored to. -/
theorem mapBind_free {q : Req} {s : State} {o : Obj} {m : KMap WinEntry} (ho : kget s.objs q.c.target.toNat = some o)
    (h0 : 0 < q.c.length.toNat) (hn : q.c.length.toNat % 65536 = 0) (hoff : q.op 0 8 % 65536 = 0) (hw : q.op 8 8 % 65536 = 0)
    (hext : q.op 0 8 + q.c.length.toNat ≤ o.extent) (hwin : q.op 8 8 + q.c.length.toNat ≤ windowBytes)
    (hfree : s.host.bindings.any (fun e => meet (q.op 8 8) q.c.length.toNat e.1 e.2.length) = false) (hc : o.pinCount < 255)
    (ha : pinAllowed s q.c.target.toNat o = true) (htxs : allTxs s = []) (hm : bindMap s (q.op 8 8) q.c.length.toNat = some m) :
    ∃ away, mapBind q s = ends (afterMap s q m away) (q.op 8 8) := by
  have hplace : q.op 8 8 ≠ 0xFFFFFFFFFFFFFFFF := by omega
  simp [mapBind, ho, Nat.ne_of_gt h0, hn, hoff, hw, hplace, Nat.not_lt.2 hext, Nat.not_lt.2 hwin, hfree,
    Nat.ne_of_lt hc, ha, htxs, hm, -List.any_eq_true, -List.any_eq_false]
  exact ⟨_, rfl⟩

theorem effMap_bind {q : Req} (s : State) (hf : q.flag 8 = false) : effMap q s = mapBind q s := by simp [effMap, hf]

theorem effMap_unbind {q : Req} (s : State) (hf : q.flag 8 = true) : effMap q s = mapUnbind q s := by simp [effMap, hf]

/-- What the removal of a binding leaves: the host no longer maps it, and its object has one pin fewer. -/
theorem dropBinding_leaves {s : State} {w : Nat} {b : Binding} (hb : kget s.host.bindings w = some b) :
    (dropBinding s w).host.bindings = kdel s.host.bindings w ∧
    (dropBinding s w).objs = kmod s.objs b.handle (fun o => unpinOnce o true) ∧ (dropBinding s w).execs = s.execs := by
  simp [dropBinding, hb, unbindMap, backInvalidate]

theorem mapUnbind_bound {q : Req} {s : State} {b : Binding} (hb : kget s.host.bindings (q.op 8 8) = some b)
    (hh : b.handle = q.c.target.toNat) :
    mapUnbind q s = (dropBinding s (q.op 8 8), .snoop (q.op 8 8) (q.op 8 8 + b.length) 0 (q.op 8 8), 0) := by
  simp [mapUnbind, hb, hh]

/-- Settles O12: each command changes its object's header, or the window, as its effect's equation says. -/
theorem pinPolicyAndMapAct : Obligations.PinPolicyAndMapAct := by
  refine ⟨?pins, ?policy, ?binds⟩
  case pins =>
    intro c d pg o s htx ho had
    have ho' : kget (begun s 0x0013 d pg).objs d.target.toNat = some o := by simpa using ho
    refine ⟨fun hi hc ha => ?pin, fun hi hc => ?unpin⟩
    case pin =>
      refine answers_of_effect hi had htx (effPin_pin (flag8_of_pin hi) ho' hc ha) (by simp [execs_begun_some]) ?_
      rintro t hw rfl
      refine ⟨?_, hw, by simp [after], by simp [after]⟩
      simp [after, kget_kmod_same _ ho, Obj.pinCount, Nat.add_right_comm]
    case unpin =>
      refine answers_of_effect hi had htx (effPin_unpin (flag8_of_unpin hi) ho' hc) (by simp [execs_begun_some]) ?_
      rintro t hw rfl
      refine ⟨?_, hw, by simp [after], by simp [after]⟩
      simp [after, kget_kmod_same _ ho, unpinOnce_pinCount false hc]
  case policy =>
    intro c pg o s had htx ho hsel hp he hnew hb
    refine answers_of_effect rfl had htx (effSetPolicy_readMask (o := o) (by simpa using ho) hsel hp he hnew hb)
      (by simp [bumpVersion, execs_begun_some]) ?_
    rintro t hw rfl
    refine ⟨?_, hw, by simp [after, bumpVersion], by simp [after, bumpVersion]⟩
    simp [after, bumpVersion, kget_kmod_same _ (kget_kmod_same _ ho), withReadMask]
  case binds =>
    intro c d pg o s htx ho had
    have ho' : kget (begun s 0x0012 d pg).objs d.target.toNat = some o := by simpa using ho
    refine ⟨fun m hi h0 hn hoff hw hext hwin hfree hc ha htxs hm => ?bind, fun b hi hb hh hmaps hrise => ?unbind⟩
    case bind =>
      obtain ⟨away, hbind⟩ := mapBind_free (q := reqOf d pg) ho' h0 hn hoff hw hext hwin hfree hc ha (by simpa using htxs) hm
      refine answers_of_effect hi had htx ((effMap_bind _ (flag8_of_map hi)).trans hbind) (by simp [afterMap, execs_begun_some]) ?_
      rintro t hw rfl
      refine ⟨by simp [after, afterMap], ?_, hw⟩
      simp [after, afterMap, kget_kmod_same _ ho, Obj.pinCount, Nat.add_assoc]
    case unbind =>
      obtain ⟨hbind, hobjs, hexecs⟩ := dropBinding_leaves hb
      have heff := (effMap_unbind _ (flag8_of_mapUnbind hi)).trans (mapUnbind_bound (q := reqOf d pg) hb hh)
      have hpins : 0 < o.pinCount := by unfold Obj.pinCount; omega
      refine answers_of_effect hi had htx heff (by simp [hexecs, execs_begun_some]) ?_
      rintro t - rfl
      refine ⟨by simp [after, hbind, kget_kdel_same _ hrise], ?_⟩
      simp [after, hobjs, hh, kget_kmod_same _ ho, unpinOnce_pinCount true hpins]

/-! ### CXL.mem reads of the window (02 R50, R59) -/

theorem exec_cxlMemRead (off n : Nat) (s : State) : exec (.cxlMemRead off n) s = done s (memRead s off n) := rfl

/-- A BLOB of two parcels under STREAMING, bound into the window. -/
def streamed : Obj := { base := 0x100000000, length := 131072, created := 1, owner := 0xFF, policy := 4, maps := 1, area := .blob 0 }

def streamedHandle : Nat := mkHandle State.reset 2 1

/-- The reset state with that BLOB at window offset 65,536: its first parcel was never stored to, and its second is on flash, its first
unit in page 0, whose course has closed. -/
def streamingWindow : State := { State.reset with
  objs := [(streamedHandle, streamed)], numHigh := 1
  parcels := [(0x10001, { state := .flash, obj := streamedHandle })]
  flash := { State.reset.flash with
    map := [(parcelLu 0x10001 0, 0)]
    pages := [(0, { lu := parcelLu 0x10001 0, kind := .data, seq := 1, keyGen := 0, closed := true })] }
  host := { State.reset.host with hdm := some 0, bindings := [(65536, ⟨streamedHandle, 0, 131072, 0xFF⟩)] } }

/-- The host reads the first line of the BLOB, in the UNBACKED parcel. -/
theorem streamingWindow_line : memUp streamingWindow = true ∧ boundAt streamingWindow 65536 = some (streamedHandle, streamed, 0) ∧
    parcelState streamingWindow ((streamed.base + 0) / 65536) = .unbacked := by decide +kernel

/-- The read asks for the page that follows on flash: an access under STREAMING reads ahead (02 R50). -/
theorem streamingWindow_readsAhead : (memRead streamingWindow 65536 64).flash.reads = [⟨0, 6, 0xFF, .ahead⟩] ∧
    streamingWindow.flash.reads = [] := by decide +kernel

/-- Refutes O32: a read of an UNBACKED parcel need not leave the flash as it was. Under STREAMING it reads ahead the parcels after it
(02 R50), and their page reads join the queue of the media. -/
theorem not_hostAccessesTheWindow : ¬ Obligations.HostAccessesTheWindow := by
  rintro ⟨hread, -⟩
  obtain ⟨hup, hbound, hstate⟩ := streamingWindow_line
  obtain ⟨-, hcases⟩ := hread streamingWindow 65536 64 hup (by decide) (by decide)
  obtain ⟨-, hunbacked, -⟩ := hcases _ _ _ hbound
  obtain ⟨t, ht, -, -, -, hflash⟩ := hunbacked hstate
  rw [exec_cxlMemRead, done_next] at ht
  cases ht
  obtain ⟨hasked, hidle⟩ := streamingWindow_readsAhead
  have hreads : [_] = [] := hasked.symm.trans ((congrArg Flash.reads hflash).trans hidle)
  cases hreads

end Sys2Proof.Machine

/-! ## Task registers and commands (03): accesses to a register, and a command from its trigger to its result -/

namespace Sys2Proof.Machine

/-! ### Accesses to a register (03 R67-R74) -/

section
variable {s : State} {fn reg : Nat} {pg : PageCond}

/-- A write that the link and the page let through acts with the link awake. -/
theorem done_withReg_reaches (f : State → PageCond → State) (h : Reaches s fn reg pg) :
    done s (withReg s fn reg f) = done s (f (wake s) pg) := by
  rw [withReg_reaches f h]

/-- One that no page lets through is counted, and nothing else changes (03 R68). -/
theorem done_withReg_foreign (f : State → PageCond → State) (hup : cxlUp s = true) (hpage : condOf (wake s) fn reg = none) :
    done s (withReg s fn reg f) = .next (bump (wake s) 0x9500 3 1) := by
  rw [withReg_foreign f hup hpage]
  exact done_eq (by simp) (by simp)

end

section
variable (s : State) (fn reg : Nat)

theorem exec_ack : exec (.ack fn reg) s = done s (withReg s fn reg fun s _ => ackReg s reg) := rfl

theorem exec_overrunClear (ack : Bool) :
    exec (.overrunClear fn reg ack) s = done s (withReg s fn reg fun s _ =>
      if ack then ackReg (s.modReg reg fun r => { r with overrun := false }) reg
      else s.modReg reg fun r => { r with overrun := false }) := rfl

theorem exec_resultRead (off n : Nat) : exec (.resultRead fn reg off n) s = done s (readReg s fn reg off n) := rfl

theorem exec_ringEnable (enable : Bool) (ring : Nat) :
    exec (.ringEnable fn reg enable ring) s = done s (withReg s fn reg fun s _ => setRing s fn reg enable ring) := rfl

theorem exec_headWrite (ring head : Nat) :
    exec (.headWrite fn reg ring head) s = done s (withReg s fn reg fun s _ => setHead s fn ring head) := rfl

/-- A write at a byte of a register: registers are 128 bytes apart (03 R66). -/
theorem exec_registerWrite {off : Nat} (data : List Byte) (ho : off < 128) :
    exec (.registerWrite fn (reg * 128 + off) data) s = done s (writeReg s fn reg off data) := by
  have hreg : (reg * 128 + off) / 128 = reg := by omega
  have hoff : (reg * 128 + off) % 128 = off := by omega
  show done s (writeReg s fn ((reg * 128 + off) / 128) ((reg * 128 + off) % 128) data) = _
  rw [hreg, hoff]

end

/-- A register whose result is retired (03 R73). -/
def retired (r : TaskReg) : TaskReg := { r with state := .idle, valid := false, readCount := 0, value := 0, status := 0, tag := 0 }

theorem ackReg_done {s : State} {reg : Nat} (h : (s.reg reg).state = .done) : ackReg s reg = s.modReg reg retired := if_pos h

theorem ackReg_ignored {s : State} {reg : Nat} (h : (s.reg reg).state ≠ .done) : ackReg s reg = s := if_neg h

/-- Settles O1: ACK retires a result in state DONE alone, and clearing OVERRUN leaves the state that a following ACK asks about. -/
theorem ackRetiresResult : Obligations.AckRetiresResult := by
  refine ⟨fun fn reg pg s hr => ⟨fun hdone => ?retires, fun hother => ?ignored⟩, fun fn reg ack pg s hr => ?clears⟩
  case retires =>
    rw [exec_ack, done_withReg_reaches _ hr, ackReg_done hdone]
    exact done_eq (by simp) (by simp)
  case ignored =>
    rw [exec_ack, done_withReg_reaches _ hr, ackReg_ignored hother]
    exact done_eq (by simp) (by simp)
  case clears =>
    rw [exec_overrunClear, done_withReg_reaches _ hr]
    have hstate : (((wake s).modReg reg fun r => { r with overrun := false }).reg reg).state = ((wake s).reg reg).state := by simp
    cases ack with
    | false => exact done_eq (by simp) (by simp)
    | true =>
      by_cases hdone : ((wake s).reg reg).state = .done
      · rw [if_pos rfl, ackReg_done (hstate.trans hdone)]
        simp only [hdone, decide_true, Bool.and_true, if_true]
        exact done_eq (by simp) (by simp)
      · rw [if_pos rfl, ackReg_ignored (fun h => hdone (hstate.symm.trans h))]
        simp only [hdone, decide_false, Bool.and_false, Bool.false_eq_true, if_false]
        exact done_eq (by simp) (by simp)

theorem link_ne_down_of_cxlUp {s : State} (h : cxlUp s = true) : s.host.link ≠ .down := by
  intro hd
  simp [cxlUp, hd] at h

/-- A read through a foreign or unassigned page gives zeros and is counted (03 R68). -/
theorem readReg_foreign {s : State} {fn reg : Nat} (off n : Nat) (hup : cxlUp s = true) (hpage : condOf (wake s) fn reg = none) :
    readReg s fn reg off n = (bump (wake s) 0x9500 3 1).modHost fun h => { h with bus := .bytes (List.replicate n 0) } := by
  simp [readReg, link_ne_down_of_cxlUp hup, hup, hpage]

/-- A read that reaches its register gives its bytes, and counts if it reads byte +0x4F of a complete result (03 R71). -/
theorem readReg_reaches {s : State} {fn reg : Nat} {pg : PageCond} (off n : Nat) (h : Reaches s fn reg pg) :
    readReg s fn reg off n =
      (if ((wake s).reg reg).valid = true ∧ off ≤ 0x4F ∧ 0x4F < off + n then
          (wake s).modReg reg fun r => { r with readCount := if r.readCount = 3 then 3 else r.readCount + 1 }
        else wake s).modHost fun h => { h with bus := .bytes (((registerBytes (wake s) reg pg).drop off).take n) } := by
  obtain ⟨hup, hpage⟩ := h
  simp only [readReg, link_ne_down_of_cxlUp hup, hup, hpage, Bool.not_true, Bool.false_eq_true, if_false]

/-- Settles O2: each access goes through `withReg`, or through the same two tests of `readReg`. -/
theorem foreignPageAccessDiscarded : Obligations.ForeignPageAccessDiscarded := by
  intro fn reg s hup hpage
  refine ⟨fun ack => ?clear, ?ack, fun enable ring => ?ring, fun ring head => ?head, fun i op c hi hfn hreg => ?trigger,
    fun off data ho => ?slot, fun off n => ?read⟩
  case clear => exact done_withReg_foreign _ hup hpage
  case ack => exact done_withReg_foreign _ hup hpage
  case ring => exact done_withReg_foreign _ hup hpage
  case head => exact done_withReg_foreign _ hup hpage
  case trigger =>
    subst hfn hreg
    exact (exec_task hi s).trans (done_withReg_foreign _ hup hpage)
  case slot => exact (exec_registerWrite s fn reg data ho).trans (done_withReg_foreign _ hup hpage)
  case read =>
    rw [exec_resultRead, readReg_foreign off n hup hpage]
    exact done_eq (by simp) (by simp)

/-- The 64-byte command slot with the bytes of a write at `off` of the register merged in. -/
def slotMerged (m : Memory) (off : Nat) (b : List Byte) : Memory :=
  ((List.range 64).filterMap fun o => (if off ≤ o ∧ o < off + b.length then b[o - off]? else none).map fun x => (o, x)).foldl
    (fun m e => mset m e.1 e.2) m

/-- A write that ends before byte +0x3F changes the command slot alone (03 R69, R77). -/
theorem writeReg_slot {s : State} {fn reg off : Nat} {b : List Byte} {pg : PageCond} (h : Reaches s fn reg pg) (hb : off + b.length ≤ 0x3F) :
    writeReg s fn reg off b = (wake s).modReg reg fun r => { r with slot := slotMerged (s.reg reg).slot off b } := by
  have hbyte : ∀ o, 0x3F ≤ o → (if off ≤ o ∧ o < off + b.length then b[o - off]? else none) = none := by
    intro o ho
    exact if_neg (by omega)
  have hnone : ((List.range 8).any fun _ => false) = false := rfl
  unfold writeReg
  rw [withReg_reaches _ h]
  simp only [hbyte 0x3F (by omega), hbyte 0x53 (by omega), hbyte _ (Nat.le_add_right_of_le (by decide : 0x3F ≤ 0x58)),
    Option.isSome_none, Bool.false_eq_true, if_false, hnone]
  rfl

/-- ENABLE and RING are set together (03 R74). -/
theorem setRing_eq (s : State) (fn reg : Nat) (enable : Bool) (ring : Nat) :
    setRing s fn reg enable ring =
      if enable = true ∧ (((kget s.rings ring).getD {}).fn ≠ fn ∨ ((kget s.rings ring).getD {}).base = 0) then s
      else s.modReg reg fun r => { r with enable := enable, ring := BitVec.ofNat 10 ring } := by
  simp [setRing]

/-- Settles O4: the read, the two ring writes and the slot write, each by the equation of what it calls. -/
theorem registerAccessesAct : Obligations.RegisterAccessesAct := by
  refine ⟨fun fn reg off n pg s hr => ?read, fun fn reg ring pg s hr => ⟨fun enable => ?enable, fun head g hg hfn => ?head⟩,
    fun fn reg off data pg s hr _ hb => ?slot⟩
  case read =>
    rw [exec_resultRead, readReg_reaches off n hr]
    exact done_eq (by split <;> simp) (by split <;> simp)
  case enable =>
    rw [exec_ringEnable, done_withReg_reaches _ hr, setRing_eq]
    exact done_eq (by split <;> simp) (by split <;> simp)
  case head =>
    subst hg
    rw [exec_headWrite, done_withReg_reaches _ hr, setHead, if_pos hfn]
    exact done_eq (by simp) (by simp)
  case slot =>
    rw [exec_registerWrite s fn reg data (by omega), writeReg_slot hr hb]
    exact done_eq (by simp) (by simp)

/-! ### A trigger: dropped, discarded or begun (03 R77-R79) -/

section
variable {s : State} {op : Nat} {c : TaskCmd} {pg : PageCond}

/-- A trigger in a register that is PENDING or EXECUTING (03 R79). -/
theorem trigger_busy (h : Reaches s c.fn c.reg pg)
    (hbusy : ((wake s).reg c.reg).state = .pending ∨ ((wake s).reg c.reg).state = .executing) :
    trigger op c s = bump ((wake s).modReg c.reg fun r => { r with overrun := true, lastDropped := c.tag }) 0x9200 3 1 := by
  unfold trigger
  rw [withReg_reaches _ h]
  exact if_pos hbusy

theorem not_busy_of_free {r : TaskReg} (h : r.state = .idle ∨ r.state = .done) : ¬ (r.state = .pending ∨ r.state = .executing) := by
  rcases h with h | h <;> simp [h]

/-- The status of a command whose CRC or sequence is wrong: the CRC is checked first (03 R78). -/
def discardStatus (op : Nat) (c : TaskCmd) : Nat := if crc32 (cmdBytes op c) ≠ c.crc then 0x1001 else 0x1002

/-- Such a command fails the first or the second check, and NEXT_SEQ does not advance. -/
theorem acceptance_discards (h : crc32 (cmdBytes op c) ≠ c.crc ∨ c.seq ≠ (s.reg c.reg).nextSeq) :
    acceptance s op c pg = (discardStatus op c, false) := by
  unfold acceptance discardStatus
  by_cases hcrc : crc32 (cmdBytes op c) = c.crc
  · have hseq := h.resolve_left (not_not_intro hcrc)
    simp [hcrc, hseq]
  · simp [hcrc]

/-- The register of a command that is discarded. -/
def discarded (op : Nat) (c : TaskCmd) (r : TaskReg) : TaskReg :=
  { r with
    slot := ofBytes (cmdBytes op c ++ toLE 4 c.crc.toNat), tag := c.tag, readCount := 0, state := .done, valid := true
    status := BitVec.ofNat 16 (discardStatus op c), value := 0 }

theorem discardStatus_cases (op : Nat) (c : TaskCmd) : discardStatus op c = 0x1001 ∨ discardStatus op c = 0x1002 := by
  unfold discardStatus
  split
  · exact .inl rfl
  · exact .inr rfl

/-- Either discard is counted in its own counter of OD 0x9200. -/
theorem countRefusal_discard (s : State) (op : Nat) (c : TaskCmd) (p : Nat) :
    ∃ k, countRefusal s p (discardStatus op c) = bump s 0x9200 k 1 := by
  rcases discardStatus_cases op c with h | h <;> rw [h]
  · exact ⟨1, rfl⟩
  · exact ⟨2, rfl⟩

/-- A discarded command changes its register and a counter. -/
theorem trigger_discards (h : Reaches s c.fn c.reg pg)
    (hfree : ((wake s).reg c.reg).state = .idle ∨ ((wake s).reg c.reg).state = .done)
    (hbad : crc32 (cmdBytes op c) ≠ c.crc ∨ c.seq ≠ ((wake s).reg c.reg).nextSeq) :
    ∃ k, trigger op c s = bump ((wake s).modReg c.reg (discarded op c)) 0x9200 k 1 := by
  have hst : discardStatus op c ≠ 0 := by
    rcases discardStatus_cases op c with h | h <;> simp [h]
  obtain ⟨k, hk⟩ := countRefusal_discard ((wake s).modReg c.reg (discarded op c)) op c pg.polder
  refine ⟨k, Eq.trans ?_ hk⟩
  unfold trigger
  rw [withReg_reaches _ h]
  simp only [not_busy_of_free hfree, if_false, acceptance_discards hbad, hst, ne_eq, not_false_eq_true, if_true,
    Bool.false_eq_true, bne_iff_ne.2 hst]
  rfl

end

/-- Settles O3: every task command is a trigger of its opcode. -/
theorem slotOverrunDropsTrigger : Obligations.SlotOverrunDropsTrigger := by
  intro i op c pg s hi hr hbusy
  rw [exec_task hi, trigger_busy hr hbusy]
  exact done_eq (by simp) (by simp)

/-- The register of a command that has begun. -/
theorem begun_reg (s : State) (op : Nat) (c : TaskCmd) (pg : PageCond) :
    (begun s op c pg).reg c.reg = { s.reg c.reg with
      slot := ofBytes (cmdBytes op c ++ toLE 4 c.crc.toNat), tag := c.tag, readCount := 0, nextSeq := (s.reg c.reg).nextSeq + 1
      state := .executing, valid := false, status := 0, value := 0 } := by
  simp [begun, State.reg]

/-- Settles O5: a discarded command changes its register and a counter; an admitted one runs its effect on `begun`. -/
theorem triggersAreCheckedThenRun : Obligations.TriggersAreCheckedThenRun := by
  refine ⟨fun i op c pg s hi hr hfree hbad => ?discards, fun i op c pg s hi had => ?runs⟩
  case discards =>
    obtain ⟨k, hk⟩ := trigger_discards hr hfree hbad
    refine ⟨_, by rw [exec_task hi, hk]; exact done_eq (by simp) (by simp), ?_⟩
    simp only [bump_execs, bump_objs, bump_txs, bump_flash, bump_reg, State.modReg_execs, State.modReg_objs, State.modReg_txs,
      State.modReg_flash, modReg_reg, wake_execs, wake_objs, wake_txs, wake_flash, discarded, true_and]
    unfold discardStatus
    split <;> rfl
  case runs =>
    refine ⟨exec_admitted hi had, ?_⟩
    simp only [begun_reg, begun_objs, begun_txs, begun_flash, and_self]

/-! ### The end of a command (03 R75, R81) -/

/-- The register of a command that has ended. -/
def completed (status value : Nat) (r : TaskReg) : TaskReg :=
  { r with state := .done, valid := true, readCount := 0, status := BitVec.ofNat 16 status, value := BitVec.ofNat 64 value }

/-- The state with a command's slot freed and its result in its register. -/
def withResult (s : State) (reg status value : Nat) : State :=
  ({ s with execs := kdel s.execs reg } : State).modReg reg (completed status value)

theorem withResult_reg (s : State) (reg status value : Nat) :
    (withResult s reg status value).reg reg = completed status value (s.reg reg) := modReg_reg _ _ _

theorem withResult_reg_other (s : State) {reg r : Nat} (status value : Nat) (h : r ≠ reg) :
    (withResult s reg status value).reg r = s.reg r := by
  simp [withResult, State.reg, kget_kset_other _ _ h]

/-- A register without a ring posts no record (03 R75). -/
theorem ringPost_disabled {s : State} {reg : Nat} (e : Exec) (status value : Nat) (h : (s.reg reg).enable = false) :
    ringPost s reg e status value = s := by
  simp [ringPost, h]

theorem bumpB_countsOnly (s : State) (p i j n : Nat) : CountsOnly s (bumpB s p i j n) := by
  unfold CountsOnly bumpB bumpP bump
  split <;> split <;> rfl

/-- A command of this module's host, without a transaction and without a record, ends with its result; counters may move beside it. -/
theorem finishCmd_plain {s : State} {reg : Nat} {e : Exec} (status value : Nat) (hc : e.carried = none) (hs : e.silent = false)
    (htx : e.cmd.tx = 0) (hr : (s.reg reg).enable = false) :
    CountsOnly (withResult s reg status value) (finishCmd s reg e status value) := by
  have hid : e.cmd.tx.toNat % 4194304 = 0 := by simp [htx]
  have hoff : ((withResult s reg status value).reg reg).enable = false := by rwa [withResult_reg]
  unfold finishCmd
  simp only [hc, hs, hid, Bool.false_eq_true, if_false, ne_eq, not_true_eq_false, false_and]
  by_cases hst : status = 0
  · rw [if_pos hst]
    exact (ringPost_disabled e status value hoff).symm ▸ rfl
  · rw [if_neg hst]
    exact (ringPost_disabled e status value ((bumpB_reg ..).symm ▸ hoff)).symm ▸ bumpB_countsOnly ..

/-- A command that waits for nothing more ends at once. -/
theorem commandComplete_ready {s : State} {reg : Nat} {e : Exec} {status value : Nat} (he : kget s.execs reg = some e)
    (hw : e.wait = .ready status value) : commandComplete s reg = finishCmd s reg e status value := by
  simp [commandComplete, he, resolve, hw]

theorem exec_commandComplete (s : State) (reg : Nat) : exec (.commandComplete reg) s = done s (commandComplete s reg) := rfl

/-- Settles O6: a command's end is `withResult`, and counters. -/
theorem commandEndsWithItsResult : Obligations.CommandEndsWithItsResult := by
  intro reg e st v s he hw hc hs htx hr
  have hcounts := finishCmd_plain st v hc hs htx hr
  unfold CountsOnly at hcounts
  have hregs : ∀ r, (finishCmd s reg e st v).reg r = (withResult s reg st v).reg r := fun r => by rw [hcounts]; rfl
  refine ⟨finishCmd s reg e st v, ?answers, by rw [hcounts]; rfl, ?_⟩
  case answers =>
    rw [exec_commandComplete, commandComplete_ready he hw]
    exact done_eq (by rw [hcounts]; rfl) (by rw [hcounts]; rfl)
  rw [hregs reg, withResult_reg]
  refine ⟨rfl, rfl, rfl, rfl, rfl, rfl, fun r h => (hregs r).trans (withResult_reg_other s st v h), ?_⟩
  rw [hcounts]
  exact ⟨rfl, rfl, rfl, rfl, rfl⟩

end Sys2Proof.Machine

/-! ## Task commands (03): READ, WRITE, JOB, JOB_CANCEL, the firmware commands, and the reset state -/

namespace Sys2Proof.Machine

/-! ### READ and WRITE (03 R86, R87) -/

/-- The buffer of a command without the SGL flag is one range (03 R525). -/
theorem buffer_plain {q : Req} (s : State) (hf : q.flag 3 = false) : q.buffer s = .ok [(q.c.haddr.toNat, q.c.length.toNat)] := by
  simp [Req.buffer, bufferOf, hf]

/-- The state with bytes delivered into host memory. -/
def delivered (s : State) (fn a : Nat) (b : List Byte) : State := s.modHost fun h => { h with mem := mwrite h.mem (hostKey fn a) b }

/-- Bytes that fill a buffer of one range, which the host serves, are delivered whole. -/
theorem deliver_range {s : State} {fn a n : Nat} {b : List Byte} (hlen : b.length = n) (hup : ioUp s = true)
    (hserves : hostServes s fn a n = true) : deliver s fn [(a, n)] b = (true, delivered s fn a b) := by
  subst hlen
  simp [deliver, hostWrite, delivered, hup, hserves]

theorem headerBytes_length (s : State) (h : Nat) (o : Obj) : (headerBytes s h o).length = 128 := by
  have harea : (areaBytes s o.area).length = 64 := by
    cases o.area <;> exact mread_length ..
  simp [headerBytes, commonBytes, harea]

theorem effRead_header {q : Req} (s : State) (hf : q.flag 2 = true) : effRead q s = readHeader q s := if_pos hf

/-- READ of the payload of an object homed here. -/
theorem effRead_local {q : Req} {s : State} (hf : q.flag 2 = false) (hns : q.flag 1 = false) (h0 : 0 < q.c.length.toNat)
    (hl : q.c.length.toNat ≤ 67108864) (hh : homeOf q.c.target.toNat = moduleId s) : effRead q s = readObj q s := by
  simp [effRead, hf, hns, isRemote_home hh, Nat.ne_of_gt h0, Nat.not_lt.2 hl]

theorem readHeader_delivers {q : Req} {s : State} {o : Obj} (htx : q.tx = 0) (hsgl : q.flag 3 = false)
    (hlen : q.c.length.toNat = 128) (hoff : q.op 0 8 = 0) (ho : kget s.objs q.c.target.toNat = some o) (hup : ioUp s = true)
    (hserves : hostServes s q.fn q.c.haddr.toNat 128 = true) :
    readHeader q s = (delivered s q.fn q.c.haddr.toNat (headerBytes s q.c.target.toNat o), .ready 0 128, 128) := by
  have hdeliver := deliver_range (headerBytes_length s q.c.target.toNat o) hup hserves
  simp only [readHeader, htx, hlen, hoff, ho, buffer_plain s hsgl, hdeliver, ne_eq, not_true_eq_false, or_self, if_false, if_true]

/-- The payload is read after the access has counted in the object's heat, and its pages are given back (02 R48, R50). -/
theorem readObj_delivers {q : Req} {s s1 s2 : State} {o : Obj} {m : Memory} {a n : Nat} (htx : q.tx = 0) (hagain : q.again = false)
    (hsgl : q.flag 3 = false) (ho : kget s.objs q.c.target.toNat = some o) (hn : q.c.length.toNat = n) (ha : o.base + q.op 0 8 = a)
    (hlen : q.op 0 8 + n ≤ o.length) (hmissing : missingPages s .command (flashPages s a n) = [])
    (hs1 : s1 = usedPages (touchHeat s q.c.target.toNat a n (whoReg q.reg)) .command (flashPages s a n))
    (hread : readPayload s1 a n 0 = (.ok m, s2)) (hup : ioUp s2 = true) (hserves : hostServes s2 q.fn q.c.haddr.toNat n = true) :
    readObj q s = (delivered s2 q.fn q.c.haddr.toNat (mread m 0 n), .ready 0 n, n) := by
  subst hn ha hs1
  have hdeliver := deliver_range (mread_length m 0 q.c.length.toNat) hup hserves
  simp only [readObj, ho, Nat.not_lt.2 hlen, hmissing, hagain, htx, hread, buffer_plain s2 hsgl, hdeliver, List.isEmpty_nil,
    Bool.not_true, Bool.and_false, Bool.false_eq_true, if_false, if_true]

/-- Settles O7: both forms of READ deliver into the one range of their buffer. -/
theorem readDelivers : Obligations.ReadDelivers := by
  refine ⟨?header, ?payload⟩
  case header =>
    intro c pg o s had htx hf hsgl hlen hoff ho hserves
    have heff := (effRead_header (q := reqOf c pg) (begun s 0x0001 c pg) hf).trans
      (readHeader_delivers (o := o) (reqOf_tx_zero pg htx) hsgl (by simp [hlen]) hoff (by simpa using ho) (begun_ioUp had)
        ((begun_hostServes ..).trans hserves))
    refine answers_of_effect rfl had htx heff (by simp [delivered, execs_begun_some]) ?_
    rintro t hw rfl
    refine ⟨?memory, hw, ?_, ?_, ?_, ?_, ?_⟩
    case memory => simp [after, delivered, begun_host_mem, reqOf]
    all_goals simp [after, delivered]
  case payload =>
    intro c pg o m s s1 s2 had htx hns hf hsgl h0 hl hh ho hlen hmissing hs1 hread hup hserves hx
    have heff := (effRead_local (q := reqOf c pg) (s := begun s 0x0001 c pg) hf hns h0 hl (by simpa using hh)).trans
      (readObj_delivers (o := o) (reqOf_tx_zero pg htx) rfl hsgl (by simpa using ho) rfl rfl hlen hmissing hs1 hread hup hserves)
    refine answers_of_effect rfl had htx heff hx ?_
    rintro t hw rfl
    exact ⟨rfl, hw, rfl, rfl, rfl⟩

/-- WRITE to the payload of an object homed here. -/
theorem effWrite_local {q : Req} {s : State} (hns : q.flag 1 = false) (h0 : 0 < q.c.length.toNat)
    (hl : q.c.length.toNat ≤ 67108864) (hh : homeOf q.c.target.toNat = moduleId s) : effWrite q s = writeObj q s := by
  simp [effWrite, hns, isRemote_home hh, Nat.ne_of_gt h0, Nat.not_lt.2 hl]

/-- WRITE without FUA and outside a transaction ends once its bytes are stored. -/
theorem writeObj_stores {q : Req} {s s1 s2 : State} {o : Obj} {b : List Byte} (htx : q.tx = 0) (hfua : q.flag 0 = false)
    (ho : kget s.objs q.c.target.toNat = some o) (hlen : q.op 0 8 + q.c.length.toNat ≤ o.length)
    (hro : s.flash.readOnly = false ∨ o.volatile = true) (hfetch : q.fetch s = (.ok b, s1))
    (hstore : storeAt s1 0 q.c.target.toNat (q.op 0 8) b (whoReg q.reg) = (.ok, s2)) :
    writeObj q s = (s2, .ready 0 q.c.length.toNat, q.c.length.toNat) := by
  have hwritable : (s.flash.readOnly && !o.volatile) = false := by
    rcases hro with h | h <;> simp [h]
  simp only [writeObj, ho, Nat.not_lt.2 hlen, hwritable, hfetch, htx, hstore, hfua, Bool.false_and, Bool.false_eq_true, if_false]

/-- Settles O8: WRITE leaves what `storeAt` of the fetched bytes leaves. -/
theorem writeStoresPayload : Obligations.WriteStoresPayload := by
  intro c pg o b s s1 s2 had htx hfua hns h0 hl hh ho hlen hro hfetch hstore hx
  have heff := (effWrite_local (q := reqOf c pg) (s := begun s 0x0002 c pg) hns h0 hl (by simpa using hh)).trans
    (writeObj_stores (o := o) (reqOf_tx_zero pg htx) hfua (by simpa using ho) hlen (by simpa using hro) hfetch hstore)
  refine answers_of_effect rfl had htx heff hx ?_
  rintro t hw rfl
  exact ⟨hw, rfl, rfl, rfl, rfl, rfl⟩

/-! ### JOB and JOB_CANCEL (03 R94, 06 R178, 10 R273) -/

/-- JOB of a program that is not forwarded, and that this module admits: what it answers at once or at the job's end. -/
theorem effJob_admitted {q : Req} {s s1 : State} {h : Nat} (hp : q.op 8 1 ≤ 7)
    (hforward : ∀ g, (loadProg s q.c.target.toNat (q.op 0 8)).1 = some g → forwardTo s q.p g = none)
    (hadmit : admitJob s q.c.target.toNat (q.op 0 8) q.p (q.op 8 1) (q.op 12 4) = (.job h, s1)) :
    effJob q s = (s1, if q.flag 8 then .jobEnd h else .ready 0 h, 0) := by
  have hend : (if q.flag 8 then (s1, Wait.jobEnd h, 0) else ends s1 h) = (s1, if q.flag 8 then .jobEnd h else .ready 0 h, 0) := by
    cases q.flag 8 <;> rfl
  rcases hload : loadProg s q.c.target.toNat (q.op 0 8) with ⟨_ | g, u⟩
  case none =>
    simp only [effJob, Nat.not_lt.2 hp, hload, hadmit, if_false, ite_self, hend]
  case some =>
    have hhere := hforward g (by rw [hload])
    simp only [effJob, Nat.not_lt.2 hp, hload, hhere, hadmit, if_false, ite_self, hend]

/-- JOB_CANCEL of a job that does not run (03 R94). -/
theorem effJobCancel_none {q : Req} {s : State} (hh : homeOf q.c.target.toNat = moduleId s)
    (hj : kget s.jobs q.c.target.toNat = none) : effJobCancel q s = ends s 0 := by
  simp [effJobCancel, isRemote_home hh, hj]

/-- During a securing a cancellation is only noted (10 R273). -/
theorem cancelJob_securing {s : State} {h : Nat} {j : Job} (hj : kget s.jobs h = some j) (hsec : j.securing.isSome = true) :
    cancelJob s h = s.modJob h fun j => { j with cancelled := true } := by
  have hget : kget (s.modJob h fun j => { j with cancelled := true }).jobs h = some { j with cancelled := true } := kget_kmod_same _ hj
  simp only [cancelJob, hget, hsec, if_true]

/-- JOB_CANCEL of a job that is being secured waits for the cancellation. -/
theorem effJobCancel_securing {q : Req} {s : State} {j : Job} (hh : homeOf q.c.target.toNat = moduleId s)
    (hj : kget s.jobs q.c.target.toNat = some j) (hsec : j.securing.isSome = true) (hx : (kget s.execs q.reg).isSome = true) :
    effJobCancel q s = ((setWait s q.reg (.jobCancel q.c.target.toNat)).modJob q.c.target.toNat fun j => { j with cancelled := true },
      .jobCancel q.c.target.toNat, 0) := by
  obtain ⟨e, he⟩ := Option.isSome_iff_exists.1 hx
  have hcancel := cancelJob_securing (s := setWait s q.reg (.jobCancel q.c.target.toNat)) hj hsec
  have hwait : kget (setWait s q.reg (.jobCancel q.c.target.toNat)).execs q.reg =
      some { e with wait := .jobCancel q.c.target.toNat } := kget_kmod_same _ he
  simp only [effJobCancel, isRemote_home hh, hj, hcancel, State.modJob_execs, hwait, Bool.false_eq_true, if_false]

/-- Settles O16: JOB answers what `admitJob` makes, and JOB_CANCEL notes the cancellation of a job that is being secured. -/
theorem jobsAreAdmittedAndCancelled : Obligations.JobsAreAdmittedAndCancelled := by
  refine ⟨?job, fun c pg s had htx hh => ⟨fun hj => ?absent, fun j hj hsec => ?securing⟩⟩
  case job =>
    intro c pg h s s1 had htx hp hforward hadmit hx
    refine answers_of_effect rfl had htx (effJob_admitted (q := reqOf c pg) hp hforward hadmit) hx ?_
    rintro t hw rfl
    exact ⟨hw, rfl, rfl, rfl⟩
  case absent =>
    refine answers_of_effect rfl had htx (effJobCancel_none (q := reqOf c pg) (by simpa using hh) (by simpa using hj))
      (execs_begun_some ..) ?_
    rintro t hw rfl
    exact ⟨hw, by simp [after], by simp [after]⟩
  case securing =>
    obtain ⟨e, he⟩ := Option.isSome_iff_exists.1 (execs_begun_some s 0x0031 c pg)
    refine answers_of_effect rfl had htx (effJobCancel_securing (q := reqOf c pg) (by simpa using hh) (by simpa using hj) hsec
      (execs_begun_some ..)) (by simp [setWait, kget_kmod_same _ he]) ?_
    rintro t hw rfl
    exact ⟨by simp [after, setWait, kget_kmod_same _ hj], hw, by simp [after, setWait]⟩

/-! ### FW_STAGE and FW_ACTIVATE (03 R99, 19 R496, R497) -/

/-- The firmware slots, the staging session and what else the firmware commands ask about are kept; operations of the configuration
flash and its cells may move. -/
structure KeepsFirmware (s t : State) : Prop where
  slotA : t.sec.slotA = s.sec.slotA
  slotB : t.sec.slotB = s.sec.slotB
  session : t.sec.session = s.sec.session
  boot : t.sec.boot = s.sec.boot
  active : t.sec.active = s.sec.active
  objs : t.objs = s.objs
  execs : t.execs = s.execs
  power : t.power = s.power

theorem KeepsFirmware.trans {s t u : State} (h : KeepsFirmware s t) (g : KeepsFirmware t u) : KeepsFirmware s u where
  slotA := g.slotA.trans h.slotA
  slotB := g.slotB.trans h.slotB
  session := g.session.trans h.session
  boot := g.boot.trans h.boot
  active := g.active.trans h.active
  objs := g.objs.trans h.objs
  execs := g.execs.trans h.execs
  power := g.power.trans h.power

theorem CellsOnly.keepsFirmware {s t : State} (h : CellsOnly s t) : KeepsFirmware s t := by
  unfold CellsOnly at h
  rw [h]
  constructor <;> rfl

/-- A suspend moves the operation in progress alone, and counters. -/
theorem cfgSuspend_sec (s : State) : (cfgSuspend s).sec = { s.sec with op := (cfgSuspend s).sec.op } := by
  unfold cfgSuspend modCfgOp
  split
  · rfl
  · split
    · rfl
    · split
      · simp
      · split
        · rfl
        · simp

/-- So does the start of an operation. -/
theorem cfgStart_sec (s : State) (erase : Bool) (sector rank : Nat) :
    (cfgStart s erase sector rank).sec = { s.sec with op := (cfgStart s erase sector rank).sec.op } := by
  unfold cfgStart
  split
  · rfl
  · split
    · rfl
    · dsimp only
      split
      · rfl
      · rw [cfgSuspend_sec]
        rfl

theorem cfgStart_keepsFirmware (s : State) (erase : Bool) (sector rank : Nat) : KeepsFirmware s (cfgStart s erase sector rank) := by
  have hsec := cfgStart_sec s erase sector rank
  have hrest := cfgStart_secOnly s erase sector rank
  unfold SecOnly at hrest
  exact {
    slotA := by rw [hsec], slotB := by rw [hsec], session := by rw [hsec], boot := by rw [hsec], active := by rw [hsec]
    objs := by rw [hrest], execs := by rw [hrest], power := by rw [hrest] }

/-- A slot with a chunk of an image in it (19 R496). -/
def withChunk (off : Nat) (b : List Byte) (sectors : List Nat) (t : Slot) : Slot :=
  { t with image := mwrite t.image off b, written := nubList (t.written ++ sectors) }

theorem State.modSlot_one (s : State) (f : Slot → Slot) : s.modSlot 1 f = s.modSec fun c => { c with slotB := f c.slotB } := rfl

theorem State.inactive_of_active_A {s : State} (h : s.sec.active = false) : s.inactive = 1 := by simp [State.inactive, h]

/-- FW_STAGE of an aligned chunk in an open session, slot A active: the chunk goes into slot B, and the configuration flash works. -/
theorem effFwStage_chunk {q : Req} {s s1 : State} {b : List Byte} (h0 : 0 < q.c.length.toNat) (hl : q.c.length.toNat ≤ 1048576)
    (hn : q.c.length.toNat % 4096 = 0) (ho : q.op 0 8 % 4096 = 0) (hend : q.op 0 8 + q.c.length.toNat ≤ 50331648)
    (hlast : q.flag 8 = false) (hactive : s.sec.active = false) (hfetch : q.fetch s = (.ok b, s1)) (hsession : s1.sec.session = true) :
    ∃ u v, effFwStage q s = ends v 0 ∧ KeepsFirmware s1 u ∧
      KeepsFirmware (u.modSlot 1 (withChunk (q.op 0 8) b (chunkSectors (q.op 0 8) q.c.length.toNat))) v := by
  have hsize : ¬ (q.c.length.toNat = 0 ∨ 1048576 < q.c.length.toNat) := by omega
  have haligned : ¬ (q.c.length.toNat % 4096 ≠ 0 ∨ q.op 0 8 % 4096 ≠ 0) := by omega
  refine ⟨_, _, ?_, cfgStart_keepsFirmware s1 true (slotSector 1 + q.op 0 8 / 4096) 4,
    (cellsOnly_foldl (fun s e => rewriteSector s (slotSector 1 + e.1) (wordsOf e.2)) (fun _ _ => rewriteSector_cellsOnly _ _ _)
      ((chunkSectors (q.op 0 8) q.c.length.toNat).zip (groupsOf 4096 (b.length + 1) b)) _).keepsFirmware⟩
  simp only [effFwStage, hsize, haligned, Nat.not_lt.2 hend, hfetch, hsession, State.inactive_of_active_A hactive, hlast, if_false, if_true,
    Bool.not_false]
  rfl

/-- The words of a slot's status sectors are set beside its new activation number. -/
theorem activateSlot_keepsFirmware (s : State) (k n : Nat) :
    KeepsFirmware (s.modSlot k fun t => { t with activation := n }) (activateSlot s k n) := by
  unfold activateSlot
  dsimp only
  split
  · exact (setStatus_cellsOnly _ _ _ _).keepsFirmware
  · exact (restatus_cellsOnly _ _ _).keepsFirmware

/-- FW_ACTIVATE without a restart, slot A active: slot B has the highest activation number. -/
theorem effFwActivate_slotB {q : Req} {s : State} (hop : q.op 0 1 = 0) (hactive : s.sec.active = false) (hboot : s.sec.boot = .ready)
    (hv : s.sec.slotB.verified = true) (hu : s.sec.slotB.usable = true) (hr : s.sec.slotB.rejected = false) :
    ∃ v, effFwActivate q s = ends v 0 ∧
      KeepsFirmware (s.modSlot 1 fun t => { t with activation := topActivation s + 1 }) v := by
  have hkept := (activateSlot_keepsFirmware s 1 (topActivation s + 1)).trans (cfgStart_keepsFirmware _ false 1160 4)
  have hslot : s.slot 1 = s.sec.slotB := rfl
  have hboots : ¬ (cfgStart (activateSlot s 1 (topActivation s + 1)) false 1160 4).sec.boot = .recovery := by
    rw [hkept.boot]
    simp [State.modSlot_one, hboot]
  have hrun : (cfgStart (activateSlot s 1 (topActivation s + 1)) false 1160 4).sec.active = false := by
    rw [hkept.active]
    exact hactive
  refine ⟨_, ?_, hkept⟩
  simp [effFwActivate, State.inactive_of_active_A hactive, hslot, hop, hv, hu, hr, hboots, hrun]

/-- Settles O20: the chunk and the activation number go into slot B; the rest of the commands' work is the configuration flash's. -/
theorem firmwareCommandsAct : Obligations.FirmwareCommandsAct := by
  refine ⟨?stage, ?activate⟩
  case stage =>
    intro c pg b s s1 had htx off h0 hl hn ho hend hlast hfetch hsec hpower hx hsession hactive
    obtain ⟨u, v, heff, hu, hv⟩ := effFwStage_chunk (q := reqOf c pg) h0 hl hn ho hend hlast (by simpa using hactive) hfetch
      (by rw [hsec, hsession])
    have hexecs : v.execs = s1.execs := hv.execs.trans hu.execs
    have himage : v.sec.slotB = withChunk off b (chunkSectors off c.length.toNat) s.sec.slotB := by
      rw [hv.slotB, State.modSlot_one, State.modSec_sec, hu.slotB, hsec]
      rfl
    refine answers_of_effect rfl had htx heff (by rw [hexecs]; exact hx) ?_
    rintro t hw rfl
    refine ⟨hw, ?_, congrArg Slot.image himage, ?_, hv.objs.trans hu.objs⟩
    · exact hv.slotA.trans (hu.slotA.trans (congrArg Sec.slotA hsec))
    · exact hv.session.trans (hu.session.trans ((congrArg Sec.session hsec).trans hsession))
  case activate =>
    intro c pg s had htx hop hactive hver husable hrej
    obtain ⟨v, heff, hv⟩ := effFwActivate_slotB (q := reqOf c pg) (s := begun s 0x0105 c pg) hop (by simpa using hactive)
      (by simpa using had.serves.2) (by simpa using hver) (by simpa using husable) (by simpa using hrej)
    have hslotB := congrArg Slot.activation hv.slotB
    refine answers_of_effect rfl had htx heff (by rw [hv.execs]; exact execs_begun_some ..) ?_
    rintro t hw rfl
    refine ⟨hw, hslotB.trans ?_, hv.slotA.trans ?_, hv.objs.trans ?_, hv.power.trans ?_⟩
    all_goals simp [State.modSlot_one, topActivation]

/-! ### The state after reset (03 R72, 18 R464, 20 R504) -/

/-- A setting that is not listed is at its default (18 R464). -/
theorem od_of_unlisted {s : State} (h : s.od.vals = []) (index sub : Nat) : od s index sub = odDefault s index sub := by
  simp [od, h, kget]

/-- A register that nothing has written is in its reset state (03 R72). -/
theorem reg_of_unlisted {s : State} (h : s.regs = []) (r : Nat) : s.reg r = {} := by
  simp [State.reg, h, kget]

/-- Settles O60: nothing is listed in the state after reset, and what is not listed is at its reset value. -/
theorem resetState : Obligations.ResetState := by
  have hregs : ∀ r, State.reset.reg r = {} := reg_of_unlisted rfl
  have hod : ∀ index sub, od State.reset index sub = odDefault State.reset index sub := od_of_unlisted rfl
  have hcnt : ∀ index sub, cnt State.reset index sub = 0 := fun _ _ => rfl
  refine ⟨rfl, List.forall_mem_nil _, rfl, rfl, rfl, rfl, rfl, rfl, fun r => ?_, hod, hcnt, rfl, rfl, rfl, rfl, rfl, rfl, rfl, rfl⟩
  rw [hregs r]
  exact ⟨rfl, rfl, rfl, rfl, rfl⟩

end Sys2Proof.Machine

/-! ## Transactions (04): the commands, the timers and the messages of two-phase commit -/

namespace Sys2Proof.Machine

/-- A command whose meaning is a state and then the service of what is held leaves that state. -/
theorem leaves_of_exec {c : Instr} {s u : State} (h : exec c s = done s (serveHeld u)) : Leaves c s u := h

/-- A command answers its meaning, whose queue and identity are put back. -/
theorem answers_of_exec {c : Instr} {s u : State} {P : State → Prop} (h : exec c s = done s u)
    (hP : P { u with pending := s.pending, ident := s.ident }) : Answers c s P := ⟨_, h.trans (done_next s u), hP⟩

/-! ### Tables, a value changed in place -/

section
variable {α : Type} {m : KMap α} {i : Nat} (f : α → α)

theorem kget_kmod : kget (kmod m i f) i = (kget m i).map f := by
  cases h : kget m i with
  | none => rw [kget_kmod_none f h, h]; rfl
  | some v => exact kget_kmod_same f h

theorem keysRise_kmod (h : keysRise m = true) : keysRise (kmod m i f) = true := by
  unfold kmod
  split
  · exact keysRise_kset _ _ h
  · exact h

end

/-- Counters are read from the dictionary alone. -/
theorem cnt_congr {t u : State} {i j : Nat} (h : t.od = u.od) : cnt t i j = cnt u i j := by simp only [cnt, h]

/-! ### The waiters of a transaction's end (05 R146, R147) -/

/-- The end of a page's transaction reaches commands in execution alone. -/
theorem settle_page {t : Tx} {j i : Nat} (s : State) (loc status : Nat) (h : t.owner = .page j i) :
    settle s loc status t = { s with execs := (settle s loc status t).execs } := by
  simp only [settle, h]

/-! ### Moving a commit on (04 R114, R117, 13 R348) -/

/-- A transaction that has read nothing validates (04 R113). -/
theorem validates_of_no_reads {t : Tx} (s : State) (h : t.reads = []) : validates s t = true := by
  simp [validates, h]

/-- No command was accepted before the only one in execution. -/
theorem earlierRuns_lone {s : State} {p : Nat × Exec} (id : Nat) (h : s.execs = [p]) : earlierRuns s id = false := by
  unfold earlierRuns
  rw [h]
  by_cases hw : (p.2.wait == .txOutcome (localOf id)) = true
  · simp only [findFirst, hw, if_true, List.any_cons, List.any_nil, Nat.lt_irrefl, decide_false, Bool.and_false, Bool.or_false]
  · simp only [findFirst, hw, Bool.false_eq_true, if_false]

/-- A commit whose record is queued waits for its commit point. -/
theorem advanceCommit_recorded {s : State} {loc : Nat} {x : Tx} (hx : kget s.txs loc = some x) (hst : x.state = .committing)
    (hrec : x.recordSeq.isSome = true) : advanceCommit s loc = s := by
  simp only [advanceCommit, hx, hst, hrec, reduceCtorEq, false_and, if_false, or_true, true_or, if_true]

/-- The commit record of a transaction (04 R115). -/
def commitRec (s : State) (loc : Nat) (t : Tx) : JRec :=
  .commit (txIdOf s loc) (t.commitSeq.getD s.seq) t.units (lineValues s t) (t.participants.map (·.module)) (additionsOf s (txIdOf s loc))
    t.idx t.trims

/-- A commit without participants and staged pages, its earlier commands ended, that validates: its record joins the journal's queue. -/
theorem advanceCommit_alone {s : State} {loc : Nat} {x : Tx} (hx : kget s.txs loc = some x) (hst : x.state = .committing)
    (hrec : x.recordSeq = none) (hpart : x.participants = []) (hunits : x.units = []) (hvalid : validates s x = true)
    (hro : s.flash.readOnly = false) (hearlier : earlierRuns s (txIdOf s loc) = false) :
    advanceCommit s loc = (jadd s (commitRec s loc x)).2.modTx loc fun t => { t with recordSeq := some (s.seq + 1) } := by
  have hpages : stagedPages x = [] := by simp [stagedPages, hunits]
  simp only [advanceCommit, hx, hst, hrec, hpart, hpages, hvalid, hro, hearlier, awaitPages, reduceCtorEq, Option.isSome_none,
    List.isEmpty_nil, List.any_nil, List.all_nil, List.foldl_nil, Bool.not_true, Bool.not_false, Bool.false_and, Bool.and_false,
    Bool.false_eq_true, false_and, ne_eq, not_true_eq_false, or_self, if_false]
  simp only [commitRec, hpart]
  rfl

/-! ### Ending a transaction without a commit (04 R114) -/

/-- The state without a transaction of this module and without the row additions that it holds. -/
def withoutTx (s : State) (id : Nat) : State :=
  { s with txs := kdel s.txs (localOf id), tables := kmap s.tables fun _ b => { b with pend := b.pend.filter fun a => a.tx != id } }

/-- An open transaction of this module without staged lines and participants leaves no more than its slot and its row additions. -/
theorem freeTx_unstaged {s : State} {id : Nat} {x : Tx} (hc : coordOf id = moduleId s) (hx : kget s.txs (localOf id) = some x)
    (hst : x.state = .open) (hpart : x.participants = []) (hundo : x.undo = []) : freeTx s id = withoutTx s id := by
  have hundone : delTx (undoTx s id x) id = withoutTx s id := by
    simp only [delTx, undoTx, hundo, restoreLines, List.foldl_nil]
    exact if_pos hc
  simp only [freeTx, getTx, hc, hx, hst, hpart, List.foldl_nil, true_or, if_true, reduceCtorEq, if_false]
  exact hundone

/-! ### TX_BEGIN, TX_COMMIT and TX_ABORT (04 R101-R103, R114, 03 R92) -/

/-- A command that carries the id of a transaction coordinated here touches that transaction before its effect. -/
theorem touchTx_home {s : State} {id : Nat} {x : Tx} (h0 : id ≠ 0) (hc : coordOf id = moduleId s)
    (hx : kget s.txs (localOf id) = some x) :
    touchTx s id = s.modTx (localOf id) fun t => { t with lastNamed := s.power.uptime } := by
  simp [touchTx, getTx, setTx, State.modTx, kmod, h0, hc, hx]

theorem reqOf_tx {c : TaskCmd} (pg : PageCond) (h : c.tx.toNat % 4194304 ≠ 0) : (reqOf c pg).tx = c.tx.toNat := by
  simp [reqOf, Req.tx, h]

/-- A transaction that is named now (04 R114). -/
def namedNow (s : State) (t : Tx) : Tx := { t with lastNamed := s.power.uptime }

/-- The state in which the effect of a command runs that names a transaction of this module. -/
def touched (s : State) (op : Nat) (c : TaskCmd) (pg : PageCond) : State := (begun s op c pg).modTx (localOf c.tx.toNat) (namedNow s)

/-- A transaction of this module that a command names, open and of the command's page. -/
structure NamesOpen (s : State) (c : TaskCmd) (pg : PageCond) (x : Tx) : Prop where
  id : c.tx.toNat % 4194304 ≠ 0
  home : coordOf c.tx.toNat = moduleId s
  listed : kget s.txs (localOf c.tx.toNat) = some x
  owner : x.owner = .page c.fn pg.polder
  state : x.state = .open

section
variable {s : State} {op : Nat} {c : TaskCmd} {pg : PageCond} {x : Tx}

theorem moduleId_touched : moduleId (touched s op c pg) = moduleId s := moduleId_begun s op c pg

theorem kget_touched (h : NamesOpen s c pg x) : kget (touched s op c pg).txs (localOf c.tx.toNat) = some (namedNow s x) :=
  kget_kmod_same _ (by simpa using h.listed)

/-- An admitted command that names a transaction of this module: what holds of the state that its effect leaves holds of the next
state. -/
theorem answers_of_tx_effect {i : Instr} {s1 : State} {w : Wait} {n : Nat} {P : State → Prop} (hi : opOf i = some (op, c))
    (had : Admitted s op c pg) (hn : NamesOpen s c pg x)
    (heff : effectOf op (reqOf c pg) (touched s op c pg) = (s1, w, n)) (hexec : (kget s1.execs c.reg).isSome = true)
    (hP : ∀ t, waitOf t c.reg = some w → (t = { after (s1, w, n) c.reg with pending := s.pending, ident := s.ident }) → P t) :
    Answers i s P := by
  have h0 : c.tx.toNat ≠ 0 := fun h => hn.id (by rw [h])
  have htouch : touchTx (begun s op c pg) (reqOf c pg).tx = touched s op c pg := by
    rw [reqOf_tx pg hn.id, touchTx_home h0 (by simpa using hn.home) (by simpa using hn.listed), begun_power]
    rfl
  obtain ⟨e, he⟩ := Option.isSome_iff_exists.1 hexec
  refine answers_of_exec (exec_admitted hi had) ?_
  rw [htouch, heff]
  exact hP _ (waitOf_after (e := (s1, w, n)) he) rfl

/-- TX_COMMIT and TX_ABORT may end an open transaction of their page. -/
theorem endable_touched (h : NamesOpen s c pg x) : endable (reqOf c pg) (touched s op c pg) = some (namedNow s x) := by
  have h0 : c.tx.toNat ≠ 0 := fun h' => h.id (by rw [h'])
  have hmay : (namedNow s x).owner = .page (reqOf c pg).fn (reqOf c pg).p ∧
      ((namedNow s x).state = .open ∨ (namedNow s x).state = .aborted) := ⟨h.owner, .inl h.state⟩
  simp only [endable, reqOf_tx pg h.id, h0, moduleId_touched, h.home, kget_touched h, hmay, ne_eq, not_true_eq_false, or_self, and_self,
    if_false, if_true]

/-- The only command in execution, once it has begun. -/
theorem begun_execs_lone (h : s.execs = []) : ∃ e, (begun s op c pg).execs = [(c.reg, e)] := by
  simp only [begun, bumpB_execs, State.modReg_execs, wake_execs, h, kset]
  exact ⟨_, rfl⟩

end

/-- A transaction is opened in a free slot under the next local number (04 R101, R103). -/
theorem effTxBegin_opens {q : Req} {s : State} {k : Nat} (hfree : s.txs.length < 4096)
    (hk : nextLocal s (4097 + s.outcomes.length) s.txHigh = some k) :
    effTxBegin q s = ends (jadd { s with
      txs := kset s.txs k { owner := .page q.fn q.p, lastNamed := s.power.uptime }, txHigh := k }
      (.highMark s.numHigh k s.seq s.healthMark)).2 (moduleId s * 4194304 + k) := by
  simp only [effTxBegin, beginTx, Nat.not_le.2 hfree, if_false, hk, Option.map_some]
  rfl

/-- An open transaction in state COMMITTING, the command in a register waiting for its outcome. -/
def committing (s : State) (reg loc : Nat) : State :=
  ({ s with execs := kmod s.execs reg fun e => { e with wait := .txOutcome loc } } : State).modTx loc fun t =>
    { t with state := .committing }

/-- TX_COMMIT of an open transaction moves its commit on, and waits for what the commit then waits for. -/
theorem effTxCommit_open {q : Req} {s : State} {x : Tx} (hx : kget s.txs (localOf q.tx) = some x) (hend : endable q s = some x)
    (hst : x.state = .open) {e : Exec}
    (he : kget (advanceCommit (committing s q.reg (localOf q.tx)) (localOf q.tx)).execs q.reg = some e) :
    effTxCommit q s = (advanceCommit (committing s q.reg (localOf q.tx)) (localOf q.tx), e.wait, 0) := by
  have hstart : startCommit { s with execs := kmod s.execs q.reg fun e => { e with wait := .txOutcome (localOf q.tx) } } (localOf q.tx) =
      advanceCommit (committing s q.reg (localOf q.tx)) (localOf q.tx) := by
    simp only [startCommit, hx, hst, reduceCtorEq, if_false, if_true]
    rfl
  simp only [effTxCommit, hend, hstart, he]

/-- TX_ABORT of an open transaction frees it and counts an explicit abort; other commands that name it end with 0x3003. -/
theorem effTxAbort_open {q : Req} {s : State} {x : Tx} (hend : endable q s = some x) (hst : x.state = .open) :
    effTxAbort q s = ends { bumpB (freeTx s q.tx) x.polder 0x9600 4 1 with
      execs := kmap (freeTx s q.tx).execs fun r e =>
        if r != q.reg && e.cmd.tx.toNat == q.tx then { e with wait := .ready 0x3003 0 } else e } 0 := by
  simp only [effTxAbort, hend, hst, if_true, bumpB_execs]

/-- The state in which an accepted TX_COMMIT moves its commit on. -/
def commitStart (s : State) (c : TaskCmd) (pg : PageCond) : State := committing (touched s 0x0021 c pg) c.reg (localOf c.tx.toNat)

section
variable {s : State} {c : TaskCmd} {pg : PageCond} {x : Tx}

theorem commitStart_seq : (commitStart s c pg).seq = s.seq := begun_seq ..

theorem commitStart_flash : (commitStart s c pg).flash = s.flash := begun_flash ..

theorem commitStart_objs : (commitStart s c pg).objs = s.objs := begun_objs ..

/-- A TX_COMMIT that is alone in execution waits for the outcome. -/
theorem commitStart_execs_lone (h : s.execs = []) :
    ∃ e, e.wait = .txOutcome (localOf c.tx.toNat) ∧ (commitStart s c pg).execs = [(c.reg, e)] := by
  obtain ⟨e, he⟩ := begun_execs_lone (op := 0x0021) (c := c) (pg := pg) h
  exact ⟨{ e with wait := .txOutcome (localOf c.tx.toNat) }, rfl, by simp [commitStart, committing, touched, he, kmod, kget, kset]⟩

theorem kget_commitStart (hn : NamesOpen s c pg x) :
    kget (commitStart s c pg).txs (localOf c.tx.toNat) = some { namedNow s x with state := .committing } :=
  kget_kmod_same _ (kget_touched hn)

/-- TX_COMMIT of a transaction without participants and staged pages, nothing else in execution, that validates: its record is queued. -/
theorem effTxCommit_alone (hn : NamesOpen s c pg x) (hrec : x.recordSeq = none) (hpart : x.participants = []) (hunits : x.units = [])
    (hexecs : s.execs = []) (hro : s.flash.readOnly = false)
    (hvalid : validates (commitStart s c pg) { namedNow s x with state := .committing } = true) :
    ∃ r, effTxCommit (reqOf c pg) (touched s 0x0021 c pg) =
      ((jadd (commitStart s c pg) r).2.modTx (localOf c.tx.toNat) fun t => { t with recordSeq := some (s.seq + 1) },
        .txOutcome (localOf c.tx.toNat), 0) := by
  obtain ⟨e, hwait, hlone⟩ := commitStart_execs_lone (c := c) (pg := pg) hexecs
  have hqueued := advanceCommit_alone (kget_commitStart hn) rfl hrec hpart hunits hvalid (by rw [commitStart_flash, hro])
    (earlierRuns_lone _ hlone)
  rw [commitStart_seq] at hqueued
  have hopen := effTxCommit_open (q := reqOf c pg) (s := touched s 0x0021 c pg) (x := namedNow s x) (e := e)
  rw [reqOf_tx pg hn.id, reqOf_reg, ← commitStart, hqueued, hwait] at hopen
  exact ⟨_, hopen (kget_touched hn) (endable_touched hn) hn.state (by simp [hlone, kget])⟩

end

/-- Settles O13: each command's effect on the transaction that it opens or names. -/
theorem transactionCommandsAct : Obligations.TransactionCommandsAct := by
  refine ⟨?begins, ?commits, ?aborts⟩
  case begins =>
    intro c pg k s had htx hfree hk
    refine answers_of_effect rfl had htx (effTxBegin_opens (by simpa using hfree) (by simpa using hk)) (by simp [execs_begun_some]) ?_
    rintro t hw rfl
    refine ⟨⟨_, kget_kset_same .., rfl, rfl, rfl, rfl⟩, rfl, by simpa using hw, ?_⟩
    simp [after, jadd, nextSeq]
  case commits =>
    intro c pg x s had htx hc hx howner hst hpart hunits hrec hro _ hexecs hreads
    have hn : NamesOpen s c pg x := ⟨htx, hc, hx, howner, hst⟩
    obtain ⟨r, heff⟩ := effTxCommit_alone hn hrec hpart hunits hexecs hro (validates_of_no_reads _ hreads)
    obtain ⟨e, -, hlone⟩ := commitStart_execs_lone (c := c) (pg := pg) hexecs
    refine answers_of_tx_effect rfl had hn heff (by simp [hlone, kget]) ?_
    rintro t hw rfl
    refine ⟨?listed, ⟨r, ?queue⟩, hw, ?objs, ?map⟩
    case listed => simp [after, kget_kmod, kget_commitStart hn]
    case queue => simp [after, jadd_flash, commitStart_seq, commitStart_flash]
    case objs => simp [after, commitStart_objs]
    case map => simp [after, jadd, nextSeq, commitStart_flash]
  case aborts =>
    intro c pg x s had htx hc hx howner hst hpart hundo hrise
    have hn : NamesOpen s c pg x := ⟨htx, hc, hx, howner, hst⟩
    have hfree := freeTx_unstaged (hc.trans moduleId_touched.symm) (kget_touched (op := 0x0022) hn) hst hpart hundo
    have heff := effTxAbort_open (endable_touched (op := 0x0022) hn) hst
    rw [reqOf_tx pg htx, hfree] at heff
    have hrise' : keysRise (touched s 0x0022 c pg).txs = true := by
      simpa [touched] using keysRise_kmod _ hrise
    refine answers_of_tx_effect rfl had hn heff (by simp [kget_kmap, withoutTx, touched, execs_begun_some]) ?_
    rintro t hw rfl
    refine ⟨?freed, hw, ?counted, ?kept⟩
    case freed => simp [after, withoutTx, kget_kdel_same _ hrise']
    case counted =>
      have hcount : cnt (bumpB (withoutTx (touched s 0x0022 c pg) c.tx.toNat) (namedNow s x).polder 0x9600 4 1) 0x9600 4 =
          cnt s 0x9600 4 + 1 := by
        rw [bumpB, cnt_bumpP, cnt_bump]
        exact congrArg (· + 1) (cnt_begun s 0x0022 c pg (by decide))
      exact (cnt_congr rfl).trans hcount
    case kept => simp [after, withoutTx, touched]

/-! ### The timers of transactions and of two-phase commit (04 R114, R117-R120, R123) -/

section
variable {s : State} {loc : Nat} {x : Tx}

theorem txIdle_due (hx : kget s.txs loc = some x) (hst : x.state = .open ∨ x.state = .aborted) (hon : od s 0x3300 1 ≠ 0)
    (hdue : x.lastNamed + od s 0x3300 1 * 1000 ≤ now s) :
    txIdle s loc = serveHeld (freeTx (bumpB s x.polder 0x9600 8 1) (txIdOf s loc)) := by
  simp only [txIdle, hx]
  exact if_pos ⟨hst, hon, hdue⟩

theorem prepareTimeout_due {at' : Nat} (hx : kget s.txs loc = some x) (hprep : x.preparedAt = some at') (hst : x.state = .committing)
    (hrec : x.recordSeq = none) (hout : x.participants.any (fun p => p.vote.isNone) = true) (hdue : at' + od s 0x4600 1 ≤ now s) :
    prepareTimeout s loc = serveHeld (failCommit s loc 0x3005) := by
  simp only [prepareTimeout, hx, hprep]
  exact if_pos ⟨hst, by rw [hrec]; rfl, hout, hdue⟩

/-- Participants that have not acknowledged COMMIT. -/
def unacked (t : Tx) : List Nat := (t.participants.filter fun p => !p.acked).map (·.module)

theorem unacked_of_all_acked (h : x.participants.all (fun p => p.acked) = true) : unacked x = [] := by
  have hnone : (x.participants.filter fun p => !p.acked) = [] := by
    rw [List.filter_eq_nil_iff]
    simpa using h
  rw [unacked, hnone, List.map_nil]

theorem commitRepeat_due (hx : kget s.txs loc = some x) (hst : x.state = .committed) (hdue : x.repeatAt + od s 0x4600 2 ≤ now s) :
    commitRepeat s loc = (unacked x).foldl (fun u m => sendMsg u m .commit (txIdOf u loc) 0 [] [])
      (s.modTx loc fun y => { y with repeatAt := s.power.uptime }) := by
  simp only [commitRepeat, hx]
  exact if_pos ⟨hst, hdue⟩

theorem inDoubtQuery_due {tx : Nat} (hx : kget s.branches tx = some x) (hst : x.state = .prepared) (hprep : x.preparedAt.isSome = true)
    (hdue : x.repeatAt + od s 0x4600 2 ≤ now s) :
    inDoubtQuery s tx = sendMsg { s with branches := kmod s.branches tx fun y => { y with repeatAt := s.power.uptime } }
      (coordOf tx) .query tx 0 [] [] := by
  simp only [inDoubtQuery, hx]
  exact if_pos ⟨hst, hprep, hdue⟩

theorem branchIdle_due {tx : Nat} (hx : kget s.branches tx = some x) (hst : x.state ≠ .prepared)
    (hdue : x.lastNamed + od s 0x4600 3 * 1000 ≤ now s) : branchIdle s tx = serveHeld (rollBranch s tx) := by
  simp only [branchIdle, hx]
  exact if_pos ⟨hst, hdue⟩

/-- The state in which the acknowledgement of one participant has been given up: logged, counted, its outcome record kept (04 R120). -/
def ackGivenUp (s : State) (loc m : Nat) (t : Tx) : State :=
  { bump (logHealth s 0x31 false [txIdOf s loc, m]) 0x9600 0xB 1 with
    outcomes := s.outcomes ++ [⟨loc, [m], t.repeatAt⟩], txs := kdel s.txs loc }

theorem ackTimeout_due {m : Nat} (hx : kget s.txs loc = some x) (hst : x.state = .committed) (hm : unacked x = [m])
    (hdue : x.commitAt + 100 * od s 0x4600 2 ≤ now s) : ackTimeout s loc = settle (ackGivenUp s loc m x) loc 0 x := by
  have hcond : x.state = .committed ∧ (!(unacked x).isEmpty) = true ∧ x.commitAt + 100 * repeatInterval s ≤ now s :=
    ⟨hst, by rw [hm]; rfl, hdue⟩
  unfold unacked at hm hcond
  simp only [ackTimeout, hx]
  rw [if_pos hcond, hm]
  simp only [List.foldl_cons, List.foldl_nil, bump_outcomes, bump_txs, logHealth_outcomes, logHealth_txs]
  rfl

end

/-- Settles O14: each timer, due, does what its rule says. -/
theorem transactionTimersAct : Obligations.TransactionTimersAct := by
  refine ⟨?idle, ?vote, ?acknowledged, ?repeated, ?asked, ?givenUp, ?branch⟩
  case idle =>
    intro loc x s hx hst hon hdue
    exact leaves_of_exec (congrArg (done s) (txIdle_due hx hst hon hdue))
  case vote =>
    intro loc at' x s hx hprep hst hrec hout hdue
    exact leaves_of_exec (congrArg (done s) (prepareTimeout_due hx hprep hst hrec hout hdue))
  case acknowledged =>
    intro loc x s hx hst hdue hall
    have hrepeat := commitRepeat_due hx hst hdue
    rw [unacked_of_all_acked hall, List.foldl_nil] at hrepeat
    exact answers_of_exec (congrArg (done s) hrepeat) ⟨kget_kmod_same _ hx, rfl⟩
  case repeated =>
    intro loc m x s hx hst hdue hm
    have hrepeat := commitRepeat_due hx hst hdue
    rw [show unacked x = [m] from hm, List.foldl_cons, List.foldl_nil] at hrepeat
    exact congrArg (done s) hrepeat
  case asked =>
    intro tx x s hx hst hprep hdue
    exact congrArg (done s) (inDoubtQuery_due hx hst hprep hdue)
  case givenUp =>
    intro loc m x j i s hx hst hm hdue howner
    refine answers_of_exec (congrArg (done s) (ackTimeout_due hx hst hm hdue)) ?_
    rw [settle_page _ _ _ howner]
    refine ⟨rfl, rfl, ?counted, ?logged⟩
    case counted =>
      have hcount : cnt (bump (logHealth s 0x31 false [txIdOf s loc, m]) 0x9600 0xB 1) 0x9600 0xB = cnt s 0x9600 0xB + 1 := by
        rw [cnt_bump, cnt_congr (logHealth_od ..)]
      exact (cnt_congr rfl).trans hcount
    case logged => simp [ackGivenUp]
  case branch =>
    intro tx x s hx hst hdue
    exact leaves_of_exec (congrArg (done s) (branchIdle_due hx hst hdue))

/-! ### The messages of two-phase commit and the commit point (04 R115-R121) -/

/-- A participant's vote, or its acknowledgement, noted in the transaction. -/
def noteFrom (src : Nat) (f : Participant → Participant) (t : Tx) : Tx :=
  { t with participants := t.participants.map fun p => if p.module = src then f p else p }

section
variable {s : State} {src tx : Nat} {x : Tx}

/-- A vote YES that is in time is noted, and the commit moves on. -/
theorem voteArrives_yes {at' : Nat} (hc : coordOf tx = moduleId s) (hx : kget s.txs (localOf tx) = some x)
    (hprep : x.preparedAt = some at') (htime : now s ≤ at' + od s 0x4600 1) (hst : x.state = .committing)
    (hout : x.participants.any (fun p => p.module == src && p.vote.isNone) = true) :
    voteArrives s src tx true = serveHeld (advanceCommit
      (s.modTx (localOf tx) (noteFrom src fun p => { p with vote := some true })) (localOf tx)) := by
  have hlate : decide (at' + od s 0x4600 1 < now s) = false := decide_eq_false (Nat.not_lt.2 htime)
  simp only [voteArrives, hc, hx, hst, hprep, hout, hlate, ne_eq, not_true_eq_false, if_false, and_self, if_true, Bool.and_false,
    Bool.false_eq_true]
  rfl

/-- A commit that a participant has not acknowledged goes on. -/
theorem finishCommit_waits {loc : Nat} (hx : kget s.txs loc = some x) (hout : x.participants.all (fun p => p.acked) = false) :
    finishCommit s loc = s := by
  simp only [finishCommit, hx, hout, Bool.false_eq_true, and_false, if_false]

/-- What another participant has not acknowledged stays so. -/
theorem noteFrom_unacked (h : (x.participants.any fun p => p.module ≠ src ∧ p.acked = false) = true) :
    (noteFrom src (fun p => { p with acked := true }) x).participants.all (fun p => p.acked) = false := by
  simp only [List.any_eq_true, decide_eq_true_eq] at h
  obtain ⟨p, hp, hne, hout⟩ := h
  rw [List.all_eq_false]
  exact ⟨p, List.mem_map.2 ⟨p, hp, if_neg hne⟩, by simp [hout]⟩

/-- An acknowledgement that is not the last one is noted. -/
theorem ackArrives_noted (hc : coordOf tx = moduleId s) (hx : kget s.txs (localOf tx) = some x) (hst : x.state = .committed)
    (hout : (x.participants.any fun p => p.module ≠ src ∧ p.acked = false) = true) :
    ackArrives s src tx = s.modTx (localOf tx) (noteFrom src fun p => { p with acked := true }) := by
  have hwaits := finishCommit_waits
    (s := s.modTx (localOf tx) (noteFrom src fun p => { p with acked := true })) (kget_kmod_same _ hx) (noteFrom_unacked hout)
  simp only [ackArrives, hc, hx, hst, ne_eq, not_true_eq_false, if_false, if_true]
  exact hwaits

/-- Of an unknown transaction there is no commit record: the answer is ABORT (04 R118). -/
theorem outcomeAsked_unknown (hc : coordOf tx = moduleId s) (hx : kget s.txs (localOf tx) = none)
    (hkept : (s.outcomes.any fun o => o.loc == localOf tx) = false) : outcomeAsked s src tx = sendMsg s src .abort tx 0 [] [] := by
  simp only [outcomeAsked, hc, hx, hkept, ne_eq, not_true_eq_false, if_false, Bool.false_eq_true]

/-- The journal page that holds a commit's record is programmed. -/
theorem commitPointEvent_recorded {loc n : Nat} (hx : kget s.txs loc = some x) (hst : x.state = .committing)
    (hrec : x.recordSeq = some n) (hprogram : canProgram s = true) :
    commitPointEvent s loc = serveHeld (afterJournal (journalFlush s)) := by
  have hsome : x.recordSeq.isSome = true := by rw [hrec]; rfl
  simp only [commitPointEvent, advanceCommit_recorded hx hst hsome, hx]
  exact if_pos ⟨hst, hsome, hprogram⟩

end

/-- No record stays in the queue once the journal page is programmed (13 R359). -/
theorem journalFlush_empties (s : State) : (journalFlush s).flash.jpend = [] := by
  unfold journalFlush
  split
  · next hnone => exact hnone
  · simp

/-- Settles O15: each message does what its rule says, and the commit point empties the journal's queue. -/
theorem twoPhaseCommitMessagesAct : Obligations.TwoPhaseCommitMessagesAct := by
  refine ⟨?branch, ?vote, ?acknowledged, ?asked, ?point⟩
  case branch =>
    intro src tx s hsrc
    exact ⟨leaves_of_exec (congrArg (done s) (if_pos hsrc)), leaves_of_exec (congrArg (done s) (if_pos hsrc)),
      leaves_of_exec (congrArg (done s) (if_pos hsrc))⟩
  case vote =>
    intro src tx at' x s hc hx hprep htime hst hout
    exact ⟨_, leaves_of_exec (congrArg (done s) (voteArrives_yes hc hx hprep htime hst hout)), kget_kmod_same _ hx, rfl, rfl⟩
  case acknowledged =>
    intro src tx x s hc hx hst hout
    exact answers_of_exec (congrArg (done s) (ackArrives_noted hc hx hst hout)) ⟨rfl, kget_kmod_same _ hx⟩
  case asked =>
    intro src tx s hc hx hkept
    exact leaves_of_exec (congrArg (fun u => done s (tookMsg u src)) (outcomeAsked_unknown hc hx hkept))
  case point =>
    intro loc n x s hx hst hrec hprogram
    exact ⟨leaves_of_exec (congrArg (done s) (commitPointEvent_recorded hx hst hrec hprogram)), journalFlush_empties s⟩

end Sys2Proof.Machine

/-! ## Records of programs (05): what a record does once its context issues, and what the list records write -/

namespace Sys2Proof.Machine

/-- A command whose meaning is `u` leaves `u`. -/
theorem becomes_of_exec {c : Instr} {s u : State} (h : exec c s = done s u) : Becomes c s u := h

theorem becomes_of_eq {c : Instr} {s u v : State} (h : exec c s = done s v) (hv : v = u) : Becomes c s u := becomes_of_exec (hv ▸ h)

/-! ### The outcome of a record (05 R133, R138, R147, R150, R151) -/

section
variable {i : Instr} {x : CtxId} {r : BitVec 512} {m : Eng Unit} {s u : State} {j : Job} {c : Ctx}

/-- A record of no context does nothing. -/
theorem runRecordOf_no_ctx (heavy : Bool) (start : State → State) (body : Bool → Eng Unit) (h : getCtx s x = none) :
    runRecordOf heavy x r start body s = s := by
  simp only [runRecordOf, readyToRun, h]

theorem exec_record_no_ctx (h : operationOf i = some (x, r, m)) (hx : getCtx s x = none) : exec i s = done s s := by
  cases i
  case matmul | matmulT | matmulPair | gradpair | rowfn | elemwise | gather | scatterAdd | sketchScan | rerank | topkMerge | intersect |
      sort | neighbours =>
    cases h
    exact congrArg (done s) (runRecordOf_no_ctx _ _ _ hx)
  all_goals cases h

/-- An operation that stops: the record's outcome says what follows. -/
theorem exec_record_stops {e : Stop} {v : State} (h : operationOf i = some (x, r, m)) (hi : Issuing s x j c)
    (hr : Stops m (started i s x) e u) (hv : recordOutcome (started i s x) x (fretAfter r) (.error e, u) = v) : Becomes i s v := by
  have hrun := exec_record h hi
  rw [show m.run.run (started i s x) = (.error e, u) from hr, hv] at hrun
  exact becomes_of_exec hrun

/-- What a carried-out record does is decided by the context as the end of its stall leaves it. -/
theorem carriedOut_eq (hd : getCtx (endStall u x) x = some (j, c)) :
    carriedOut u x r = if 0 < c.awaiting then holdRecord (endStall u x) x [] (storesWait (fretAfter r))
      else if c.wait = .none then recordDone (endStall u x) x (fretAfter r) else repick (endStall u x) x false := by
  unfold carriedOut recordOutcome
  dsimp only
  rw [hd]

theorem carriedOut_done (hd : getCtx (endStall u x) x = some (j, c)) (ha : c.awaiting = 0) (hw : c.wait = .none) :
    carriedOut u x r = recordDone (endStall u x) x (fretAfter r) := by
  rw [carriedOut_eq hd, if_neg (by omega), if_pos hw]

theorem carriedOut_stores (hd : getCtx (endStall u x) x = some (j, c)) (ha : 0 < c.awaiting) :
    carriedOut u x r = holdRecord (endStall u x) x [] (storesWait (fretAfter r)) := by
  rw [carriedOut_eq hd, if_pos ha]

theorem carriedOut_waits (hd : getCtx (endStall u x) x = some (j, c)) (ha : c.awaiting = 0) (hw : c.wait ≠ .none) :
    carriedOut u x r = repick (endStall u x) x false := by
  rw [carriedOut_eq hd, if_neg (by omega), if_neg hw]

theorem recordOutcome_fault {t : State} {fret : Bool} (code off : Nat) :
    recordOutcome t x fret (.error (.fault code off), u) = ctxFault (endStall u x) x code off := rfl
theorem recordOutcome_aborted {t : State} {fret : Bool} (status : Nat) :
    recordOutcome t x fret (.error (.aborted status), u) = ctxAborted (endStall u x) x status := rfl
theorem recordOutcome_stalls {t : State} {fret : Bool} (cause : Nat) :
    recordOutcome t x fret (.error (.waits cause), u) = holdRecord u x (if cause = 0 then [] else [cause]) (.stall cause) := rfl
theorem recordOutcome_reads {t : State} {fret : Bool} (pages causes : List Nat) :
    recordOutcome t x fret (.error (.reads pages causes), u) = waitPages t x pages causes := rfl

/-- A desync halts the job and withholds nothing else of the record (05 R151). -/
theorem recordOutcome_desync {t : State} {fret : Bool} (hd : getCtx (beginEnd (endStall u x) x.job 0x1011) x = some (j, c)) (ha : c.awaiting = 0)
    (hw : c.wait = .none) : recordOutcome t x fret (.error .desync, u) = recordDone (beginEnd (endStall u x) x.job 0x1011) x fret := by
  unfold recordOutcome
  dsimp only
  rw [hd]
  dsimp only
  rw [if_neg (by omega), if_pos hw]

end

/-! ### INTERSECT, SORT and TOPK_MERGE (05 R160, R161, 12 R327) -/

section
variable {x : CtxId} {r : BitVec 512} {t s1 s2 s3 s4 s5 : State}

theorem Runs.ite_pos {α : Type} {p : Prop} [Decidable p] {m n : Eng α} {a : α} (hp : p) (h : Runs m t a s1) : Runs (if p then m else n) t a s1 := by
  rwa [if_pos hp]

theorem Runs.ite_neg {α : Type} {p : Prop} [Decidable p] {m n : Eng α} {a : α} (hp : ¬ p) (h : Runs n t a s1) : Runs (if p then m else n) t a s1 := by
  rwa [if_neg hp]

theorem runs_intersect {a b : List Nat} {out : OutList}
    (ha : Runs (loadSet x (tracks r) (oref t x (fld r 8 8)) (fld r 5 1)) t a s1)
    (hb : Runs (loadSet x (tracks r) (oref t x (fld r 0x10 8)) (fld r 5 1)) s1 b s2)
    (hout : Runs (outList x (tracks r) (oref t x (fld r 0x18 8))) s2 out s3)
    (hclashA : listOverlaps t out (fld r 5 1) (combine (fld r 4 1) a b).length (oref t x (fld r 8 8)) (fld r 5 1) a.length = false)
    (hclashB : listOverlaps t out (fld r 5 1) (combine (fld r 4 1) a b).length (oref t x (fld r 0x10 8)) (fld r 5 1) b.length = false)
    (hprep : Runs (prepList x out (fld r 5 1) (idElems (fld r 5 1) (combine (fld r 4 1) a b)) false) s3 () s4)
    (hsave : Runs (saveLists x [(out, idElems (fld r 5 1) (combine (fld r 4 1) a b), 2)]) s4 () s5) :
    Runs (intersect x r) t () s5 :=
  have hapart := runs_faultIf 7 out.ref.off s3 (Bool.or_eq_false_iff.2 ⟨hclashA, hclashB⟩)
  (runs_getThe t).bind (ha.bind (hb.bind (hout.bind (hapart.bind (hprep.bind hsave)))))

/-! The merge of two lists holds what is in both, in either, or in the first alone. -/

theorem mem_combine_intersection {n : Nat} {a b : List Nat} : n ∈ combine 0 a b ↔ n ∈ a ∧ n ∈ b := by simp [combine]
theorem mem_combine_union {n : Nat} {a b : List Nat} : n ∈ combine 1 a b ↔ n ∈ a ∨ n ∈ b := by simp [combine, mem_sortBy]
theorem mem_combine_difference {n : Nat} {a b : List Nat} (op : Nat) : n ∈ combine (op + 2) a b ↔ n ∈ a ∧ n ∉ b := by simp [combine]

theorem runs_sort {l : Lst} {out : OutList}
    (hl : Runs (loadList x (tracks r) (oref t x (fld r 8 8)) (fld r 6 1)) t l s1)
    (hout : Runs (outList x (tracks r) (oref t x (fld r 0x10 8))) s1 out s2)
    (htemp : (shareOf t x).2 < l.elems.length * fld r 6 1 → fld r 0x18 8 ≠ 0)
    (hclash : listOverlaps t out (fld r 6 1) (sorted r l.elems).length (oref t x (fld r 8 8)) (fld r 6 1) l.elems.length = false)
    (hfits : ¬ (shareOf t x).2 < l.elems.length * fld r 6 1 → s3 = s2)
    (hmerge : (shareOf t x).2 < l.elems.length * fld r 6 1 →
      rangesOverlap (oref t x (fld r 0x18 8)) (l.elems.length * fld r 6 1) (listRef t (oref t x (fld r 8 8)))
        (listSize t (oref t x (fld r 8 8)) (fld r 6 1) l.elems.length) = false ∧
      Runs (useTemp x (oref t x (fld r 0x18 8)) (l.elems.length * fld r 6 1)) s2 () s3)
    (hprep : Runs (prepList x out (fld r 6 1) (sorted r l.elems) false) s3 () s4)
    (hsave : Runs (saveLists x [(out, sorted r l.elems, if bitAt (fld r 7 1) 0 && fld r 5 1 == 0 then 2 else 0)]) s4 () s5) :
    Runs (sort x r) t () s5 := by
  have hplace : ((shareOf t x).2 < l.elems.length * fld r 6 1 && fld r 0x18 8 == 0) = false := by
    by_cases hlt : (shareOf t x).2 < l.elems.length * fld r 6 1
    · simp [htemp hlt]
    · simp [hlt]
  unfold sort
  refine (runs_getThe t).bind (hl.bind (hout.bind ((runs_faultIf _ _ _ hplace).bind ((runs_faultIf _ _ _ hclash).bind ?_))))
  by_cases hlt : (shareOf t x).2 < l.elems.length * fld r 6 1
  · obtain ⟨hapart, huse⟩ := hmerge hlt
    exact .ite_pos hlt ((runs_faultIf _ _ _ hapart).bind (huse.bind (hprep.bind hsave)))
  · obtain rfl := hfits hlt
    exact .ite_neg hlt (hprep.bind hsave)

/-- A fold that keeps each element at the end or drops it leaves a part of the list, in its order. -/
theorem foldl_keep_sublist {α : Type} {f : List α → α → List α} (hf : ∀ acc a, f acc a = acc ∨ f acc a = acc ++ [a]) (l acc : List α) :
    (l.foldl f acc).Sublist (acc ++ l) := by
  induction l generalizing acc with
  | nil => simp
  | cons a l ih =>
    refine (ih _).trans ?_
    rcases hf acc a with h | h <;> rw [h]
    · exact (List.sublist_cons_self a l).append_left acc
    · simp

theorem uniqueKeys_sublist (type : Nat) (l : List (List Byte)) : (uniqueKeys type l).Sublist l := by
  refine foldl_keep_sublist (fun acc b => ?_) l []
  cases hlast : acc.getLast? with
  | none =>
    obtain rfl := List.getLast?_eq_none_iff.1 hlast
    exact .inr rfl
  | some a =>
    dsimp only
    split
    · exact .inl rfl
    · exact .inr rfl

/-- Whether `a` comes before `b` in the order that a SORT asks for. -/
def sortsBefore (r : BitVec 512) (a b : List Byte) : Bool :=
  if fld r 5 1 = 0 then decide (sortKey (fld r 4 1) a < sortKey (fld r 4 1) b) else decide (sortKey (fld r 4 1) b < sortKey (fld r 4 1) a)

/-- UNIQUE drops elements of the sorted list, and moves none. -/
theorem sorted_sublist (r : BitVec 512) (l : List (List Byte)) : (sorted r l).Sublist (sortBy (sortsBefore r) l) := by
  unfold sorted
  dsimp only
  split
  · exact uniqueKeys_sublist _ _
  · exact .refl _

theorem sorted_perm (l : List (List Byte)) (h : bitAt (fld r 7 1) 0 = false) : (sorted r l).Perm l := by
  simp only [sorted, h, Bool.false_eq_true, if_false]
  exact sortBy_perm _ _

theorem sorted_ascending (l : List (List Byte)) (h : fld r 5 1 = 0) :
    (sorted r l).Pairwise fun a b => sortKey (fld r 4 1) a ≤ sortKey (fld r 4 1) b :=
  (sortBy_pairwise (sortKey (fld r 4 1)) (by simp [sortsBefore, h]) l).sublist (sorted_sublist r l)

theorem sorted_descending (l : List (List Byte)) (h : fld r 5 1 ≠ 0) :
    (sorted r l).Pairwise fun a b => sortKey (fld r 4 1) b ≤ sortKey (fld r 4 1) a :=
  (sortBy_pairwise (fun b => OrderDual.toDual (sortKey (fld r 4 1) b)) (by simp [sortsBefore, h]) l).sublist (sorted_sublist r l)

theorem runs_topkMerge {out : OutList} {elems : List (Nat × Nat × U32)} {trunc : Bool}
    (hout : Runs (outList x (tracks r) (oref t x (fld r 0x18 8))) t out s1)
    (hlists : Runs (topkLists x r out) s1 (elems, trunc) s2)
    (hprep : Runs (prepList x out 16 ((mergeTop (fld r 4 2) elems).map fun e => resultElem e.1 e.2) false) s2 () s3)
    (hsave : Runs (saveLists x [(out, (mergeTop (fld r 4 2) elems).map fun e => resultElem e.1 e.2, if trunc then 1 else 0)]) s3 () s4) :
    Runs (topkMerge x r) t () s4 :=
  (runs_getThe t).bind (hout.bind (hlists.bind (hprep.bind hsave)))

theorem mergeTop_length_le (k : Nat) (l : List (Nat × Nat × U32)) : (mergeTop k l).length ≤ k := List.length_take_le _ _

/-- An id is kept once. -/
theorem mergeTop_ids_nodup (k : Nat) (l : List (Nat × Nat × U32)) : ((mergeTop k l).map (·.2.1)).Nodup := by
  have keeps : ∀ (l acc : List (Nat × Nat × U32)), (acc.map (·.2.1)).Nodup →
      ((l.foldl (fun acc e => if acc.any (fun x => x.2.1 == e.2.1) then acc else acc ++ [e]) acc).map (·.2.1)).Nodup := by
    intro l
    induction l with
    | nil => exact fun _ h => h
    | cons e l ih =>
      intro acc h
      refine ih _ ?_
      dsimp only
      split
      · exact h
      · next hnew =>
        simp only [List.any_eq_true, beq_iff_eq, not_exists, not_and, Prod.forall] at hnew
        rw [List.map_append, List.nodup_append]
        exact ⟨h, by simp, by simpa using fun a n b => hnew n a b⟩
  exact (keeps _ [] .nil).sublist ((List.take_sublist _ _).map _)

end

/-- Settles O42: the outcome is read off `recordOutcome`; each list record runs step by step, and its list is what it holds. -/
theorem recordsComplete : Obligations.RecordsComplete := by
  refine ⟨?outcome, fun x r s j c hi => ⟨?intersect, ?sort, ?topk⟩⟩
  case outcome =>
    refine fun i x r m s hop => ⟨fun hx => becomes_of_exec (exec_record_no_ctx hop hx), fun j c hi => ⟨becomes_of_exec (exec_record hop hi), ?_⟩⟩
    refine ⟨fun u hr => ⟨exec_record_runs hop hi hr, fun k d hd => ⟨carriedOut_done hd, carriedOut_stores hd, carriedOut_waits hd⟩⟩, ?_⟩
    exact ⟨fun u code off hr => exec_record_stops hop hi hr (recordOutcome_fault code off),
      fun u v k d hr hv hd ha hw => exec_record_stops hop hi hr (hv ▸ recordOutcome_desync (hv ▸ hd) ha hw),
      fun u status hr => exec_record_stops hop hi hr (recordOutcome_aborted status),
      fun u cause hr => exec_record_stops hop hi hr (recordOutcome_stalls cause),
      fun u pages causes hr => exec_record_stops hop hi hr (recordOutcome_reads pages causes)⟩
  case intersect =>
    intro a b out s1 s2 s3 s4 s5 t l ha hb hout hclashA hclashB hprep hsave
    refine ⟨exec_record_runs rfl hi (runs_intersect ha hb hout hclashA hclashB hprep hsave), fun n => ?_⟩
    subst l
    generalize fld r 4 1 = op
    match op with
    | 0 => exact mem_combine_intersection
    | 1 => exact mem_combine_union
    | op + 2 => exact mem_combine_difference op
  case sort =>
    intro l out s1 s2 s3 s4 s5 t hl hout htemp hclash hfits hmerge hprep hsave
    exact ⟨exec_record_runs rfl hi (runs_sort hl hout htemp hclash hfits hmerge hprep hsave), sorted_perm _, sorted_ascending _, sorted_descending _⟩
  case topk =>
    intro out elems trunc s1 s2 s3 s4 t merged hout hlists hprep hsave
    exact ⟨exec_record_runs rfl hi (runs_topkMerge hout hlists hprep hsave), mergeTop_length_le _ _, mergeTop_ids_nodup _ _⟩

end Sys2Proof.Machine

/-! ## Matrix and row records (05 R133, R134, 07 R188-R204, 08 R212-R230): what they read, write and leave -/

namespace Sys2Proof.Machine

/-! ### Steps of an operation, up to the way in which it ends -/

section
variable {α β : Type} {m n : Eng α} {f : α → Eng β} {s t : State} {a : α} {e : Except Stop β × State}

/-- An operation ends as its steps after one that ends well. -/
theorem Runs.andThen (h : Runs m s a t) (k : (f a).run.run t = e) : (m >>= f).run.run s = e := by
  rw [← k]
  unfold Runs at h
  show StateT.run (ExceptT.run (m >>= f)) s = _
  rw [ExceptT.run_bind, StateT.run_bind, h]
  rfl

/-- A check that does not apply stops nothing. -/
theorem run_unless {p : Bool} {e : Except Stop α × State} (hp : p = false) (k : n.run.run s = e) : (if p then m else n).run.run s = e := by
  rwa [hp, if_neg Bool.false_ne_true]

/-- Where sequences differed the record has done its work, and ends with a desync. -/
theorem run_desync_if (p : Bool) (s : State) :
    (if p then stop .desync else pure () : Eng Unit).run.run s = (if p then .error .desync else .ok (), s) := by
  cases p <;> rfl

end

/-- A record that has done its work: it ends the job beside that where sequences differed, else it is carried out. -/
theorem becomes_of_desync_if {i : Instr} {x : CtxId} {r : BitVec 512} {m : Eng Unit} {s t u : State} {j : Job} {c : Ctx} {p : Bool}
    (hop : operationOf i = some (x, r, m)) (hi : Issuing s x j c) (ht : started i s x = t)
    (hr : m.run.run t = (if p then .error .desync else .ok (), u)) :
    if p then Becomes i s (recordOutcome t x (fretAfter r) (.error .desync, u)) else Becomes i s (carriedOut u x r) := by
  subst ht
  cases p
  · exact exec_record_runs hop hi hr
  · exact exec_record_stops hop hi hr rfl

/-- Settles O43: each record reads, checks, computes and writes in turn; only differing sequences of a block change how it ends. -/
theorem matrixRecordsComplete : Obligations.MatrixRecordsComplete := by
  refine ⟨fun x r s j c hi => ⟨?matmul, ?gradpair, ?pair⟩, fun x r s j c l s1 s2 s3 s4 s5 s6 hi => ⟨?rowfn, ?elemwise⟩⟩
  case matmul =>
    intro i transposed hmem u l p s1 s2 s3 s4 s5 s6 s7 ha hb hwa hwb hpro hepi hinit hold hapart hplaces o hwrite
    have hop : operationOf i = some (x, r, matmul x r transposed) ∧ started i s x = started (.matmul x r) s x := by
      simp only [List.mem_cons, Prod.mk.injEq, List.not_mem_nil, or_false] at hmem
      rcases hmem with ⟨rfl, rfl⟩ | ⟨rfl, rfl⟩ <;> exact ⟨rfl, rfl⟩
    obtain ⟨hop, hstart⟩ := hop
    refine becomes_of_desync_if hop hi hstart ?_
    unfold matmul
    refine (runs_getThe _).andThen (ha.andThen (hb.andThen (run_unless (Bool.or_eq_false_iff.2 ⟨hwa, hwb⟩) ?_)))
    refine hpro.andThen (hepi.andThen (hinit.andThen (hold.andThen ((runs_checkOverlap _ hapart).andThen ?_))))
    rw [hplaces]
    exact (runs_mutate _ _).andThen (hwrite.andThen ((runs_mutate _ _).andThen (run_desync_if _ _)))
  case gradpair =>
    intro u l p q s1 s2 s3 s4 s5 s6 s7 s8 s9 hw hdy hh hww hwdy hwh hepi hinitX hinitA holdX holdA hapart hapartOut hplacesX hplacesA o a hwrite
    refine becomes_of_desync_if rfl hi rfl ?_
    unfold gradpair
    have hstreams : (l.w.streamWrong || l.dy.streamWrong || l.h.streamWrong) = false := by rw [hww, hwdy, hwh]; rfl
    refine (runs_getThe _).andThen (hw.andThen (hdy.andThen (hh.andThen (run_unless hstreams ?_))))
    refine hepi.andThen (hinitX.andThen (hinitA.andThen (holdX.andThen (holdA.andThen ?_))))
    refine (runs_checkOverlap _ hapart).andThen ((runs_checkOverlap _ hapartOut).andThen ?_)
    rw [hplacesX, hplacesA]
    exact (runs_mutate _ _).andThen (hwrite.andThen ((runs_mutate _ _).andThen (run_desync_if _ _)))
  case pair =>
    intro u l p s1 s2 s3 s4 s5 s6 s7 s8 ha hb1 hb2 hwa hwb1 hwb2 hpro hpre hpost hold hapart hplaces o hwrite
    refine becomes_of_desync_if rfl hi rfl ?_
    unfold matmulPair
    have hstreams : (l.a.streamWrong || l.b1.streamWrong || l.b2.streamWrong) = false := by rw [hwa, hwb1, hwb2]; rfl
    refine (runs_getThe _).andThen (ha.andThen (hb1.andThen (hb2.andThen (run_unless hstreams ?_))))
    refine hpro.andThen (hpre.andThen (hpost.andThen (hold.andThen ((runs_checkOverlap _ hapart).andThen ?_))))
    rw [hplaces]
    exact (runs_mutate _ _).andThen (hwrite.andThen ((runs_mutate _ _).andThen (run_desync_if _ _)))
  case rowfn =>
    rintro u rfl ha hsync hepi hold hapart p hplaces o hwrite
    refine exec_record_runs rfl hi ?_
    unfold rowfn
    refine (runs_getThe _).bind (ha.bind (hsync.bind (hepi.bind (hold.bind ((runs_checkOverlap _ hapart).bind ?_)))))
    rw [hplaces]
    exact hwrite.bind (runs_mutate _ _)
  case elemwise =>
    rintro u rfl ha hsync hepi hold hapart p hright hprep hdo
    refine exec_record_runs rfl hi ?_
    unfold elemwise
    refine (runs_getThe _).bind (ha.bind (hsync.bind (hepi.bind (hold.bind ((runs_checkOverlap _ hapart).bind ?_)))))
    exact (runs_getThe _).bind (Runs.ite_neg (Bool.eq_false_iff.1 hright) (hprep.bind (hdo.bind (runs_mutate _ _))))

end Sys2Proof.Machine

/-! ## Irregular records (05 R157-R162, 12 R326, R327): gathers, scatters, graph expansion and the search records -/

namespace Sys2Proof.Machine

section
variable {α : Type} {x : CtxId} {r : BitVec 512} {s t u : State}

theorem runs_of_eq {f : State → α × State} {a : α} (h : f s = (a, t)) : Runs (runs f) s a t := by
  have hr := runs_runs f s
  rwa [h] at hr

/-- Checks of which none applies stop nothing. -/
theorem runs_forM_faultIf {b : α → Bool} {code : α → Nat} {off : α → Nat} {l : List α} (h : ∀ a ∈ l, b a = false) :
    Runs (l.forM fun a => faultIf (b a) (code a) (off a)) s () s := by
  induction l with
  | nil => exact runs_forM_nil _ s
  | cons a l ih =>
    obtain ⟨ha, hl⟩ := List.forall_mem_cons.1 h
    exact runs_forM_cons (runs_faultIf _ _ _ ha) (ih hl)

/-! ### SCATTER_ADD (05 R158, R159) -/

/-- Rows of no TABLE: those of this module and of the core's memories are summed here. -/
theorem runs_scatterHere {v : ScatterUse} {adds : List (Nat × Nat × List Byte)} {all : List (Nat × Ref × Nat × List Byte)} {s1 s2 s3 : State}
    (hprep : Runs ((byRow (adds.map fun e => (e.1, e.2.2))).forM fun e => prepRef x v.dst (e.1 * v.stride) v.bytes) s () s1)
    (hsums : Runs (scatterSums x (tracks r) v (byRow (adds.map fun e => (e.1, e.2.2)))) s1 all s2)
    (hsave : Runs (saveAll x (all.map (·.2))) s2 () s3) :
    Runs (scatterHere x (tracks r) v adds) s () (bumpB s3 (jobPolder s3 x.job) 0x9D00 7 ((all.map (·.1)).foldl (· + ·) 0)) := by
  unfold scatterHere
  refine hprep.bind (hsums.bind (hsave.bind ?_))
  exact runs_mutate (fun s => bumpB s (jobPolder s x.job) 0x9D00 7 ((all.map (·.1)).foldl (· + ·) 0)) s3

/-- Additions of no transaction to a TABLE of another module are sent to it. -/
theorem runs_scatterRemoteTable {h step : Nat} {rows : List (Nat × Nat × List U32)} (hreach : reaches s (homeOf h) = true)
    (htx : ctxTx s x = 0) : Runs (scatterRemoteTable x h step rows) s () (sendRows s x h step 0 rows) := by
  unfold scatterRemoteTable
  refine (runs_getThe s).bind (Runs.ite_neg (by rw [hreach]; decide) (Runs.ite_neg (not_not.2 htx) ?_))
  rw [htx]
  exact runs_mutate (sendRows · x h step 0 rows) s

/-- Additions to a TABLE of this module, inside the window of the step, go through the combiner. -/
theorem runs_scatterTable {h step : Nat} {a : TableArea} {o : Obj} {rows : List (Nat × Nat × List U32)} {v w : State} (again : Bool)
    (htarget : Runs (storeTarget x h 0 0) s (some o) v) (hwindow : stepWindow v a step = .ok)
    (hadd : addRows v (ctxTx v x) h (moduleId v) step rows = (.ok, w)) :
    Runs (scatterTable x again h step a rows) s () (noteStep w h (moduleId w) step) := by
  unfold scatterTable
  refine htarget.bind ((runs_getThe v).bind ?_)
  rw [hwindow]
  refine (runs_of_eq hadd).bind ?_
  exact runs_mutate (fun s => noteStep s h (moduleId s) step) w

/-! ### NEIGHBOURS (05 R162) -/

/-- The outputs are the neighbours that are not excluded. -/
theorem mem_found (l : GraphIn) (unique : Bool) (n : Nat) :
    n ∈ (l.found unique).map (·.1) ↔ (∃ q ∈ l.runs, ∃ e ∈ q.2, e.1 = n) ∧ n ∉ l.exclude := by
  have hall : n ∈ (((l.runs.map (·.2)).flatten).filter fun e => !l.exclude.contains e.1).map (·.1) ↔
      (∃ q ∈ l.runs, ∃ e ∈ q.2, e.1 = n) ∧ n ∉ l.exclude := by
    simp only [List.mem_map, List.mem_filter, List.mem_flatten, exists_exists_and_eq_and, Bool.not_eq_true', List.contains_eq_mem,
      decide_eq_false_iff_not]
    constructor
    · rintro ⟨e, ⟨⟨q, hq, he⟩, hout⟩, rfl⟩
      exact ⟨⟨q, hq, e, he, rfl⟩, hout⟩
    · rintro ⟨⟨q, hq, e, he, rfl⟩, hout⟩
      exact ⟨e, ⟨⟨q, hq, he⟩, hout⟩, rfl⟩
  rw [← hall]
  cases unique
  · rfl
  · simp [GraphIn.found, mem_sortBy]

end

/-- Settles O44: each record reads, checks, computes and writes in turn, in the branch that its operands choose. -/
theorem irregularRecordsComplete : Obligations.IrregularRecordsComplete := by
  refine ⟨fun x r s j c hi => ?gather, fun x r s j c hi => ?scatter, fun x r s j c hi => ?neighbours,
    fun x r s j c hi h a s1 hindex => ⟨?scan, ?scanAway, ?rerank⟩⟩
  case gather =>
    intro t g dst ids s1 hids
    constructor
    · rintro rfl
      refine exec_record_runs rfl hi ?_
      unfold gather
      exact (runs_getThe _).bind (hids.bind (Runs.ite_neg (lt_irrefl 0) (runs_mutate _ _)))
    · intro hne hclash rows s2 s3 s4 hrows hprep hsave
      refine exec_record_runs rfl hi ?_
      unfold gather
      refine (runs_getThe _).bind (hids.bind (Runs.ite_pos (List.length_pos_iff.2 hne) ((runs_faultIf _ _ _ hclash).bind ?_)))
      exact hrows.bind (hprep.bind (hsave.bind (runs_mutate _ _)))
  case scatter =>
    intro t u ids adds s1 s2 hids hadds rows ends
    refine ⟨fun hremote htable hclash => ⟨?here, ?away⟩, ?table, ?tableAway⟩
    case here =>
      intro hhere all s3 s4 s5 hprep hsums hsave
      refine exec_record_runs rfl hi ?_
      have hsum := runs_scatterHere hprep hsums hsave
      unfold scatterAdd
      refine (runs_getThe _).bind (hids.bind (hadds.bind ?_))
      rw [hremote, htable]
      refine (runs_faultIf _ _ _ hclash).bind ?_
      split
      · next h hspace => exact Runs.ite_neg (not_not.2 (hhere h hspace)) hsum
      · exact hsum
    case away =>
      intro h s3 hspace hhome haway
      refine exec_record_runs rfl hi ?_
      unfold scatterAdd
      refine (runs_getThe _).bind (hids.bind (hadds.bind ?_))
      rw [hremote, htable]
      refine (runs_faultIf _ _ _ hclash).bind ?_
      rw [hspace]
      exact Runs.ite_pos hhome haway
    case table =>
      intro h o a o' v w hremote htable htarget hwindow hadd
      refine exec_record_runs rfl hi ?_
      unfold scatterAdd
      refine (runs_getThe _).bind (hids.bind (hadds.bind ?_))
      rw [hremote, htable]
      exact runs_scatterTable false htarget hwindow hadd
    case tableAway =>
      intro h hremote hreach htx
      refine exec_record_runs rfl hi ?_
      unfold scatterAdd
      refine (runs_getThe _).bind (hids.bind (hadds.bind ?_))
      rw [hremote]
      exact runs_scatterRemoteTable hreach htx
  case neighbours =>
    intro t g l s1 s2 s3 hgraph hin hclash hprep hsave
    refine ⟨exec_record_runs rfl hi ?_, mem_found l _⟩
    unfold neighbours
    refine (runs_getThe _).bind ?_
    rw [hgraph]
    exact hin.bind ((runs_forM_faultIf hclash).bind (hprep.bind hsave))
  case scan =>
    intro block s2 s3 epoch s4 stride hblock hcheck hhome hepoch
    refine exec_record_runs rfl hi ?_
    unfold sketchScan
    refine hindex.bind ((runs_getThe s1).bind (hblock.bind (hcheck.bind (Runs.ite_neg (not_not.2 hhome) ?_))))
    exact (runs_of_eq hepoch).bind (runs_mutate _ _)
  case scanAway =>
    intro block b s2 s3 s4 s5 hblock hcheck hhome hask hwrite
    refine exec_record_runs rfl hi ?_
    unfold sketchScan
    refine hindex.bind ((runs_getThe s1).bind (hblock.bind (hcheck.bind (Runs.ite_pos hhome ?_))))
    exact hask.bind hwrite
  case rerank =>
    intro q l out epoch elems s2 s3 s4 s5 s6 s7 s8 hq hl hout hclashL hclashQ hepoch helems hprep hsave
    refine exec_record_runs rfl hi ?_
    unfold rerankRecord
    refine hindex.bind ((runs_getThe s1).bind (hq.bind (hl.bind (hout.bind ?_))))
    exact (runs_faultIf _ _ _ (Bool.or_eq_false_iff.2 ⟨hclashL, hclashQ⟩)).bind (hepoch.bind (helems.bind (hprep.bind hsave)))

end Sys2Proof.Machine

/-! ## Records that steer a context (05 R139, R140, R142, R145-R147, 10 R264, 15 R414) -/

namespace Sys2Proof.Machine

/-- A live object is listed. -/
theorem kget_of_liveObj {s : State} {h : Nat} {o : Obj} (hl : liveObj s h = some o) : kget s.objs h = some o := by
  unfold liveObj at hl
  split at hl
  · next p hk =>
    split at hl
    · cases hl
    · rwa [← hl]
  · cases hl

section
variable {i : Instr} {x : CtxId} {r : BitVec 512} {s t u : State} {j : Job} {c : Ctx}

/-- A record that steers its context, which issues: it starts at a fret no more. -/
theorem becomes_of_steer {f : State → Ctx → State} (hi : Issuing s x j c) (he : exec i s = done s (steer x f s))
    (hu : f (modCtx s x fun c => { c with atFret := false }) { c with atFret := false } = u) : Becomes i s u :=
  becomes_of_exec (by rw [he, steer_issuing f hi, hu])

/-! ### Transactions of a context (05 R145, R146, 10 R264) -/

theorem txBeginRecord_nested {l : Nat} (htx : c.tx = some l) : txBeginRecord s x c r = ctxFault s x 10 0 := by
  simp only [txBeginRecord, htx, Option.isSome_some, if_true]

theorem txBeginRecord_full (htx : c.tx = none) (hfull : beginTx s (.context x.job x.idx (jobPolder s x.job)) = none) :
    txBeginRecord s x c r = repick (modCtx s x fun c => { c with wait := .stall 10, waitSince := s.power.uptime }) x false := by
  simp only [txBeginRecord, htx, Option.isSome_none, Bool.false_eq_true, if_false, hfull]

theorem txBeginRecord_opens {l : Nat} (htx : c.tx = none) (hopen : beginTx s (.context x.job x.idx (jobPolder s x.job)) = some (l, u)) :
    txBeginRecord s x c r = recordDone (modCtx u x fun c => { c with
      tx := some l, onAbort := fld r 6 1, retryLimit := if fld r 4 2 = 0 then od u 0x3400 1 else fld r 4 2
      rpRec := c.recIdx, rpX := c.x }) x (fretAfter r) := by
  simp only [txBeginRecord, htx, Option.isSome_none, Bool.false_eq_true, if_false, hopen]

/-- A commit of a listed transaction starts, and the context waits for its outcome. -/
theorem commitFrom_listed {l : Nat} {y : Tx} (wait : CtxWait) (hy : kget s.txs l = some y) :
    commitFrom s x l wait = repick (startCommit (modCtx s x fun c =>
      { c with wait := wait, waitSince := s.power.uptime, atFret := false }) l) x false := by
  simp only [commitFrom, hy]

theorem txCommitRecord_none (htx : c.tx = none) : txCommitRecord s x c = ctxFault s x 10 0 := by
  simp only [txCommitRecord, htx]

theorem txCommitRecord_open {l : Nat} (htx : c.tx = some l) : txCommitRecord s x c = commitFrom s x l (.commit l) := by
  simp only [txCommitRecord, htx]

theorem secureRecord_none (htx : c.tx = none) :
    secureRecord s x c r = secureCheck (waitAt s x (.secureBarrier (fld r 0x18 4) false) 0 0) x.job := by
  simp only [secureRecord, htx]

theorem secureRecord_open {l : Nat} (htx : c.tx = some l) :
    secureRecord s x c r = commitFrom s x l (.secureCommit l (fld r 0x18 4)) := by
  simp only [secureRecord, htx]

/-! ### WAIT_EVENT (05 R140) -/

theorem waitEventRecord_barrier (hk : fld r 4 1 = 1) :
    waitEventRecord s x r = waitAt s x (.jobBarrier (fld r 0x10 8)) (fld r 0x18 4) (fld r 0x1C 4) := by
  simp only [waitEventRecord, hk]

/-- A version of an object of this module: the context must be able to read it, and waits where the version is not reached. -/
theorem waitEventRecord_version {h : Nat} {o : Obj} (hk : fld r 4 1 = 2) (hspace : (oref s x (fld r 8 8)).space = .obj h)
    (hhome : homeOf h = moduleId s) (hlive : liveObj s h = some o) (hread : canRead o (jobPolder s x.job) = true) :
    waitEventRecord s x r = if fld r 0x10 8 ≤ o.version then recordDone s x (fretAfter r)
      else waitAt s x (.objVersion h (fld r 0x10 8)) (fld r 0x18 4) (fld r 0x1C 4) := by
  simp only [waitEventRecord, hk, hspace, hhome, hlive, hread, eventSeen, kget_of_liveObj hlive, decide_eq_true_eq, ne_eq, not_true_eq_false,
    if_false, Bool.not_true, Bool.false_eq_true]

theorem waitEventRecord_dead {h : Nat} (hk : fld r 4 1 = 2) (hspace : (oref s x (fld r 8 8)).space = .obj h)
    (hhome : homeOf h = moduleId s) (hlive : liveObj s h = none) :
    waitEventRecord s x r = ctxFault (dikeFail s (jobPolder s x.job)) x 2 0 := by
  simp only [waitEventRecord, hk, hspace, hhome, hlive, ne_eq, not_true_eq_false, if_false]

/-! ### COLLECTIVE (15 R414) -/

theorem collective_new (hi : Issuing s x j c) (hnew : collOf s x r = none) :
    exec (.collective x r) s = done s (collNow (recordOutcome (started (.fret x r) s x) x (fretAfter r)
      ((beginColl x r).run.run (started (.fret x r) s x))) x) := by
  show done s (collective x r s) = _
  simp only [collective, hnew]
  exact congrArg (fun v => done s (collNow v x)) (runRecordOf_issuing false r id (fun _ => beginColl x r) hi)

theorem beginColl_begins {g : Group} {m : Memory} (hg : kget s.fabric.groups (collGroup s x r) = some g)
    (husable : groupUsable s (collGroup s x r) = true) (hreach : unreached s g = false) (hheld : collHeld g = false)
    (hfit : collFault s x r (collGroup s x r) g = none)
    (hload : Runs (loadRef x (tracks r) (oref s x (fld r 0x10 8)) 0 (fld r 0x20 8)) s m u) :
    Runs (beginColl x r) s () (collBegun u x r g (collPart s r (collGroup s x r) g m)) := by
  unfold beginColl
  refine (runs_getThe s).bind ?_
  dsimp only
  rw [hg]
  refine (runs_faultIf _ _ _ (by rw [husable]; rfl)).bind (Runs.ite_neg (by rw [hreach]; decide) (Runs.ite_neg (by rw [hheld]; decide) ?_))
  rw [hfit]
  exact hload.bind (runs_mutate _ _)

theorem beginColl_unusable (h : kget s.fabric.groups (collGroup s x r) = none ∨ groupUsable s (collGroup s x r) = false) :
    Stops (beginColl x r) s (.fault 11 0) s := by
  unfold beginColl
  refine (runs_getThe s).andThen ?_
  dsimp only
  cases hg : kget s.fabric.groups (collGroup s x r) with
  | none => rfl
  | some g =>
    have hun : groupUsable s (collGroup s x r) = false := by simpa [hg] using h
    rw [hun]
    rfl

end

/-- Settles O45: each record is `steer` of its own effect, and the effect's case is the one its fields and the context choose. -/
theorem steeringRecordsAct : Obligations.SteeringRecordsAct := by
  intro x r s j c hi t
  refine ⟨?opens, ?nested, ?full, ?commitNone, ?commit, ?fret, ?loop, ?barrier, ?version, ?dead, ?secure, ?secureCommit, ?coll, ?collFault⟩
  case opens => exact fun l u htx hopen => becomes_of_steer hi rfl (txBeginRecord_opens htx hopen)
  case nested => exact fun l htx => becomes_of_steer hi rfl (txBeginRecord_nested htx)
  case full => exact fun htx hfull => becomes_of_steer hi rfl (txBeginRecord_full htx hfull)
  case commitNone => exact fun htx => becomes_of_steer hi rfl (txCommitRecord_none htx)
  case commit => exact fun l y htx hy => becomes_of_steer hi rfl ((txCommitRecord_open htx).trans (commitFrom_listed _ hy))
  case fret => exact becomes_of_steer hi rfl rfl
  case loop =>
    rintro v rfl
    exact ⟨fun hlt => becomes_of_steer hi rfl (if_pos hlt), fun hle => becomes_of_steer hi rfl (if_neg (Nat.not_lt.2 hle))⟩
  case barrier => exact fun hk => becomes_of_steer hi rfl (waitEventRecord_barrier hk)
  case version =>
    intro h o hk hspace hhome hlive hread
    have hwait := waitEventRecord_version hk hspace hhome hlive hread
    exact ⟨fun hle => becomes_of_steer hi rfl (hwait.trans (if_pos hle)), fun hlt => becomes_of_steer hi rfl (hwait.trans (if_neg (Nat.not_le.2 hlt)))⟩
  case dead => exact fun h hk hspace hhome hlive => becomes_of_steer hi rfl (waitEventRecord_dead hk hspace hhome hlive)
  case secure => exact fun htx => becomes_of_steer hi rfl (secureRecord_none htx)
  case secureCommit => exact fun l y htx hy => becomes_of_steer hi rfl ((secureRecord_open htx).trans (commitFrom_listed _ hy))
  case coll =>
    intro g m u hnew hg husable hreach hheld hfit hload
    have hrun := collective_new hi hnew
    rw [show (beginColl x r).run.run t = _ from beginColl_begins hg husable hreach hheld hfit hload] at hrun
    exact becomes_of_exec hrun
  case collFault =>
    intro hnew hun
    have hrun := collective_new hi hnew
    rw [show (beginColl x r).run.run t = _ from beginColl_unusable hun, recordOutcome_fault] at hrun
    exact becomes_of_exec hrun

end Sys2Proof.Machine

/-! ## Events of contexts (05 R140, R142, R143, R147, 10 R273, 15 R418) -/

namespace Sys2Proof.Machine

section
variable {s : State} {x : CtxId} {j : Job} {c : Ctx}

theorem kget_of_getCtx (hx : getCtx s x = some (j, c)) : kget s.jobs x.job = some j := by
  unfold getCtx at hx
  split at hx
  · cases hx
  · next k hk =>
    simp only [Option.map_eq_some_iff, Prod.mk.injEq] at hx
    obtain ⟨_, _, rfl, _⟩ := hx
    exact hk

/-! ### Frets and retries (05 R142, R143, R147) -/

/-- Cycles of the array since the context's last fret. -/
def sinceFretCycles (s : State) (c : Ctx) : Nat := (s.power.uptime - c.fretAt) * s.power.arr * 125 / 2

theorem insertedFret_due (hx : getCtx s x = some (j, c)) (hfret : c.atFret = false) (hheld : c.held = false) (hended : c.ended = false)
    (hres : c.resident.isSome = true) (hissues : issues s x = true ∨ c.wait.beforeStep = true) (hdue : 65536 ≤ sinceFretCycles s c) :
    insertedFret s x = doFret (bumpB s (jobPolder s x.job) 0x9700 5 1) x := by
  unfold insertedFret
  rw [hx]
  refine if_pos ?_
  simp only [hfret, hheld, hended, hres, Bool.not_false, Bool.true_and, Bool.and_eq_true, Bool.or_eq_true, decide_eq_true_eq]
  exact ⟨hissues, hdue⟩

theorem insertedFret_early (hx : getCtx s x = some (j, c)) (hearly : sinceFretCycles s c < 65536) : insertedFret s x = s := by
  unfold insertedFret
  rw [hx]
  refine if_neg ?_
  simp only [Bool.and_eq_true, decide_eq_true_eq, not_and, not_le]
  exact fun _ => hearly

theorem spacingFret_due (hx : getCtx s x = some (j, c)) (hwait : c.wait = .none) (hended : c.ended = false)
    (hspacing : 0 < (jobProgram s x.job).fretSpacing) (hdue : (jobProgram s x.job).fretSpacing ≤ c.sinceFret) :
    spacingFret s x = doFret s x := by
  simp [spacingFret, hx, fretDue, hwait, hended, hspacing, hdue]

theorem spacingFret_early (hx : getCtx s x = some (j, c)) (hearly : c.sinceFret < (jobProgram s x.job).fretSpacing) :
    spacingFret s x = s := by
  simp [spacingFret, hx, fretDue, Nat.not_le.2 hearly]

/-- A retry goes on when its backoff has passed. -/
theorem retryBackoff_eq {t : Nat} (hx : getCtx s x = some (j, c)) (hwait : c.wait = .backoff t) :
    retryBackoff s x = if t ≤ s.power.uptime then repick (modCtx s x fun c => { c with wait := .none }) x false else s := by
  simp only [retryBackoff, hx, hwait]

/-! ### Waits for an event (05 R140) -/

theorem waitTimeout_due (hx : getCtx s x = some (j, c)) (hevent : c.wait.ofEvent = true) (hset : c.timeout ≠ 0)
    (hdue : c.waitSince + c.timeout ≤ s.power.uptime) :
    waitTimeout s x = recordTo (modCtx s x fun c => { c with wait := .none, timeout := 0 }) x c.timeoutTarget (presentFretAfter s x) := by
  have hset : (c.timeout != 0) = true := bne_iff_ne.2 hset
  simp only [waitTimeout, hx, hevent, hset, hdue, decide_true, Bool.and_self, if_true]

theorem waitTimeout_unset (hx : getCtx s x = some (j, c)) (hset : c.timeout = 0) : waitTimeout s x = s := by
  simp [waitTimeout, hx, hset]

/-- The version of an object of this module wakes a context that waits for it, once it is reached. -/
theorem waitWake_version {h v : Nat} {o : Obj} (hx : getCtx s x = some (j, c)) (hwait : c.wait = .objVersion h v)
    (hhome : homeOf h = moduleId s) (ho : kget s.objs h = some o) : waitWake s x = if v ≤ o.version then wakeCtx s x else s := by
  simp only [waitWake, hx, hwait, eventSeen, ho, hhome, ne_eq, not_true_eq_false, false_or, decide_eq_true_eq]

/-- The only context of its job is its barrier. -/
theorem jobBarrier_alone {v : Nat} (hx : getCtx s x = some (j, c)) (hctxs : j.ctxs = [c]) (hidx : x.idx = 0) (hended : c.ended = false) :
    jobBarrier s x.job v = if c.wait = .jobBarrier v then wakeCtx s x else s := by
  have hself : (⟨x.job, 0⟩ : CtxId) = x := by rw [← hidx]
  unfold jobBarrier
  rw [kget_of_getCtx hx]
  by_cases hw : c.wait = .jobBarrier v
  · simp [hctxs, hw, hself, List.range_succ]
  · simp [hctxs, hw, hended]

theorem groupBarrier_complete {g v : Nat} {d : Group} (hd : kget s.fabric.groups g = some d) (husable : groupUsable s g = true)
    (hheld : d.held = false) (hat : atGroupBarrier s g v = [x]) : groupBarrier s g v = wakeCtx s x := by
  simp [groupBarrier, hd, husable, hheld, hat]

theorem groupBarrier_held {g v : Nat} {d : Group} (hd : kget s.fabric.groups g = some d) (hheld : d.held = true) : groupBarrier s g v = s := by
  simp [groupBarrier, hd, hheld]

/-! ### Securing (10 R273) -/

/-- While a job is being secured its barrier does nothing. -/
theorem secureCheck_securing {h : Nat} (hj : kget s.jobs h = some j) (hsec : j.securing.isSome = true) : secureCheck s h = s := by
  simp [secureCheck, hj, hsec]

/-- A securing whose record is in the journal waits for it to be durable, and is published then. -/
theorem securing_recorded {h t off n risk k : Nat} (hj : kget s.jobs h = some j) (hsec : j.securing = some t)
    (hstaged : j.secStaged = some (off, n, risk)) (hrec : j.secRecord = some k) :
    securing s h = if k ≤ s.flash.jdone then securePublish s h t off n risk else s := by
  have hcheck : secureCheck s h = s := secureCheck_securing hj (by rw [hsec]; rfl)
  simp [securing, hcheck, hj, hsec, hstaged, hrec, jDurable]

end

/-- Settles O46: each event is its own operation, which does its work at its time and nothing before. -/
theorem contextEventsAct : Obligations.ContextEventsAct := by
  refine fun s x => ⟨fun j c hx => ⟨?fret, ?early, ?spaced, ?run, ?retry, ?backoff, ?timeout, ?unset, ?wake, ?barrier, ?secured⟩, ?group⟩
  case fret =>
    exact fun hfret hheld hended hres hissues hdue =>
      becomes_of_eq rfl (insertedFret_due hx hfret hheld hended hres hissues hdue)
  case early => exact fun hearly => becomes_of_eq rfl (insertedFret_early hx hearly)
  case spaced =>
    exact fun hwait hended hspacing hdue => becomes_of_eq rfl (spacingFret_due hx hwait hended hspacing hdue)
  case run => exact fun hearly => becomes_of_eq rfl (spacingFret_early hx hearly)
  case retry => exact fun t hwait hle => becomes_of_eq rfl ((retryBackoff_eq hx hwait).trans (if_pos hle))
  case backoff =>
    exact fun t hwait hlt => becomes_of_eq rfl ((retryBackoff_eq hx hwait).trans (if_neg (Nat.not_le.2 hlt)))
  case timeout => exact fun hevent hset hdue => becomes_of_eq rfl (waitTimeout_due hx hevent hset hdue)
  case unset => exact fun hset => becomes_of_eq rfl (waitTimeout_unset hx hset)
  case wake =>
    intro h v o hwait hhome ho
    have hwake := waitWake_version hx hwait hhome ho
    exact ⟨fun hle => becomes_of_eq rfl (hwake.trans (if_pos hle)),
      fun hlt => becomes_of_eq rfl (hwake.trans (if_neg (Nat.not_le.2 hlt)))⟩
  case barrier =>
    intro v hctxs hidx hended
    have hbarrier := jobBarrier_alone (v := v) hx hctxs hidx hended
    exact ⟨fun hw => becomes_of_eq rfl (hbarrier.trans (if_pos hw)),
      fun hw => becomes_of_eq rfl (hbarrier.trans (if_neg hw))⟩
  case secured =>
    intro t off n risk k hsec hstaged hrec
    have hstep := securing_recorded (kget_of_getCtx hx) hsec hstaged hrec
    exact ⟨fun hle => becomes_of_eq rfl (hstep.trans (if_pos hle)),
      fun hlt => becomes_of_eq rfl (hstep.trans (if_neg (Nat.not_le.2 hlt)))⟩
  case group =>
    exact fun g v d hd => ⟨fun husable hheld hat => becomes_of_eq rfl (groupBarrier_complete hd husable hheld hat),
      fun hheld => becomes_of_eq rfl (groupBarrier_held hd hheld)⟩

end Sys2Proof.Machine

/-! ## Placement, eviction, time slices and prefetches (05 R153, R154, 06 R175, R179-R181) -/

namespace Sys2Proof.Machine

section
variable {s : State} {x y : CtxId} {j : Job} {c : Ctx} {k p : Nat}

/-! ### Placement and eviction (06 R179-R181) -/

theorem placePass_idle (hq : waiting s p = []) : placePass s p = s := by
  simp only [placePass, hq, List.foldl_nil]

/-- A started job's context goes where it prefers. -/
theorem placePass_started (hq : waiting s p = [x]) (hx : getCtx s x = some (j, c)) (hres : c.resident = none) (hstart : j.started = true)
    (hcore : coreFor s x = some k) : placePass s p = placeOn s x k := by
  simp only [placePass, hq, List.foldl_cons, List.foldl_nil, kget_of_getCtx hx, hx, hres, hstart, hcore, Option.isSome_none,
    Bool.false_eq_true, if_false, if_true]

/-- A new job is placed whole or not at all. -/
theorem placePass_new (hq : waiting s p = [x]) (hx : getCtx s x = some (j, c)) (hres : c.resident = none) (hnew : j.started = false) :
    placePass s p = (placeAll s x.job).getD s := by
  simp only [placePass, hq, List.foldl_cons, List.foldl_nil, kget_of_getCtx hx, hx, hres, hnew, Option.isSome_none, List.contains_nil,
    Bool.false_eq_true, if_false]
  cases placeAll s x.job <;> rfl

theorem evictPass_forbidden (hbit : (od s (0x3000 + p) 8).testBit 0 = false) : evictPass s p = s := by
  simp only [evictPass, hbit, Bool.false_eq_true, if_false]

/-- Where no resident is leaving, a lone waiting context that finds room evicts nobody; without room the plan's residents are evicted. -/
theorem evictPass_lone (hbit : (od s (0x3000 + p) 8).testBit 0 = true) (hleaving : ∀ k, leaving s k = []) (hq : waiting s p = [x])
    (hx : getCtx s x = some (j, c)) (hres : c.resident = none) :
    evictPass s p = if (placeList s (placedWith s x)).isSome then s
      else ((evictPlan s x (placedWith s x).length (fun _ => true) false).getD []).foldl (fun u y => evictNow u y 3) s := by
  have hnone : (List.range 32).flatMap (leaving s) = [] := List.flatMap_eq_nil_iff.2 fun k _ => hleaving k
  simp only [evictPass, hbit, hnone, hq, List.foldl_cons, List.foldl_nil, hx, hres, Option.isSome_none, List.contains_nil, Bool.and_false,
    Bool.or_false, Bool.false_eq_true, if_false, if_true]
  cases placeList s (placedWith s x) with
  | some t => rfl
  | none => cases evictPlan s x (placedWith s x).length (fun _ => true) false <;> rfl

/-- Since when every resident of a core has been blocked. -/
theorem noteBlocked_blockedSince (s : State) (k : Nat) : ((noteBlocked s k).core k).blockedSince =
    if !(s.core k).residents.isEmpty && (s.core k).residents.all fun x => blocked s x then
      some ((s.core k).blockedSince.getD s.power.uptime) else none := by
  simp only [noteBlocked, State.modCore, State.core, kget_kset_same, Option.getD_some]

theorem blocked_of_runnable (h : runnable s x = true) : blocked s x = false := by
  unfold runnable at h
  unfold blocked
  split at h
  · next hx =>
    simp only [Bool.and_eq_true, beq_iff_eq] at h
    simp [h.1.2, h.2]
  · cases h

theorem blockedThreshold_runnable (hx : x ∈ (s.core k).residents) (hrun : runnable s x = true) : blockedThreshold s k = s := by
  have hsince : ((noteBlocked s k).core k).blockedSince = none := by
    rw [noteBlocked_blockedSince]
    refine if_neg ?_
    simp only [Bool.and_eq_true, List.all_eq_true, not_and, not_forall]
    exact fun _ => ⟨x, hx, by rw [blocked_of_runnable hrun]; decide⟩
  unfold blockedThreshold
  rw [hsince]
  split
  · next h => cases h
  · rfl

/-- Past the threshold, the fewest residents of the core leave that let the lone waiting context be placed. -/
theorem blockedThreshold_evicts {t : Nat} {out : List CtxId} (hp : polderOfCore s k = some p) (hne : (s.core k).residents ≠ [])
    (hall : ∀ y ∈ (s.core k).residents, blocked s y = true) (hsince : (s.core k).blockedSince = some t)
    (hdue : t + od s 0x3104 0 * 1000 ≤ s.power.uptime) (hbit : (od s (0x3000 + p) 8).testBit 0 = true) (hq : waiting s p = [x])
    (hroom : placeList s (placedWith s x) = none) (hplan : evictPlan s x (placedWith s x).length (· == k) true = some out) :
    blockedThreshold s k = out.foldl (fun u y => evictNow u y 4) s := by
  have hsince : ((noteBlocked s k).core k).blockedSince = some t := by
    rw [noteBlocked_blockedSince, hsince]
    refine if_pos ?_
    simp only [Bool.and_eq_true, Bool.not_eq_true', List.isEmpty_eq_false_iff, List.all_eq_true]
    exact ⟨hne, hall⟩
  unfold blockedThreshold
  rw [hp, hsince]
  simp only [hdue, hbit, decide_true, Bool.and_self, if_true, hq, List.filterMap_cons, List.filterMap_nil, hroom, Option.isSome_none,
    Bool.false_eq_true, if_false, hplan, List.head?_cons, Option.getD_some]

/-! ### Time slices (06 R175) -/

/-- What of a context says that it is runnable. -/
def Ctx.runs (c : Ctx) : Bool := c.resident.isSome && !c.ended && !c.held && c.wait == .none && c.awaiting == 0

theorem runnable_eq (s : State) (x : CtxId) : runnable s x = ((getCtx s x).map (·.2)).any Ctx.runs := by
  unfold runnable
  cases getCtx s x <;> rfl

/-- A change of one context changes no other. -/
theorem getCtx_modCtx_snd (s : State) (x y : CtxId) (f : Ctx → Ctx) :
    (getCtx (modCtx s x f) y).map (·.2) = ((getCtx s y).map (·.2)).map fun c => if y = x then f c else c := by
  obtain ⟨h, i⟩ := x
  obtain ⟨h', i'⟩ := y
  simp only [getCtx, modCtx, State.modJob_jobs, CtxId.mk.injEq]
  by_cases hh : h' = h
  · subst hh
    rw [kget_kmod]
    cases kget s.jobs h' with
    | none => rfl
    | some j =>
      by_cases hi : i = i'
      · simp [hi, Function.comp_def]
      · have hi' : i' ≠ i := fun h => hi h.symm
        simp [hi, hi', Function.comp_def]
  · rw [kget_kmod_other _ hh]
    simp [hh, Function.comp_def]

@[simp] theorem core_modCore_same (s : State) (k : Nat) (f : Core → Core) : (s.modCore k f).core k = f (s.core k) := by
  simp [State.modCore, State.core]

@[simp] theorem core_modCtx (s : State) (x : CtxId) (f : Ctx → Ctx) (k : Nat) : (modCtx s x f).core k = s.core k := rfl
@[simp] theorem core_schedBump (s : State) (p sub n k : Nat) : (schedBump s p sub n).core k = s.core k := by simp [schedBump, State.core]
@[simp] theorem getCtx_modCore (s : State) (k : Nat) (f : Core → Core) (x : CtxId) : getCtx (s.modCore k f) x = getCtx s x := rfl
@[simp] theorem getCtx_schedBump (s : State) (p sub n : Nat) (x : CtxId) : getCtx (schedBump s p sub n) x = getCtx s x := by
  simp [schedBump, getCtx]
@[simp] theorem ctxPriority_modCtx (s : State) (x y : CtxId) (f : Ctx → Ctx) : ctxPriority (modCtx s x f) y = ctxPriority s y := rfl
@[simp] theorem ctxPriority_modCore (s : State) (k : Nat) (f : Core → Core) (x : CtxId) : ctxPriority (s.modCore k f) x = ctxPriority s x := rfl
@[simp] theorem ctxPriority_schedBump (s : State) (p sub n : Nat) (x : CtxId) : ctxPriority (schedBump s p sub n) x = ctxPriority s x := by
  simp [schedBump, ctxPriority, jobArea]
@[simp] theorem od_modCtx (s : State) (x : CtxId) (f : Ctx → Ctx) (i j : Nat) : od (modCtx s x f) i j = od s i j := rfl
@[simp] theorem od_modCore (s : State) (k : Nat) (f : Core → Core) (i j : Nat) : od (s.modCore k f) i j = od s i j := rfl
@[simp] theorem od_bumpP (s : State) (p i j n a b : Nat) : od (bumpP s p i j n) a b = od s a b := by unfold bumpP; split <;> rfl
@[simp] theorem od_schedBump (s : State) (p sub n i j : Nat) : od (schedBump s p sub n) i j = od s i j := by simp [schedBump]

@[simp] theorem core_modFlash (s : State) (f : Flash → Flash) (k : Nat) : (s.modFlash f).core k = s.core k := rfl
@[simp] theorem flash_modCore (s : State) (k : Nat) (f : Core → Core) : (s.modCore k f).flash = s.flash := rfl

theorem noteBlocked_issuing (s : State) (k : Nat) : ((noteBlocked s k).core k).issuing = (s.core k).issuing := by simp [noteBlocked]

/-- An issuing context at a fret gives way to the other runnable resident of its priority. -/
theorem pickIssue_gives_way {u : State} (hu : chargeIssue s k = u) (hres : (u.core k).residents = [x, y]) (hissuing : (u.core k).issuing = some x)
    (hne : x ≠ y) (hx : runnable u x = true) (hy : runnable u y = true) (hpri : ctxPriority u x = ctxPriority u y)
    (hctx : getCtx u x = some (j, c)) (hfret : c.atFret = true) : ((pickIssue s k true).core k).issuing = some y := by
  have hne' : (y != x) = true := bne_iff_ne.2 hne.symm
  have hnext : ¬ some y = some x := fun h => hne (Option.some.inj h).symm
  simp only [pickIssue, hu, hres, hissuing, List.filter_cons, List.filter_nil, hx, hy, if_true, bestBy, hpri, gt_iff_lt, lt_irrefl,
    decide_false, Bool.false_eq_true, if_false, findFirst, bne_self_eq_false, Bool.false_and, hne', beq_self_eq_true, Bool.and_self, le_refl,
    decide_true, hctx, hfret, Bool.not_true, hnext, noteBlocked_issuing, core_modCtx, core_modCore_same]

/-- Charging the time of the issuing context moves nothing that choosing the issuing context looks at. -/
structure Charged (s t : State) (k : Nat) : Prop where
  residents : (t.core k).residents = (s.core k).residents
  issuing : (t.core k).issuing = (s.core k).issuing
  runnable : ∀ x, runnable t x = runnable s x
  priority : ∀ x, ctxPriority t x = ctxPriority s x
  atFret : ∀ x, ((getCtx t x).map (·.2)).map (·.atFret) = ((getCtx s x).map (·.2)).map (·.atFret)
  setting : ∀ i j, od t i j = od s i j

theorem Charged.refl (s : State) (k : Nat) : Charged s s k := ⟨rfl, rfl, fun _ => rfl, fun _ => rfl, fun _ => rfl, fun _ _ => rfl⟩

theorem Charged.trans {t u : State} (h : Charged s t k) (g : Charged t u k) : Charged s u k where
  residents := g.residents.trans h.residents
  issuing := g.issuing.trans h.issuing
  runnable x := (g.runnable x).trans (h.runnable x)
  priority x := (g.priority x).trans (h.priority x)
  atFret x := (g.atFret x).trans (h.atFret x)
  setting i j := (g.setting i j).trans (h.setting i j)

/-- The state in which `us` microseconds of the context that issues on a core have been charged. -/
def chargedBy (s : State) (k : Nat) (x : CtxId) (us : Nat) : State :=
  let s := s.modCore k fun c => { c with runSince := some s.power.uptime }
  modCtx (schedBump s (jobPolder s x.job) 7 (us * s.power.arr * 125 / 2)) x fun c => { c with turn := c.turn + us, issued := c.issued + us }

theorem chargeIssue_running {t : Nat} (hissuing : (s.core k).issuing = some x) (hsince : (s.core k).runSince = some t) :
    chargeIssue s k = chargedBy s k x (s.power.uptime - t) := by
  simp only [chargeIssue, hissuing, hsince, chargedBy]

theorem chargeIssue_waiting (hsince : (s.core k).runSince = none) : chargeIssue s k = s := by
  unfold chargeIssue
  rw [hsince]
  split
  · next h => cases h
  · rfl

theorem getCtx_chargedBy (s : State) (k : Nat) (x y : CtxId) (us : Nat) : (getCtx (chargedBy s k x us) y).map (·.2) =
    ((getCtx s y).map (·.2)).map fun c => if y = x then { c with turn := c.turn + us, issued := c.issued + us } else c := by
  simp only [chargedBy, getCtx_modCtx_snd, getCtx_schedBump, getCtx_modCore]

theorem chargedBy_charged (s : State) (k : Nat) (x : CtxId) (us : Nat) : Charged s (chargedBy s k x us) k where
  residents := by simp [chargedBy]
  issuing := by simp [chargedBy]
  runnable y := by
    rw [runnable_eq, runnable_eq, getCtx_chargedBy]
    cases getCtx s y with
    | none => rfl
    | some e => by_cases h : y = x <;> simp [h, Ctx.runs]
  priority y := by simp [chargedBy]
  atFret y := by
    rw [getCtx_chargedBy]
    cases getCtx s y with
    | none => rfl
    | some e => by_cases h : y = x <;> simp [h]
  setting i j := by simp [chargedBy]

theorem chargeIssue_charged (s : State) (k : Nat) : Charged s (chargeIssue s k) k := by
  unfold chargeIssue
  split
  · exact chargedBy_charged _ _ _ _
  · exact .refl s k

/-- The turn of the issuing context, its time since the last charge included. -/
theorem chargeIssue_turn (hissuing : (s.core k).issuing = some x) (hctx : getCtx s x = some (j, c)) :
    ∃ j' c', getCtx (chargeIssue s k) x = some (j', c') ∧
      c'.turn = c.turn + ((s.core k).runSince.map fun t => s.power.uptime - t).getD 0 := by
  cases hsince : (s.core k).runSince with
  | none => exact ⟨j, c, by rw [chargeIssue_waiting hsince, hctx], rfl⟩
  | some t =>
    have hmap := getCtx_chargedBy s k x x (s.power.uptime - t)
    simp only [hctx, Option.map_some, if_true] at hmap
    obtain ⟨⟨j', c'⟩, hctx', hc'⟩ := Option.map_eq_some_iff.1 hmap
    exact ⟨j', c', (congrArg (getCtx · x) (chargeIssue_running hissuing hsince)).trans hctx', congrArg Ctx.turn hc'⟩

/-- At the end of its slice the issuing context, at a fret, gives way. -/
theorem timeSlice_gives_way (hres : (s.core k).residents = [x, y]) (hissuing : (s.core k).issuing = some x)
    (hne : x ≠ y) (hx : runnable s x = true) (hy : runnable s y = true) (hpri : ctxPriority s x = ctxPriority s y)
    (hctx : getCtx s x = some (j, c)) (hfret : c.atFret = true)
    (hdue : od s 0x3100 1 ≤ c.turn + ((s.core k).runSince.map fun t => s.power.uptime - t).getD 0) : ((timeSlice s k).core k).issuing = some y := by
  have hcharged := chargeIssue_charged s k
  obtain ⟨j', c', hctx', hturn⟩ := chargeIssue_turn hissuing hctx
  have hslice : timeSlice s k = pickIssue (chargeIssue s k) k true := by
    simp only [timeSlice, hissuing, hctx, hctx', hfret, hcharged.setting, hturn, hdue, decide_true, Bool.and_self, if_true]
  rw [hslice]
  have htwice := hcharged.trans (chargeIssue_charged _ k)
  have hfret' := htwice.atFret x
  rw [hctx] at hfret'
  simp only [Option.map_some, Option.map_eq_some_iff, Prod.exists, hfret] at hfret'
  obtain ⟨_, ⟨j2, c2, hctx2, rfl⟩, hfret2⟩ := hfret'
  exact pickIssue_gives_way rfl (htwice.residents.trans hres) (htwice.issuing.trans hissuing) hne ((htwice.runnable x).trans hx)
    ((htwice.runnable y).trans hy) (by rw [htwice.priority, htwice.priority, hpri]) hctx2 hfret2

theorem timeSlice_idle (h : (s.core k).issuing = none) : timeSlice s k = s := by simp only [timeSlice, h]

/-! ### Prefetches (05 R153, R154) -/

/-- Where no prefetch waits for room, nothing goes on: the core's list of those that wait stays empty. -/
theorem pumpOnce_idle (h : (s.core k).asks = []) : pumpOnce s k = s.modCore k fun q => { q with asks := [] } := by
  simp only [pumpOnce, h, List.foldl_nil]

theorem pumpPrefetch_idle (h : (s.core k).asks = []) :
    pumpPrefetch s k = (s.modCore k fun q => { q with asks := [] }).modCore k fun q => { q with asks := [] } := by
  have hleft : ((s.modCore k fun q => { q with asks := [] }).core k).asks = [] := by rw [core_modCore_same]
  rw [pumpPrefetch, pumpOnce_idle h, pumpOnce_idle hleft]

theorem pumpPrefetch_prefetches (h : (s.core k).asks = []) : ((pumpPrefetch s k).core k).prefetches = (s.core k).prefetches := by
  rw [pumpPrefetch_idle h, core_modCore_same, core_modCore_same]

theorem pumpPrefetch_flash (h : (s.core k).asks = []) : (pumpPrefetch s k).flash = s.flash := by rw [pumpPrefetch_idle h]; rfl

theorem pumpPrefetch_od (h : (s.core k).asks = []) : (pumpPrefetch s k).od = s.od := by rw [pumpPrefetch_idle h]; rfl

@[simp] theorem core_bumpB (s : State) (p i j n k : Nat) : (bumpB s p i j n).core k = s.core k := by simp [State.core]

theorem cnt_bumpB (s : State) (p i j n : Nat) : cnt (bumpB s p i j n) i j = cnt s i j + n := by rw [bumpB, cnt_bumpP, cnt_bump]

theorem findFirst_eq_none {α : Type} {f : α → Bool} {l : List α} (h : ∀ a ∈ l, f a = false) : findFirst f l = none := by
  induction l with
  | nil => rfl
  | cons a l ih =>
    obtain ⟨ha, hl⟩ := List.forall_mem_cons.1 h
    simp only [findFirst, ha, Bool.false_eq_true, if_false, ih hl]

theorem prefetchComplete_unknown {id : Nat} (ok : Bool) (data : List Byte) (version : Nat) (h : ∀ q ∈ (s.core k).prefetches, q.id ≠ id) :
    prefetchComplete s k id ok data version = s := by
  simp only [prefetchComplete, findFirst_eq_none fun q hq => beq_false_of_ne (h q hq)]

section
variable {q : Prefetch} (hq : (s.core k).prefetches = [q]) (hasks : (s.core k).asks = []) (hflight : q.arrived = false)
include hq hasks hflight

/-- A page or row that fails a check is dropped, and counted. -/
theorem prefetchComplete_fails {m : Nat} (data : List Byte) (version : Nat) (hremote : q.remote = some m) :
    ((prefetchComplete s k q.id false data version).core k).prefetches = [] ∧
      cnt (prefetchComplete s k q.id false data version) 0x9700 4 = cnt s 0x9700 4 + 1 := by
  have hdrop : dropPrefetches s k (fun p => p.id == q.id) =
      s.modCore k fun c => { c with prefetches := c.prefetches.filter fun p => !(p.id == q.id) } := by
    simp [dropPrefetches, hq, hremote]
  have heq : prefetchComplete s k q.id false data version =
      pumpPrefetch (prefetchDropped (dropPrefetches s k fun p => p.id == q.id) ⟨q.job, q.idx⟩) k := by
    simp only [prefetchComplete, hq, findFirst, beq_self_eq_true, if_true, hflight, Bool.false_eq_true, if_false, Bool.not_false]
  have hcore : (prefetchDropped (dropPrefetches s k fun p => p.id == q.id) ⟨q.job, q.idx⟩).core k = { s.core k with prefetches := [] } := by
    rw [hdrop]
    simp [prefetchDropped, hq]
  have hidle : ((prefetchDropped (dropPrefetches s k fun p => p.id == q.id) ⟨q.job, q.idx⟩).core k).asks = [] := by rw [hcore, hasks]
  rw [heq]
  refine ⟨by rw [pumpPrefetch_prefetches hidle, hcore], ?_⟩
  rw [cnt_congr (pumpPrefetch_od hidle), prefetchDropped, cnt_bumpB, hdrop]
  rfl

/-- A page of this module has arrived: its read is over. -/
theorem prefetchComplete_page (data : List Byte) (version : Nat) (hlocal : q.remote = none) :
    ((prefetchComplete s k q.id true data version).core k).prefetches = [{ q with arrived := true }] ∧
      (prefetchComplete s k q.id true data version).flash.reads =
        dropFirst (fun r => r.ppa == q.stamp && r.use == .prefetch) s.flash.reads := by
  simp only [prefetchComplete, hq, findFirst, beq_self_eq_true, if_true, hflight, Bool.false_eq_true, if_false, Bool.not_true, hlocal,
    Option.isSome_none]
  rw [pumpPrefetch_prefetches (by simp [hasks]), pumpPrefetch_flash (by simp [hasks])]
  simp [hq, hlocal]

/-- A remote row has arrived, with its bytes and its home's version. -/
theorem prefetchComplete_row {m : Nat} (data : List Byte) (version : Nat) (hremote : q.remote = some m) :
    ((prefetchComplete s k q.id true data version).core k).prefetches = [{ q with arrived := true, data := data, stamp := version }] ∧
      (prefetchComplete s k q.id true data version).flash = s.flash := by
  simp only [prefetchComplete, hq, findFirst, beq_self_eq_true, if_true, hflight, Bool.false_eq_true, if_false, Bool.not_true, hremote,
    Option.isSome_some]
  rw [pumpPrefetch_prefetches (by simp [hasks]), pumpPrefetch_flash (by simp [hasks])]
  simp [hq, hremote]

end

end

/-- Settles O47: a pass over the waiting contexts, a slice's end, a blocked core and an arriving prefetch each do what their rule above says. -/
theorem placementActs : Obligations.PlacementActs := by
  unfold Obligations.PlacementActs
  intro s
  refine ⟨?idle, ?started, ?new, ?forbidden, ?lone, ?slice, ?nobody, ?runnable, ?threshold, ?unknown, ?prefetch⟩
  case idle => exact fun p hq => becomes_of_eq rfl (congrArg applyStep (placePass_idle hq))
  case started =>
    exact fun p x j k c hq hx hres hstart hcore => becomes_of_eq rfl (congrArg applyStep (placePass_started hq hx hres hstart hcore))
  case new => exact fun p x j c hq hx hres hnew => becomes_of_eq rfl (congrArg applyStep (placePass_new hq hx hres hnew))
  case forbidden => exact fun p hbit => becomes_of_eq rfl (evictPass_forbidden hbit)
  case lone =>
    intro p w j c hbit hleaving hq hw hres
    have hpass := evictPass_lone hbit hleaving hq hw hres
    exact ⟨fun hroom => becomes_of_eq rfl (hpass.trans (if_pos hroom)),
      fun out hroom hplan => becomes_of_eq rfl (by rw [hpass, hroom, hplan]; rfl)⟩
  case slice =>
    intro k x y j c hres hissuing hne hx hy hpri hctx hfret hdue
    refine answers_of_exec rfl (timeSlice_gives_way hres hissuing hne hx hy hpri hctx hfret ?_)
    cases hsince : (s.core k).runSince <;> simpa [hsince] using hdue
  case nobody => exact fun k h => becomes_of_eq rfl (timeSlice_idle h)
  case runnable => exact fun k x hx hrun => becomes_of_eq rfl (blockedThreshold_runnable hx hrun)
  case threshold =>
    exact fun k p t w out hp hne hall hsince hdue hbit hq hroom hplan =>
      becomes_of_eq rfl (blockedThreshold_evicts hp hne hall hsince hdue hbit hq hroom hplan)
  case unknown => exact fun k id ok b v h => becomes_of_eq rfl (prefetchComplete_unknown ok b v h)
  case prefetch =>
    rintro k _ q b v hq hasks rfl hflight
    exact ⟨fun hlocal => answers_of_exec rfl (prefetchComplete_page hq hasks hflight b v hlocal),
      fun m hremote => answers_of_exec rfl (prefetchComplete_row hq hasks hflight b v hremote),
      fun m hremote => answers_of_exec rfl (prefetchComplete_fails hq hasks hflight b v hremote)⟩

end Sys2Proof.Machine

/-! ## The sums of the array (07 R195, R199, R200, R203): special values, saturation and promotion of a chunk

O48 fails in one clause only, the flags of an empty contraction. The lemmas here are its other clauses, and what they rest on. -/

namespace Sys2Proof.Machine

/-! ### A chunk of the float classes (07 R195) -/

/-- The special-value lane holds what it held and what the products bring. -/
theorem foldl_noteSpecial (ps : List Val) (z : Special) : ps.foldl noteSpecial z =
    ⟨z.nan || decide (.nan ∈ ps), z.pos || decide (.inf false ∈ ps), z.neg || decide (.inf true ∈ ps)⟩ := by
  induction ps generalizing z with
  | nil => simp
  | cons v ps ih =>
    rw [List.foldl_cons, ih]
    rcases v with _ | (_ | _) | _ <;> simp [noteSpecial]

theorem chunkFloat_of_nan (w start : Nat) {ps : List Val} (h : .nan ∈ ps) : chunkFloat w start ps = .nan := by
  simp [chunkFloat, foldl_noteSpecial, h]

theorem chunkFloat_of_both_infs (w start : Nat) {ps : List Val} (hpos : .inf false ∈ ps) (hneg : .inf true ∈ ps) :
    chunkFloat w start ps = .nan := by
  simp [chunkFloat, foldl_noteSpecial, hpos, hneg]

theorem chunkFloat_of_one_inf (w start : Nat) {neg : Bool} {ps : List Val} (h : .inf neg ∈ ps) (hother : .inf (!neg) ∉ ps)
    (hnan : .nan ∉ ps) : chunkFloat w start ps = .inf neg := by
  cases neg <;> simp_all [chunkFloat, foldl_noteSpecial]

/-! ### A chunk of integers (07 R199) -/

/-- What fits one vector is one portion (07 R198). -/
theorem portions_one_vector {α : Type} {w : Nat} (fuel : Nat) {l : List α} (hne : l ≠ []) (hw : l.length ≤ w) :
    portions w (fuel + 1) 0 l = [l] := by
  obtain ⟨x, xs, rfl⟩ := List.exists_cons_of_ne_nil hne
  have hrest (at' : Nat) : portions w fuel at' ([] : List α) = [] := by cases fuel <;> rfl
  simp only [portions, Nat.zero_mod, Nat.sub_zero, List.take_of_length_le hw, List.drop_of_length_le hw, hrest]

/-- An integer chunk of one vector saturates its exact sum, once. -/
theorem chunkInt_one_vector {w : Nat} {ps : List Int} (hne : ps ≠ []) (hw : ps.length ≤ w) : chunkInt w 0 ps = satInt32 ps.sum := by
  simp [chunkInt, portions_one_vector _ hne hw, List.sum_eq_foldl]

theorem satInt32_of_fits {n : Int} (hlo : -2147483648 ≤ n) (hhi : n ≤ 2147483647) : satInt32 n = (n, false) := by
  rw [satInt32, if_neg (not_lt.2 hlo), if_neg (not_lt.2 hhi)]

theorem satInt32_above {n : Int} (h : 2147483647 < n) : satInt32 n = (2147483647, true) := by
  rw [satInt32, if_neg (by omega), if_pos h]

theorem satInt32_below {n : Int} (h : n < -2147483648) : satInt32 n = (-2147483648, true) := by
  rw [satInt32, if_pos h]

/-! ### Promotion (07 R200) -/

/-- A total that was not infinite is rounded, or is saturated and says so. -/
theorem roundTotal_of_finite (v : Val) : (roundTotal false v = (toF32 v, {}) ∧ fIsInf (toF32 v) = false) ∨
    (roundTotal false v = (f32Max, { satTotal := true }) ∨ roundTotal false v = (fneg f32Max, { satTotal := true })) := by
  unfold roundTotal
  by_cases hinf : fIsInf (toF32 v) = true
  · right
    simp only [hinf, Bool.not_false, Bool.and_self, if_true]
    split
    · exact .inr rfl
    · exact .inl rfl
  · simp [hinf]

/-- A finite chunk is one rounding of an exact value. -/
theorem promote_fin (total s : U32) (n : Bool) (m : Nat) (e : Int) :
    ∃ v, promote total s (.fin n m e) = roundTotal (fIsInf total) v := ⟨_, rfl⟩

theorem promote_fin_not_inf {total : U32} (s : U32) (n : Bool) (m : Nat) (e : Int) (h : fIsInf total = false) :
    fIsInf (promote total s (.fin n m e)).1 = false := by
  obtain ⟨v, hv⟩ := promote_fin total s n m e
  rw [hv, h]
  rcases roundTotal_of_finite v with ⟨hr, hfin⟩ | hr | hr
  · rwa [hr]
  · rw [hr]; decide
  · rw [hr]; decide

theorem promote_fin_saturates {total : U32} (s : U32) (n : Bool) (m : Nat) (e : Int) (h : fIsInf total = false)
    (hsat : (promote total s (.fin n m e)).2.satTotal = true) :
    (promote total s (.fin n m e)).1 = f32Max ∨ (promote total s (.fin n m e)).1 = fneg f32Max := by
  obtain ⟨v, hv⟩ := promote_fin total s n m e
  rw [hv, h] at hsat ⊢
  rcases roundTotal_of_finite v with ⟨hr, -⟩ | hr | hr
  · rw [hr] at hsat; cases hsat
  · exact .inl (by rw [hr])
  · exact .inr (by rw [hr])

/-! ### An output element (07 R199, R200, R203) -/

/-- An integer as an exact value. -/
def intVal (n : Int) : Val := .fin (decide (n < 0)) n.natAbs 0

theorem sm_intVal (n : Int) : sm (decide (n < 0)) n.natAbs = n := by
  unfold sm
  by_cases h : n < 0
  · rw [if_pos (decide_eq_true h)]; omega
  · rw [if_neg (by simpa using h)]; omega

/-- One chunk of integer operands that fits one vector: the exact sum of the products, saturated to int32, converted and promoted once. -/
theorem dotChunk_ints (chunk : Nat) (scale total : U32) {w : Nat} {l : List (Int × Int)} (hne : l ≠ []) (hw : l.length ≤ w) :
    dotChunk ⟨true, w, chunk, scale⟩ 0 (l.map fun p => (intVal p.1, intVal p.2)) total =
      let r := satInt32 (l.map fun p => p.1 * p.2).sum
      let t := promote total scale (ofF32 (f32OfInt r.1))
      (t.1, { t.2 with satAcc := r.2 }) := by
  have hprods : ((l.map fun p => (intVal p.1, intVal p.2)).map fun p => match p.1, p.2 with
      | .fin a m _, .fin b k _ => sm a m * sm b k
      | _, _ => 0) = l.map fun p => p.1 * p.2 := by
    simp [intVal, sm_intVal]
  have hsum : chunkInt w 0 (l.map fun p => p.1 * p.2) = satInt32 (l.map fun p => p.1 * p.2).sum :=
    chunkInt_one_vector (by simpa using hne) (by simpa using hw)
  rw [← hsum, ← hprods]
  rfl

/-- A contraction of one chunk, with no product of the vector unit, is that chunk added to the first value. -/
theorem dot_one_chunk {d : DotSpec} {l : List (Val × Val)} (init : U32) (hne : l ≠ []) (hchunk : l.length ≤ d.chunk) :
    dot d (fun _ => none) l init = ((dotChunk d 0 l init).1,
      TileFlags.or { nonfinite := fIsNan init || fIsInf init } (dotChunk d 0 l init).2) := by
  obtain ⟨x, xs, rfl⟩ := List.exists_cons_of_ne_nil hne
  have hnone : (List.range (x :: xs).length).filterMap (fun _ => (none : Option (U32 × U32))) = [] := by simp
  simp only [dot, dotLoop, List.take_of_length_le hchunk, List.drop_of_length_le hchunk, hnone]
  rfl

/-- Integer operands whose contraction fits one vector and one chunk, their sum an int32: the sum is exact, converted once, and the
first value and the scaled sum are added with the one rounding of the promotion. -/
theorem dot_ints_exact {w chunk : Nat} (scale init : U32) {l : List (Int × Int)} (hne : l ≠ []) (hw : l.length ≤ w)
    (hchunk : l.length ≤ chunk) (hlo : -2147483648 ≤ (l.map fun p => p.1 * p.2).sum) (hhi : (l.map fun p => p.1 * p.2).sum ≤ 2147483647) :
    let r := dot ⟨true, w, chunk, scale⟩ (fun _ => none) (l.map fun p => (intVal p.1, intVal p.2)) init
    r.1 = (promote init scale (ofF32 (f32OfInt (l.map fun p => p.1 * p.2).sum))).1 ∧ r.2.satAcc = false := by
  rw [dot_one_chunk init (by simpa using hne) (by simpa using hchunk), dotChunk_ints chunk scale init hne hw, satInt32_of_fits hlo hhi]
  exact ⟨rfl, rfl⟩

/-- An empty contraction leaves the first value, and its tile has NONFINITE where that value is not finite (07 R203). -/
theorem dot_nil (d : DotSpec) (extra : Nat → Option (U32 × U32)) (init : U32) :
    dot d extra [] init = (init, { nonfinite := fIsNan init || fIsInf init }) := rfl

/-- Refutes O48: an empty contraction need not leave all flags clear. Started from an infinite C it leaves that value, and sets
NONFINITE, for an infinity has entered the total (07 R203). -/
theorem not_chunksSumAndSaturate : ¬ Obligations.ChunksSumAndSaturate := by
  rintro ⟨-, helement⟩
  obtain ⟨hempty, -⟩ := helement 64 128 f32One f32Inf [] (by decide) (by decide) (by decide)
  have hclear : (f32Inf, ({ nonfinite := fIsNan f32Inf || fIsInf f32Inf } : TileFlags)) = (f32Inf, {}) :=
    (dot_nil _ _ _).symm.trans (hempty rfl)
  have hflag : (fIsNan f32Inf || fIsInf f32Inf) = false := congrArg (fun r => r.2.nonfinite) hclear
  exact absurd hflag (by decide)

end Sys2Proof.Machine

/-! ## The risk (10 R269-R271): its components, its crossings of the threshold, and the securing triggers they arm -/

namespace Sys2Proof.Machine

/-! ### The risk recomputed (10 R269, R270) -/

section
variable (s : State) (t : Sensors)

/-- The state with the readings of a recomputation taken. -/
def sensed : State := s.modPower fun p => { p with sensors := t, highest := max p.highest t.die }

/-- The risk that a recomputation with those readings finds. -/
def newRisk : Nat := riskOf s (riskComps (sensed s t))

/-- The state with the recomputed risk in place; events too old for every component are dropped. -/
def assessed : State := (sensed s t).modRisk fun r => { r with
  risk := newRisk s t, highest := max r.highest (newRisk s t), comps := riskComps (sensed s t)
  corrected := within (sensed s t) 3600000000 r.corrected
  uncorrectable := within (sensed s t) 60000000 r.uncorrectable
  droops := within (sensed s t) 60000000 r.droops
  retrains := within (sensed s t) 60000000 r.retrains }

/-- The recomputed state with a crossing in the health log, `1` for the one upward and `0` for the one downward. -/
def crossingLogged (up : Int) : State := logHealth (assessed s t) 0x0020 false (up :: (riskComps (sensed s t)).map Int.ofNat)

/-- The recomputed state, a crossing of the threshold in the health log if there is one (10 R271). -/
def crossingNoted : State :=
  if decide (s.risk.risk < od s 0x7002 1) && decide (od s 0x7002 1 ≤ newRisk s t) then crossingLogged s t 1
  else if decide (od s 0x7002 1 ≤ s.risk.risk) && decide (newRisk s t < od s 0x7002 1) then crossingLogged s t 0
  else assessed s t

/-- A job once a risk at or above the threshold is found: one that states a step bound is armed by the crossing, or by a further step of
the risk above the one it was secured at (10 R271). -/
def armedByRisk (j : Job) : Job :=
  if j.stepBound = 0 then j
  else if s.risk.risk < od s 0x7002 1 ∨ (j.riskTime.isSome ∧ j.riskAt + od s 0x7002 2 ≤ newRisk s t) then { j with armed := true }
  else j

/-- The weights of a risk are OD 0x7001:01-06. -/
theorem riskOf_eq (cs : List Nat) : riskOf s cs =
    min 65535 ((od s 0x7001 1 * cs[0]?.getD 0 + od s 0x7001 2 * cs[1]?.getD 0 + od s 0x7001 3 * cs[2]?.getD 0 +
      od s 0x7001 4 * cs[3]?.getD 0 + od s 0x7001 5 * cs[4]?.getD 0 + od s 0x7001 6 * cs[5]?.getD 0) / 16) := by
  simp [riskOf, List.range_succ]

/-- Settings read the same after a record has joined the health log. -/
@[simp] theorem od_logHealth (type : Nat) (admin : Bool) (detail : List Int) (i j : Nat) :
    od (logHealth s type admin detail) i j = od s i j := by
  simp only [od, odDefault, exportedDefault, dramCapacity, logHealth_od, logHealth_ident, logHealth_dram]

/-! ### Crossings of the threshold (10 R271) -/

/-- A record joins the health log exactly if the risk has come to the other side of the threshold. -/
theorem crossingNoted_cases :
    (crossingNoted s t = assessed s t ∧ (s.risk.risk < od s 0x7002 1 ↔ newRisk s t < od s 0x7002 1)) ∨
    (∃ up, crossingNoted s t = crossingLogged s t up ∧ ¬(s.risk.risk < od s 0x7002 1 ↔ newRisk s t < od s 0x7002 1)) := by
  unfold crossingNoted
  split
  next h =>
    simp only [Bool.and_eq_true, decide_eq_true_eq] at h
    exact .inr ⟨1, rfl, by omega⟩
  next hup =>
    split
    next h =>
      simp only [Bool.and_eq_true, decide_eq_true_eq] at h
      exact .inr ⟨0, rfl, by omega⟩
    next hdown =>
      simp only [Bool.and_eq_true, decide_eq_true_eq] at hup hdown
      exact .inl ⟨rfl, by omega⟩

@[simp] theorem crossingNoted_risk : (crossingNoted s t).risk = (assessed s t).risk := by
  rcases crossingNoted_cases s t with ⟨h, -⟩ | ⟨up, h, -⟩ <;> simp [h, crossingLogged]

@[simp] theorem crossingNoted_power : (crossingNoted s t).power = (sensed s t).power := by
  rcases crossingNoted_cases s t with ⟨h, -⟩ | ⟨up, h, -⟩ <;> simp [h, crossingLogged, assessed]

@[simp] theorem crossingNoted_objs : (crossingNoted s t).objs = s.objs := by
  rcases crossingNoted_cases s t with ⟨h, -⟩ | ⟨up, h, -⟩ <;> simp [h, crossingLogged, assessed, sensed]

@[simp] theorem crossingNoted_jobs : (crossingNoted s t).jobs = s.jobs := by
  rcases crossingNoted_cases s t with ⟨h, -⟩ | ⟨up, h, -⟩ <;> simp [h, crossingLogged, assessed, sensed]

@[simp] theorem od_crossingNoted (i j : Nat) : od (crossingNoted s t) i j = od s i j := by
  rcases crossingNoted_cases s t with ⟨h, -⟩ | ⟨up, h, -⟩
  · rw [h]; rfl
  · rw [h, crossingLogged, od_logHealth]; rfl

/-- A crossing is one record of the health log. -/
theorem crossingNoted_healthHigh : (crossingNoted s t).healthHigh =
    s.healthHigh + if s.risk.risk < od s 0x7002 1 ↔ newRisk s t < od s 0x7002 1 then 0 else 1 := by
  rcases crossingNoted_cases s t with ⟨h, hsame⟩ | ⟨up, h, hcross⟩
  · rw [h, if_pos hsame]; rfl
  · rw [h, if_neg hcross, crossingLogged, logHealth_healthHigh]; rfl

end

/-! ### The two commands (10 R270, R271, 20 R510) -/

section
variable {s : State} {t : Sensors}

/-- Between two recomputations, and while the monitor is stopped, the risk stays as it is. -/
theorem riskRecompute_idle (h : s.power.uptime % 100000 ≠ 0 ∨ monitorOn s = false) : riskRecompute s t = s :=
  if_pos (by simpa using h)

theorem riskRecompute_due (htime : s.power.uptime % 100000 = 0) (hon : monitorOn s = true) : riskRecompute s t =
    if newRisk s t < od s 0x7002 1 then crossingNoted s t
    else { crossingNoted s t with jobs := kmap s.jobs fun _ => armedByRisk s t } := by
  have hdue : ¬(s.power.uptime % 100000 ≠ 0 ∨ (!monitorOn s) = true) := by simp [htime, hon]
  have hstep : od (crossingNoted s t) 0x7002 2 = od s 0x7002 2 := od_crossingNoted s t 0x7002 2
  have hjobs : (crossingNoted s t).jobs = s.jobs := crossingNoted_jobs s t
  unfold armedByRisk
  rw [← hstep, ← hjobs]
  exact if_neg hdue

/-- The jobs after a recomputation: below the threshold none changes, at or above it each is armed as the risk asks. -/
theorem riskRecompute_jobs (htime : s.power.uptime % 100000 = 0) (hon : monitorOn s = true) : (riskRecompute s t).jobs =
    if newRisk s t < od s 0x7002 1 then s.jobs else kmap s.jobs fun _ => armedByRisk s t := by
  rw [riskRecompute_due htime hon]
  split
  · exact crossingNoted_jobs s t
  · rfl

/-- But for the jobs, a recomputation leaves the recomputed state with its crossing logged. -/
theorem riskRecompute_but_jobs (htime : s.power.uptime % 100000 = 0) (hon : monitorOn s = true) :
    riskRecompute s t = { crossingNoted s t with jobs := (riskRecompute s t).jobs } := by
  rw [riskRecompute_due htime hon]
  split <;> rfl

/-- The crossing upward arms every job that states a step bound. -/
theorem armedByRisk_crossing (h : s.risk.risk < od s 0x7002 1) (j : Job) :
    armedByRisk s t j = if j.stepBound = 0 then j else { j with armed := true } := by
  simp only [armedByRisk, h, true_or, if_true]

/-- Below the threshold, and while the monitor is stopped, no job is armed again. -/
theorem riskRearm_idle {h : Nat} (hidle : s.risk.risk < od s 0x7002 1 ∨ monitorOn s = false) : riskRearm s h = s :=
  if_pos (by simpa using hidle)

/-- A job that a risk has secured is armed again once the interval has passed. -/
theorem riskRearm_due {h x : Nat} {j : Job} (hon : monitorOn s = true) (hrisk : od s 0x7002 1 ≤ s.risk.risk)
    (hj : kget s.jobs h = some j) (htime : j.riskTime = some x) (hbound : j.stepBound ≠ 0)
    (hdue : x + od s 0x7002 3 * 1000 ≤ s.power.uptime) :
    ∃ jobs, riskRearm s h = { s with jobs := jobs } ∧ kget jobs h = some { j with armed := true } := by
  have hruns : ¬(s.risk.risk < od s 0x7002 1 ∨ (!monitorOn s) = true) := by simp [hon, hrisk]
  refine ⟨_, if_neg hruns, (kget_kmod_same _ hj).trans ?_⟩
  simp [htime, hbound, hdue]

end

/-- Settles O35: a recomputation that is due leaves `crossingNoted` with the jobs that `armedByRisk` arms, the end of an interval arms its
job, and either command is idle otherwise. -/
theorem riskArmsSecuring : Obligations.RiskArmsSecuring := by
  refine fun s => ⟨?between, ?due, ?below, ?stopped, ?rearm⟩
  case between => exact fun t htime => becomes_of_eq rfl (riskRecompute_idle (.inl htime))
  case due =>
    rintro t _ r htime hon rfl hr
    obtain rfl : r = newRisk s t := hr.trans (riskOf_eq s _).symm
    refine answers_of_exec (u := riskRecompute s t) rfl ?_
    have hjobs : (riskRecompute s t).jobs = _ := riskRecompute_jobs htime hon
    rw [riskRecompute_but_jobs htime hon]
    refine ⟨?risk, ?comps, ?highest, ?sensors, crossingNoted_objs s t, crossingNoted_healthHigh s t, ?low, ?up⟩
    case risk => exact congrArg Risk.risk (crossingNoted_risk s t)
    case comps => exact congrArg Risk.comps (crossingNoted_risk s t)
    case highest => exact congrArg Risk.highest (crossingNoted_risk s t)
    case sensors => exact congrArg Power.sensors (crossingNoted_power s t)
    case low => exact fun hlow => hjobs.trans (if_pos hlow)
    case up =>
      intro hold hnew
      refine (hjobs.trans (if_neg (Nat.not_lt.2 hnew))).trans ?_
      exact congrArg (kmap s.jobs) (funext fun _ => funext (armedByRisk_crossing hold))
  case below => exact fun h hlow => becomes_of_eq rfl (riskRearm_idle (.inl hlow))
  case stopped =>
    exact fun hoff => ⟨fun t => becomes_of_eq rfl (riskRecompute_idle (.inr hoff)),
      fun h => becomes_of_eq rfl (riskRearm_idle (.inr hoff))⟩
  case rearm =>
    intro h j x hon hrisk hj htime hbound hdue
    obtain ⟨jobs, hstep, harmed⟩ := riskRearm_due hon hrisk hj htime hbound hdue
    refine answers_of_exec (u := riskRearm s h) rfl ?_
    rw [hstep]
    exact ⟨rfl, harmed⟩

end Sys2Proof.Machine

/-! ## Embedding tables (11): LOOKUP and UPDATE_ROWS, the step barrier, additions of other modules, migrations and reclamation -/

namespace Sys2Proof.Machine

/-! ### What the runtime keeps for a table, after it was changed -/

/-- A second write of a key replaces the first. -/
theorem kset_kset {α : Type} (m : KMap α) (i : Nat) (x y : α) : kset (kset m i x) i y = kset m i y := by
  induction m with
  | nil => simp [kset]
  | cons p r ih =>
    obtain ⟨k, v⟩ := p
    by_cases heq : i = k
    · simp [kset, heq]
    · by_cases hlt : i < k
      · simp [kset, heq, hlt]
      · simp [kset, heq, hlt, ih]

section
variable (s : State) (h : Nat) (f g : TableSt → TableSt)

@[simp] theorem State.modTbl_objs : (s.modTbl h f).objs = s.objs := rfl
@[simp] theorem State.modTbl_dram : (s.modTbl h f).dram = s.dram := rfl
@[simp] theorem State.modTbl_parcels : (s.modTbl h f).parcels = s.parcels := rfl

@[simp] theorem State.tbl_modTbl : (s.modTbl h f).tbl h = f (s.tbl h) := by simp [State.tbl, State.modTbl]

/-- Two changes of a table's entry are one. -/
theorem State.modTbl_modTbl : (s.modTbl h f).modTbl h g = s.modTbl h fun t => g (f t) := by
  unfold State.modTbl State.tbl
  simp only [kset_kset, kget_kset_same, Option.getD_some]

end

section
variable (s : State) (h i n : Nat)

@[simp] theorem tblBump_objs : (tblBump s h i n).objs = s.objs := bumpB_objs ..
@[simp] theorem tblBump_dram : (tblBump s h i n).dram = s.dram := bumpB_dram ..
@[simp] theorem tblBump_parcels : (tblBump s h i n).parcels = s.parcels := bumpB_parcels ..
@[simp] theorem tblBump_tables : (tblBump s h i n).tables = s.tables := bumpB_tables ..
@[simp] theorem tblBump_tbl : (tblBump s h i n).tbl h = s.tbl h := by simp [State.tbl]

end

/-- The header area of a table's object. -/
theorem area_of_tableArea {s : State} {h : Nat} {o : Obj} {a : TableArea} (ho : kget s.objs h = some o)
    (ha : tableArea s h = some a) : o.area = .table a := by
  simp only [tableArea, ho] at ha
  split at ha
  · next h => simpa [h] using ha
  · cases ha

/-- The element found passes the test. -/
theorem test_of_findFirst {α : Type} {f : α → Bool} {l : List α} {x : α} (h : findFirst f l = some x) : f x = true := by
  induction l with
  | nil => cases h
  | cons y r ih =>
    by_cases hy : f y = true
    · simp only [findFirst, hy, if_true, Option.some.injEq] at h
      exact h ▸ hy
    · simp only [findFirst, hy] at h
      exact ih h

/-! ### UPDATE_ROWS (11 R294, R295) -/

/-- UPDATE_ROWS of a table homed here, its step in the window and its rows in range: the rows join the table's additions. -/
theorem effUpdateRows_adds {q : Req} {s s1 s2 : State} {a : TableArea} {b : List Byte} {e : Exec} {rows : List (Nat × Nat × List U32)}
    (htx : q.tx = 0) (h1 : 1 ≤ q.op 0 4) (hcount : q.op 0 4 ≤ 65536) (hfetch : q.fetch s = (.ok b, s1))
    (hh : homeOf q.c.target.toNat = moduleId s1) (ha : tableArea s1 q.c.target.toNat = some a)
    (hlen : q.c.length.toNat = q.op 0 4 * roundUp (8 + a.dim * (elemBits a.updateFormat / 8)) 16)
    (hrows : ((List.range (q.op 0 4)).zip (parseUpdates a (q.op 0 4) b)).filter (fun x => x.2.1 != noRow) = rows)
    (hrange : (rows.any fun x => decide (a.rows ≤ x.2.1)) = false) (hstep : stepWindow s1 a (q.op 4 4) = .ok)
    (he : kget s1.execs q.reg = some e) (hown : e.carried = none)
    (hadd : addRows s1 0 q.c.target.toNat (moduleId s1) (q.op 4 4) (rows.map fun x => (x.2.1, q.op 8 4 + x.1, x.2.2)) = (.ok, s2)) :
    effUpdateRows q s = (noteStep s2 q.c.target.toNat (moduleId s1) (q.op 4 4), .ready 0 rows.length, rows.length) := by
  subst hrows
  have hsize : ¬ (q.op 0 4 = 0 ∨ 65536 < q.op 0 4) := by omega
  simp only [effUpdateRows, hsize, hfetch, isRemote_home hh, ha, hlen, hrange, he, hown, hstep, htx, hadd, if_false, Bool.false_eq_true,
    ne_eq, not_true_eq_false]

/-! ### LOOKUP (11 R285-R287) -/

/-- The directory entries of a group's rows; a row that is none has none. -/
def groupEntries (s : State) (o : Obj) (ids : List Nat) : List (Option Nat) :=
  ((List.range ids.length).zip ids).map fun e => if e.2 = noRow then none else some (rowEntry s o e.2)

/-- Each row of a group is read once on demand, and its heat rises. -/
def groupHeated (s : State) (h : Nat) (ids : List Nat) : State := ids.foldl (fun s r => if r = noRow then s else heatUp s h r) s

/-- The flash pages under the slots that entries name. -/
def entryPages (s : State) (o : Obj) (a : TableArea) (es : List (Option Nat)) : List Nat :=
  es.flatMap fun e => match e with
    | some e => if entryPresent e then flashPages s (o.base + entrySlot e) (slotBytes a.dim (entryClass e)) else []
    | none => []

/-- The state in which a group's rows are read: its reader has deregistered, and no bytes stand in the command's answer. -/
def groupFreed (s : State) (h reg : Nat) (ids : List Nat) : State :=
  let t := (groupHeated s h ids).modTbl h fun t => { t with readers := t.readers.filter fun r => r.1 != reg }
  { t with execs := kmod t.execs reg fun e => { e with answer := [] } }

/-- A group of rows, none of them to be read from flash, is delivered to the host from byte `n` of the buffer on. -/
def GroupDelivers (q : Req) (h fmt : Nat) (o : Obj) (a : TableArea) (ids : List Nat) (n : Nat) (out : List Byte) (s t : State) : Prop :=
  onMedia (groupHeated s h ids) (entryPages (groupHeated s h ids) o a (groupEntries s o ids)) = [] ∧
  ∃ u, readRows (groupFreed s h q.reg ids) o a fmt (groupEntries s o ids) = (some out, u) ∧
    deliver u q.fn [(q.op 0 8 + n, out.length)] out = (true, t)

/-- A LOOKUP goes on behind a group that was delivered. -/
theorem lookupGroups_delivered {q : Req} {h fmt n : Nat} {o : Obj} {a : TableArea} {ids : List Nat} {out : List Byte} {s t : State}
    (total : Nat) (rest : List (List Nat)) (htx : q.tx = 0) (hdata : q.data = none) (hg : GroupDelivers q h fmt o a ids n out s t) :
    lookupGroups q h fmt total o a (ids :: rest) n false s = lookupGroups q h fmt total o a rest (n + out.length) false t := by
  obtain ⟨hmedia, u, hread, hdeliver⟩ := hg
  unfold groupFreed groupHeated groupEntries at hread
  simp only [lookupGroups, htx, hdata, Option.isSome_none, Bool.false_eq_true, if_false, if_true, List.append_nil, hread, hdeliver]
  refine if_neg fun hwaits => ?_
  have hwaits : (!(onMedia (groupHeated s h ids) (entryPages (groupHeated s h ids) o a (groupEntries s o ids))).isEmpty) = true := hwaits
  simp [hmedia] at hwaits

/-- A LOOKUP whose groups are delivered one after another ends with the number of its rows. -/
theorem lookupGroups_all {q : Req} {h fmt : Nat} {o : Obj} {a : TableArea} (total : Nat) (htx : q.tx = 0) (hdata : q.data = none)
    (groups : List (List Nat)) (outs : Nat → List Byte) (pos : Nat → Nat) (st : Nat → State)
    (hgroups : ∀ i ids, groups[i]? = some ids → pos (i + 1) = pos i + (outs i).length ∧
      GroupDelivers q h fmt o a ids (pos i) (outs i) (st i) (st (i + 1))) :
    lookupGroups q h fmt total o a groups (pos 0) false (st 0) = (st groups.length, .ready 0 total, pos groups.length) := by
  induction groups generalizing outs pos st with
  | nil => simp [lookupGroups]
  | cons ids rest ih =>
    obtain ⟨hpos, hg⟩ := hgroups 0 ids rfl
    rw [lookupGroups_delivered total rest htx hdata hg, ← hpos]
    exact ih (fun i => outs (i + 1)) (fun i => pos (i + 1)) (fun i => st (i + 1)) fun i ids hi => hgroups (i + 1) ids hi

/-- LOOKUP of a table homed here, its rows in range: its groups are read from the first row on. -/
theorem effLookup_groups {q : Req} {s s1 : State} {o : Obj} {a : TableArea} {b : List Byte} {ids : List Nat}
    (hagain : q.again = false) (hfmt : q.op 8 1 = 8 ∨ q.op 8 1 = 9 ∨ q.op 8 1 = 10) (h0 : q.c.length.toNat ≠ 0)
    (hn : q.c.length.toNat % 8 = 0) (hl : q.c.length.toNat ≤ 524288) (hfetch : q.fetch s = (.ok b, s1))
    (hh : homeOf q.c.target.toNat = moduleId s1) (ho : kget s1.objs q.c.target.toNat = some o)
    (ha : tableArea s1 q.c.target.toNat = some a) (hids : (List.range (q.c.length.toNat / 8)).map (fun i => fieldAt b (8 * i) 8) = ids)
    (hrange : (ids.any fun i => i != noRow && decide (a.rows ≤ i)) = false) :
    effLookup q s =
      lookupGroups q q.c.target.toNat (q.op 8 1) ids.length o a (groupsOf 4096 (ids.length + 1) ids) 0 false s1 := by
  subst hids
  have hargs : ¬ ((q.op 8 1 ≠ 10 ∧ q.op 8 1 ≠ 8 ∧ q.op 8 1 ≠ 9) ∨ q.c.length.toNat = 0 ∨ q.c.length.toNat % 8 ≠ 0 ∨
      524288 < q.c.length.toNat) := by omega
  simp only [effLookup, hargs, hfetch, isRemote_home hh, ho, ha, hrange, hagain, Nat.zero_div, List.drop_zero, if_false,
    Bool.false_eq_true]

/-- Settles O18: UPDATE_ROWS leaves what `addRows` of its rows leaves, and LOOKUP delivers its groups one after another. -/
theorem tableCommandsAct : Obligations.TableCommandsAct := by
  refine ⟨?update, ?lookup⟩
  case update =>
    intro c pg a b e s s1 s2 had htx h count step base h1 hcount hfetch hh ha hlen rows hrange hstep he hown hadd hx
    refine answers_of_effect rfl had htx (effUpdateRows_adds (q := reqOf c pg) (reqOf_tx_zero pg htx) h1 hcount hfetch hh ha hlen rfl
      hrange hstep he hown hadd) hx ?_
    rintro t hw rfl
    exact ⟨hw, rfl⟩
  case lookup =>
    intro c pg o a b outs pos st s had htx h fmt ids groups es heated freed hfmt h0 hn hl hfetch hh ho ha hrange hpos hgroups u hx
    have hall := lookupGroups_all (q := reqOf c pg) (h := h) (fmt := fmt) (o := o) (a := a) ids.length (reqOf_tx_zero pg htx) rfl groups
      outs pos st fun i g hi => by
        obtain ⟨hmedia, hnext, v, hread, hdeliver⟩ := hgroups i g hi
        exact ⟨hnext, hmedia, v, hread, hdeliver⟩
    rw [hpos] at hall
    refine answers_of_effect rfl had htx
      ((effLookup_groups (q := reqOf c pg) rfl hfmt h0 hn hl hfetch hh ho ha rfl hrange).trans hall) hx ?_
    rintro t hw rfl
    exact ⟨hw, rfl, rfl⟩


/-! ### The step barrier (11 R292, R296-R298) -/

/-- A table's header after a step was applied. -/
def withApplied (step : Nat) (o : Obj) : Obj :=
  match o.area with
  | .table a => { o with area := .table { a with applied := step } }
  | _ => o

theorem withApplied_table {o : Obj} {a : TableArea} (step : Nat) (ho : o.area = .table a) :
    withApplied step o = { o with area := .table { a with applied := step } } := by
  simp only [withApplied, ho]

/-- The additions of a table's next step. -/
def stepAdditions (s : State) (h : Nat) (a : TableArea) : List Addition := (s.tbl h).pend.filter fun x => x.step == a.applied + 1

/-- Apply a row's sum; a row that finds no slot stops the barrier. -/
def applyPending (h : Nat) (a : TableArea) (mine : List Addition) (acc : State × Option Nat) (r : Nat) : State × Option Nat :=
  if acc.2 != none then acc
  else
    let l := sortBy addBefore (mine.filter fun x => x.row == r)
    match applyRow acc.1 h r (rowDelta a.dim l) with
    | none => (acc.1, some r)
    | some u => (tblBump (u.modTbl h fun t => { t with
        pend := t.pend.filter fun x => !(x.step == a.applied + 1 && x.row == r) }) h 3 (repeats l), none)

/-- The rows of a table's next step applied in their order, as far as slots are found. -/
def rowsApplied (s : State) (h : Nat) (a : TableArea) : State × Option Nat :=
  (sortBy (fun a b => decide (a < b)) (nubList ((stepAdditions s h a).map (·.row)))).foldl (applyPending h a (stepAdditions s h a))
    (s, none)

/-- The header of a table changes once at a step, and is journaled. -/
def stepAdvanced (s : State) (h step : Nat) : State :=
  (journalObj (bumpVersion ((s.modTbl h fun t => { t with waited := false, stuck := none }).modObj h (withApplied step)) h) h).2

/-- Held additions that the window now admits join. -/
def heldAdmitted (s : State) (h step : Nat) : State :=
  let ready := (s.tbl h).held.filter fun x => decide (x.step ≤ step + od s 0x3D00 2)
  ready.foldl takeRowAdd (s.modTbl h fun t => { t with held := t.held.filter fun x => !ready.contains x })

/-- A barrier that found no slot for a row waits, counted once; one that has applied all its rows advances the step. -/
def barrierEnd (s : State) (h : Nat) (a : TableArea) (v : State) : Option Nat → State
  | some r => if (s.tbl h).stuck = some r then v else tblBump (v.modTbl h fun t => { t with stuck := some r }) h 0xA 1
  | none =>
    let u := stepAdvanced v h (a.applied + 1)
    heldAdmitted (if (a.applied + 1) % a.decay = 0 ∧ !a.fixed then decayHeat u h else u) h (a.applied + 1)

/-- The next step of a table can be applied as far as its contributors go: each has left it (R296). -/
structure StepClosed (s : State) (h : Nat) (o : Obj) (a : TableArea) : Prop where
  live : liveObj s h = some o
  area : tableArea s h = some a
  left : ∀ m ∈ contributors s o a, a.applied + 1 < kcount (s.tbl h).closed m

section
variable {s u : State} {h : Nat} {o : Obj} {a : TableArea} {x : Addition}

/-- A step that a contributor has not left yet stays open (R296). -/
theorem stepBarrier_open {m : Nat} (hlive : liveObj s h = some o) (ha : tableArea s h = some a) (hm : m ∈ contributors s o a)
    (hstep : kcount (s.tbl h).closed m ≤ a.applied + 1) : stepBarrier s h = s := by
  have hany : ((contributors s o a).any fun m => decide (kcount (s.tbl h).closed m ≤ a.applied + 1)) = true :=
    List.any_eq_true.2 ⟨m, hm, decide_eq_true hstep⟩
  simp only [stepBarrier, hlive, ha, hany, if_true]

theorem StepClosed.none_open (hc : StepClosed s h o a) :
    ((contributors s o a).any fun m => decide (kcount (s.tbl h).closed m ≤ a.applied + 1)) = false :=
  List.any_eq_false.2 fun m hm => by simpa using hc.left m hm

/-- Additions of an open transaction hold the step up; the wait is counted once (R297). -/
theorem stepBarrier_staged (hc : StepClosed s h o a) (hx : x ∈ (s.tbl h).pend) (hstep : x.step = a.applied + 1) (htx : x.tx ≠ 0)
    (hwaited : (s.tbl h).waited = true) : stepBarrier s h = s := by
  have hany : ((s.tbl h).pend.any fun x => x.step == a.applied + 1 && x.tx != 0) = true :=
    List.any_eq_true.2 ⟨x, hx, by simp [hstep, htx]⟩
  simp only [stepBarrier, hc.live, hc.area, hc.none_open, hany, hwaited, if_true, Bool.false_eq_true, if_false]

/-- A step that no open transaction holds up: its rows are applied, and the barrier ends as they let it. -/
theorem stepBarrier_unstaged (hc : StepClosed s h o a) (hplain : ∀ x ∈ (s.tbl h).pend, x.step = a.applied + 1 → x.tx = 0) :
    stepBarrier s h = barrierEnd s h a (rowsApplied s h a).1 (rowsApplied s h a).2 := by
  have hany : ((s.tbl h).pend.any fun x => x.step == a.applied + 1 && x.tx != 0) = false :=
    List.any_eq_false.2 fun x hx => by simpa using hplain x hx
  simp only [stepBarrier, hc.live, hc.area, hc.none_open, hany, Bool.false_eq_true, if_false]
  rfl

/-! A step without additions, and one with a single addition. -/

theorem rowsApplied_of_none (hnone : ∀ x ∈ (s.tbl h).pend, x.step ≠ a.applied + 1) : rowsApplied s h a = (s, none) := by
  have hmine : stepAdditions s h a = [] := List.filter_eq_nil_iff.2 fun x hx => by simpa using hnone x hx
  rw [rowsApplied, hmine]
  rfl

theorem rowsApplied_of_single (hpend : (s.tbl h).pend = [x]) (hstep : x.step = a.applied + 1) :
    rowsApplied s h a = applyPending h a [x] (s, none) x.row := by
  have hmine : stepAdditions s h a = [x] := by simp [stepAdditions, hpend, hstep]
  rw [rowsApplied, hmine]
  rfl

/-- The state after the sum of a single addition was applied: the additions of its row and step are gone. -/
def additionApplied (u : State) (h step row : Nat) : State :=
  tblBump (u.modTbl h fun t => { t with pend := t.pend.filter fun y => !(y.step == step && y.row == row) }) h 3 0

section
variable (u : State) (h step row : Nat)

@[simp] theorem additionApplied_objs : (additionApplied u h step row).objs = u.objs := tblBump_objs ..
@[simp] theorem additionApplied_dram : (additionApplied u h step row).dram = u.dram := tblBump_dram ..
@[simp] theorem additionApplied_parcels : (additionApplied u h step row).parcels = u.parcels := tblBump_parcels ..

@[simp] theorem additionApplied_tbl : (additionApplied u h step row).tbl h =
    { u.tbl h with pend := (u.tbl h).pend.filter fun y => !(y.step == step && y.row == row) } := by
  simp only [additionApplied, tblBump_tbl, State.tbl_modTbl]

end

theorem applyPending_single (hrow : applyRow s h x.row (rowDelta a.dim [x]) = some u) :
    applyPending h a [x] (s, none) x.row = (additionApplied u h (a.applied + 1) x.row, none) := by
  have hmine : sortBy addBefore ([x].filter fun y => y.row == x.row) = [x] := by simp [sortBy, insertBy]
  simp only [applyPending, hmine, hrow]
  rfl

theorem applyPending_stuck (hrow : applyRow s h x.row (rowDelta a.dim [x]) = none) :
    applyPending h a [x] (s, none) x.row = (s, some x.row) := by
  have hmine : sortBy addBefore ([x].filter fun y => y.row == x.row) = [x] := by simp [sortBy, insertBy]
  simp only [applyPending, hmine, hrow]
  rfl

/-! The end of a barrier. -/

@[simp] theorem stepAdvanced_tbl (s : State) (h step : Nat) :
    (stepAdvanced s h step).tbl h = { s.tbl h with waited := false, stuck := none } :=
  State.tbl_modTbl s h fun t => { t with waited := false, stuck := none }

theorem stepAdvanced_header (step : Nat) (ho : kget s.objs h = some o) (harea : o.area = .table a) :
    kget (stepAdvanced s h step).objs h = some { o with area := .table { a with applied := step }, version := o.version + 1 } := by
  simp [stepAdvanced, bumpVersion, kget_kmod_same _ (kget_kmod_same _ ho), withApplied_table step harea]

/-- Where none is held, none joins. -/
theorem heldAdmitted_of_none (step : Nat) (hheld : (s.tbl h).held = []) :
    heldAdmitted s h step = s.modTbl h fun t => { t with held := t.held.filter fun x => !([] : List RowAdd).contains x } := by
  simp only [heldAdmitted, hheld, List.filter_nil, List.foldl_nil]

/-- A FIXED table without held additions, its rows applied: the header says so, and nothing else moves. -/
theorem barrierEnd_applied (hfixed : a.fixed = true) (hheld : (u.tbl h).held = []) (ho : kget u.objs h = some o)
    (harea : o.area = .table a) : let t := barrierEnd s h a u none
    kget t.objs h = some { o with area := .table { a with applied := a.applied + 1 }, version := o.version + 1 } ∧
    (t.tbl h).pend = (u.tbl h).pend ∧ t.dram = u.dram ∧ t.parcels = u.parcels := by
  have hend : barrierEnd s h a u none = heldAdmitted (stepAdvanced u h (a.applied + 1)) h (a.applied + 1) := by
    simp [barrierEnd, hfixed]
  rw [hend, heldAdmitted_of_none _ (by simp [hheld])]
  exact ⟨stepAdvanced_header _ ho harea, by simp, rfl, rfl⟩

/-- A barrier whose row found no slot: the row is named, and nothing else moves. -/
theorem barrierEnd_stuck (s : State) (h : Nat) (a : TableArea) (r : Nat) : let t := barrierEnd s h a s (some r)
    t.objs = s.objs ∧ (t.tbl h).pend = (s.tbl h).pend ∧ (t.tbl h).stuck = some r ∧ t.dram = s.dram := by
  simp only [barrierEnd]
  split
  · next hs => exact ⟨rfl, rfl, hs, rfl⟩
  · simp

end

/-! ### Additions of other modules (11 R294-R296, 02 R64) -/

section
variable {s : State} {o : Obj} {a : TableArea} {x : RowAdd}

/-- An addition without the right is refused and counted. -/
theorem takeRowAdd_refused (hlive : liveObj s x.table = some o) (ha : tableArea s x.table = some a)
    (hright : o.exported = false ∨ maskBit o.writeMask x.polder = false ∨ o.readOnly = true ∨
      kget s.fabric.groups o.exportGroup = none) : takeRowAdd s x = peerFail s x.polder := by
  simp only [takeRowAdd, hlive, ha]
  rcases hright with h | h | h | h <;> simp [h]

/-- The source of an addition may add to the table: exported, to a group of which the source is a member, with the write right. -/
structure MayAdd (s : State) (o : Obj) (a : TableArea) (x : RowAdd) (g : Group) : Prop where
  live : liveObj s x.table = some o
  area : tableArea s x.table = some a
  exported : o.exported = true
  writes : maskBit o.writeMask x.polder = true
  writable : o.readOnly = false
  group : kget s.fabric.groups o.exportGroup = some g
  member : (g.members.any fun m => m.1 == x.src) = true

variable {g : Group}

theorem takeRowAdd_late (hr : MayAdd s o a x g) (hstep : x.step ≤ a.applied) : takeRowAdd s x = s := by
  have hwindow : stepWindow s a x.step = .late := if_pos hstep
  simp [takeRowAdd, hr.live, hr.area, hr.exported, hr.writes, hr.writable, hr.group, hr.member, hwindow, -List.any_eq_true]

theorem takeRowAdd_held (hr : MayAdd s o a x g) (hstep : a.applied + od s 0x3D00 2 < x.step) :
    takeRowAdd s x = tblBump ((noteStep s x.table x.src x.step).modTbl x.table fun t => { t with held := t.held ++ [x] }) x.table 0xB 1 := by
  have hwindow : stepWindow s a x.step = .waits := by simp [stepWindow, hstep]; omega
  simp [takeRowAdd, hr.live, hr.area, hr.exported, hr.writes, hr.writable, hr.group, hr.member, hwindow, -List.any_eq_true]

theorem stepWindow_ok {step : Nat} (hlow : a.applied < step) (hhigh : step ≤ a.applied + od s 0x3D00 2) :
    stepWindow s a step = .ok := by
  rw [stepWindow, if_neg (Nat.not_le.2 hlow), if_neg (Nat.not_lt.2 hhigh)]

theorem takeRowAdd_marker (hr : MayAdd s o a x g) (hstep : stepWindow s a x.step = .ok) (hrow : x.row = none) :
    takeRowAdd s x = noteStep s x.table x.src x.step := by
  simp [takeRowAdd, hr.live, hr.area, hr.exported, hr.writes, hr.writable, hr.group, hr.member, hstep, hrow, -List.any_eq_true]

theorem takeRowAdd_adds {r : Nat} {u : State} (hr : MayAdd s o a x g) (hstep : stepWindow s a x.step = .ok) (hrow : x.row = some r)
    (hlt : r < a.rows) (hlen : x.values.length = a.dim) (htx : x.tx = 0)
    (hadd : addRows s 0 x.table x.src x.step [(r, x.pos, x.values)] = (.ok, u)) :
    takeRowAdd s x = noteStep u x.table x.src x.step := by
  have hshape : ¬ (a.rows ≤ r ∨ x.values.length ≠ a.dim) := by omega
  simp [takeRowAdd, hr.live, hr.area, hr.exported, hr.writes, hr.writable, hr.group, hr.member, hstep, hrow, hshape, htx, hadd,
    -List.any_eq_true]

end

/-! ### Migrations and reclamation (11 R288, R289, R291) -/

section
variable {s u : State} {h r : Nat} {o : Obj} {a : TableArea} {m : RowMig}

/-- A migration's second event, its row named. -/
theorem rowMigration_swaps (hm : findFirst (fun x => x.row == r) (s.tbl h).migs = some m) :
    rowMigration s h r = swapMigration s h m := by
  simp only [rowMigration, hm]

/-- An entry that has changed since it was read: the migration is given up and its slot returned. -/
theorem swapMigration_stale (ho : kget s.objs h = some o) (ha : tableArea s h = some a) (he : rowEntry s o m.row ≠ m.entry) :
    swapMigration s h m = s.modTbl h fun t =>
      { returnSlot t a m.slot m.cls with migs := (returnSlot t a m.slot m.cls).migs.filter fun x => x.row != m.row } := by
  simp only [swapMigration, ho, ha, if_pos he, State.modTbl_modTbl]

/-- An entry that is still the one read is swapped, and the migration is counted by its direction. -/
theorem swapMigration_done (ho : kget s.objs h = some o) (ha : tableArea s h = some a) (he : rowEntry s o m.row = m.entry)
    (hswap : swapEntry s h o m.row m.cls m.slot = (true, u)) :
    swapMigration s h m = tblBump (u.modTbl h fun t => { t with migs := t.migs.filter fun x => x.row != m.row }) h
      (if m.cls < entryClass m.entry then 5 else 6) 1 := by
  simp only [swapMigration, ho, ha, he, hswap, ne_eq, not_true_eq_false, if_false]

/-- A row that neither migrates nor is queued stays as it is. -/
theorem rowMigration_idle (ho : kget s.objs h = some o) (ha : tableArea s h = some a)
    (hm : findFirst (fun x => x.row == r) (s.tbl h).migs = none) (hq : (s.tbl h).migQ.contains r = false) :
    rowMigration s h r = s := by
  simp only [rowMigration, hm, startMigration, ho, ha, hq, Bool.not_false, true_or, if_true]

variable {slot cls tag : Nat}

/-- A released slot is free again when no reader of its epoch is left. -/
theorem slotReclamation_frees (ha : tableArea s h = some a)
    (hrel : findFirst (fun r => r.1 == slot) (s.tbl h).released = some (slot, cls, tag))
    (hlater : ∀ r ∈ (s.tbl h).readers, readerLives s r = true → tag < r.2) :
    slotReclamation s h slot = tblBump (s.modTbl h fun t =>
      { returnSlot t a slot cls with released := t.released.erase (slot, cls, tag) }) h 8 1 := by
  have hnone : ((s.tbl h).readers.any fun r => readerLives s r && decide (r.2 ≤ tag)) = false :=
    List.any_eq_false.2 fun r hr => by simpa using hlater r hr
  simp only [slotReclamation, ha, hrel, hnone, Bool.false_eq_true, if_false]

/-- It stays released while a reader of its epoch, or of an earlier one, still reads. -/
theorem slotReclamation_waits (ha : tableArea s h = some a)
    (hrel : findFirst (fun r => r.1 == slot) (s.tbl h).released = some (slot, cls, tag))
    (hreads : ∃ r ∈ (s.tbl h).readers, readerLives s r = true ∧ r.2 ≤ tag) : slotReclamation s h slot = s := by
  have hany : ((s.tbl h).readers.any fun r => readerLives s r && decide (r.2 ≤ tag)) = true := by simpa using hreads
  simp only [slotReclamation, ha, hrel, hany, if_true]

end

/-- Settles O40: each event does what its rule above says; the barrier's end, once its rows are applied, is `barrierEnd`. -/
theorem tableEventsAct : Obligations.TableEventsAct := by
  intro s h o a hlive ha
  have ho := kget_of_liveObj hlive
  have harea := area_of_tableArea ho ha
  refine ⟨?isOpen, fun hleft => ?closed, ?refused, ?message, ?stale, ?swapped, ?idle, ?freed, ?kept⟩
  case isOpen => exact fun m hm hstep => becomes_of_eq rfl (stepBarrier_open hlive ha hm hstep)
  case closed =>
    have hc : StepClosed s h o a := ⟨hlive, ha, hleft⟩
    refine ⟨fun x hx hstep htx hwaited => becomes_of_eq rfl (stepBarrier_staged hc hx hstep htx hwaited),
      fun hnone hheld hfixed => ?empty, fun x u p hpend hstep htx hheld hfixed hrow hp harea' => ?applied,
      fun x hpend hstep htx hrow => ?stuck⟩
    case empty =>
      refine answers_of_exec (u := stepBarrier s h) rfl ?_
      rw [stepBarrier_unstaged hc fun x hx hstep => absurd hstep (hnone x hx), rowsApplied_of_none hnone]
      exact barrierEnd_applied hfixed hheld ho harea
    case applied =>
      refine answers_of_exec (u := stepBarrier s h) rfl ?_
      rw [stepBarrier_unstaged hc (by simpa [hpend] using fun _ => htx), rowsApplied_of_single hpend hstep, applyPending_single hrow]
      obtain ⟨hheader, hpending, hdram, hparcels⟩ := barrierEnd_applied (s := s) (h := h) (u := additionApplied u h (a.applied + 1) x.row)
        hfixed (by rwa [additionApplied_tbl]) (by rwa [additionApplied_objs]) (harea'.trans harea)
      exact ⟨hheader, hpending.trans (by rw [additionApplied_tbl]), hdram.trans (additionApplied_dram ..),
        hparcels.trans (additionApplied_parcels ..)⟩
    case stuck =>
      refine answers_of_exec (u := stepBarrier s h) rfl ?_
      rw [stepBarrier_unstaged hc (by simpa [hpend] using fun _ => htx), rowsApplied_of_single hpend hstep, applyPending_stuck hrow]
      obtain ⟨hobjs, hpending, hstuck, hdram⟩ := barrierEnd_stuck s h a x.row
      exact ⟨hobjs, hpending.trans hpend, hstuck, hdram⟩
  case refused =>
    rintro x rfl hright
    exact becomes_of_eq rfl (congrArg (tookMsg · x.src) (takeRowAdd_refused hlive ha hright))
  case message =>
    rintro x g rfl hexp hwrite hro hgroup hmember
    have hr : MayAdd s o a x g := ⟨hlive, ha, hexp, hwrite, hro, hgroup, hmember⟩
    refine ⟨fun hstep => ?late, fun hstep => ?held, fun hlow hhigh hrow => ?marker, fun r u hlow hhigh hrow hlt hlen htx hadd => ?adds⟩
    all_goals refine becomes_of_eq rfl (congrArg (tookMsg · x.src) ?_)
    case late => exact takeRowAdd_late hr hstep
    case held => exact takeRowAdd_held hr hstep
    case marker => exact takeRowAdd_marker hr (stepWindow_ok hlow hhigh) hrow
    case adds => exact takeRowAdd_adds hr (stepWindow_ok hlow hhigh) hrow hlt hlen htx hadd
  case stale =>
    intro r m hm he
    obtain rfl : m.row = r := by simpa using test_of_findFirst hm
    exact becomes_of_eq rfl ((rowMigration_swaps hm).trans (swapMigration_stale ho ha he))
  case swapped =>
    intro r m u hm he hswap
    obtain rfl : m.row = r := by simpa using test_of_findFirst hm
    exact becomes_of_eq rfl ((rowMigration_swaps hm).trans (swapMigration_done ho ha he hswap))
  case idle => exact fun r hm hq => becomes_of_eq rfl (rowMigration_idle ho ha hm hq)
  case freed => exact fun slot cls tag hrel hlater => becomes_of_eq rfl (slotReclamation_frees ha hrel hlater)
  case kept => exact fun slot cls tag hrel hreads => becomes_of_eq rfl (slotReclamation_waits ha hrel hreads)

end Sys2Proof.Machine

/-! ## Vector search (12): SEARCH, INSERT and DELETE, and the end of a pass -/

namespace Sys2Proof.Machine

/-! ### SEARCH (12 R312, R323) -/

/-- Whether a query joins a pass or opens one, the passes, the number of the next one and the index's snapshots are all that moves. -/
theorem joinPass_eq (s : State) (h epoch : Nat) (qs : List Query) (room : Nat) : ∃ passes next indexes,
    (joinPass s h epoch qs room).2 = { s with passes := passes, nextPass := next, indexes := indexes } := by
  simp only [joinPass]
  split
  case h_1 => exact ⟨_, s.nextPass, s.indexes, rfl⟩
  case h_2 => exact ⟨_, _, _, rfl⟩

section
variable {q : Req} {s s1 s2 : State} {a : IndexArea} {b : List Byte} {n : Nat}

/-- SEARCH of an index homed here that is not sharded, its operands, its result object and its query in order: the query joins a pass. -/
theorem effSearch_joins {id : Nat} (hk : 1 ≤ q.op 8 2) (hk' : q.op 8 2 ≤ 4096) (hcap : q.op 8 2 ≤ q.op 10 2) (hl : 1 ≤ q.op 12 2)
    (hl' : q.op 12 2 ≤ 4096) (hh : homeOf q.c.target.toNat = moduleId s) (ha : indexArea s q.c.target.toNat = some a)
    (hplain : a.sharded = false) (hnum : numberOf (q.op 0 8) ≠ 0) (htype : okType (typeOf (q.op 0 8)) = true)
    (hresult : resultStatus s q.p (q.op 0 8) (64 + 16 * q.op 8 2) = 0) (hlen : q.c.length.toNat = vectorBytes a + 64)
    (hfetch : q.fetch s = (.ok b, s1)) (hpred : predicateOk (predicateOf a b) = true)
    (hjoin : joinPass s1 q.c.target.toNat a.epoch [⟨.register q.reg, b, q.op 8 2, q.op 10 2, q.op 12 2, q.op 0 8, q.p⟩]
      (od s1 0x3E00 2) = (id, s2)) : effSearch q s = (s2, .pass id, 0) := by
  have hargs : ¬ (q.op 8 2 = 0 ∨ 4096 < q.op 8 2 ∨ q.op 10 2 < q.op 8 2 ∨ q.op 12 2 = 0 ∨ 4096 < q.op 12 2) := by omega
  simp only [effSearch, hargs, hnum, htype, isRemote_home hh, ha, hplain, hresult, hlen, hfetch, hpred, hjoin, Bool.false_eq_true,
    Bool.not_true, Bool.not_false, Nat.mul_zero, Nat.add_zero, ne_eq, not_true_eq_false, or_self, if_false, if_true]

/-! ### INSERT and DELETE (12 R306-R309) -/

/-- INSERT into an index homed here that is not sharded, outside a transaction, its records in order and within the capacity: the index
changes at its next epoch, and the command waits for the journal record. -/
theorem effInsert_changes (htx : q.tx = 0) (h1 : 1 ≤ q.op 0 4) (hcount : q.op 0 4 ≤ 65536)
    (hh : homeOf q.c.target.toNat = moduleId s) (ha : indexArea s q.c.target.toNat = some a) (hplain : a.sharded = false)
    (hlen : q.c.length.toNat = q.op 0 4 * (64 + vectorBytes a)) (hfetch : q.fetch s = (.ok b, s1))
    (hrecs : ((parseInserts a (q.op 0 4) b).any fun r => !okId r.1 ||
      !(decide (r.2.1 < a.partitions) || r.2.1 == 0xFFFFFFFF || a.sharded) || !r.2.2.2.2) = false)
    (hids : hasRepeat ((parseInserts a (q.op 0 4) b).map (·.1)) = false)
    (hroom : (s1.idx q.c.target.toNat).recs.length + q.op 0 4 ≤ a.capacity)
    (hchange : changeIndex s1 q.p 0 q.c.target.toNat ((parseInserts a (q.op 0 4) b).map fun r => insertOf r s1 q.c.target.toNat a)
      (64 + vectorBytes a) = (.journal n, s2)) : effInsert q s = (s2, .journal n 0 (q.op 0 4), 0) := by
  have hargs : ¬ (q.op 0 4 = 0 ∨ 65536 < q.op 0 4) := by omega
  have hfits : decide (a.capacity < (s1.idx q.c.target.toNat).recs.length + q.op 0 4) = false := by simpa using hroom
  rw [hplain] at hrecs
  simp only [effInsert, hargs, isRemote_home hh, ha, hlen, hfetch, hplain, hrecs, hids, hfits, htx, hchange, Bool.false_eq_true, ne_eq,
    not_true_eq_false, Bool.or_self, if_false]

/-- The ids that a DELETE names. -/
def deletedIds (q : Req) (b : List Byte) : List Nat := (List.range (q.op 0 4)).map fun i => fieldAt b (8 * i) 8

/-- DELETE from an index homed here that is not sharded, outside a transaction: the index changes at its next epoch, and the command,
waiting for the journal record, answers how many ids named a live record. -/
theorem effDelete_changes (htx : q.tx = 0) (h1 : 1 ≤ q.op 0 4) (hcount : q.op 0 4 ≤ 65536) (hlen : q.c.length.toNat = 8 * q.op 0 4)
    (hfetch : q.fetch s = (.ok b, s1)) (hh : homeOf q.c.target.toNat = moduleId s1)
    (ha : indexArea s1 q.c.target.toNat = some a) (hplain : a.sharded = false)
    (hok : ((deletedIds q b).any fun i => !okId i) = false) (hids : hasRepeat (deletedIds q b) = false)
    (hchange : changeIndex s1 q.p 0 q.c.target.toNat ((deletedIds q b).map .delete) 8 = (.journal n, s2)) :
    effDelete q s = (s2, .journal n 0 (liveCount s1 0 q.c.target.toNat (deletedIds q b)), 0) := by
  have hargs : ¬ (q.op 0 4 = 0 ∨ 65536 < q.op 0 4 ∨ q.c.length.toNat ≠ 8 * q.op 0 4) := by omega
  unfold deletedIds at hok hids hchange ⊢
  simp only [effDelete, hargs, hfetch, hok, hids, isRemote_home hh, ha, hplain, htx, hchange, Bool.false_eq_true, Bool.or_self, if_false]

end

/-- Settles O17: SEARCH leaves what `joinPass` leaves, and INSERT and DELETE what `changeIndex` leaves. -/
theorem indexCommandsAct : Obligations.IndexCommandsAct := by
  refine ⟨?search, ?changes⟩
  case search =>
    intro c pg a b id s s1 s2 had htx h k cap lists hk hk' hcap hl hl' hh ha hplain hnum htype hresult hlen hfetch hpred hjoin hx
    obtain ⟨passes, next, indexes, hs2⟩ := joinPass_eq s1 h a.epoch
      [⟨.register c.reg, b, k, cap, lists, bitsAt c.ops.toNat 0 64, pg.polder⟩] (od s1 0x3E00 2)
    rw [hjoin] at hs2
    subst hs2
    refine answers_of_effect rfl had htx (effSearch_joins (q := reqOf c pg) hk hk' hcap hl hl' (by simpa using hh) ha hplain hnum htype
      hresult hlen hfetch hpred hjoin) hx ?_
    rintro t hw rfl
    exact ⟨hw, rfl, rfl, rfl⟩
  case changes =>
    intro c pg a b n s s1 s2 htx h count h1 hcount hh hplain
    refine ⟨?insert, ?delete⟩
    case insert =>
      intro had ha hlen hfetch hrecs hids hroom hchange hx
      refine answers_of_effect rfl had htx (effInsert_changes (q := reqOf c pg) (reqOf_tx_zero pg htx) h1 hcount (by simpa using hh) ha
        hplain hlen hfetch hrecs hids hroom hchange) hx ?_
      rintro t hw rfl
      exact ⟨hw, rfl⟩
    case delete =>
      intro had ha hlen hfetch hhome ids hok hids hchange hx
      refine answers_of_effect rfl had htx (effDelete_changes (q := reqOf c pg) (reqOf_tx_zero pg htx) h1 hcount hlen hfetch
        (hh.trans hhome.symm) ha hplain hok hids hchange) hx ?_
      rintro t hw rfl
      exact ⟨hw, rfl⟩

/-! ### The end of a pass (12 R305, R323) -/

section
variable {s u : State} {id reg : Nat} {p : Pass} {q : Query} {x : Exec}

/-- The state in which the queries of a pass that closes are answered: the pass is gone, and counted. -/
def passClosed (s : State) (id : Nat) (p : Pass) : State :=
  bumpB { s with passes := kdel s.passes id } (indexOwner s p.index) 0x9F00 2 1

/-- A pass of one SEARCH query closes: the sketch of the query is computed, which counts where the management cores compute it (R305);
then the command is answered, and the pass no longer holds its epoch. -/
theorem closePass_search (hq : p.queries = [q]) (hreg : q.owner = .register reg)
    (hu : countSketches (passClosed s id p) (indexOwner (passClosed s id p) p.index) q.polder 1 = u)
    (hx : kget u.execs reg = some x) (hw : x.wait = .pass id) :
    closePass s id p = (answerSearch u reg p.index p.epoch q).modIdx p.index fun st =>
      { st with snapshots := dropFirst (fun e => e == p.epoch) st.snapshots } := by
  have hclosed : bumpB { s with passes := kdel s.passes id } (indexOwner { s with passes := kdel s.passes id } p.index) 0x9F00 2 1 =
    passClosed s id p := rfl
  simp only [closePass, hq, hclosed, hu, hreg, hx, hw, List.map_cons, List.map_nil, List.foldl_cons, List.foldl_nil,
    List.filterMap_cons, List.filterMap_nil, if_true]
  rfl

/-- The window of a pass ends. -/
theorem passWindow_due (hp : kget s.passes id = some p) (hdue : p.openedAt + od s 0x3E00 1 ≤ now s) :
    passWindow s id = closePass s id p := by
  simp only [passWindow, hp, hdue, true_or, if_true]

end

theorem exec_passBatchWindow (id : Nat) (s : State) : exec (.passBatchWindow id) s = done s (passWindow s id) := rfl

@[simp] theorem State.modIdx_od (s : State) (h : Nat) (f : IndexSt → IndexSt) : (s.modIdx h f).od = s.od := rfl

/-- A command leaves one state only: its dictionary is that of any state it is said to become. -/
theorem od_of_becomes {c : Instr} {s u v : State} (hu : Becomes c s u) (hv : exec c s = done s v) : v.od = u.od := by
  rw [Becomes, hv, done_next] at hu
  have hod := congrArg State.od (Host.Outcome.next.inj hu)
  exact hod

/-! ### A SEARCH of the admin page

An index without records, its centroids, projection and thresholds zero; the window of its only query has ended. No core is the admin
page's, so the management cores compute the query's sketch (12 R305, log entry 154). -/

/-- A TENSOR of `rows` by `cols` elements of a format to which nothing was stored: it reads zero. -/
def zeroTensor (base format rows cols stride : Nat) : Obj :=
  { base := base, length := rows * stride, created := 1, owner := 0xFF, policy := 1
    area := .tensor ⟨format, 4, 0, 0, [1, 1, rows, cols], stride, 0, 0⟩ }

def centroidsHandle : Nat := mkHandle State.reset 3 1
def projectionHandle : Nat := mkHandle State.reset 3 2
def thresholdsHandle : Nat := mkHandle State.reset 3 3
def emptyIndexHandle : Nat := mkHandle State.reset 5 4
def answerHandle : Nat := mkHandle State.reset 2 5

/-- 32 elements BF16, the squared distance, one partition, eight records at most. -/
def emptyIndexArea : IndexArea :=
  { dim := 32, format := 8, metric := 1, sharded := false, partitions := 1, shards := 0, capacity := 8, centroids := centroidsHandle
    projection := projectionHandle, thresholds := thresholdsHandle, epoch := 0, live := 0 }

/-- The SEARCH in register 0 for the nearest record. -/
def adminQuery : Query := ⟨.register 0, List.replicate 128 0, 1, 1, 1, answerHandle, 0xFF⟩

def adminPass : Pass := ⟨emptyIndexHandle, 0, 0, [adminQuery]⟩

def adminSearch : Exec :=
  { fn := 0, opcode := 0x0040, cmd := ⟨0, 0, 0, 0, BitVec.ofNat 64 emptyIndexHandle, 128, 0, 0, 0, 0, 0, 0xFF, 0⟩
    order := 0, polder := 0xFF, wait := .pass 1 }

def adminSearching : State := { State.reset with
  objs := [(answerHandle, { base := 0x100040000, length := 65536, created := 5, owner := 0xFF, policy := 1, area := .blob 0 }),
    (centroidsHandle, zeroTensor 0x100000000 8 1 32 64), (projectionHandle, zeroTensor 0x100010000 8 512 32 64),
    (thresholdsHandle, zeroTensor 0x100020000 10 1 512 2048),
    (emptyIndexHandle, { base := 0x100030000, length := 65536, created := 4, owner := 0xFF, policy := 1, area := .index emptyIndexArea })]
  numHigh := 5
  regs := [(0, { state := .executing })]
  execs := [(0, adminSearch)]
  indexes := [(emptyIndexHandle, { snapshots := [0] })]
  passes := [(1, adminPass)], nextPass := 2
  power := { State.reset.power with uptime := 20 } }

/-- The state in which its query is answered, the sketch counted. -/
def adminSketched : State :=
  countSketches (passClosed adminSearching 1 adminPass) (indexOwner (passClosed adminSearching 1 adminPass) adminPass.index) 0xFF 1

theorem adminPass_due : kget adminSearching.passes 1 = some adminPass ∧ adminPass.openedAt + od adminSearching 0x3E00 1 ≤ now adminSearching ∧
    kget (passClosed adminSearching 1 adminPass).execs 0 = some adminSearch ∧ kget adminSketched.execs 0 = some adminSearch := by
  decide +kernel

/-- The query is answered with a result; its sketch stands in OD 0x9F00:0C behind the answer, and would not without `countSketches`. -/
theorem adminQuery_counts :
    waitOf (answerSearch adminSketched 0 adminPass.index adminPass.epoch adminQuery) 0 = some (.ready 0 65536) ∧
    cnt (answerSearch adminSketched 0 adminPass.index adminPass.epoch adminQuery) 0x9F00 0xC = 1 ∧
    cnt (answerSearch (passClosed adminSearching 1 adminPass) 0 adminPass.index adminPass.epoch adminQuery) 0x9F00 0xC = 0 := by
  decide +kernel

/-- Refutes O41: a pass that closes does not go from its count (OD 0x9F00:02) straight to its query's answer. Where no cluster of the
query's polder is powered, as for a command of the admin page, the management cores compute the query's sketch, and it counts in OD
0x9F00:0C (12 R305). -/
theorem not_searchEventsAct : ¬ Obligations.SearchEventsAct := by
  intro h
  obtain ⟨-, hcloses, -⟩ := h adminSearching
  obtain ⟨hpass, hdue, hexec, hsketched⟩ := adminPass_due
  have hclaim := hcloses 1 adminPass adminQuery 0 adminSearch _ hpass hdue rfl rfl rfl hexec rfl
  have hend := (passWindow_due hpass hdue).trans (closePass_search rfl rfl rfl hsketched rfl)
  have hod := od_of_becomes hclaim ((exec_passBatchWindow ..).trans (congrArg (done _) hend))
  rw [State.modIdx_od, State.modIdx_od] at hod
  have hcount := cnt_congr (i := 0x9F00) (j := 0xC) hod
  obtain ⟨-, hone, hzero⟩ := adminQuery_counts
  exact absurd (hone.symm.trans (hcount.trans hzero)) (by decide)

end Sys2Proof.Machine

/-! ## The flash tier (13): the ends of page reads, programs and erases, and the upkeep of the media -/

namespace Sys2Proof.Machine

/-! ### Page reads (13 R338, R342, R343, R350, 01 R23) -/

section
variable {s : State} {ppa : Nat} {r : PageRead}

/-- Whether a page read of a die can end: the quadrants run, and the die is free or suspended (R350, 01 R23). -/
def readsEnd (s : State) (ppa : Nat) : Bool :=
  flashOn s && (match kget s.flash.dies (ppaDie ppa) with | some d => d.suspended | none => true)

theorem readsEnd_off (h : flashOn s = false) : readsEnd s ppa = false := by simp only [readsEnd, h, Bool.false_and]

theorem readsEnd_busy {d : DieOp} (hd : kget s.flash.dies (ppaDie ppa) = some d) (hrun : d.suspended = false) : readsEnd s ppa = false := by
  simp only [readsEnd, hd, hrun, Bool.and_false]

theorem readsEnd_free (hon : flashOn s = true) (hd : kget s.flash.dies (ppaDie ppa) = none) : readsEnd s ppa = true := by
  simp only [readsEnd, hon, hd, Bool.and_self]

/-- A queued read of a page, the oldest that is no prefetch. -/
def queuedRead (s : State) (ppa : Nat) : Option PageRead := findFirst (fun r => r.ppa == ppa && r.use != .prefetch) s.flash.reads

theorem queuedRead_none (h : ∀ r, r ∈ s.flash.reads → r.ppa ≠ ppa ∨ r.use = .prefetch) : queuedRead s ppa = none :=
  findFirst_eq_none fun r hr => by rcases h r hr with h | h <;> simp [h]

/-- A read leaves the queue: it counts, and its buffer returns unless it was read ahead (R342). -/
def readTaken (s : State) (ppa : Nat) (r : PageRead) (o : ReadOutcome) : State :=
  let v := countRead (noteReadCauses (s.modFlash fun f => { f with
    reads := f.reads.erase r, dies := kmod f.dies (ppaDie ppa) fun d => { d with reads := d.reads + 1 } }) r o) ppa
  if r.use = .ahead then v else bermDone v (ppaChannel ppa) (readUser r.cls r.use) r.cls

/-- What the steps of R343 that the read took leave of its page and its block (R367, R368). -/
def pageDecoded (v : State) (ppa : Nat) : ReadOutcome → State
  | .hard => setBad v ppa false
  | .reread => readSteps (setBad v ppa false) ppa false
  | .soft => readSteps (setBad v ppa false) ppa true
  | .failed =>
    let u := unrecovered (setBad (readSteps v ppa true) ppa true) ppa
    if Config.blockTest (ppaBlock ppa) then u else retireBlock u (ppaBlock ppa) 3

/-- A page read: the queued read, if there is one, ends where reads end. -/
theorem pageRead_eq (s : State) (ppa : Nat) (o : ReadOutcome) : pageRead s ppa o = (queuedRead s ppa).elim s fun r =>
    if !readsEnd s ppa then s else serveHeld (readServed (pageDecoded (readTaken s ppa r o) ppa o) r (o != .failed)) := by
  unfold pageRead queuedRead
  cases findFirst (fun r => r.ppa == ppa && r.use != .prefetch) s.flash.reads with
  | none => rfl
  | some r => cases o <;> rfl

theorem pageRead_idle (o : ReadOutcome) (h : queuedRead s ppa = none ∨ readsEnd s ppa = false) : pageRead s ppa o = s := by
  rw [pageRead_eq]
  rcases h with hnone | hbusy
  · rw [hnone, Option.elim_none]
  · cases queuedRead s ppa with
    | none => rfl
    | some r => rw [Option.elim_some, hbusy, Bool.not_false, if_pos rfl]

theorem pageRead_ends (o : ReadOutcome) (hfree : readsEnd s ppa = true) (hr : queuedRead s ppa = some r) :
    pageRead s ppa o = serveHeld (readServed (pageDecoded (readTaken s ppa r o) ppa o) r (o != .failed)) := by
  rw [pageRead_eq, hr, Option.elim_some, hfree, Bool.not_true, if_neg Bool.false_ne_true]

end

/-! ### Berm buffers (13 R338, R339) -/

section
variable {s : State} {channel : Nat}

theorem bermDraw_reserved (user cls : Nat) (h : kcount s.flash.reservedUsed channel < 6) : bermDraw s channel user cls =
    some (s.modFlash fun f => { f with reservedUsed := kset f.reservedUsed channel (kcount f.reservedUsed channel + 1) }) :=
  if_pos (by rw [decide_eq_true h, Bool.true_or])

theorem bermGrant_lone {w : BermWait} (hw : s.flash.bermWait = [w]) (hc : w.channel = channel)
    (h : kcount s.flash.reservedUsed channel < 6) : bermGrant s channel = startDies (s.modFlash fun f => { f with
      reservedUsed := kset f.reservedUsed channel (kcount f.reservedUsed channel + 1), bermWait := [] }) := by
  have hdraw := fun user cls => bermDraw_reserved user cls h
  simp only [bermGrant, hw, hc, hdraw, beq_self_eq_true, List.filter_cons, List.filter_nil, if_true, sortBy, List.foldl_cons,
    List.foldl_nil, insertBy, findFirst, Option.isSome_some, Option.getD_some, State.modFlash, List.erase_cons_head]

theorem bermGrant_none (h : ∀ w, w ∈ s.flash.bermWait → w.channel ≠ channel) : bermGrant s channel = s := by
  have hnone : (s.flash.bermWait.filter fun w => w.channel == channel) = [] :=
    List.filter_eq_nil_iff.2 fun w hw => by simpa using h w hw
  simp only [bermGrant, hnone, sortBy, List.foldl_nil, findFirst]

end

/-- Settles O39: a read that ends leaves its page and block as `pageDecoded` says, and a lone waiting request takes a reserved buffer. -/
theorem pageReadsEnd : Obligations.PageReadsEnd := by
  refine fun s => ⟨?unqueued, ?busy, ?off, ?ends, ?granted, ?none⟩
  case unqueued => exact fun ppa o h => becomes_of_eq rfl (pageRead_idle o (.inl (queuedRead_none h)))
  case busy => exact fun ppa o d hd hrun => becomes_of_eq rfl (pageRead_idle o (.inr (readsEnd_busy hd hrun)))
  case off => exact fun hoff ppa o => becomes_of_eq rfl (pageRead_idle o (.inr (readsEnd_off hoff)))
  case ends =>
    intro ppa r hon hd hr
    have leaves (o : ReadOutcome) : Leaves (.nandPageReadComplete ppa o) s
        (readServed (pageDecoded (readTaken s ppa r o) ppa o) r (o != .failed)) :=
      leaves_of_exec (congrArg (done s) (pageRead_ends o (readsEnd_free hon hd) hr))
    exact ⟨leaves .hard, leaves .reread, leaves .soft, leaves .failed⟩
  case granted => exact fun channel w hw hc h => becomes_of_eq rfl (bermGrant_lone hw hc h)
  case none => exact fun channel h => becomes_of_eq rfl (bermGrant_none h)

/-! ### Programs that start (13 R337, R342, R352) -/

/-- Only what the start of a program moves: dies, courses, and the buffers of the pages sent to a die. No course is filled further. -/
structure StartsOnly (s t : State) : Prop where
  frame : t = { s with flash := { s.flash with
    dies := t.flash.dies, courses := t.flash.courses, reservedUsed := t.flash.reservedUsed, shared := t.flash.shared
    bermWait := t.flash.bermWait } }
  filled : ∀ c, (kget t.flash.courses c).map (·.filled) = (kget s.flash.courses c).map (·.filled)

theorem StartsOnly.refl (s : State) : StartsOnly s s := ⟨rfl, fun _ => rfl⟩

theorem StartsOnly.trans {s t u : State} (h : StartsOnly s t) (g : StartsOnly t u) : StartsOnly s u where
  frame := by rw [g.frame, h.frame]
  filled c := (g.filled c).trans (h.filled c)

theorem bermReturn_startsOnly (s : State) (channel user : Nat) : StartsOnly s (bermReturn s channel user) := by
  unfold bermReturn
  split <;> exact ⟨rfl, fun _ => rfl⟩

theorem bermDone_startsOnly (s : State) (channel user cls : Nat) (course : Option Nat) :
    StartsOnly s (bermDone s channel user cls course) := by
  unfold bermDone
  dsimp only
  split
  · exact ⟨rfl, fun _ => rfl⟩
  · exact bermReturn_startsOnly s channel user

/-- Noting that a course's filled positions are sent changes no course's filling. -/
theorem sentCourse_startsOnly (s : State) (c : Nat) :
    StartsOnly s (s.modFlash fun f => { f with courses := kmod f.courses c fun k => { k with sent := k.filled } }) where
  frame := rfl
  filled d := by
    by_cases hd : d = c
    · subst hd
      simp only [State.modFlash_flash, kget_kmod, Option.map_map, Function.comp_def]
    · simp only [State.modFlash_flash, kget_kmod_other _ hd]

theorem courseSent_startsOnly (s : State) (c : Nat) : StartsOnly s (courseSent s c) := by
  unfold courseSent
  split
  · exact .refl s
  · next k _ =>
    refine StartsOnly.trans ?_ (sentCourse_startsOnly _ c)
    refine List.foldlRecOn _ _ (motive := StartsOnly s) (.refl s) fun u hu user _ => ?_
    cases user with
    | none => exact hu
    | some user => exact hu.trans (bermDone_startsOnly ..)

theorem dieStart_startsOnly (s : State) (die : Nat) (erase : Bool) (target : Nat) : StartsOnly s (dieStart s die erase target) := by
  unfold dieStart
  dsimp only
  split_ifs
  · exact .refl s
  · exact ⟨rfl, fun _ => rfl⟩
  · refine StartsOnly.trans ?_ (courseSent_startsOnly _ target)
    exact ⟨rfl, fun _ => rfl⟩

theorem courseGo_startsOnly (s : State) (c : Nat) : StartsOnly s (courseGo s c) := by
  unfold courseGo
  split
  · exact .refl s
  · dsimp only
    split
    · exact .refl s
    · split
      · exact courseSent_startsOnly s c
      · exact dieStart_startsOnly s (ppaDie (c * 4)) false c

/-! ### The end of a program (13 R345, R347, R359) -/

section
variable {s : State} {c : Nat} {k : Course}

/-- The pages listed are durable. -/
def closePages (m : KMap Page) (l : List Nat) : KMap Page := l.foldl (fun m x => kmod m x fun p => { p with closed := true }) m

theorem kget_closePages (m : KMap Page) (l : List Nat) (x : Nat) :
    kget (closePages m l) x = (kget m x).map fun p => if x ∈ l then { p with closed := true } else p := by
  induction l generalizing m with
  | nil => simp [closePages]
  | cons y r ih =>
    refine (ih _).trans ?_
    by_cases hxy : x = y
    · subst hxy
      simp only [kget_kmod, Option.map_map, List.mem_cons_self, if_true]
      exact congrArg (Option.map · _) (funext fun p => by simp only [Function.comp_apply]; split <;> rfl)
    · simp only [kget_kmod_other _ hxy, List.mem_cons, hxy, false_or]

/-- The positions of a course. -/
def coursePages (c : Nat) : List Nat := (List.range 4).map (c * 4 + ·)

theorem coursePages_eq (c : Nat) : coursePages c = [c * 4, c * 4 + 1, c * 4 + 2, c * 4 + 3] := rfl

/-- A course whose last position is programmed, its die free: it is closed, and its pages are durable (R345). -/
def courseClosed (s : State) (c : Nat) : State := s.modFlash fun f => { f with
  dies := kdel f.dies (ppaDie (c * 4)), courses := kdel f.courses c, pages := closePages f.pages (coursePages c)
  blocks := kmod f.blocks (c / 1024) fun b => { b with closedAt := s.seq } }

/-- The map record of a durable page that its unit refers to, and that no record has named yet, joins the journal's queue (R359). -/
def mapQueued (s : State) (x : Nat) : State :=
  match kget s.flash.pages x with
  | some p => if p.kind = .data ∧ kget s.flash.map p.lu = some x ∧ kget s.flash.durMap p.lu ≠ some x
      then (jadd s (.map p.lu x)).2 else s
  | none => s

theorem courseDone_last (hk : kget s.flash.courses c = some k) (hsent : k.sent = 4) (hruns : dieRuns s (ppaDie (c * 4)) false c = true) :
    courseDone s c = afterOutcome (startDies (landParcels ((coursePages c).foldl mapQueued (courseClosed s c)))) := by
  simp only [courseDone, hk, hruns, hsent, if_true]
  rfl

theorem courseDone_pass (hk : kget s.flash.courses c = some k) (hsent : k.sent ≠ 4) (hruns : dieRuns s (ppaDie (c * 4)) false c = true) :
    courseDone s c = startDies (dieFree s (ppaDie (c * 4))) := by
  simp only [courseDone, hk, hruns, hsent, if_true, if_false]

theorem courseDone_idle (h : dieRuns s (ppaDie (c * 4)) false c = false) : courseDone s c = s := by
  unfold courseDone
  split <;> simp [h]

/-- A page of the course as it was before the course closed. -/
theorem courseClosed_page {x : Nat} {p : Page} (h : kget (courseClosed s c).flash.pages x = some p) :
    ∃ q, kget s.flash.pages x = some q ∧ q.kind = p.kind := by
  have hp := (kget_closePages s.flash.pages (coursePages c) x).symm.trans h
  obtain ⟨q, hq, rfl⟩ := Option.map_eq_some_iff.1 hp
  refine ⟨q, hq, ?_⟩
  split <;> rfl

theorem mapQueued_not_data {x : Nat} (h : ∀ p, kget s.flash.pages x = some p → p.kind ≠ .data) : mapQueued s x = s := by
  unfold mapQueued
  split
  · next p hp => exact if_neg fun hdata => h p hp hdata.1
  · rfl

theorem mapQueued_data {x : Nat} {p : Page} (hp : kget s.flash.pages x = some p) (hkind : p.kind = .data)
    (hmap : kget s.flash.map p.lu = some x) (hdur : kget s.flash.durMap p.lu = none) : mapQueued s x = (jadd s (.map p.lu x)).2 := by
  unfold mapQueued
  simp only [hp, hkind, hmap, hdur, ne_eq, reduceCtorEq, not_false_eq_true, and_self, if_true]

theorem mapQueued_logOnly (s : State) (x : Nat) : LogOnly s (mapQueued s x) := by
  unfold mapQueued
  split
  · split
    · exact jadd_logOnly _ _
    · exact .refl s
  · exact .refl s

/-- Records stay in the queue while others join it. -/
theorem mapQueued_keeps {r : Nat × JRec} (x : Nat) (h : r ∈ s.flash.jpend) : r ∈ (mapQueued s x).flash.jpend := by
  unfold mapQueued
  split
  · split
    · exact List.mem_append_left _ h
    · exact h
  · exact h

theorem mapsQueued_frame (l : List Nat) (s : State) :
    LogOnly s (l.foldl mapQueued s) ∧ s.flash.jpend ⊆ (l.foldl mapQueued s).flash.jpend :=
  List.foldlRecOn l mapQueued (motive := fun u => LogOnly s u ∧ s.flash.jpend ⊆ u.flash.jpend) ⟨.refl s, fun _ h => h⟩
    fun u hu x _ => ⟨hu.1.trans (mapQueued_logOnly u x), fun _ h => mapQueued_keeps x (hu.2 h)⟩

/-- Pages of other kinds queue nothing. -/
theorem mapsQueued_not_data (l : List Nat) (h : ∀ x ∈ l, ∀ p, kget s.flash.pages x = some p → p.kind ≠ .data) :
    l.foldl mapQueued s = s :=
  List.foldlRecOn l mapQueued (motive := (· = s)) rfl fun u hu x hx => by
    subst hu
    exact mapQueued_not_data (h x hx)

/-- The course's first page, the current one of its unit, queues its map record. -/
theorem courseClosed_queues {p : Page} (hp : kget s.flash.pages (c * 4) = some p) (hkind : p.kind = .data)
    (hmap : kget s.flash.map p.lu = some (c * 4)) (hdur : kget s.flash.durMap p.lu = none) :
    let u := (coursePages c).foldl mapQueued (courseClosed s c)
    (∃ n, (n, JRec.map p.lu (c * 4)) ∈ u.flash.jpend) ∧ u.flash.courses = kdel s.flash.courses c := by
  have hmem : c * 4 ∈ coursePages c := by simp [coursePages_eq]
  have hclosed : kget (courseClosed s c).flash.pages (c * 4) = some { p with closed := true } :=
    (kget_closePages s.flash.pages (coursePages c) (c * 4)).trans (by rw [hp, Option.map_some, if_pos hmem])
  have hfirst : mapQueued (courseClosed s c) (c * 4) = (jadd (courseClosed s c) (.map p.lu (c * 4))).2 :=
    mapQueued_data (p := { p with closed := true }) hclosed hkind hmap hdur
  have hjoined : ((courseClosed s c).seq + 1, JRec.map p.lu (c * 4)) ∈ (mapQueued (courseClosed s c) (c * 4)).flash.jpend := by
    rw [hfirst]
    exact List.mem_append_right _ (List.mem_singleton_self _)
  have hfold : (coursePages c).foldl mapQueued (courseClosed s c) =
      [c * 4 + 1, c * 4 + 2, c * 4 + 3].foldl mapQueued (mapQueued (courseClosed s c) (c * 4)) := by rw [coursePages_eq, List.foldl_cons]
  obtain ⟨hlog, -⟩ := mapsQueued_frame (coursePages c) (courseClosed s c)
  have hcourses : ((coursePages c).foldl mapQueued (courseClosed s c)).flash.courses = (courseClosed s c).flash.courses := by rw [hlog]
  refine ⟨⟨(courseClosed s c).seq + 1, ?_⟩, hcourses⟩
  rw [hfold]
  exact (mapsQueued_frame _ _).2 hjoined

theorem programFails_idle (h : dieRuns s (ppaDie (c * 4)) false c = false) : programFails s c = s := by
  unfold programFails
  split <;> simp [h]

/-- The block of a failed program retires; outside the read-only state its pages are written again elsewhere, and none stays in the
course (R347). -/
theorem programFails_retires (hk : kget s.flash.courses c = some k) (hruns : dieRuns s (ppaDie (c * 4)) false c = true)
    (hwait : k.waitedSince = none) : ∃ u, programFails s c = afterOutcome (startDies (retireBlock u (c / 1024) 1)) ∧
      (s.flash.readOnly = false → ∀ x p, (x, p) ∈ u.flash.pages → x / 4 ≠ c) := by
  have hro : (courseSent (bump (dieFree s (ppaDie (c * 4))) 0x9050 9 1) c).flash.readOnly = s.flash.readOnly := by
    rw [(courseSent_startsOnly _ c).frame, bump_flash]; rfl
  simp only [programFails, hk, hruns, hwait, not_true_eq_false, if_false, Option.isSome_none, Bool.false_eq_true]
  refine ⟨_, rfl, fun hrw x p hx => ?_⟩
  simp only [State.modFlash_flash, hro, hrw, Bool.false_eq_true, if_false] at hx
  have hkept := (List.mem_filter.1 hx).2
  simpa using hkept

end

/-! ### The end of an erase (13 R365, R368) -/

section
variable {s : State} {b : Nat}

/-- An erase has ended: its die is free and the block's pages are gone. -/
def blockWiped (s : State) (b : Nat) : State :=
  s.modFlash fun f => { f with dies := kdel f.dies (b / 8192), pages := kfilter f.pages fun x _ => ppaBlock x != b }

/-- A block as an erase leaves it: free, erased once more. -/
def erasedBlock (s : State) (b : Nat) : Block := { eraseCount := (blockOf s b).eraseCount + 1 }

theorem eraseDone_ok (h : dieRuns s (b / 8192) true b = true) : eraseDone s b true =
    startDies (jadd ((blockWiped s b).modFlash fun f => { f with blocks := kset f.blocks b (erasedBlock s b) })
      (.block b (erasedBlock s b))).2 := by
  simp only [eraseDone, h, Bool.not_true, Bool.false_eq_true, if_false, if_true]
  rfl

theorem eraseDone_failed (h : dieRuns s (b / 8192) true b = true) : eraseDone s b false = retireBlock (blockWiped s b) b 2 := by
  simp only [eraseDone, h, Bool.not_true, Bool.false_eq_true, if_false]
  rfl

theorem eraseDone_idle (ok : Bool) (h : dieRuns s (b / 8192) true b = false) : eraseDone s b ok = s := by
  simp only [eraseDone, h, Bool.not_false, if_true]

end

/-! ### Suspend and resume (13 R350) -/

section
variable {s : State} {die : Nat} {d : DieOp}

/-- The die's operation is suspended, which counts. -/
def dieSuspended (s : State) (die : Nat) (d : DieOp) : State :=
  bump (s.modFlash fun f => { f with
    dies := kset f.dies die { d with suspended := true, suspends := d.suspends + 1, reads := 0, held := false } }) 0x9050 0xB 1

/-- An operation that has run long enough, and whose suspends its limit allows, is suspended on request. -/
theorem askSuspend_issues (hd : kget s.flash.dies die = some d) (hrun : d.suspended = false) (hreset : s.power.resetReq = none)
    (hlimit : d.suspends < (if d.erase then od s 0x2250 2 else od s 0x2250 3)) (htime : d.startedAt + od s 0x2250 1 ≤ s.power.uptime) :
    askSuspend s die = dieSuspended s die d := by
  have hallowed := decide_eq_false (Nat.not_le.2 hlimit)
  simp only [askSuspend, hd, hrun, hreset, hallowed, htime, Option.isSome_none, Bool.or_self, Bool.false_eq_true, if_false, if_true]
  rfl

/-- A held request no longer stands: the run time has passed. -/
def requestTaken (s : State) (die : Nat) (d : DieOp) : State :=
  s.modFlash fun f => { f with dies := kset f.dies die { d with held := false } }

theorem dieSuspended_requestTaken (s : State) (die : Nat) (d : DieOp) :
    dieSuspended (requestTaken s die d) die { d with held := false } = dieSuspended s die d := by
  simp only [dieSuspended, requestTaken, State.modFlash, kset_kset]

@[simp] theorem suspenders_requestTaken (s : State) (die : Nat) (d : DieOp) :
    suspenders (requestTaken s die d) die = suspenders s die := rfl

theorem suspendHeld_issues (hd : kget s.flash.dies die = some d) (hheld : d.held = true) (hrun : d.suspended = false)
    (htime : d.startedAt + od s 0x2250 1 ≤ s.power.uptime) (hreads : 0 < suspenders s die) (hreset : s.power.resetReq = none)
    (hlimit : d.suspends < (if d.erase then od s 0x2250 2 else od s 0x2250 3)) : suspendHeld s die = dieSuspended s die d := by
  have hdue : (!d.held || d.suspended || decide (s.power.uptime < d.startedAt + od s 0x2250 1)) = false := by simp [hheld, hrun, htime]
  have hask : suspendHeld s die = if suspenders (requestTaken s die d) die = 0 then requestTaken s die d
      else askSuspend (requestTaken s die d) die := by
    simp only [suspendHeld, hd, hdue, Bool.false_eq_true, if_false]
    rfl
  rw [hask, suspenders_requestTaken, if_neg (Nat.ne_of_gt hreads),
    askSuspend_issues (s := requestTaken s die d) (d := { d with held := false }) (kget_kset_same ..) hrun hreset hlimit htime,
    dieSuspended_requestTaken]

theorem suspendHeld_early (hd : kget s.flash.dies die = some d) (hearly : s.power.uptime < d.startedAt + od s 0x2250 1) :
    suspendHeld s die = s := by
  simp only [suspendHeld, hd, hearly, decide_true, Bool.or_true, if_true]

theorem dieResumes_unneeded (hd : kget s.flash.dies die = some d) (hsusp : d.suspended = true) (hnone : suspenders s die = 0) :
    dieResumes s die = s.modFlash fun f => { f with
      dies := kset f.dies die { d with suspended := false, startedAt := s.power.uptime, reads := 0 } } := by
  have hafter : suspenders (s.modFlash fun f => { f with
      dies := kset f.dies die { d with suspended := false, startedAt := s.power.uptime, reads := 0 } }) die = 0 := hnone
  simp only [dieResumes, hd, hsusp, hnone, hafter, Bool.not_true, lt_irrefl, decide_false, Bool.false_and, Bool.or_self,
    Bool.false_eq_true, if_false, if_true]

theorem dieResumes_reading (hd : kget s.flash.dies die = some d) (hsome : 0 < suspenders s die) (hreads : d.reads < 16) :
    dieResumes s die = s := by
  simp only [dieResumes, hd, hsome, hreads, decide_true, Bool.and_self, Bool.or_true, if_true]

end

/-- Settles O37: a course that closes queues the map records of its data pages, a failed program empties its course and retires the
block, and erases, suspends and resumes leave what their lemmas say. -/
theorem dieOperationsEnd : Obligations.DieOperationsEnd := by
  refine fun s => ⟨?closes, ?queues, ?pass, ?idle, ?fails, ?erased, ?eraseFails, ?eraseIdle, ?suspends, ?early, ?resumes, ?reading⟩
  case closes =>
    intro c k hk hsent hruns hplain
    refine becomes_of_eq rfl ((courseDone_last hk hsent hruns).trans ?_)
    rw [mapsQueued_not_data]
    · rfl
    · intro x hx p hp
      obtain ⟨i, hi, rfl⟩ := List.mem_map.1 hx
      obtain ⟨q, hq, hkind⟩ := courseClosed_page hp
      exact hkind ▸ hplain i (List.mem_range.1 hi) q hq
  case queues =>
    rintro c k p _ hk hsent hruns hp hkind rfl hmap hdur
    exact ⟨_, becomes_of_eq rfl (courseDone_last hk hsent hruns), courseClosed_queues hp hkind hmap hdur⟩
  case pass => exact fun c k hk hsent hruns => becomes_of_eq rfl (courseDone_pass hk hsent hruns)
  case idle => exact fun c h => ⟨becomes_of_eq rfl (courseDone_idle h), becomes_of_eq rfl (programFails_idle h)⟩
  case fails =>
    intro c k hk _ hruns hwait
    obtain ⟨u, hu, hempty⟩ := programFails_retires hk hruns hwait
    exact ⟨u, becomes_of_eq rfl hu, hempty⟩
  case erased => exact fun b h => becomes_of_eq rfl (eraseDone_ok h)
  case eraseFails => exact fun b h => becomes_of_eq rfl (eraseDone_failed h)
  case eraseIdle => exact fun b ok h => becomes_of_eq rfl (eraseDone_idle ok h)
  case suspends =>
    intro die d hd hheld hrun htime hreads hreset hlimit
    refine answers_of_exec (congrArg (done s) (suspendHeld_issues hd hheld hrun htime hreads hreset hlimit)) ⟨?_, cnt_bump .., rfl⟩
    exact kget_kset_same ..
  case early => exact fun die d hd _ hearly => becomes_of_eq rfl (suspendHeld_early hd hearly)
  case resumes => exact fun die d hd hsusp hnone => becomes_of_eq rfl (dieResumes_unneeded hd hsusp hnone)
  case reading => exact fun die d hd hsome hreads => becomes_of_eq rfl (dieResumes_reading hd hsome hreads)

/-! ### Courses padded (13 R349) -/

section
variable {s : State} {c : Nat} {k : Course}

/-- Padding in the next position of a course (R349). -/
def padPlaced (s : State) (c : Nat) (k : Course) : State :=
  bump ((nextSeq s).2.modFlash fun f => { f with
    pages := kset f.pages (c * 4 + k.filled)
      { lu := 0xFFFFFFFFFF, kind := .padding, seq := (nextSeq s).1, keyGen := keyGeneration (nextSeq s).2 }
    courses := kset f.courses c { k with filled := k.filled + 1, users := k.users ++ [none] } }) 0x9050 4 1

theorem padCourse_full (fuel : Nat) (hk : kget s.flash.courses c = some k) (h : 4 ≤ k.filled) : padCourse fuel s c = s := by
  cases fuel with
  | zero => rfl
  | succ fuel => simp only [padCourse, hk, h, if_true]

theorem padCourse_open (fuel : Nat) (hk : kget s.flash.courses c = some k) (h : k.filled < 4) :
    padCourse (fuel + 1) s c = padCourse fuel (courseGo (padPlaced s c k) c) c := by
  simp only [padCourse, hk, Nat.not_le.2 h, if_false]
  rfl

/-- So many positions of a course were padded, each of which counts (R349), and so many are filled now; objects and DRAM stay. -/
structure Padded (s t : State) (c padding filled : Nat) : Prop where
  filled : (kget t.flash.courses c).map (·.filled) = some filled
  counted : cnt t 0x9050 4 = cnt s 0x9050 4 + padding
  objs : t.objs = s.objs
  dram : t.dram = s.dram

theorem padPlaced_padded (s : State) (c : Nat) (k : Course) : Padded s (courseGo (padPlaced s c k) c) c 1 (k.filled + 1) := by
  obtain ⟨hframe, hfilled⟩ := courseGo_startsOnly (padPlaced s c k) c
  have hod : (courseGo (padPlaced s c k) c).od = (padPlaced s c k).od := by rw [hframe]
  constructor
  case filled => rw [hfilled, padPlaced, bump_flash, State.modFlash_flash, kget_kset_same, Option.map_some]
  case counted => exact (cnt_congr hod).trans (cnt_bump ..)
  case objs => rw [hframe]; exact bump_objs ..
  case dram => rw [hframe]; exact bump_dram ..

/-- A filled course needs no padding. -/
theorem padCourse_filled (fuel : Nat) (hk : kget s.flash.courses c = some k) (hfull : k.filled = 4) :
    Padded s (padCourse fuel s c) c (4 - k.filled) 4 := by
  rw [padCourse_full fuel hk hfull.ge, hfull]
  exact ⟨by rw [hk, Option.map_some, hfull], rfl, rfl, rfl⟩

/-- Enough padding fills the course. -/
theorem padCourse_fills (fuel : Nat) (hk : kget s.flash.courses c = some k) (hle : k.filled ≤ 4) (hfuel : 4 - k.filled ≤ fuel) :
    Padded s (padCourse fuel s c) c (4 - k.filled) 4 := by
  induction fuel generalizing s k with
  | zero => exact padCourse_filled 0 hk (by omega)
  | succ fuel ih =>
    rcases hle.lt_or_eq with hopen | hfull
    · obtain ⟨hfilled, hcnt, hobjs, hdram⟩ := padPlaced_padded s c k
      obtain ⟨k', hk', hnext⟩ := Option.map_eq_some_iff.1 hfilled
      obtain ⟨h4, hcnt', hobjs', hdram'⟩ := ih hk' (by omega) (by omega)
      rw [padCourse_open fuel hk hopen]
      exact ⟨h4, by omega, hobjs'.trans hobjs, hdram'.trans hdram⟩
    · exact padCourse_filled _ hk hfull

theorem closeTimer_due {since : Nat} (hk : kget s.flash.courses c = some k) (hw : k.waitedSince = some since)
    (hdue : since + od s 0x2231 0 ≤ s.power.uptime) : closeTimer s c = padCourse 4 s c := by
  simp only [closeTimer, hk, hw, hdue, if_true]

theorem closeTimer_early {since : Nat} (hk : kget s.flash.courses c = some k) (hw : k.waitedSince = some since)
    (hearly : s.power.uptime < since + od s 0x2231 0) : closeTimer s c = s := by
  simp only [closeTimer, hk, hw, Nat.not_le.2 hearly, if_false]

end

/-! ### The journal's interval (13 R359) -/

section
variable {s : State} {since : Nat}

/-- What a record makes durable is neither a counter nor the journal. -/
theorem journalApply_keeps (s : State) (n : Nat) (r : JRec) :
    (journalApply s n r).od = s.od ∧ (journalApply s n r).flash.journal = s.flash.journal := by
  cases r with
  | outcome id released =>
    cases released with
    | true => exact ⟨rfl, rfl⟩
    | false => unfold journalApply; dsimp only; split <;> exact ⟨rfl, rfl⟩
  | _ => exact ⟨rfl, rfl⟩

theorem recordsApplied_keeps (l : List (Nat × JRec)) (s : State) : let t := l.foldl (fun s e => journalApply s e.1 e.2) s
    t.od = s.od ∧ t.flash.journal = s.flash.journal :=
  List.foldlRecOn l _ (motive := fun u : State => u.od = s.od ∧ u.flash.journal = s.flash.journal) ⟨rfl, rfl⟩ fun u hu e _ => by
    obtain ⟨hod, hjournal⟩ := journalApply_keeps u e.1 e.2
    exact ⟨hod.trans hu.1, hjournal.trans hu.2⟩

/-- The queue's records applied in order. -/
def recordsApplied (s : State) : State := s.flash.jpend.foldl (fun s e => journalApply s e.1 e.2) s

/-- The highest sequence number of the queue. -/
def queueTop (s : State) : Nat := (s.flash.jpend.getLast?.map (·.1)).getD s.flash.jdone

theorem journalFlush_eq (h : s.flash.jpend ≠ []) : journalFlush s =
    bump ((nextSeq (recordsApplied s)).2.modFlash fun f => { f with
      jpend := [], jsince := none, journal := f.journal ++ s.flash.jpend ++ [((nextSeq (recordsApplied s)).1, .stream)]
      jdone := max f.jdone (queueTop s) }) 0x9050 5 1 := by
  unfold journalFlush queueTop
  split
  · next hnil => exact absurd hnil h
  · cases s.flash.jpend.getLast? <;> rfl

/-- Every queued record joins the journal in one page, which counts. -/
theorem journalFlush_programs (h : s.flash.jpend ≠ []) : (journalFlush s).flash.jsince = none ∧
    (∃ n, (journalFlush s).flash.journal = s.flash.journal ++ s.flash.jpend ++ [(n, .stream)]) ∧
    cnt (journalFlush s) 0x9050 5 = cnt s 0x9050 5 + 1 := by
  obtain ⟨hod, hjournal⟩ := recordsApplied_keeps s.flash.jpend s
  rw [journalFlush_eq h, bump_flash, State.modFlash_flash]
  exact ⟨rfl, ⟨_, congrArg (· ++ _ ++ _) hjournal⟩, (cnt_bump ..).trans (congrArg (· + 1) (cnt_congr hod))⟩

theorem journalInterval_due (hs : s.flash.jsince = some since) (hdue : since + od s 0x2210 0 ≤ s.power.uptime)
    (hprogram : canProgram s = true) : journalInterval s = startDies (serveHeld (afterJournal (journalFlush s))) := by
  simp only [journalInterval, hs, hdue, hprogram, and_self, if_true]

theorem journalInterval_early (hs : s.flash.jsince = some since) (hearly : s.power.uptime < since + od s 0x2210 0) :
    journalInterval s = s := by
  simp only [journalInterval, hs, Nat.not_le.2 hearly, false_and, if_false]

end

/-! ### Pages placed, and checkpoints (13 R345, R360) -/

/-- Only what placing a page moves: pages, blocks, courses, dies, buffers and who holds them for run-ahead, patrol's queue, the sequence
number, the count of hot pages, and counters. -/
def PlacesOnly (s t : State) : Prop :=
  t = { s with
    seq := t.seq, cores := t.cores, power := { s.power with hotPages := t.power.hotPages }
    flash := { s.flash with
      pages := t.flash.pages, blocks := t.flash.blocks, courses := t.flash.courses, dies := t.flash.dies, ahead := t.flash.ahead
      patrolQ := t.flash.patrolQ, reservedUsed := t.flash.reservedUsed, shared := t.flash.shared, bermWait := t.flash.bermWait }
    od := { s.od with cnt := t.od.cnt, pcnt := t.od.pcnt } }

theorem PlacesOnly.refl (s : State) : PlacesOnly s s := rfl

theorem PlacesOnly.trans {s t u : State} (h : PlacesOnly s t) (g : PlacesOnly t u) : PlacesOnly s u := by
  unfold PlacesOnly at *; rw [g, h]

theorem StartsOnly.places {s t : State} (h : StartsOnly s t) : PlacesOnly s t := by
  unfold PlacesOnly; rw [h.frame]

theorem CountsOnly.places {s t : State} (h : CountsOnly s t) : PlacesOnly s t := by
  unfold CountsOnly PlacesOnly at *; rw [h]

section
variable {s t : State} (h : PlacesOnly s t)
include h

theorem PlacesOnly.objs : t.objs = s.objs := by unfold PlacesOnly at h; rw [h]
theorem PlacesOnly.map : t.flash.map = s.flash.map := by unfold PlacesOnly at h; rw [h]
theorem PlacesOnly.od (i j : Nat) : od t i j = od s i j := by unfold PlacesOnly at h; rw [h]; rfl
theorem PlacesOnly.segmentCount : segmentCount t = segmentCount s := by unfold Machine.segmentCount; rw [h.od]

end

theorem openCourse_placesOnly (s : State) (stream : BlockState) (channel : Option Nat) : PlacesOnly s (openCourse s stream channel).2 := by
  simp only [openCourse]
  split
  · exact .refl s
  · split <;> rfl

theorem bermDraw_placesOnly {s t : State} {channel user cls : Nat} (h : bermDraw s channel user cls = some t) : PlacesOnly s t := by
  simp only [bermDraw] at h
  split_ifs at h
  · cases h; rfl
  · split at h
    · cases h
    · cases h; rfl

theorem takeRunAhead_placesOnly {s t : State} (h : takeRunAhead s = some t) : PlacesOnly s t := by
  simp only [takeRunAhead] at h
  split at h
  · split at h
    · next p _ =>
      cases h
      exact (bermReturn_startsOnly s (ppaChannel p.stamp) 6).places.trans rfl
    · cases h
  · split at h
    · next x _ _ =>
      cases h
      exact (bermReturn_startsOnly s (ppaChannel x) 6).places.trans rfl
    · cases h

theorem bermAsk_placesOnly (s : State) (channel user cls : Nat) (course : Option Nat) :
    PlacesOnly s (bermAsk s channel user cls course) := by
  unfold bermAsk
  dsimp only
  split
  · next t hdrawn =>
    split at hdrawn
    · next hdraw =>
      cases hdrawn
      exact bermDraw_placesOnly hdraw
    · split_ifs at hdrawn
      obtain ⟨u, hu, ht⟩ := Option.bind_eq_some_iff.1 hdrawn
      exact (takeRunAhead_placesOnly hu).trans (bermDraw_placesOnly ht)
  · refine PlacesOnly.trans ?_ (bump_countsOnly _ _ _ _).places
    rfl

theorem hotPage_placesOnly (s : State) : PlacesOnly s (hotPage s) := by
  unfold hotPage
  split <;> rfl

/-- A page in the next position of a course; the block of one programmed hot or cold is queued for an early patrol read (R345, R371). -/
def pagePut (s : State) (c : Nat) (k : Course) (page : Page) (user : Option Nat) : State :=
  let s := s.modFlash fun f => { f with
    pages := kset f.pages (c * 4 + k.filled) page
    courses := kset f.courses c { k with filled := k.filled + 1, users := k.users ++ [user] } }
  let b := ppaBlock (c * 4 + k.filled)
  if decide (70 < s.power.sensors.nand) || decide (s.power.sensors.nand < 0)
    then s.modFlash fun f => { f with patrolQ := if f.patrolQ.contains b then f.patrolQ else f.patrolQ ++ [b] } else s

theorem pagePut_placesOnly (s : State) (c : Nat) (k : Course) (page : Page) (user : Option Nat) :
    PlacesOnly s (pagePut s c k page user) := by
  unfold pagePut
  dsimp only
  split <;> rfl

/-- A page placed counts as its kind does, data apart by whether it is a copy. -/
def pageCounted (s : State) (kind : PageKind) (copy : Bool) : State :=
  match kind with
  | .padding => bump s 0x9050 4 1
  | .checkpoint | .journal | .levee | .metadata => s
  | .data => if copy then bump s 0x9050 3 1 else bump s 0x9050 2 1

theorem pageCounted_placesOnly (s : State) (kind : PageKind) (copy : Bool) : PlacesOnly s (pageCounted s kind copy) := by
  cases kind with
  | padding => exact (bump_countsOnly _ _ _ _).places
  | data =>
    unfold pageCounted
    dsimp only
    split <;> exact (bump_countsOnly _ _ _ _).places
  | checkpoint | journal | levee | metadata => exact .refl s

section
variable (s : State) (stream : BlockState) (lu : Nat) (kind : PageKind) (tx : Nat) (copy : Bool) (user : Nat) (data : Memory)

/-- Where a course is open, a page is put into it and counted, its buffer asked for, and the course programmed if it can be. -/
theorem placePage_opened {c : Nat} {u : State} (h : openCourse s stream (sketchChannel s lu) = (some c, u)) : ∃ k page held,
    let v := pageCounted (pagePut (nextSeq u).2 c k page held) kind copy
    (placePage s stream lu kind tx copy user data).2 =
      courseGo (hotPage (if kind = .padding then v else bermAsk v (ppaChannel (c * 4 + k.filled)) user 5 (some c))) c := by
  refine ⟨(kget u.flash.courses c).getD { stream := stream },
    { lu := lu, kind := kind, seq := (nextSeq u).1, tx := tx, copy := copy, keyGen := keyGeneration (nextSeq u).2, data := data },
    if kind = .padding then none else some user, ?_⟩
  simp only [placePage, h]
  cases kind <;> rfl

theorem placePage_placesOnly : PlacesOnly s (placePage s stream lu kind tx copy user data).2 := by
  have hopen := openCourse_placesOnly s stream (sketchChannel s lu)
  cases hc : openCourse s stream (sketchChannel s lu) with
  | mk found u =>
    rw [hc] at hopen
    cases found with
    | none =>
      simp only [placePage, hc]
      exact hopen
    | some c =>
      obtain ⟨k, page, held, hplace⟩ := placePage_opened s stream lu kind tx copy user data hc
      have hnumbered : PlacesOnly u (nextSeq u).2 := rfl
      have hput := ((hopen.trans hnumbered).trans (pagePut_placesOnly _ c k page held)).trans (pageCounted_placesOnly _ kind copy)
      rw [hplace]
      refine PlacesOnly.trans (PlacesOnly.trans ?_ (hotPage_placesOnly _)) (courseGo_startsOnly _ c).places
      split
      · exact hput
      · exact hput.trans (bermAsk_placesOnly _ _ _ _ _)

end

/-- One more page of a checkpoint, where a course is to be had. -/
def checkpointPage (acc : List Nat × State) : List Nat × State :=
  let placed := placePage acc.2 .openMeta 0xFFFFFFFFFF .checkpoint 0 false 0 []
  (acc.1 ++ placed.1.toList, placed.2)

/-- The pages of a checkpoint. -/
def checkpointPages (s : State) : List Nat × State := (List.range 20).foldl (fun acc _ => checkpointPage acc) ([], s)

theorem checkpointPages_placesOnly (s : State) : PlacesOnly s (checkpointPages s).2 :=
  List.foldlRecOn _ _ (motive := fun acc : List Nat × State => PlacesOnly s acc.2) (.refl s) fun acc h _ _ =>
    h.trans (placePage_placesOnly acc.2 .openMeta 0xFFFFFFFFFF .checkpoint 0 false 0 [])

/-- Once a segment's pages are placed its record joins the journal's queue, and the next segment is due (R360). -/
def checkpointed (g : Nat) (placed : List Nat × State) : State :=
  (jadd placed.2 (.checkpoint g placed.1)).2.modFlash fun f => { f with
    ckptNext := if segmentCount (jadd placed.2 (.checkpoint g placed.1)).2 ≤ g + 1 then 0 else g + 1 }

theorem segmentCount_jadd (s : State) (r : JRec) : segmentCount (jadd s r).2 = segmentCount s := rfl

section
variable {s : State}

theorem mapCheckpoint_off (h : flashOn s = false) : mapCheckpoint s = s := by
  simp only [mapCheckpoint, h, Bool.not_false, if_true]

theorem mapCheckpoint_on (h : flashOn s = true) : mapCheckpoint s = releaseJournal (checkpointed s.flash.ckptNext (checkpointPages s)) := by
  simp only [mapCheckpoint, h, Bool.not_true, Bool.false_eq_true, if_false]
  rfl

theorem releaseJournal_eq (s : State) : ∃ journal, releaseJournal s = s.modFlash fun f => { f with journal := journal } := by
  unfold releaseJournal
  dsimp only
  split
  · exact ⟨s.flash.journal, rfl⟩
  · split
    · exact ⟨s.flash.journal, rfl⟩
    · exact ⟨_, rfl⟩

@[simp] theorem releaseJournal_objs (s : State) : (releaseJournal s).objs = s.objs := by
  obtain ⟨journal, h⟩ := releaseJournal_eq s; rw [h, State.modFlash_objs]

@[simp] theorem releaseJournal_map (s : State) : (releaseJournal s).flash.map = s.flash.map := by
  obtain ⟨journal, h⟩ := releaseJournal_eq s; rw [h, State.modFlash_flash]

@[simp] theorem releaseJournal_jpend (s : State) : (releaseJournal s).flash.jpend = s.flash.jpend := by
  obtain ⟨journal, h⟩ := releaseJournal_eq s; rw [h, State.modFlash_flash]

@[simp] theorem releaseJournal_ckptNext (s : State) : (releaseJournal s).flash.ckptNext = s.flash.ckptNext := by
  obtain ⟨journal, h⟩ := releaseJournal_eq s; rw [h, State.modFlash_flash]

/-- What a checkpoint of the next segment does: its record is queued, and the segment after it is next; map and objects stay. -/
structure Checkpoints (s t : State) : Prop where
  record : ∃ n ppas, (n, JRec.checkpoint s.flash.ckptNext ppas) ∈ t.flash.jpend
  next : t.flash.ckptNext = if segmentCount s ≤ s.flash.ckptNext + 1 then 0 else s.flash.ckptNext + 1
  map : t.flash.map = s.flash.map
  objs : t.objs = s.objs

theorem checkpointed_checkpoints (placed : List Nat × State) (h : PlacesOnly s placed.2) :
    Checkpoints s (checkpointed s.flash.ckptNext placed) where
  record := ⟨_, _, List.mem_append_right _ (List.mem_singleton_self _)⟩
  next := by rw [← h.segmentCount, ← segmentCount_jadd]; rfl
  map := h.map
  objs := h.objs

theorem mapCheckpoint_checkpoints (h : flashOn s = true) : Checkpoints s (mapCheckpoint s) := by
  have hplaced := checkpointPages_placesOnly s
  rw [mapCheckpoint_on h]
  generalize checkpointPages s = placed at hplaced
  obtain ⟨hrecord, hnext, hmap, hobjs⟩ := checkpointed_checkpoints placed hplaced
  constructor
  case record => rwa [releaseJournal_jpend]
  case next => exact (releaseJournal_ckptNext _).trans hnext
  case map => exact (releaseJournal_map _).trans hmap
  case objs => exact (releaseJournal_objs _).trans hobjs

end

/-! ### Choosing a block (13 R364, R366) -/

/-- Where a test orders by a measure, its best element has the least of it. -/
theorem bestBy_least {α : Type} {lt : α → α → Bool} (f : α → Nat) (hlt : ∀ a b, lt a b = true → f a ≤ f b)
    (hge : ∀ a b, lt a b = false → f b ≤ f a) {l : List α} (hne : l ≠ []) :
    ∃ b, bestBy lt l = some b ∧ b ∈ l ∧ ∀ x, x ∈ l → f b ≤ f x := by
  induction l with
  | nil => exact absurd rfl hne
  | cons a r ih =>
    rcases eq_or_ne r [] with rfl | hr
    · exact ⟨a, rfl, List.mem_singleton_self a, fun x hx => by rw [List.mem_singleton.1 hx]⟩
    · obtain ⟨b, hb, hmem, hleast⟩ := ih hr
      rw [bestBy, hb]
      cases hcmp : lt b a with
      | true =>
        refine ⟨b, by simp only [hcmp, if_true], List.mem_cons_of_mem a hmem, fun x hx => ?_⟩
        rcases List.mem_cons.1 hx with rfl | hx
        · exact hlt b x hcmp
        · exact hleast x hx
      | false =>
        refine ⟨a, by simp only [hcmp, Bool.false_eq_true, if_false], List.mem_cons_self, fun x hx => ?_⟩
        rcases List.mem_cons.1 hx with rfl | hx
        · exact le_rfl
        · exact (hge b a hcmp).trans (hleast x hx)

theorem le_foldl_max {α : Type} [LinearOrder α] {a : α} (l : List α) (b : α) (h : a ≤ b ∨ a ∈ l) : a ≤ l.foldl max b := by
  induction l generalizing b with
  | nil => simpa using h
  | cons x r ih =>
    refine ih _ ?_
    rcases h with h | h
    · exact .inl (h.trans (le_max_left b x))
    · rcases List.mem_cons.1 h with rfl | h
      · exact .inl (le_max_right b a)
      · exact .inr h

theorem foldl_min_le {α : Type} [LinearOrder α] {a : α} (l : List α) (b : α) (h : a ∈ l) : l.foldl min b ≤ a :=
  le_foldl_max (α := αᵒᵈ) l b (.inr h)

/-! ### Garbage collection, wear levelling, refresh and patrol (13 R364-R367, R371) -/

section
variable {s : State} {plane b : Nat}

theorem gcStart_idle (h : s.flash.readOnly = true ∨ od s 0x2240 2 < (freeBlocks s plane).length) : gcStart s plane = s := by
  have hidle : (s.flash.readOnly || !canProgram s || decide (od s 0x2240 2 < (freeBlocks s plane).length)) = true := by
    rcases h with h | h <;> simp [h]
  simp only [gcStart, hidle, if_true]

theorem gcStart_clears (hro : s.flash.readOnly = false) (hprogram : canProgram s = true)
    (hfree : (freeBlocks s plane).length ≤ od s 0x2240 2) (hfull : fullBlocks s plane ≠ []) :
    ∃ b, b ∈ fullBlocks s plane ∧ (∀ x, x ∈ fullBlocks s plane → (validPages s b).length ≤ (validPages s x).length) ∧
      gcStart s plane = clearBlock s b true := by
  have hgo : (s.flash.readOnly || !canProgram s || decide (od s 0x2240 2 < (freeBlocks s plane).length)) = false := by
    simp [hro, hprogram, hfree]
  obtain ⟨b, hb, hmem, hleast⟩ := bestBy_least
    (lt := fun a b => decide ((validPages s a).length < (validPages s b).length) ||
      (decide ((validPages s a).length = (validPages s b).length) && decide ((blockOf s a).closedAt < (blockOf s b).closedAt)))
    (fun b => (validPages s b).length) (fun a b h => by simp at h; omega) (fun a b h => by simp at h; omega) hfull
  refine ⟨b, hmem, hleast, ?_⟩
  simp only [gcStart, hgo, hb, Bool.false_eq_true, if_false]

/-- How often each block of a plane in service was erased. -/
def eraseCounts (s : State) (plane : Nat) : List Nat := (planeBlocks s plane).map fun b => (blockOf s b).eraseCount

/-- The spread of a plane's erase counts. -/
def wearSpread (s : State) (plane : Nat) : Nat :=
  (eraseCounts s plane).foldl max 0 - (eraseCounts s plane).foldl min ((eraseCounts s plane).foldl max 0)

theorem wearSpread_le {x y : Nat} (hx : x ∈ planeBlocks s plane) (hy : y ∈ planeBlocks s plane) :
    (blockOf s x).eraseCount - (blockOf s y).eraseCount ≤ wearSpread s plane :=
  tsub_le_tsub (le_foldl_max _ _ (.inr (List.mem_map_of_mem hx))) (foldl_min_le _ _ (List.mem_map_of_mem hy))

theorem wearLevel_readOnly (h : s.flash.readOnly = true) : wearLevel s plane = s := by
  simp only [wearLevel, h, Bool.true_or, if_true]

theorem wearLevel_clears (hro : s.flash.readOnly = false) (hprogram : canProgram s = true) (hworn : od s 0x2200 7 < wearSpread s plane)
    (hfull : fullBlocks s plane ≠ []) :
    ∃ b, b ∈ fullBlocks s plane ∧ (∀ z, z ∈ fullBlocks s plane → (blockOf s b).closedAt ≤ (blockOf s z).closedAt) ∧
      wearLevel s plane = clearBlock s b false := by
  have hgo : (s.flash.readOnly || !canProgram s || decide (wearSpread s plane ≤ od s 0x2200 7)) = false := by
    simp [hro, hprogram, hworn]
  unfold wearSpread eraseCounts at hgo
  obtain ⟨b, hb, hmem, hleast⟩ := bestBy_least (lt := fun a b => decide ((blockOf s a).closedAt < (blockOf s b).closedAt))
    (fun b => (blockOf s b).closedAt) (fun a b h => (of_decide_eq_true h).le) (fun a b h => not_lt.1 (of_decide_eq_false h)) hfull
  refine ⟨b, hmem, hleast, ?_⟩
  simp only [wearLevel, hgo, hb, Bool.false_eq_true, if_false]

theorem blockRefresh_idle (h : s.flash.readOnly = true ∨ s.flash.refreshQ.contains b = false) : blockRefresh s b = s := by
  have hidle : (s.flash.readOnly || !canProgram s || !s.flash.refreshQ.contains b || !(fullBlocks s (b / 2048)).contains b) = true := by
    rcases h with h | h <;> simp only [h, Bool.not_false, Bool.or_true, Bool.true_or]
  simp only [blockRefresh, hidle, if_true]

theorem blockRefresh_clears (hro : s.flash.readOnly = false) (hprogram : canProgram s = true) (hqueued : s.flash.refreshQ.contains b = true)
    (hfull : (fullBlocks s (b / 2048)).contains b = true) : blockRefresh s b = clearBlock s b false := by
  simp only [blockRefresh, hro, hprogram, hqueued, hfull, Bool.not_true, Bool.or_self, Bool.false_eq_true, if_false]

theorem patrolRead_idle (slow : List Nat) (htime : 1000000 < s.power.uptime) (hq : s.flash.patrolQ = []) : patrolRead s slow = s := by
  simp only [patrolRead, hq, Nat.not_le.2 htime, decide_false, Bool.not_false, List.isEmpty_nil, Bool.and_self, if_true]

/-- The state in which a block that patrol found slow is queued for refresh: counted, and its retried codewords fed to c1. -/
def slowPageRead (s : State) : State := retriedPage (bump (bump s 0x9050 1 1) 0x9050 6 1)

theorem patrolRead_slow (htime : 1000000 < s.power.uptime) (hq : s.flash.patrolQ.contains b = true)
    (hpages : (s.flash.pages.any fun e => ppaBlock e.1 == b) = true) :
    patrolRead s [b] = (queueRefresh (slowPageRead s) b).modFlash fun f => { f with patrolQ := [] } := by
  have hsome : s.flash.patrolQ.isEmpty = false := by
    cases h : s.flash.patrolQ with
    | nil => rw [h] at hq; cases hq
    | cons => rfl
  have hfirst : decide (s.power.uptime ≤ 1000000) = false := decide_eq_false (Nat.not_le.2 htime)
  have hnub : nubList [b] = [b] := rfl
  simp only [patrolRead, hfirst, hsome, hnub, hq, hpages, Bool.not_false, Bool.true_and, Bool.false_or, Bool.and_self, Bool.false_eq_true,
    if_false, List.filter_cons, List.filter_nil, if_true, List.length_singleton, List.foldl_cons, List.foldl_nil]
  rfl

theorem queueRefresh_contains (s : State) (b : Nat) : (queueRefresh s b).flash.refreshQ.contains b = true := by
  simp only [queueRefresh, State.modFlash_flash]
  split
  · assumption
  · simp

theorem queueRefresh_pages (s : State) (b : Nat) : (queueRefresh s b).flash.pages = s.flash.pages := rfl

theorem queueRefresh_od (s : State) (b : Nat) : (queueRefresh s b).od = s.od := rfl

theorem retriedPage_flash (s : State) : (retriedPage s).flash = s.flash := rfl

theorem retriedPage_od (s : State) : (retriedPage s).od = s.od := rfl

theorem slowPageRead_flash (s : State) : (slowPageRead s).flash = s.flash := by
  rw [slowPageRead, retriedPage_flash, bump_flash, bump_flash]

theorem cnt_slowPageRead (s : State) : cnt (slowPageRead s) 0x9050 6 = cnt s 0x9050 6 + 1 := by
  rw [slowPageRead, cnt_congr (retriedPage_od _), cnt_bump, cnt_bump_other s 1 (by decide)]

/-- A block that patrol found slow is queued for refresh, and the pages it read are as they were. -/
theorem patrolRead_queues (htime : 1000000 < s.power.uptime) (hq : s.flash.patrolQ.contains b = true)
    (hpages : (s.flash.pages.any fun e => ppaBlock e.1 == b) = true) : (patrolRead s [b]).flash.refreshQ.contains b = true ∧
    (patrolRead s [b]).flash.patrolQ = [] ∧ cnt (patrolRead s [b]) 0x9050 6 = cnt s 0x9050 6 + 1 ∧
    (patrolRead s [b]).flash.pages = s.flash.pages := by
  have hod : (patrolRead s [b]).od = (slowPageRead s).od := by
    rw [patrolRead_slow htime hq hpages, State.modFlash_od, queueRefresh_od]
  have hread : (queueRefresh (slowPageRead s) b).flash.pages = s.flash.pages :=
    (queueRefresh_pages _ b).trans (congrArg Flash.pages (slowPageRead_flash s))
  rw [cnt_congr hod, cnt_slowPageRead, patrolRead_slow htime hq hpages, State.modFlash_flash]
  exact ⟨queueRefresh_contains _ b, rfl, rfl, hread⟩

end

/-- Settles O38: padding fills the course (`padCourse_fills`), the journal's page and the checkpoint's record are programmed and queued,
and each cleaner clears the block that is least in its measure (`bestBy_least`). -/
theorem flashUpkeepActs : Obligations.FlashUpkeepActs := by
  refine ⟨fun s => ⟨?pads, ?padsNot, ?journal, ?journalNot, ?checkpointNot, ?checkpoint⟩,
    fun s => ⟨?readOnly, ?gc, ?gcNot, ?wear, ?refresh, ?refreshNot, ?patrol, ?patrolNot⟩⟩
  case pads =>
    intro c k since hk hw hdue hle
    obtain ⟨hfilled, hcnt, hobjs, hdram⟩ := padCourse_fills 4 hk hle (by omega)
    exact answers_of_exec (congrArg (done s) (closeTimer_due hk hw hdue)) ⟨hfilled, hcnt, hobjs, hdram⟩
  case padsNot => exact fun c k since hk hw hearly => becomes_of_eq rfl (closeTimer_early hk hw hearly)
  case journal =>
    intro since hs hdue hprogram hne
    obtain ⟨hsince, hjournal, hcnt⟩ := journalFlush_programs hne
    exact ⟨_, becomes_of_eq rfl (journalInterval_due hs hdue hprogram), journalFlush_empties s, hsince, hjournal, hcnt⟩
  case journalNot => exact fun since hs hearly => becomes_of_eq rfl (journalInterval_early hs hearly)
  case checkpointNot => exact fun hoff => becomes_of_eq rfl (mapCheckpoint_off hoff)
  case checkpoint =>
    intro hon
    obtain ⟨hrecord, hnext, hmap, hobjs⟩ := mapCheckpoint_checkpoints hon
    exact answers_of_exec (u := mapCheckpoint s) rfl ⟨hrecord, hnext, hmap, hobjs⟩
  case readOnly =>
    exact fun hro => ⟨fun plane => ⟨becomes_of_eq rfl (gcStart_idle (.inl hro)), becomes_of_eq rfl (wearLevel_readOnly hro)⟩,
      fun b => becomes_of_eq rfl (blockRefresh_idle (.inl hro))⟩
  case gc =>
    intro plane hro hprogram hfree hfull
    obtain ⟨b, hmem, hleast, hclear⟩ := gcStart_clears hro hprogram hfree hfull
    exact ⟨b, hmem, hleast, becomes_of_eq rfl hclear⟩
  case gcNot => exact fun plane hmany => becomes_of_eq rfl (gcStart_idle (.inr hmany))
  case wear =>
    intro plane x y hro hprogram hx hy hworn hfull
    have hspread := wearSpread_le hx hy
    obtain ⟨b, hmem, hleast, hclear⟩ := wearLevel_clears hro hprogram (by omega) hfull
    exact ⟨b, hmem, hleast, becomes_of_eq rfl hclear⟩
  case refresh => exact fun b hro hprogram hqueued hfull => becomes_of_eq rfl (blockRefresh_clears hro hprogram hqueued hfull)
  case refreshNot => exact fun b hq => becomes_of_eq rfl (blockRefresh_idle (.inr hq))
  case patrol =>
    intro b htime hq hpages
    exact answers_of_exec (u := patrolRead s [b]) rfl (patrolRead_queues htime hq hpages)
  case patrolNot => exact fun slow htime hq => becomes_of_eq rfl (patrolRead_idle slow htime hq)

end Sys2Proof.Machine

/-! ## The DRAM tier (14): a line of which one symbol decayed, as the host reads it -/

namespace Sys2Proof.Machine

/-! ### The powers of α (14 R373): the nonzero symbols are the 255 powers of α, and a product with a power of α is so many doublings -/

theorem gfPow_eq_iterate (m : Nat) : gfPow m = gfDouble^[m] 1 := by
  induction m with
  | zero => rfl
  | succ m ih => rw [gfPow, ih, Function.iterate_succ_apply']

theorem gfDouble_xor (a b : Byte) : gfDouble (a ^^^ b) = gfDouble a ^^^ gfDouble b := by
  unfold gfDouble
  rw [BitVec.getLsbD_xor, BitVec.shiftLeft_xor_distrib]
  cases a.getLsbD 7 <;> cases b.getLsbD 7
  case false.false => rfl
  case false.true => exact BitVec.xor_assoc _ _ _
  case true.false => exact (by ac_rfl : (a <<< 1 ^^^ b <<< 1) ^^^ 0x1D#8 = (a <<< 1 ^^^ 0x1D#8) ^^^ b <<< 1)
  case true.true =>
    calc a <<< 1 ^^^ b <<< 1 = (a <<< 1 ^^^ b <<< 1) ^^^ (0x1D#8 ^^^ 0x1D#8) := by simp
      _ = (a <<< 1 ^^^ 0x1D#8) ^^^ (b <<< 1 ^^^ 0x1D#8) := by ac_rfl

theorem gfMul_gfDouble_left (a b : Byte) : gfMul (gfDouble a) b = gfDouble (gfMul a b) := by
  unfold gfMul
  refine List.foldl_hom (init := 0) gfDouble fun acc i => ?_
  split
  · rw [gfDouble_xor]
  · rfl

theorem gfMul_zero_left (b : Byte) : gfMul 0 b = 0 := List.foldl_fixed' (fun i => by split <;> rfl) _

theorem gfMul_one_left (b : Byte) : gfMul 1 b = b := by decide +revert +kernel

theorem gfMul_gfPow_left (m : Nat) (b : Byte) : gfMul (gfPow m) b = gfDouble^[m] b := by
  induction m with
  | zero => exact gfMul_one_left b
  | succ m ih => rw [gfPow, gfMul_gfDouble_left, ih, Function.iterate_succ_apply']

theorem gfPow_255 : gfPow 255 = 1 := by decide +kernel

theorem dvd_255 {d : Nat} (h : d ∣ 255) : d = 255 ∨ d ∣ 15 ∨ d ∣ 51 ∨ d ∣ 85 := by
  have hd : d < 256 := Nat.lt_succ_of_le (Nat.le_of_dvd (by decide) h)
  revert h; revert d; decide +kernel

/-- α is primitive: its powers return to 1 after 255 and not before. -/
theorem minimalPeriod_gfDouble_one : gfDouble.minimalPeriod 1 = 255 := by
  have hper (m : Nat) : gfDouble.minimalPeriod 1 ∣ m ↔ gfPow m = 1 := by
    rw [gfPow_eq_iterate]; exact Function.isPeriodicPt_iff_minimalPeriod_dvd.symm
  rcases dvd_255 ((hper 255).2 gfPow_255) with h | h | h | h
  · exact h
  · exact absurd ((hper 15).1 h) (by decide +kernel)
  · exact absurd ((hper 51).1 h) (by decide +kernel)
  · exact absurd ((hper 85).1 h) (by decide +kernel)

theorem minimalPeriod_gfPow (m : Nat) : gfDouble.minimalPeriod (gfPow m) = 255 := by
  have hone : 1 ∈ gfDouble.periodicPts :=
    Function.minimalPeriod_pos_iff_mem_periodicPts.1 (minimalPeriod_gfDouble_one ▸ by decide)
  rw [gfPow_eq_iterate, Function.minimalPeriod_apply_iterate hone, minimalPeriod_gfDouble_one]

theorem gfPow_ne_zero (m : Nat) : gfPow m ≠ 0 := by
  intro h
  have hfix : gfDouble.minimalPeriod 0 = 1 := Function.minimalPeriod_eq_one_iff_isFixedPt.2 (rfl : gfDouble 0 = 0)
  rw [← h, minimalPeriod_gfPow] at hfix
  exact absurd hfix (by decide)

theorem gfPow_injOn : Set.InjOn gfPow (Finset.range 255) := by
  intro p hp q hq h
  rw [gfPow_eq_iterate, gfPow_eq_iterate] at h
  refine Function.iterate_injOn_Iio_minimalPeriod (f := gfDouble) (x := 1) ?_ ?_ h
  · rw [minimalPeriod_gfDouble_one]; exact Finset.mem_range.1 hp
  · rw [minimalPeriod_gfDouble_one]; exact Finset.mem_range.1 hq

/-- The 255 powers are distinct, so they are all 255 nonzero symbols. -/
theorem exists_gfPow {a : Byte} (ha : a ≠ 0) : ∃ m, gfPow m = a := by
  have hsub : (Finset.range 255).image gfPow ⊆ Finset.univ.erase 0 := by
    intro b hb
    obtain ⟨m, -, rfl⟩ := Finset.mem_image.1 hb
    exact Finset.mem_erase.2 ⟨gfPow_ne_zero m, Finset.mem_univ _⟩
  have hcard : (Finset.univ.erase (0 : Byte)).card ≤ ((Finset.range 255).image gfPow).card := by
    rw [Finset.card_image_of_injOn gfPow_injOn, Finset.card_erase_of_mem (Finset.mem_univ _)]
    simp [← FinEnum.card_eq_fintypeCard]
  have hall := Finset.eq_of_subset_of_card_le hsub hcard
  obtain ⟨m, -, hm⟩ := Finset.mem_image.1 (hall ▸ Finset.mem_erase.2 ⟨ha, Finset.mem_univ a⟩)
  exact ⟨m, hm⟩

theorem gfMul_gfPow (a : Byte) (n : Nat) : gfMul a (gfPow n) = gfDouble^[n] a := by
  by_cases ha : a = 0
  · rw [ha, gfMul_zero_left, Function.iterate_fixed rfl]
  · obtain ⟨m, rfl⟩ := exists_gfPow ha
    calc gfMul (gfPow m) (gfPow n) = gfDouble^[m] (gfDouble^[n] 1) := by rw [gfMul_gfPow_left, gfPow_eq_iterate n]
      _ = gfDouble^[n] (gfDouble^[m] 1) := (Function.Commute.refl gfDouble).iterate_iterate m n 1
      _ = gfDouble^[n] (gfPow m) := by rw [gfPow_eq_iterate m]

/-- Doubled two numbers of times, each below 255, a nonzero symbol gives two symbols unless the numbers are one. -/
theorem iterate_gfDouble_eq_iff {a : Byte} {p k : Nat} (ha : a ≠ 0) (hp : p < 255) (hk : k < 255) :
    gfDouble^[p] a = gfDouble^[k] a ↔ p = k := by
  obtain ⟨m, rfl⟩ := exists_gfPow ha
  refine ⟨fun h => ?_, congrArg fun n => gfDouble^[n] (gfPow m)⟩
  refine Function.iterate_injOn_Iio_minimalPeriod (f := gfDouble) (x := gfPow m) ?_ ?_ h
  · rwa [Set.mem_Iio, minimalPeriod_gfPow]
  · rwa [Set.mem_Iio, minimalPeriod_gfPow]

/-! ### One damaged symbol decoded (14 R373) -/

theorem syndrome_symbol (i j : Nat) (v : Byte) : syndrome [(i, v)] j = gfDouble^[symbolPower i * j] v := by
  simp [syndrome, gfMul_gfPow]

theorem mem_gfPoints {p : Nat × Byte} : p ∈ gfPoints ↔ ∃ m < 68, p = (m, gfPow m) := by
  simp [gfPoints, eq_comm]

/-- A search for which one element alone qualifies finds it. -/
theorem findFirst_eq_some {α : Type} {f : α → Bool} {l : List α} {x : α} (hx : x ∈ l) (hf : ∀ y ∈ l, f y = true ↔ y = x) :
    findFirst f l = some x := by
  induction l with
  | nil => cases hx
  | cons a l ih =>
    obtain ⟨ha, hl⟩ := List.forall_mem_cons.1 hf
    unfold findFirst
    split
    · next h => rw [ha.1 h]
    · next h => exact ih ((List.mem_cons.1 hx).resolve_left fun hxa => h (ha.2 hxa.symm)) hl

/-- When the symbol at the power `k` is off by `v`, the one location at which each syndrome is the one before times `α` to its power is
`k` itself. -/
theorem findFirst_gfPoints {v : Byte} {k : Nat} (hv : v ≠ 0) (hk : k < 68) :
    findFirst (fun p => gfMul v p.2 == gfDouble^[k] v && gfMul (gfDouble^[k] v) p.2 == gfDouble^[k * 2] v &&
      gfMul (gfDouble^[k * 2] v) p.2 == gfDouble^[k * 3] v && v != 0) gfPoints = some (k, gfPow k) := by
  refine findFirst_eq_some (mem_gfPoints.2 ⟨k, hk, rfl⟩) fun y hy => ?_
  obtain ⟨p, hp, rfl⟩ := mem_gfPoints.1 hy
  simp only [gfMul_gfPow, Bool.and_eq_true, beq_iff_eq, bne_iff_ne, Prod.mk.injEq]
  constructor
  · rintro ⟨⟨⟨h, -⟩, -⟩, -⟩
    have hpk := (iterate_gfDouble_eq_iff hv (by omega) (by omega)).1 h
    exact ⟨hpk, congrArg gfPow hpk⟩
  · rintro ⟨rfl, -⟩
    refine ⟨⟨⟨rfl, ?_⟩, ?_⟩, hv⟩
    · rw [← Function.iterate_add_apply, Nat.mul_two]
    · rw [← Function.iterate_add_apply, Nat.mul_succ p 2, Nat.add_comm]

/-- The decoder finds which symbol is off, and by how much. -/
theorem rsDecode_symbol {i : Nat} {v : Byte} (hv : v ≠ 0) : rsDecode [(i, v)] = .corrects [(symbolPower i, v)] := by
  have hk : symbolPower i < 68 := by unfold symbolPower; omega
  simp only [rsDecode, syndrome_symbol, Nat.mul_zero, Nat.mul_one, Function.iterate_zero, id_eq, hv, false_and, if_false,
    findFirst_gfPoints hv hk]

theorem symbolPower_inj {i j : Nat} (hi : i < 68) (hj : j < 68) : symbolPower i = symbolPower j ↔ i = j := by
  unfold symbolPower; omega

/-- Its correction leaves nothing wrong, in the data bytes or elsewhere. -/
theorem residue_symbol {i : Nat} {v : Byte} (hi : i < 68) : residue [(i, v)] [(symbolPower i, v)] = [] := by
  rw [residue, List.filter_eq_nil_iff]
  intro p hp
  obtain ⟨j, hj, rfl⟩ := List.mem_map.1 hp
  have hj := List.mem_range.1 hj
  by_cases h : i = j <;> simp [symbolPower_inj hi (by omega : j < 68), h]

/-! ### What a host read moves before it reaches the line (02 R48, R50, 16 R429, 20 R510) -/

/-- Only what reaching a line of the window moves: the host side, the heat of parcels, walks, page reads ahead, and counters other than
those of memory protection. -/
structure ReachOnly (s t : State) : Prop where
  frame : t = { s with
    host := t.host, parcels := t.parcels, walks := t.walks, flash := t.flash, od := { s.od with cnt := t.od.cnt } }
  protectionCounts : ∀ sub < 256, cnt t 0x9060 sub = cnt s 0x9060 sub
  states : ∀ k, parcelState t k = parcelState s k

theorem ReachOnly.refl (s : State) : ReachOnly s s := ⟨rfl, fun _ _ => rfl, fun _ => rfl⟩

theorem ReachOnly.trans {s t u : State} (h : ReachOnly s t) (g : ReachOnly t u) : ReachOnly s u where
  frame := by rw [g.frame, h.frame]
  protectionCounts sub hsub := (g.protectionCounts sub hsub).trans (h.protectionCounts sub hsub)
  states k := (g.states k).trans (h.states k)

theorem reachOnly_foldl {α : Type} {f : State → α → State} (h : ∀ s a, ReachOnly s (f s a)) (l : List α) (s : State) :
    ReachOnly s (l.foldl f s) := by
  induction l generalizing s with
  | nil => exact .refl s
  | cons a l ih => exact (h s a).trans (ih _)

section
variable {s t : State} (h : ReachOnly s t)
include h

theorem ReachOnly.dram : t.dram = s.dram := by rw [h.frame]
theorem ReachOnly.objs : t.objs = s.objs := by rw [h.frame]
theorem ReachOnly.allTxs : allTxs t = allTxs s := by rw [h.frame]; rfl
theorem ReachOnly.lineBytes (n : Nat) : lineBytes t n = lineBytes s n := by unfold Machine.lineBytes; rw [h.dram]

end

theorem modHost_reachOnly (s : State) (f : HostIf → HostIf) : ReachOnly s (s.modHost f) := ⟨rfl, fun _ _ => rfl, fun _ => rfl⟩

theorem modFlash_reachOnly (s : State) (f : Flash → Flash) : ReachOnly s (s.modFlash f) :=
  ⟨rfl, fun _ _ => rfl, fun _ => rfl⟩

theorem bump_reachOnly (s : State) {i : Nat} (j n : Nat) (hkey : ∀ sub < 256, odKey 0x9060 sub ≠ odKey i j) :
    ReachOnly s (bump s i j n) where
  frame := by unfold bump; split <;> rfl
  protectionCounts sub hsub := cnt_bump_other s n (hkey sub hsub)
  states k := by simp [parcelState]

theorem wake_reachOnly (s : State) : ReachOnly s (wake s) := by
  unfold wake
  split
  · exact modHost_reachOnly s _
  · exact .refl s

theorem backInvalidate_reachOnly (s : State) (lo hi : Nat) : ReachOnly s (backInvalidate s lo hi) :=
  (modHost_reachOnly s _).trans (bump_reachOnly (i := 0x9300) _ _ _ fun sub hsub => by unfold odKey; omega)

theorem snoopNote_reachOnly (s : State) (n : Nat) : ReachOnly s (snoopNote s n) := by
  unfold snoopNote
  split
  · exact .refl s
  · refine ReachOnly.trans ?_ (modHost_reachOnly _ _)
    split
    · exact .refl s
    · split
      · exact backInvalidate_reachOnly s _ _
      · exact .refl s

/-- A parcel that takes the place of another in the same state leaves the states of parcels as they were. -/
theorem kset_parcel_reachOnly {s : State} {k : Nat} {p : Parcel} (hp : p.state = parcelState s k) :
    ReachOnly s { s with parcels := kset s.parcels k p } where
  frame := rfl
  protectionCounts _ _ := rfl
  states j := by
    by_cases hj : j = k
    · subst hj; rw [← hp]; simp [parcelState]
    · simp [parcelState, kget_kset_other _ _ hj]

theorem state_getD_parcel (s : State) (k h : Nat) : ((kget s.parcels k).getD { obj := h }).state = parcelState s k := by
  unfold parcelState
  cases kget s.parcels k <;> rfl

theorem countHeat_reachOnly (s : State) (h a n who : Nat) : ReachOnly s (countHeat s h a n who) := by
  unfold countHeat
  split
  · exact .refl s
  · split
    · exact .refl s
    · refine reachOnly_foldl (fun u k => ?_) _ s
      dsimp only
      split
      · exact .refl u
      · split
        · exact .refl u
        · exact kset_parcel_reachOnly (state_getD_parcel u k h)

theorem bermDraw_reachOnly {s t : State} {channel user cls : Nat} (h : bermDraw s channel user cls = some t) : ReachOnly s t := by
  simp only [bermDraw] at h
  split_ifs at h
  · cases h; exact modFlash_reachOnly s _
  · split at h
    · cases h
    · cases h; exact modFlash_reachOnly s _

theorem aheadPage_reachOnly (s : State) (polder ppa : Nat) : ReachOnly s (aheadPage s polder ppa) := by
  unfold aheadPage
  split
  · exact .refl s
  · split
    · exact .refl s
    · next hdraw => exact (bermDraw_reachOnly hdraw).trans (modFlash_reachOnly _ _)

theorem readAhead_reachOnly (s : State) (o : Obj) (k : Nat) : ReachOnly s (readAhead s o k) := by
  unfold readAhead
  split
  · exact .refl s
  · refine reachOnly_foldl (fun u j => ?_) _ s
    split
    · exact .refl u
    · exact reachOnly_foldl (fun v x => aheadPage_reachOnly v _ x) _ u

theorem noteWalk_reachOnly (s : State) (h a n who : Nat) : ReachOnly s (noteWalk s h a n who) := by
  unfold noteWalk
  split
  · exact .refl s
  · next o _ =>
    dsimp only
    have hwalks (w : List (Nat × Nat × Nat)) : ReachOnly s { s with walks := w } := ⟨rfl, fun _ _ => rfl, fun _ => rfl⟩
    split_ifs
    · exact .refl s
    · exact readAhead_reachOnly s o _
    · exact .refl s
    · exact (hwalks _).trans (readAhead_reachOnly _ o _)
    · exact hwalks _

theorem touchHeat_reachOnly (s : State) (h a n who : Nat) : ReachOnly s (touchHeat s h a n who) :=
  (countHeat_reachOnly s h a n who).trans (noteWalk_reachOnly _ h a n who)

/-! ### A corrected line (14 R373, R378) -/

/-- A correction moves a counter, the risk's record of corrections, the line's own, its damage, and frames due for retirement. -/
theorem corrected_frame (s : State) (n symbols : Nat) : corrected s n symbols =
    { bump s 0x9060 (if symbols = 1 then 1 else 2) 1 with
      risk := (corrected s n symbols).risk
      dram := { s.dram with
        damage := kdel s.dram.damage n, corrections := (corrected s n symbols).dram.corrections
        retireQ := (corrected s n symbols).dram.retireQ } } := by
  unfold corrected
  generalize (if symbols = 1 then 1 else 2) = sub
  dsimp only
  split <;> rfl

theorem corrected_dram (s : State) (n symbols : Nat) : (corrected s n symbols).dram.mem = s.dram.mem ∧
    (corrected s n symbols).dram.damage = kdel s.dram.damage n ∧ (corrected s n symbols).dram.poison = s.dram.poison := by
  rw [corrected_frame]; exact ⟨rfl, rfl, rfl⟩

theorem corrected_cnt (s : State) (n symbols i j : Nat) :
    cnt (corrected s n symbols) i j = cnt (bump s 0x9060 (if symbols = 1 then 1 else 2) 1) i j := by rw [corrected_frame]; rfl

theorem corrected_objs (s : State) (n symbols : Nat) : (corrected s n symbols).objs = s.objs := by
  rw [corrected_frame]; exact bump_objs ..

theorem corrected_lineBytes (s : State) (n symbols m : Nat) : lineBytes (corrected s n symbols) m = lineBytes s m := by
  rw [corrected_frame]; rfl

theorem corrected_allTxs (s : State) (n symbols : Nat) : allTxs (corrected s n symbols) = allTxs s := by
  have hid : moduleId (corrected s n symbols) = moduleId s := by rw [corrected_frame]; rfl
  simp only [allTxs, txIdOf, hid]
  rw [corrected_frame]
  simp only [bump_txs, bump_branches]

/-- A line of which one symbol is off reads as its stored bytes, and is corrected. -/
theorem readLine_symbol {s : State} {n i : Nat} {v : Byte} (hpoison : s.dram.poison.contains n = false)
    (hdamage : kget s.dram.damage n = some [(i, v)]) (hi : i < 68) (hv : v ≠ 0) :
    readLine s n = (some (lineBytes s n), corrected s n 1) := by
  unfold readLine
  simp only [hpoison, hdamage, rsDecode_symbol hv, residue_symbol hi, Bool.false_eq_true, if_false]
  exact congrArg (fun b => (some b, corrected s n 1)) (corrected_lineBytes s n 1 n)

/-! ### A host read of part of a line (16 R430) -/

/-- A range within one line is one piece of it. -/
theorem linesOf_within {off n : Nat} (h0 : 0 < n) (h : off % 64 + n ≤ 64) : linesOf off n = [(off / 64, off % 64, n)] := by
  have hn : min n (64 - off % 64) = n := by omega
  have hnil (fuel a : Nat) : linePieces fuel a 0 = [] := by cases fuel <;> rfl
  rw [linesOf, linePieces, if_neg (Nat.ne_of_gt h0), hn]
  simp only [Nat.sub_self, hnil]

theorem boundAt_wake (s : State) (off : Nat) : boundAt (wake s) off = boundAt s off := by
  unfold wake; split <;> rfl

/-- Bytes that lie within an object's length are not cut. -/
theorem map_within_length {b : List Byte} {x len : Nat} (h : x + b.length ≤ len) :
    ((List.range b.length).map fun i => if x + i < len then (b[i]?).getD 0 else 0) = b := by
  refine List.ext_getElem (by simp) fun i _ hi => ?_
  have hlen : x + i < len := by omega
  simp [hlen, hi]

section
variable {s : State} {off n h x i k l : Nat} {o : Obj} {v : Byte}

/-- The host's read of part of a line of which one symbol is off: its stored bytes, and the line is corrected. -/
theorem memLine_symbol (hbound : boundAt s off = some (h, o, x)) (hbase : o.base % 64 = 0) (hlen : x + n ≤ o.length) (hi : i < 68)
    (hv : v ≠ 0) (hk : (o.base + x) / 65536 = k) (hl : (o.base + x) / 64 = l) (hstate : (parcelState s k).inDram = true)
    (hdram : outOfDram s k = false) (hpoison : s.dram.poison.contains l = false) (hdamage : kget s.dram.damage l = some [(i, v)])
    (hundo : undoCopy s l 0 = none) :
    ∃ u, ReachOnly s u ∧ memLine s off n = (some (((lineBytes s l).drop (x % 64)).take n), corrected u l 1) := by
  have hreach : ReachOnly s (snoopNote (touchHeat s h (o.base + x) n whoHost) (off / 64)) :=
    (touchHeat_reachOnly s h _ n _).trans (snoopNote_reachOnly _ _)
  refine ⟨_, hreach, ?_⟩
  unfold memLine
  simp only [hbound, hk, hl, hdram, Bool.false_eq_true, if_false]
  generalize snoopNote (touchHeat s h (o.base + x) n whoHost) (off / 64) = u at hreach ⊢
  have hbacked : parcelState u k ≠ .unbacked := by
    rw [hreach.states]
    intro hnone
    rw [hnone] at hstate
    cases hstate
  have hread : readLine u l = (some (lineBytes s l), corrected u l 1) := by
    rw [readLine_symbol (hreach.dram ▸ hpoison) (hreach.dram ▸ hdamage) hi hv, hreach.lineBytes]
  have hcopy : undoCopy (corrected u l 1) l 0 = none := by rw [undoCopy, corrected_allTxs, hreach.allTxs]; exact hundo
  have hoff : (o.base + x) % 64 = x % 64 := by omega
  have htake := List.length_take_le n ((lineBytes s l).drop (x % 64))
  simp only [if_neg hbacked, hread, hcopy, hoff]
  rw [map_within_length (by omega)]

/-- A host read within one line that gives bytes puts them on the bus; besides it moves counts of the link alone. -/
theorem memRead_line {b : List Byte} {t : State} (hup : memUp s = true) (h0 : 0 < n) (hoff : off % 64 + n ≤ 64)
    (hline : memLine (wake s) off n = (some b, t)) :
    (memRead s off n).host.bus = .bytes b ∧ (memRead s off n).dram = t.dram ∧ (memRead s off n).objs = t.objs ∧
      ∀ sub < 256, cnt (memRead s off n) 0x9060 sub = cnt t 0x9060 sub := by
  have hread : memRead s off n = (bump { t with fresh := t.fresh + 1 } 0x9300 4 1).modHost fun g => { g with
      longest := max g.longest (Config.readNs t.fresh % 2001), bus := .bytes b } := by
    unfold memRead
    simp only [hup, linesOf_within h0 hoff, List.foldl_cons, List.foldl_nil, Nat.div_add_mod', hline, State.draw, Bool.not_true,
      Bool.false_eq_true, if_false, List.nil_append]
  have hcounts := (bump_reachOnly { t with fresh := t.fresh + 1 } (i := 0x9300) 4 1
    fun sub hsub => by unfold odKey; omega).protectionCounts
  rw [hread]
  exact ⟨rfl, bump_dram .., bump_objs .., hcounts⟩

end

/-- Settles O34: the syndromes of a symbol at the power `k` that is off by `v` are `v` doubled 0, `k`, `2 k` and `3 k` times; the 255 powers
of α are distinct, so the decoder finds `k` and `v` and nothing else, and its correction leaves the line as it was stored. What the read
moves on its way to the line is neither the line nor a counter of memory protection. -/
theorem oneDamagedSymbolIsCorrected : Obligations.OneDamagedSymbolIsCorrected := by
  intro s off n h o x i v hup h0 hoff hbound hbase hlen _ hi hv hstate hdram hpoison hdamage hundo
  have hwake := wake_reachOnly s
  obtain ⟨u, hreach, hline⟩ := memLine_symbol (s := wake s) (n := n) ((boundAt_wake s off).trans hbound) hbase hlen hi hv rfl rfl
    (hwake.states _ ▸ hstate) (by unfold outOfDram; rw [hwake.states]; exact hdram) (hwake.dram ▸ hpoison) (hwake.dram ▸ hdamage)
    (by rw [undoCopy, hwake.allTxs]; exact hundo)
  have hu := hwake.trans hreach
  obtain ⟨hbus, hreadDram, hreadObjs, hreadCnt⟩ := memRead_line hup h0 hoff hline
  obtain ⟨hmem, hdam, hpois⟩ := corrected_dram u ((o.base + x) / 64) 1
  rw [hu.dram] at hmem hdam hpois
  have hcnt (sub : Nat) (hsub : sub < 256) : cnt (memRead s off n) 0x9060 sub = cnt (bump u 0x9060 1 1) 0x9060 sub :=
    (hreadCnt sub hsub).trans (corrected_cnt u _ 1 0x9060 sub)
  refine answers_of_exec (exec_cxlMemRead off n s) ⟨?bus, ?mem, ?damage, ?poison, ?one, ?two, ?three, ?objs⟩
  case bus => exact hbus.trans (by rw [hwake.lineBytes])
  case mem => exact (congrArg Dram.mem hreadDram).trans hmem
  case damage => exact (congrArg Dram.damage hreadDram).trans hdam
  case poison => exact (congrArg Dram.poison hreadDram).trans hpois
  case one => exact (hcnt 1 (by decide)).trans ((cnt_bump u _ 1 1).trans (by rw [hu.protectionCounts 1 (by decide)]))
  case two => exact (hcnt 2 (by decide)).trans ((cnt_bump_other u 1 (by decide)).trans (hu.protectionCounts 2 (by decide)))
  case three => exact (hcnt 3 (by decide)).trans ((cnt_bump_other u 1 (by decide)).trans (hu.protectionCounts 3 (by decide)))
  case objs => exact hreadObjs.trans ((corrected_objs u _ 1).trans hu.objs)

end Sys2Proof.Machine

/-! ## The SPDM responder (19 R500) -/

namespace Sys2Proof.Machine

section
variable {s : State} {onDoe : Bool} (hup : spdmUp s onDoe = true)
include hup

/-- An answer of a responder that can be reached is on the bus, and changes nothing else. -/
theorem spdm_answers (b : List Byte) : spdm s onDoe (some b) = { s with host := { s.host with bus := .bytes b } } := by
  simp [spdm, hup, State.modHost]

theorem spdm_refuses : spdm s onDoe none = { s with host := { s.host with bus := .status 1 [] } } := by
  simp [spdm, hup, State.modHost]

/-- So is a signed answer, whose nonce takes one draw. -/
theorem spdm_signs (b : List Byte) : spdm (responderNonce s).2 onDoe (some b) =
    { s with host := { s.host with bus := .bytes b }, sec := { s.sec with draws := s.sec.draws + 1 } } :=
  spdm_answers (s := (responderNonce s).2) hup b

theorem becomes_certificate {slot : Nat} {chain : List Byte} (off n : Nat) (h : chainOf s slot = some chain) :
    Becomes (.spdmGetCertificate onDoe slot off n) s { s with host := { s.host with bus := .bytes ((chain.drop off).take n) } } :=
  becomes_of_eq rfl (by rw [h]; exact spdm_answers hup _)

theorem becomes_challenged {slot : Nat} {chain : List Byte} (nonce : List Byte) (h : chainOf s slot = some chain) :
    let m := Config.sha256 chain ++ (responderNonce s).1
    Becomes (.spdmChallenge onDoe slot nonce) s { s with
      host := { s.host with bus := .bytes (m ++ Config.deviceSign (nonce ++ m)) }, sec := { s.sec with draws := s.sec.draws + 1 } } :=
  becomes_of_eq rfl (by simp only [h, hup, Bool.not_true, Bool.false_eq_true, if_false]; exact spdm_signs hup _)

theorem becomes_measured {index : Nat} {b : List Byte} (nonce : List Byte) (h : measurement s index = some b) :
    let own := (responderNonce s).1
    Becomes (.spdmGetMeasurements onDoe index nonce) s { s with
      host := { s.host with bus := .bytes (b ++ own ++ Config.deviceSign (nonce ++ b ++ own)) }
      sec := { s.sec with draws := s.sec.draws + 1 } } :=
  becomes_of_eq rfl (by simp only [h, hup, Bool.not_true, Bool.false_eq_true, if_false]; exact spdm_signs hup _)

end

theorem chainOf_owner {s : State} (h : s.sec.ownerChain ≠ []) : chainOf s 1 = some s.sec.ownerChain := by
  simp [chainOf, h]

theorem chainOf_none {s : State} {slot : Nat} (h : 2 ≤ slot) : chainOf s slot = none := by
  match slot with
  | _ + 2 => rfl

/-- Settles O53: each request answers, or is refused, by the one rule of what the responder has at its slot or block; at most four sessions. -/
theorem spdmAnswers : Obligations.SpdmAnswers := by
  unfold Obligations.SpdmAnswers
  intro s onDoe hup
  have refused := spdm_refuses hup
  refine ⟨?chain, ?ownerChain, ?noSlot, ?challenge, ?measured, ?noBlock, ?opened, ?full⟩
  case chain => exact fun off n => becomes_certificate hup off n rfl
  case ownerChain => exact fun off n h => becomes_certificate hup off n (chainOf_owner h)
  case noSlot =>
    intro slot off n nonce h
    exact ⟨becomes_of_eq rfl (by rw [chainOf_none h]; exact refused), becomes_of_eq rfl (by rw [chainOf_none h]; exact refused)⟩
  case challenge => exact fun nonce => becomes_challenged hup nonce rfl
  case measured => exact fun index nonce b h => becomes_measured hup nonce h
  case noBlock => exact fun nonce => becomes_of_eq rfl refused
  case opened =>
    intro exchange h
    exact becomes_of_eq rfl (by
      simp only [Bool.false_eq_true, false_and, or_false, Nat.not_le.2 h, if_false, hup, Bool.not_true, spdm_answers hup]
      rfl)
  case full => exact fun ide exchange h => becomes_of_eq rfl ((if_pos (.inl h)).trans refused)

end Sys2Proof.Machine

/-! ## The debug lock (19 R501) -/

namespace Sys2Proof.Machine

/-- While the security block's domain PD19 is not on, its header answers nothing: no challenge is given (01 R22). -/
theorem debugChallenge_asleep {s : State} (tap : Bool) (h : s.power.pd[19]? ≠ some .on) : debugChallenge s tap = s := by
  simp [debugChallenge, debugUp, h]

/-- PS5 with the module at rest: PD19 in retention, 10 ms after the last access of the dictionary (20 R510). -/
def managementAsleep : State := { State.reset with power := { State.reset.power with ps := 5, pd := (domainsIn 5 0).set 19 .ret } }

theorem managementAsleep_pd19 : managementAsleep.power.pd[19]? ≠ some .on := by decide

/-- Refutes O54: in phase running the header need not be answered. In PS5 PD19 is in retention, and a challenge asked for there is not given:
the nonce that the statement draws is not drawn. -/
theorem not_debugLockOpensAndCloses : ¬ Obligations.DebugLockOpensAndCloses := by
  unfold Obligations.DebugLockOpensAndCloses
  intro h
  obtain ⟨hchallenge, -⟩ := h managementAsleep true rfl
  have hexec : exec (.debugChallenge true) managementAsleep = done managementAsleep managementAsleep :=
    congrArg (done managementAsleep) (debugChallenge_asleep true managementAsleep_pd19)
  have hsame := hexec.symm.trans hchallenge
  injection hsame with hstate
  have hdraws : managementAsleep.sec.draws = managementAsleep.sec.draws + 1 := congrArg (fun u : State => u.sec.draws) hstate
  exact absurd hdraws (by decide)

end Sys2Proof.Machine

/-! ## The boot chain and the runtime becoming ready (19 R487, R492-R497) -/

namespace Sys2Proof.Machine

/-! ### The choice of the slot (19 R487, R492-R495) -/

/-- The module with the PUF read and its keys derived, before a slot is chosen (19 R494). -/
def pufRead (s : State) : State :=
  { s with
    fresh := s.fresh + 1, sec := { s.sec with puf := some { array := s.fresh } }
    power := { s.power with phase := .running, stable := true } }

/-- The check value that the PUF's keys give fits the one of the identity region. -/
theorem readPuf_fits {s : State} (h : ∀ c, s.sec.pufCheck = some c → ({ array := s.fresh } : PufKeys).check = c) : (readPuf s).1 = true := by
  cases hc : s.sec.pufCheck with
  | none => simp [readPuf, State.draw, hc]
  | some c =>
    simp only [readPuf, State.draw, hc]
    exact beq_iff_eq.2 (h c hc)

theorem readPuf_mismatch {s : State} {c : List Byte} (hc : s.sec.pufCheck = some c) (h : ({ array := s.fresh } : PufKeys).check ≠ c) :
    (readPuf s).1 = false := by
  simp [readPuf, State.draw, hc, h]

section
variable {s : State} (hrun : s.power.phase = .running) (hoff : s.sec.boot = .off)
include hrun hoff

/-- A chain that starts with the module powered: the PUF is read first. -/
theorem bootChain_mismatch (hfits : (readPuf s).1 = false) : bootChain s = (pufRead s).modSec fun c => { c with boot := .stopped } := by
  unfold bootChain
  simp only [hrun, hoff, reduceCtorEq, decide_false, beq_self_eq_true, Bool.and_self, Bool.not_true, Bool.and_false, Bool.false_eq_true,
    if_false]
  exact if_pos (congrArg (!·) hfits)

theorem bootChain_fits (hrestart : s.power.restarting = false) (hfits : (readPuf s).1 = true) :
    bootChain s = match chooseSlot (pufRead s) with
      | (some n, u) => u.modSec fun c => { c with active := n == 1, boot := .booting, dogAt := u.power.uptime }
      | (none, u) => ((logHealth u 0x0040 false [Config.faultUnit, 0x8001]).modSec fun c => { c with boot := .recovery, bootKind := 2 }).modPower
          fun p => { p with restarting := false } := by
  unfold bootChain
  simp only [hrun, hoff, reduceCtorEq, decide_false, beq_self_eq_true, Bool.and_self, Bool.not_true, Bool.and_false, Bool.false_eq_true,
    if_false]
  refine (if_neg (ne_of_eq_of_ne (congrArg not hfits) (by decide))).trans ?_
  refine (if_neg (by simp [readPuf, State.draw, State.modPower, State.modSec, hrestart])).trans ?_
  rfl

end

/-- A slot that has run and verifies is booted as it stands. -/
theorem trySlot_verified {s : State} {n fuel : Nat} (hran : (s.slot n).ran = true) (hv : verifyImage s (s.slot n) = 0) :
    trySlot (fuel + 1) s n = (some n, s) := by
  simp [trySlot, attemptSlot, hran, hv]

theorem chooseSlot_none {s : State} (h : firstSlot s = none) : chooseSlot s = (none, s.modSec fun c => { c with bootKind := 0 }) := by
  unfold chooseSlot
  dsimp only
  rw [show firstSlot (s.modSec fun c => { c with bootKind := 0 }) = none from h]

theorem chooseSlot_verified {s : State} {n : Nat} (h : firstSlot s = some n) (hran : (s.slot n).ran = true)
    (hv : verifyImage s (s.slot n) = 0) : chooseSlot s = (some n, s.modSec fun c => { c with bootKind := 0 }) := by
  unfold chooseSlot
  dsimp only
  rw [show firstSlot (s.modSec fun c => { c with bootKind := 0 }) = some n from h]
  exact trySlot_verified hran hv

/-! ### The runtime becoming ready (19 R497) -/

theorem activeSlot_ran (c : Sec) : c.activeSlot.ran = if c.active then c.slotB.ran else c.slotA.ran := by
  unfold Sec.activeSlot
  split <;> rfl

theorem activeSlot_security (c : Sec) : c.activeSlot.security = if c.active then c.slotB.security else c.slotA.security := by
  unfold Sec.activeSlot
  split <;> rfl

/-- The active slot with RAN set (19 R497). -/
def markRan (s : State) : State :=
  let n := if s.sec.active then 1 else 0
  if (s.slot n).ran then s else setStatus (s.modSlot n fun t => { t with ran := true }) n 5 0

theorem markRan_frame (s : State) : markRan s = { s with sec := (markRan s).sec } := by
  unfold markRan
  generalize (if s.sec.active then 1 else 0) = n
  dsimp only
  split <;> rfl

theorem markRan_sec (s : State) : (markRan s).sec.active = s.sec.active ∧ (markRan s).sec.floor = s.sec.floor ∧
    (markRan s).sec.activeSlot.security = s.sec.activeSlot.security ∧ (markRan s).sec.activeSlot.ran = true := by
  unfold markRan
  cases ha : s.sec.active <;> simp only [Bool.false_eq_true, if_false, if_true] <;> split
  case false.isTrue h | true.isTrue h => exact ⟨ha, rfl, rfl, by simpa [State.slot, Sec.activeSlot, ha] using h⟩
  case false.isFalse | true.isFalse =>
    simp [setStatus, programWord, putCell, State.modSlot, State.modSec, Sec.activeSlot, ha]

/-- The runtime is ready: RAN set, and the floor raised to the image's security version. -/
def readied (s : State) : State :=
  raiseFloor ((markRan s).modSec fun c => { c with boot := .ready, dogAt := s.power.uptime }) (markRan s).sec.activeSlot.security

theorem raiseFloor_eq (s : State) (f : Nat) :
    ∃ u, CellsOnly s u ∧ raiseFloor s f = u.modSec fun c => { c with floor := max s.sec.floor f } :=
  ⟨_, cellsOnly_foldl _ (fun _ _ => putCell_cellsOnly _ _ _) _ s, rfl⟩

theorem readied_frame (s : State) : readied s = { s with sec := (readied s).sec } := by
  obtain ⟨u, hu, hraise⟩ := raiseFloor_eq ((markRan s).modSec fun c => { c with boot := .ready, dogAt := s.power.uptime })
    (markRan s).sec.activeSlot.security
  unfold CellsOnly at hu
  unfold readied
  rw [hraise, hu, markRan_frame]
  rfl

theorem readied_sec (s : State) : (readied s).sec.boot = .ready ∧ (readied s).sec.floor = max s.sec.floor s.sec.activeSlot.security ∧
    (readied s).sec.active = s.sec.active ∧ (readied s).sec.activeSlot.ran = true := by
  obtain ⟨u, hu, hraise⟩ := raiseFloor_eq ((markRan s).modSec fun c => { c with boot := .ready, dogAt := s.power.uptime })
    (markRan s).sec.activeSlot.security
  obtain ⟨hactive, hfloor, hsecurity, hran⟩ := markRan_sec s
  unfold CellsOnly at hu
  unfold readied
  rw [hraise, hu, hsecurity]
  exact ⟨rfl, by rw [← hfloor]; rfl, hactive, hran⟩

@[simp] theorem endActivate_sec (s : State) : (endActivate s).sec = s.sec := rfl
@[simp] theorem endActivate_objs (s : State) : (endActivate s).objs = s.objs := rfl
@[simp] theorem endActivate_flash (s : State) : (endActivate s).flash = s.flash := rfl
@[simp] theorem endActivate_power (s : State) : (endActivate s).power = s.power := rfl

theorem heldMessages_none {s : State} (h : s.fabric.heldMsgs = []) : heldMessages s = s.modFab fun b => { b with heldMsgs := [] } := by
  unfold heldMessages
  rw [h]
  rfl

/-- A runtime that becomes ready during a transition, with its map built and no message held, goes on with nothing else. -/
theorem runtimeReady_plain {s : State} (hrun : s.power.phase = .running) (hboot : s.sec.boot = .booting) (hbuild : s.flash.rebuild = none)
    (htarget : s.power.target.isSome = true) (hheld : s.fabric.heldMsgs = []) :
    runtimeReady s = (endActivate ((readied s).modPower fun p => { p with restarting := false })).modFab
      fun b => { b with heldMsgs := [] } := by
  have hgo : ¬ (!(s.power.phase == .running && s.sec.boot == .booting)) = true := by rw [hrun, hboot]; decide
  have hframe := readied_frame s
  have hbuilt : ¬ (readied s).flash.rebuild.isSome = true := by rw [hframe, hbuild]; decide
  have hmoves : (heldMessages (endActivate ((readied s).modPower fun p => { p with restarting := false }))).power.target.isSome = true := by
    rw [hframe, heldMessages_none (by exact hheld)]
    exact htarget
  have hready : runtimeReady s =
      let u := heldMessages (endActivate ((if (readied s).flash.rebuild.isSome then firstReady (readied s) else readied s).modPower
        fun p => { p with restarting := false }))
      if u.power.target.isSome then u else startDies (releaseJobs u) := by
    unfold runtimeReady
    rw [if_neg hgo]
    have huptime : (markRan s).power.uptime = s.power.uptime := by rw [markRan_frame]
    unfold readied
    rw [← huptime]
    rfl
  rw [hready, if_neg hbuilt]
  dsimp only
  rw [if_pos hmoves]
  exact heldMessages_none (by rw [hframe]; exact hheld)

/-- Settles O56: `bootChain` chooses on the state that the PUF's reading leaves; what the runtime does when it becomes ready is `readied`, and
the end of the activations that waited for it. -/
theorem bootChoosesSlot : Obligations.BootChoosesSlot := by
  unfold Obligations.BootChoosesSlot
  intro s
  refine ⟨?chain, ?ready, ?other⟩
  case chain =>
    intro hrun hoff hrestart
    refine ⟨fun c hc hne => ?mismatch, fun hcheck => ?fits⟩
    case mismatch => exact becomes_of_eq rfl (bootChain_mismatch hrun hoff (readPuf_mismatch hc hne))
    case fits =>
      have hchain := bootChain_fits hrun hoff hrestart (readPuf_fits hcheck)
      refine ⟨fun hnone => ?none, fun n _ hn hran hv => ?slot⟩
      case none => exact becomes_of_eq rfl (by rw [hchain, chooseSlot_none (s := pufRead s) hnone]; rfl)
      case slot => exact becomes_of_eq rfl (by rw [hchain, chooseSlot_verified (s := pufRead s) hn hran hv]; rfl)
  case ready =>
    intro hrun hboot hbuild htarget hheld
    obtain ⟨hready, hfloor, hactive, hran⟩ := readied_sec s
    have hobjs : (readied s).objs = s.objs := by rw [readied_frame]
    have hflash : (readied s).flash = s.flash := by rw [readied_frame]
    rw [activeSlot_security] at hfloor
    rw [activeSlot_ran, hactive] at hran
    refine answers_of_exec (congrArg (done s) (runtimeReady_plain hrun hboot hbuild htarget hheld)) ?_
    simp only [State.modFab_sec, State.modFab_objs, State.modFab_flash, State.modFab_power, endActivate_sec, endActivate_objs,
      endActivate_flash, endActivate_power, State.modPower_sec, State.modPower_objs, State.modPower_flash, State.modPower_power]
    exact ⟨hready, trivial, hfloor, hran, hobjs, hflash⟩
  case other =>
    intro hboot
    exact becomes_of_eq rfl (by unfold runtimeReady; rw [if_pos (by simp [hboot])])

end Sys2Proof.Machine

/-! ## The code of the configuration flash (19 R477, R480): a word and its wrong cells -/

namespace Sys2Proof.Machine

/-! ### The check bits of a word are the sum of the columns of its ones -/

/-- The step by which check bits are summed. -/
def addColumn (w : BitVec 32) (c : BitVec 8) (i : Fin 32) : BitVec 8 := if w.getLsbD i.val then c ^^^ columnOf i else c

theorem checkBits_eq (w : BitVec 32) : checkBits w = (List.finRange 32).foldl (addColumn w) 0 := rfl

theorem addColumn_xor (v w : BitVec 32) (c d : BitVec 8) (i : Fin 32) :
    addColumn (v ^^^ w) (c ^^^ d) i = addColumn v c i ^^^ addColumn w d i := by
  have hcancel : columnOf i ^^^ (d ^^^ columnOf i) = d := by rw [BitVec.xor_comm d, ← BitVec.xor_assoc, BitVec.xor_self, BitVec.zero_xor]
  simp only [addColumn, BitVec.getLsbD_xor]
  cases v.getLsbD i.val <;> cases w.getLsbD i.val
  case true.true => simp [BitVec.xor_assoc, hcancel]
  case true.false => simp only [Bool.xor_false, if_true, Bool.false_eq_true, if_false]; ac_rfl
  case false.true => simp [BitVec.xor_assoc]
  case false.false => rfl

theorem foldl_addColumn_xor (v w : BitVec 32) (l : List (Fin 32)) (c d : BitVec 8) :
    l.foldl (addColumn (v ^^^ w)) (c ^^^ d) = l.foldl (addColumn v) c ^^^ l.foldl (addColumn w) d := by
  induction l generalizing c d with
  | nil => rfl
  | cons i l ih => simp only [List.foldl_cons, addColumn_xor, ih]

/-- The code is linear. -/
theorem checkBits_xor (v w : BitVec 32) : checkBits (v ^^^ w) = checkBits v ^^^ checkBits w := by
  simpa [checkBits_eq] using foldl_addColumn_xor v w (List.finRange 32) 0 0

theorem checkBits_zero : checkBits 0 = 0 := by
  have h := checkBits_xor 0 0
  simpa using h

/-- One bit adds its own column. -/
theorem foldl_addColumn_bit (k : Fin 32) (l : List (Fin 32)) (hl : l.Nodup) (c : BitVec 8) :
    l.foldl (addColumn ((1 : BitVec 32) <<< k.val)) c = if k ∈ l then c ^^^ columnOf k else c := by
  have hbit (i : Fin 32) : ((1 : BitVec 32) <<< k.val).getLsbD i.val = decide (i = k) := by
    revert i k; decide
  induction l generalizing c with
  | nil => rfl
  | cons i l ih =>
    obtain ⟨hi, hl⟩ := List.nodup_cons.1 hl
    rw [List.foldl_cons, ih hl, addColumn, hbit]
    by_cases h : i = k
    · subst h; simp [hi]
    · simp [h, Ne.symm h]

theorem checkBits_bit (k : Fin 32) : checkBits ((1 : BitVec 32) <<< k.val) = columnOf k := by
  rw [checkBits_eq, foldl_addColumn_bit k _ (List.nodup_finRange 32), if_pos (List.mem_finRange k)]
  exact BitVec.zero_xor

/-- The column at a place of the list of columns. -/
def listedColumn (k : Fin 32) : BitVec 8 := (checkColumns[k.val]?).getD 0

theorem columnOf_eq (i : Fin 32) : columnOf i = listedColumn (Config.codeOrder i) := rfl

theorem listedColumn_injective : Function.Injective listedColumn := by
  have h : ∀ i j : Fin 32, listedColumn i = listedColumn j → i = j := by decide +kernel
  exact fun i j => h i j

theorem columnOf_injective : Function.Injective columnOf := listedColumn_injective.comp Config.codeOrder.injective

/-- The columns sum to zero, in whatever order. -/
theorem checkBits_allOnes : checkBits (BitVec.allOnes 32) = 0 := by
  have hall : (List.finRange 32).foldl (addColumn (BitVec.allOnes 32)) 0 =
      (((List.finRange 32).map Config.codeOrder).map listedColumn).foldl (· ^^^ ·) 0 := by
    rw [List.map_map, List.foldl_map]
    congr 1
    funext c i
    exact if_pos (by rw [BitVec.getLsbD_allOnes]; exact decide_eq_true i.isLt)
  have hperm : ((List.finRange 32).map Config.codeOrder).Perm (List.finRange 32) := Equiv.Perm.map_finRange_perm _
  rw [checkBits_eq, hall, (hperm.map listedColumn).foldl_eq' (fun a _ b _ c => by ac_rfl) 0]
  decide +kernel

/-! ### A stored word with wrong cells -/

/-- Data and check bits among 40 cells. -/
def dataCells (c : BitVec 40) : BitVec 32 := c.extractLsb' 8 32
def checkCells (c : BitVec 40) : BitVec 8 := c.extractLsb' 0 8

/-- What the decoder finds of an error pattern. -/
def errorSyndrome (e : BitVec 40) : BitVec 8 := checkBits (dataCells e) ^^^ checkCells e

theorem errorSyndrome_xor (e f : BitVec 40) : errorSyndrome (e ^^^ f) = errorSyndrome e ^^^ errorSyndrome f := by
  simp only [errorSyndrome, dataCells, checkCells, BitVec.extractLsb'_xor, checkBits_xor]
  ac_rfl

theorem dataCells_storedWord (w : BitVec 32) : dataCells (storedWord w) = w := by
  apply BitVec.eq_of_getLsbD_eq
  intro i hi
  simp only [dataCells, storedWord, BitVec.getLsbD_extractLsb', hi, decide_true, Bool.true_and]
  exact (BitVec.getLsbD_append (x := w) (y := ~~~checkBits w)).trans (by simp)

theorem checkCells_storedWord (w : BitVec 32) : checkCells (storedWord w) = ~~~(checkBits w) := by
  apply BitVec.eq_of_getLsbD_eq
  intro i hi
  simp only [checkCells, storedWord, BitVec.getLsbD_extractLsb', hi, decide_true, Bool.true_and, Nat.zero_add]
  exact (BitVec.getLsbD_append (x := w) (y := ~~~checkBits w)).trans (by simp [hi])

/-- What a read of a stored word gives depends on the error pattern of its cells alone. -/
theorem readStored_error (w : BitVec 32) (e : BitVec 40) : readStored (storedWord w ^^^ e) =
    if errorSyndrome e = 0 then some (w ^^^ dataCells e, false)
    else match findFirst (fun i => columnOf i == errorSyndrome e) (List.finRange 32) with
      | some i => some (w ^^^ dataCells e ^^^ ((1 : BitVec 32) <<< i.val), true)
      | none => if (List.range 8).any fun i => (1 : BitVec 8) <<< i == errorSyndrome e then some (w ^^^ dataCells e, true) else none := by
  have hdata : (storedWord w ^^^ e).extractLsb' 8 32 = w ^^^ dataCells e := by
    rw [BitVec.extractLsb'_xor, ← dataCells, dataCells_storedWord]; rfl
  have hcheck : (storedWord w ^^^ e).extractLsb' 0 8 = ~~~(checkBits w) ^^^ checkCells e := by
    rw [BitVec.extractLsb'_xor, ← checkCells, checkCells_storedWord]; rfl
  have hsyndrome : checkBits (w ^^^ dataCells e) ^^^ ~~~(~~~(checkBits w) ^^^ checkCells e) = errorSyndrome e := by
    rw [checkBits_xor, ← BitVec.not_xor_left, BitVec.not_not, errorSyndrome]
    rw [BitVec.xor_comm (checkBits w), BitVec.xor_assoc, ← BitVec.xor_assoc (checkBits w), BitVec.xor_self, BitVec.zero_xor]
  unfold readStored
  simp only [hdata, hcheck, hsyndrome] <;> rfl

/-- The column of a cell: the check bits and the data bits that it is summed into. -/
def cellColumn (i : Nat) : BitVec 8 := if h : 8 ≤ i ∧ i < 40 then columnOf ⟨i - 8, by omega⟩ else 1 <<< i

theorem dataCells_high : ∀ k : Fin 32, dataCells ((1 : BitVec 40) <<< (k.val + 8)) = (1 : BitVec 32) <<< k.val := by decide
theorem checkCells_high : ∀ k : Fin 32, checkCells ((1 : BitVec 40) <<< (k.val + 8)) = 0 := by decide
theorem dataCells_low : ∀ k : Fin 8, dataCells ((1 : BitVec 40) <<< k.val) = 0 := by decide
theorem checkCells_low : ∀ k : Fin 8, checkCells ((1 : BitVec 40) <<< k.val) = (1 : BitVec 8) <<< k.val := by decide

/-- Where one cell is wrong, the syndrome is its column. -/
theorem errorSyndrome_cell {i : Nat} (hi : i < 40) : errorSyndrome ((1 : BitVec 40) <<< i) = cellColumn i := by
  by_cases h : 8 ≤ i
  · obtain ⟨k, rfl⟩ := Nat.exists_eq_add_of_le' h
    rw [errorSyndrome, dataCells_high ⟨k, by omega⟩, checkCells_high ⟨k, by omega⟩, checkBits_bit, cellColumn, dif_pos ⟨h, hi⟩]
    exact BitVec.xor_zero
  · rw [errorSyndrome, dataCells_low ⟨i, by omega⟩, checkCells_low ⟨i, by omega⟩, checkBits_zero, cellColumn, dif_neg (by omega)]
    exact BitVec.zero_xor

/-- Whether a byte has an odd number of ones. -/
def oddOnes (x : BitVec 8) : Bool := (List.range 8).foldl (fun b i => b ^^ x.getLsbD i) false

theorem foldl_oddOnes_xor (x y : BitVec 8) (l : List Nat) (b c : Bool) : l.foldl (fun b i => b ^^ (x ^^^ y).getLsbD i) (b ^^ c) =
    (l.foldl (fun b i => b ^^ x.getLsbD i) b ^^ l.foldl (fun b i => b ^^ y.getLsbD i) c) := by
  have hswap : ∀ b c p q : Bool, ((b ^^ c) ^^ (p ^^ q)) = ((b ^^ p) ^^ (c ^^ q)) := by decide
  induction l generalizing b c with
  | nil => rfl
  | cons i l ih => rw [List.foldl_cons, List.foldl_cons, List.foldl_cons, BitVec.getLsbD_xor, hswap, ih]

theorem oddOnes_xor (x y : BitVec 8) : oddOnes (x ^^^ y) = (oddOnes x ^^ oddOnes y) := foldl_oddOnes_xor x y _ false false

theorem oddOnes_columnOf (i : Fin 32) : oddOnes (columnOf i) = true := by
  have h : ∀ k : Fin 32, oddOnes (listedColumn k) = true := by decide
  exact h (Config.codeOrder i)

theorem oddOnes_unit {i : Nat} (hi : i < 8) : oddOnes ((1 : BitVec 8) <<< i) = true := by
  have h : ∀ k : Fin 8, oddOnes ((1 : BitVec 8) <<< k.val) = true := by decide
  exact h ⟨i, hi⟩

theorem oddOnes_cellColumn {i : Nat} (hi : i < 40) : oddOnes (cellColumn i) = true := by
  unfold cellColumn
  split
  · exact oddOnes_columnOf _
  · exact oddOnes_unit (by omega)

theorem columnOf_ne_unit (i : Fin 32) {k : Nat} (hk : k < 8) : columnOf i ≠ (1 : BitVec 8) <<< k := by
  have h : ∀ (j : Fin 32) (k : Fin 8), listedColumn j ≠ (1 : BitVec 8) <<< k.val := by decide
  exact h (Config.codeOrder i) ⟨k, hk⟩

/-- Different cells have different columns. -/
theorem cellColumn_ne {i j : Nat} (hij : i < j) (hj : j < 40) : cellColumn i ≠ cellColumn j := by
  have hunits : ∀ a b : Fin 8, a ≠ b → (1 : BitVec 8) <<< a.val ≠ (1 : BitVec 8) <<< b.val := by decide
  unfold cellColumn
  by_cases hi8 : 8 ≤ i
  · rw [dif_pos ⟨hi8, by omega⟩, dif_pos ⟨by omega, hj⟩]
    intro h
    have := columnOf_injective h
    simp only [Fin.mk.injEq] at this
    omega
  · rw [dif_neg (by omega)]
    by_cases hj8 : 8 ≤ j
    · rw [dif_pos ⟨hj8, hj⟩]
      exact (columnOf_ne_unit _ (by omega)).symm
    · rw [dif_neg (by omega)]
      exact hunits ⟨i, by omega⟩ ⟨j, by omega⟩ (by simp only [ne_eq, Fin.mk.injEq]; omega)

theorem findFirst_unique {α : Type} {f : α → Bool} {l : List α} {a : α} (ha : a ∈ l) (hf : f a = true) (hu : ∀ b ∈ l, f b = true → b = a) :
    findFirst f l = some a := by
  induction l with
  | nil => cases ha
  | cons b l ih =>
    rw [findFirst]
    split
    · next hb => rw [hu b List.mem_cons_self hb]
    · next hb =>
      have hne : b ≠ a := fun h => hb (h ▸ hf)
      exact ih ((List.mem_cons.1 ha).resolve_left (Ne.symm hne)) fun c hc => hu c (List.mem_cons_of_mem _ hc)

/-! ### The three cases of R477 -/

theorem readStored_storedWord (w : BitVec 32) : readStored (storedWord w) = some (w, false) := by
  have h := readStored_error w 0
  have hzero : errorSyndrome 0 = 0 := by
    rw [errorSyndrome, show dataCells 0 = 0 by decide, checkBits_zero]
    decide
  rw [if_pos hzero, show dataCells 0 = 0 by decide] at h
  simpa using h

/-- One wrong cell is corrected. -/
theorem readStored_oneWrong (w : BitVec 32) {i : Nat} (hi : i < 40) : readStored (storedWord w ^^^ ((1 : BitVec 40) <<< i)) = some (w, true) := by
  have hnonzero : cellColumn i ≠ 0 := by
    intro h
    have := oddOnes_cellColumn hi
    rw [h] at this
    revert this
    decide
  rw [readStored_error, errorSyndrome_cell hi, if_neg hnonzero]
  by_cases h : 8 ≤ i
  · obtain ⟨k, rfl⟩ := Nat.exists_eq_add_of_le' h
    have hcolumn : cellColumn (k + 8) = columnOf ⟨k, by omega⟩ := by rw [cellColumn, dif_pos ⟨h, hi⟩]; rfl
    have hfound : findFirst (fun j => columnOf j == cellColumn (k + 8)) (List.finRange 32) = some ⟨k, by omega⟩ :=
      findFirst_unique (List.mem_finRange _) (by simp [hcolumn]) fun j _ hj => columnOf_injective ((beq_iff_eq.1 hj).trans hcolumn)
    simp only [hfound, dataCells_high ⟨k, by omega⟩, BitVec.xor_assoc, BitVec.xor_self, BitVec.xor_zero]
  · have hcolumn : cellColumn i = (1 : BitVec 8) <<< i := dif_neg (by omega)
    have hnone : findFirst (fun j => columnOf j == cellColumn i) (List.finRange 32) = none :=
      findFirst_eq_none fun j _ => beq_false_of_ne (hcolumn ▸ columnOf_ne_unit j (by omega))
    have hunit : ((List.range 8).any fun k => (1 : BitVec 8) <<< k == cellColumn i) = true :=
      List.any_eq_true.2 ⟨i, List.mem_range.2 (by omega), by rw [hcolumn]; exact beq_self_eq_true _⟩
    rw [hnone, hunit, dataCells_low ⟨i, by omega⟩]
    simp

/-- Two wrong cells are detected: their columns' sum is not zero, and has an even number of ones where every column has three or one. -/
theorem readStored_twoWrong (w : BitVec 32) {i j : Nat} (hij : i < j) (hj : j < 40) :
    readStored (storedWord w ^^^ ((1 : BitVec 40) <<< i) ^^^ ((1 : BitVec 40) <<< j)) = none := by
  have hi : i < 40 := hij.trans hj
  have hsyndrome : errorSyndrome (((1 : BitVec 40) <<< i) ^^^ ((1 : BitVec 40) <<< j)) = cellColumn i ^^^ cellColumn j := by
    rw [errorSyndrome_xor, errorSyndrome_cell hi, errorSyndrome_cell hj]
  have heven : oddOnes (cellColumn i ^^^ cellColumn j) = false := by rw [oddOnes_xor, oddOnes_cellColumn hi, oddOnes_cellColumn hj]; rfl
  have hnonzero : cellColumn i ^^^ cellColumn j ≠ 0 := fun h => cellColumn_ne hij hj (BitVec.xor_eq_zero_iff.1 h)
  have hnone : findFirst (fun k => columnOf k == cellColumn i ^^^ cellColumn j) (List.finRange 32) = none :=
    findFirst_eq_none fun k _ => beq_false_of_ne fun h => by
      have hodd := oddOnes_columnOf k
      rw [h, heven] at hodd
      cases hodd
  have hunit : ((List.range 8).any fun k => (1 : BitVec 8) <<< k == cellColumn i ^^^ cellColumn j) = false :=
    List.any_eq_false.2 fun k hk h => by
      have hodd := oddOnes_unit (List.mem_range.1 hk)
      rw [beq_iff_eq.1 h, heven] at hodd
      cases hodd
  rw [BitVec.xor_assoc, readStored_error, hsyndrome, if_neg hnonzero, hnone, hunit]
  rfl

/-- An erased word is the stored word of all ones. -/
theorem erasedWord_eq : erasedWord = storedWord (BitVec.allOnes 32) := by
  rw [storedWord, checkBits_allOnes]
  decide

/-! ### Programs of words (19 R477, R480) -/

theorem cfgCell_putCell_same {s : State} (a : Nat) (c : BitVec 40) (h : keysRise s.sec.cells = true) : cfgCell (putCell s a c) a = c := by
  unfold cfgCell putCell
  rw [State.modSec_sec]
  by_cases hc : c = shippedCell a
  · simp [hc, kget_kdel_same a h]
  · simp [hc]

theorem cfgCell_putCell_other {s : State} {a b : Nat} (c : BitVec 40) (h : keysRise s.sec.cells = true) (hb : b ≠ a) :
    cfgCell (putCell s a c) b = cfgCell s b := by
  unfold cfgCell putCell
  rw [State.modSec_sec]
  by_cases hc : c = shippedCell a
  · simp [hc, kget_kdel_other h hb]
  · simp [hc, kget_kset_other _ _ hb]

theorem keysRise_putCell {s : State} (a : Nat) (c : BitVec 40) (h : keysRise s.sec.cells = true) :
    keysRise (putCell s a c).sec.cells = true := by
  unfold putCell
  rw [State.modSec_sec]
  dsimp only
  split
  · exact keysRise_kdel a h
  · exact keysRise_kset a c h

/-! ### Operations of the flash (19 R479, R480, R485) -/

section
variable {s : State} {o : CfgOp}

theorem cfgComplete_last (hop : s.sec.op = some o) (hsus : o.suspended = false) (hreq : s.power.resetReq = none) (hq : o.queue = []) :
    cfgComplete s = cfgLanded (s.modSec fun c => { c with op := none }) o.erase o.sector o.words := by
  unfold cfgComplete
  simp only [hop, hsus, hreq, hq, Option.isSome_none, Bool.false_eq_true, if_false]

theorem cfgComplete_next {rank sector : Nat} {erase : Bool} {rest : List (Nat × Nat × Bool)} (hop : s.sec.op = some o)
    (hsus : o.suspended = false) (hreq : s.power.resetReq = none) (hq : o.queue = (rank, sector, erase) :: rest) :
    cfgComplete s = cfgLanded (s.modSec fun c => { c with op := some {
      erase := erase, sector := sector, startedAt := s.power.uptime, queue := rest, words := refreshWords s erase rank sector } })
      o.erase o.sector o.words := by
  unfold cfgComplete
  simp only [hop, hsus, hreq, hq, Option.isSome_none, Bool.false_eq_true, if_false]

/-- A held suspend whose erase has run 500 µs. -/
theorem cfgHold_due (hop : s.sec.op = some o) (herase : o.erase = true) (hsus : o.suspended = false) (hheld : o.heldReq = true)
    (hdue : o.startedAt + 500 ≤ s.power.uptime) (hreq : s.power.resetReq = none) (hn : o.suspends < 16) :
    cfgHold s = bump (modCfgOp s fun o => { o with suspended := true, suspends := o.suspends + 1, served := 0, heldReq := false })
      0x5300 4 1 := by
  unfold cfgHold cfgSuspend
  simp only [hop, herase, hsus, hheld, hdue, hreq, Nat.not_le.2 hn, decide_true, decide_false, Option.isSome_none, Bool.not_true,
    Bool.not_false, Bool.or_self, Bool.and_self, Bool.false_eq_true, if_false, if_true]

theorem cfgStart_idle {sector rank : Nat} {erase : Bool} (hop : s.sec.op = none) (hreq : s.power.resetReq = none) :
    cfgStart s erase sector rank = s.modSec fun c => { c with op := some {
      erase := erase, sector := sector, startedAt := s.power.uptime, words := refreshWords s erase rank sector } } := by
  unfold cfgStart
  simp only [hop, hreq, Option.isSome_none, Bool.false_eq_true, if_false]

end

/-- The counts of the words that a read found corrected and uncorrectable (OD 0x5300). -/
def warningCounts (s : State) (sector n : Nat) : State := bump (bump s 0x5300 1 n) 0x5300 2 (sectorRead s sector).2

theorem warningCounts_leaves (s : State) (sector n : Nat) : cnt (warningCounts s sector n) 0x5300 3 = cnt s 0x5300 3 ∧
    (warningCounts s sector n).sec = s.sec ∧ (warningCounts s sector n).power = s.power ∧ (warningCounts s sector n).health = s.health := by
  refine ⟨?_, by simp [warningCounts], by simp [warningCounts], by simp [warningCounts]⟩
  rw [warningCounts, cnt_bump_other _ _ (by decide), cnt_bump_other _ _ (by decide)]

section
variable {s : State} {sector n : Nat}

theorem cfgWarning_below (h : n < od s 0x5312 0) : cfgWarning s sector n = warningCounts s sector n := by
  unfold cfgWarning
  exact if_pos (by simpa using h)

theorem cfgWarning_refreshes (h : od s 0x5312 0 ≤ n) (hs : 128 ≤ sector) :
    cfgWarning s sector n = cfgStart (bump (warningCounts s sector n) 0x5300 3 1) true sector 5 := by
  unfold cfgWarning
  exact (if_neg (by simpa using h)).trans (if_neg (by omega))

theorem cfgWarning_logs (h : od s 0x5312 0 ≤ n) (hs : sector < 128) :
    cfgWarning s sector n = logHealth (bump (warningCounts s sector n) 0x5300 3 1) 0x0019 false
      [sector, if sector < 16 then 0 else if sector < 32 then 1 else if sector < 64 then 2 else 3, n] := by
  unfold cfgWarning
  exact (if_neg (by simpa using h)).trans (if_pos hs)

end

/-- What a sector reads is a matter of its cells. -/
theorem sectorRead_congr {s t : State} (k : Nat) (h : t.sec = s.sec) : sectorRead t k = sectorRead s k := by
  simp only [sectorRead, cfgCell, h]

/-- A sector whose one record has a younger copy holds nothing alive: it is erased. -/
theorem storeCompact_superseded {s : State} {key k : Nat} {rest : List (Nat × Nat)} (hrecs : s.sec.storeRecs = [(key, k), (key, k + 1)] ++ rest)
    (hrest : ∀ r ∈ rest, r.2 ≠ k) (hfree : s.sec.storeFree < 8) :
    storeCompact s = cfgStart (s.modSec fun c => { c with storeRecs := (key, k + 1) :: rest }) true (128 + k) 6 := by
  have hold : s.sec.storeRecs.filter (fun r => r.2 == k) = [(key, k)] := by
    rw [hrecs]
    simpa using hrest
  have hkept : s.sec.storeRecs.filter (fun r => r.2 != k) = (key, k + 1) :: rest := by
    rw [hrecs]
    simpa using hrest
  have hlive : ((nubList ([(key, k)].map (·.1))).filter fun x => !((key, k + 1) :: rest).any fun r => r.1 == x) = [] := by
    rw [show nubList ([(key, k)].map (·.1)) = [key] from rfl]
    simp
  unfold storeCompact
  split
  · next h => rw [hrecs] at h; cases h
  · next h =>
    rw [hrecs] at h
    cases h
    dsimp only
    rw [if_neg (by omega), hold, hkept, hlive]
    rfl

@[simp] theorem bump_od_maint (s : State) (i j n : Nat) : (bump s i j n).od.maint = s.od.maint := by unfold bump; split <;> rfl

theorem leaveMaint_held {s : State} {path : OdPath} (cause : Nat) (h : s.od.maint = some path) :
    leaveMaint s cause = bump (logHealth (s.modOd fun o => { o with maint := none }) 0x001B false [pathCode path, 0, cause]) 0x9500 6 1 := by
  unfold leaveMaint
  rw [h]

/-- Settles O55: each operation of the flash by its own equation; of the code, the three cases by the parity of the columns. -/
theorem configurationFlashActs : Obligations.ConfigurationFlashActs := by
  unfold Obligations.ConfigurationFlashActs
  refine ⟨fun s => ⟨?last, ?next, ?hold, ?below, ?refresh, ?log, ?roomy, ?compact, ?idle, ?busy⟩,
    ⟨readStored_storedWord, fun w i hi => readStored_oneWrong w hi, fun w i j hij hj => readStored_twoWrong w hij hj, ?erased, ?program⟩⟩
  case last => exact fun o hop hsus hreq hq => becomes_of_eq rfl (cfgComplete_last hop hsus hreq hq)
  case next => exact fun o rank sector erase rest hop hsus hreq hq => becomes_of_eq rfl (cfgComplete_next hop hsus hreq hq)
  case hold =>
    intro o hop herase hsus hheld hdue hreq hn
    exact answers_of_exec (congrArg (done s) (cfgHold_due hop herase hsus hheld hdue hreq hn))
      ⟨by simp [modCfgOp, hop], cnt_bump _ _ _ _, by simp [modCfgOp]⟩
  case below => exact fun sector n h => becomes_of_eq rfl (cfgWarning_below h)
  case refresh =>
    intro sector n h hs hop hreq
    have hwarn := cfgWarning_refreshes h hs
    obtain ⟨hcnt, hsec, hpower, hhealth⟩ := warningCounts_leaves s sector n
    generalize warningCounts s sector n = u at *
    have hstart := cfgStart_idle (s := bump u 0x5300 3 1) (sector := sector) (rank := 5) (erase := true) (by simp [hsec, hop])
      (by simp [hpower, hreq])
    refine answers_of_exec (congrArg (done s) (hwarn.trans hstart)) ⟨?_, ?_, ?_⟩
    · exact (cnt_congr (u := bump u 0x5300 3 1) rfl).trans ((cnt_bump u _ _ 1).trans (by rw [hcnt]))
    · simp only [State.modSec_sec, refreshWords, sectorRead_congr _ ((bump_sec u _ _ _).trans hsec), bump_power, hpower,
        beq_self_eq_true, Bool.and_self, if_true]
    · exact (bump_health u _ _ _).trans hhealth
  case log =>
    intro sector n h hs
    exact answers_of_exec (congrArg (done s) (cfgWarning_logs h hs)) ⟨by simp [warningCounts], by simp [warningCounts]⟩
  case roomy =>
    intro r l hrecs hfree
    refine becomes_of_eq rfl ?_
    unfold storeCompact
    rw [hrecs]
    exact if_pos hfree
  case compact =>
    intro key k rest hrecs hrest hfree hop hreq
    exact answers_of_exec (congrArg (done s) ((storeCompact_superseded hrecs hrest hfree).trans (cfgStart_idle hop hreq))) ⟨rfl, rfl, rfl⟩
  case idle =>
    intro path hm hdue
    refine answers_of_exec (congrArg (done s) ((if_pos (by simp [hm, hdue])).trans (leaveMaint_held 1 hm))) ⟨?_, ?_, ?_, ?_⟩
    · simp
    · exact (cnt_bump _ _ _ _).trans (by simp [cnt])
    · simp
    · simp
  case busy =>
    intro path hm hnot
    exact becomes_of_eq rfl (if_neg (by simp [Nat.not_le.2 hnot]))
  case erased => rw [erasedWord_eq]; exact readStored_storedWord _
  case program =>
    intro s a w h
    exact ⟨cfgCell_putCell_same a _ h, fun b hb => cfgCell_putCell_other _ h hb, rfl, keysRise_putCell a _ h⟩

end Sys2Proof.Machine

/-! ## SET_POWER_STATE, SANITIZE and SCRUB (03 R98, 14 R384, 20 R507, R517): how they begin -/

namespace Sys2Proof.Machine

section
variable {q : Req} {s : State}

/-! ### SET_POWER_STATE (20 R507 step 1) -/

theorem effSetPowerState_notAdmitted (hb : q.op 0 1 ≤ 5) (h : q.op 0 1 < admittedState s.power.pins) :
    effSetPowerState q s = fails s 0x7001 := by
  simp only [effSetPowerState, Nat.not_lt.2 hb, h, if_false, if_true]

theorem effSetPowerState_underWay (hb : q.op 0 1 ≤ 5) (h : admittedState s.power.pins ≤ q.op 0 1) (ht : s.power.target.isSome = true) :
    effSetPowerState q s = fails s 0x7002 := by
  simp only [effSetPowerState, Nat.not_lt.2 hb, Nat.not_lt.2 h, ht, if_false, if_true]

/-- With no job to hold and no context in a core, the target is recorded and the command waits. -/
theorem holdForPower_idle (on : BitVec 8) (hjobs : s.jobs = []) (hcores : ∀ k, (s.core k).residents = []) : holdForPower s on = s := by
  have hgoing : ((List.range 32).flatMap fun k => if on.getLsbD (k / 4) then [] else (s.core k).residents) = [] :=
    List.flatMap_eq_nil_iff.2 fun k _ => by simp [hcores]
  unfold holdForPower
  simp only [hjobs, List.map_nil, List.foldl_nil, hgoing]

theorem effSetPowerState_begins (hb : q.op 0 1 ≤ 5) (h : admittedState s.power.pins ≤ q.op 0 1) (ht : s.power.target = none)
    (hjobs : s.jobs = []) (hcores : ∀ k, (s.core k).residents = []) :
    effSetPowerState q s = (s.modPower fun p => { p with target := some (q.op 0 1) }, .power (q.op 0 1), cnt s 0x9800 5) := by
  simp only [effSetPowerState, Nat.not_lt.2 hb, Nat.not_lt.2 h, ht, Option.isSome_none, Bool.false_eq_true, if_false]
  rw [holdForPower_idle (s := s.modPower fun p => { p with target := some (q.op 0 1) }) _ hjobs hcores]

/-! ### SANITIZE (20 R517 step 1) -/

/-- The begin record joins the journal's queue, and every block of every plane is counted. -/
theorem sanitizeBegin_leaves (s : State) : (sanitizeBegin s).power = { s.power with sanitize := ⟨true, 1, 0, planeCount s * 1080⟩ } ∧
    (sanitizeBegin s).flash.jpend = s.flash.jpend ++ [(s.seq + 1, .sanitize 1 0)] ∧ (sanitizeBegin s).objs = s.objs ∧
    (sanitizeBegin s).dram = s.dram :=
  ⟨rfl, rfl, rfl, rfl⟩

theorem sanitizeBegin_execs {r : Nat} (h : (kget s.execs r).isSome = true) : (kget (sanitizeBegin s).execs r).isSome = true := by
  have hexecs : (sanitizeBegin s).execs = kmap s.execs fun _ e => if e.wait = .sanitize then { e with work := max e.work 0 } else e := rfl
  rw [hexecs, kget_kmap, Option.isSome_map]
  exact h

/-! ### SCRUB (14 R384) -/

/-- A scrub of an aligned range takes the scrubber, or waits for the command that holds it. -/
theorem effScrub_aligned (h : q.op 8 8 = 0 ∨ (q.op 0 8 % 64 = 0 ∧ q.op 8 8 % 64 = 0 ∧ q.op 0 8 + q.op 8 8 ≤ 18014398509481984)) :
    ∃ n, effScrub q s = (s.modDram fun d => { d with scrubbing := some (s.dram.scrubbing.getD q.reg) }, .scrub, n) := by
  unfold effScrub
  dsimp only
  rw [if_neg (by omega), if_neg (by omega)]
  cases hs : s.dram.scrubbing with
  | none => exact ⟨_, rfl⟩
  | some r =>
    have hkept : some ((some r).getD q.reg) = s.dram.scrubbing := hs.symm
    exact ⟨0, by rw [hkept]; rfl⟩

end

/-- Settles O19: each effect from the state in which its command begins. -/
theorem adminCommandsBegin : Obligations.AdminCommandsBegin := by
  unfold Obligations.AdminCommandsBegin
  refine ⟨?power, ?sanitize, ?scrub⟩
  case power =>
    intro c pg s had htx
    dsimp only
    intro hb
    refine ⟨fun hlow => ?notAdmitted, fun hok hsome => ?underWay, fun hok hnone hjobs hcores => ?begins⟩
    case notAdmitted =>
      refine answers_of_effect rfl had htx (effSetPowerState_notAdmitted (q := reqOf c pg) hb (by simpa using hlow)) (execs_begun_some ..) ?_
      rintro t hw rfl
      exact ⟨hw, by simp [after]⟩
    case underWay =>
      refine answers_of_effect rfl had htx (effSetPowerState_underWay (q := reqOf c pg) hb (by simpa using hok) (by simpa using hsome))
        (execs_begun_some ..) ?_
      rintro t hw rfl
      exact ⟨hw, by simp [after]⟩
    case begins =>
      refine answers_of_effect rfl had htx (effSetPowerState_begins (q := reqOf c pg) hb (by simpa using hok) (by simpa using hnone)
        (by simpa using hjobs) (by simpa [State.core] using hcores)) (execs_begun_some ..) ?_
      rintro t hw rfl
      exact ⟨hw, by simp [after], by simp [after], by simp [after], by simp [after]⟩
  case sanitize =>
    refine fun c pg s had htx => ⟨fun hfree => ?begins, fun hpending => ?joins⟩
    case begins =>
      obtain ⟨hpower, hjournal, hobjs, hdram⟩ := sanitizeBegin_leaves (begun s 0x0103 c pg)
      have heff : effSanitize (reqOf c pg) (begun s 0x0103 c pg) = (sanitizeBegin (begun s 0x0103 c pg), .sanitize, 0) := by
        simp [effSanitize, hfree]
      refine answers_of_effect rfl had htx heff (sanitizeBegin_execs (execs_begun_some ..)) ?_
      rintro t hw rfl
      exact ⟨hw, by simp [after, hpower, planeCount], by simp [after, hjournal], by simp [after, hobjs], by simp [after, hdram]⟩
    case joins =>
      have heff : effSanitize (reqOf c pg) (begun s 0x0103 c pg) = (begun s 0x0103 c pg, .sanitize, 0) := by
        simp [effSanitize, hpending]
      refine answers_of_effect rfl had htx heff (execs_begun_some ..) ?_
      rintro t hw rfl
      exact ⟨hw, by simp [after], by simp [after]⟩
  case scrub =>
    intro c pg s had htx
    dsimp only
    intro hn
    obtain ⟨work, heff⟩ := effScrub_aligned (q := reqOf c pg) (s := begun s 0x0106 c pg) hn
    refine answers_of_effect rfl had htx heff (execs_begun_some ..) ?_
    rintro t hw rfl
    exact ⟨hw, by simp [after], by simp [after], by simp [after]⟩

end Sys2Proof.Machine

/-! ## The host link: its events, snoops, translations, the decoder and the CDAT (16 R426-R437, 20 R510) -/

namespace Sys2Proof.Machine

section
variable {s : State}

theorem linkRetrain_up (h : s.host.link ≠ .down) :
    linkRetrain s = (bump s 0x9300 8 1).modRisk fun r => { r with retrains := r.retrains ++ [s.power.uptime] } := by
  exact if_neg h

theorem ideFails_up (hup : cxlUp s = true) (hide : s.host.ide = true) :
    ideFails s = bump (s.modHost fun h => { h with ide := false, rasUncorrectable := true }) 0x9300 0xB 1 := by
  simp only [ideFails, hup, hide, Bool.not_true, Bool.or_self, Bool.false_eq_true, if_false]

/-- A command with a transfer before it, its completion lost: its end names 0x100E, and what waited in a pass or at shards for it goes. -/
def transferLost (s : State) (reg : Nat) (e : Exec) : State :=
  let s := bump s 0x9300 0xA 1
  let s : State := { s with
    execs := kset s.execs reg { e with wait := .ready 0x100E 0 }
    passes := kmap s.passes fun _ p => { p with queries := p.queries.filter fun q => !(q.owner == .register reg) } }
  s.modFab fun f => { f with shardWaits := kfilter f.shardWaits fun _ w => w.reg != reg }

theorem dmaTimeout_transfer {reg : Nat} {e : Exec} (he : kget s.execs reg = some e) (hsilent : e.silent = false)
    (hcarried : e.carried = none) (hwait : e.wait.transfers = true) (hscrub : s.dram.scrubbing ≠ some reg) :
    dmaTimeout s reg = transferLost s reg e := by
  have hgo : ¬ (e.silent || e.carried.isSome || !e.wait.transfers) = true := by simp [hsilent, hcarried, hwait]
  have hkept : (transferLost s reg e).dram.scrubbing ≠ some reg := by simpa [transferLost] using hscrub
  unfold dmaTimeout
  rw [he]
  exact (if_neg hgo).trans (if_neg hkept)

/-- A commit of the decoder comes over CXL.io, which wakes the link. -/
theorem hdmCommit_up (base : U64) (hup : cxlUp s = true) :
    hdmCommit s base = { s with host := { s.host with hdm := some base.toNat, link := .l0 } } := by
  have hwake : wake s = { s with host := { s.host with link := .l0 } } := by
    unfold wake
    split
    · rfl
    · next h =>
      have hl0 : s.host.link = .l0 := by simpa [cxlUp, h] using hup
      rw [← hl0]
  unfold hdmCommit
  rw [hup, hwake]
  rfl

end

/-- Settles O31: each event's equation; an invalidated range keeps the translations of other functions and of pages that do not meet it. -/
theorem hostLinkEventsAct : Obligations.HostLinkEventsAct := by
  unfold Obligations.HostLinkEventsAct
  refine ⟨fun s => ⟨?retrain, ?ide, ?key, ?dma, ?down, ?idle, ?retention, ?awake⟩, fun s => ⟨?snoop, ?ats, ?hdm, ?cdat⟩⟩
  case retrain =>
    intro h
    refine answers_of_exec (congrArg (done s) (linkRetrain_up h)) ⟨?_, ?_, ?_, ?_, ?_⟩
    · exact (cnt_congr (u := bump s 0x9300 8 1) rfl).trans (cnt_bump ..)
    all_goals simp
  case ide =>
    intro hup hide
    refine answers_of_exec (congrArg (done s) (ideFails_up hup hide)) ⟨?_, ?_, ?_, ?_⟩
    · simp
    · exact (cnt_congr rfl).trans (cnt_bump (s.modHost fun h => { h with ide := false, rasUncorrectable := true }) 0x9300 0xB 1)
    all_goals simp
  case key => exact fun hup hsession => becomes_of_eq rfl (if_pos (by rw [hup, hsession]; rfl))
  case dma =>
    intro reg e he hsilent hcarried hwait hscrub
    refine answers_of_exec (congrArg (done s) (dmaTimeout_transfer he hsilent hcarried hwait hscrub)) ⟨?_, ?_, ?_, ?_, ?_⟩
    · simp [transferLost, waitOf]
    · exact (cnt_congr (u := bump s 0x9300 0xA 1) rfl).trans (cnt_bump ..)
    all_goals simp [transferLost]
  case down => exact becomes_of_eq rfl rfl
  case idle => exact fun hps haspm hl0 => becomes_of_eq rfl (if_pos ⟨hps, haspm, hl0⟩)
  case retention => exact fun hps hdue => becomes_of_eq rfl (if_pos ⟨hps, hdue⟩)
  case awake =>
    exact fun hps => ⟨becomes_of_eq rfl (if_neg fun h => hps h.1), becomes_of_eq rfl (if_neg fun h => hps h.1)⟩
  case snoop => exact fun line => leaves_of_exec rfl
  case ats =>
    intro fn addr length h
    refine answers_of_exec (congrArg (done s) (if_neg h)) ⟨fun f page => ?_, rfl⟩
    rw [State.modHost_host, List.mem_filter]
    refine and_congr_right fun _ => ?_
    simp only [Bool.not_eq_true', Bool.and_eq_false_iff, beq_eq_false_iff_ne, decide_eq_false_iff_not]
    tauto
  case hdm => exact fun base hup => answers_of_exec (congrArg (done s) (hdmCommit_up base hup)) ⟨rfl, rfl, rfl⟩
  case cdat => exact fun h => becomes_of_eq rfl (if_neg h)

end Sys2Proof.Machine

/-! ## What the scheduler's operations can change (05 R144, 06 R175, R184, R186) -/

namespace Sys2Proof.Machine

/-- Only contexts, JOB headers, cores and counters move. -/
def SchedOnly (s t : State) : Prop :=
  t = { s with jobs := t.jobs, objs := t.objs, cores := t.cores, od := { s.od with cnt := t.od.cnt, pcnt := t.od.pcnt } }

theorem SchedOnly.refl (s : State) : SchedOnly s s := rfl

theorem SchedOnly.trans {s t u : State} (h : SchedOnly s t) (g : SchedOnly t u) : SchedOnly s u := by
  unfold SchedOnly at *; rw [g, h]

theorem CountsOnly.sched {s t : State} (h : CountsOnly s t) : SchedOnly s t := by
  unfold CountsOnly SchedOnly at *; rw [h]

theorem SchedOnly.power {s t : State} (h : SchedOnly s t) : t.power = s.power := by unfold SchedOnly at h; rw [h]

theorem SchedOnly.foldl {α : Type} {f : State → α → State} (h : ∀ s a, SchedOnly s (f s a)) (l : List α) (s : State) :
    SchedOnly s (l.foldl f s) := by
  induction l generalizing s with
  | nil => exact .refl s
  | cons a l ih => exact (h s a).trans (ih _)

theorem bumpP_countsOnly (s : State) (p i j n : Nat) : CountsOnly s (bumpP s p i j n) := by
  unfold CountsOnly bumpP; split <;> rfl

theorem modCtx_schedOnly (s : State) (x : CtxId) (f : Ctx → Ctx) : SchedOnly s (modCtx s x f) := rfl

theorem modCore_schedOnly (s : State) (k : Nat) (f : Core → Core) : SchedOnly s (s.modCore k f) := rfl

theorem jobNote_schedOnly (s : State) (h : Nat) (f : JobArea → JobArea) : SchedOnly s (jobNote s h f) := rfl

theorem schedBump_schedOnly (s : State) (p sub n : Nat) : SchedOnly s (schedBump s p sub n) :=
  (((bump_countsOnly _ _ _ _).sched.trans (bump_countsOnly _ _ _ _).sched).trans (bumpP_countsOnly _ _ _ _ _).sched).trans
    (bumpP_countsOnly _ _ _ _ _).sched

theorem coreBump_schedOnly (s : State) (x : CtxId) (sub n : Nat) : SchedOnly s (coreBump s x sub n) :=
  (((bump_countsOnly _ _ _ _).sched.trans (bump_countsOnly _ _ _ _).sched).trans (bumpP_countsOnly _ _ _ _ _).sched).trans
    (bumpP_countsOnly _ _ _ _ _).sched

theorem chargeIssue_schedOnly (s : State) (k : Nat) : SchedOnly s (chargeIssue s k) := by
  unfold chargeIssue
  split
  · exact ((modCore_schedOnly _ _ _).trans (schedBump_schedOnly _ _ _ _)).trans (modCtx_schedOnly _ _ _)
  · exact .refl s

theorem drainOut_schedOnly (s : State) (x : CtxId) : SchedOnly s (drainOut s x) := by
  unfold drainOut
  split
  · split
    · exact .refl s
    · exact (modCtx_schedOnly _ _ _).trans (coreBump_schedOnly _ _ _ _)
  · exact .refl s

theorem noteBlocked_schedOnly (s : State) (k : Nat) : SchedOnly s (noteBlocked s k) := rfl

theorem countResident_schedOnly (s : State) (h : Nat) : SchedOnly s (countResident s h) := jobNote_schedOnly _ _ _

theorem pickIssue_schedOnly (s : State) (k : Nat) (giveWay : Bool) : SchedOnly s (pickIssue s k giveWay) := by
  unfold pickIssue
  extract_lets charged core run best amid next left picked turned
  clear_value next
  have hcharged : SchedOnly s charged := chargeIssue_schedOnly s k
  have hleft : SchedOnly charged left := by
    dsimp only [left]
    split
    · next cur _ =>
      refine (drainOut_schedOnly charged cur).trans ?_
      split
      · split
        · exact (schedBump_schedOnly _ _ _ _).trans (jobNote_schedOnly _ _ _)
        · split
          · exact schedBump_schedOnly _ _ _ _
          · exact .refl _
      · exact .refl _
    · exact .refl _
  have hturned : SchedOnly picked turned := by
    dsimp only [turned]
    split
    · exact modCtx_schedOnly _ _ _
    · exact .refl _
  split
  · exact hcharged.trans (noteBlocked_schedOnly _ _)
  · exact (((hcharged.trans hleft).trans (modCore_schedOnly _ _ _)).trans hturned).trans (noteBlocked_schedOnly _ _)

theorem holdAll_schedOnly (s : State) (h : Nat) : SchedOnly s (holdAll s h) := by
  have hmod (f : Job → Job) : SchedOnly s (s.modJob h f) := rfl
  unfold holdAll
  refine ((hmod _).trans (SchedOnly.foldl (fun s k => ?_) _ _)).trans (countResident_schedOnly _ _)
  split
  · exact pickIssue_schedOnly _ _ _
  · exact .refl _

end Sys2Proof.Machine

/-! ## Requests for a reset (20 R512-R515, 19 R498) -/

namespace Sys2Proof.Machine

section
variable {s : State}

/-! ### PERST#, the link and the watchdogs (20 R512, 19 R498) -/

theorem perstAssert_running (h : s.host.perst = false) (hrun : s.power.phase = .running) :
    perstAssert s = requestReset { s with host := { s.host with perst := true, link := .down } } 4 := by
  unfold perstAssert
  exact (if_neg (by simp [h])).trans (if_pos hrun)

theorem perstAssert_held (h : s.host.perst = false) (hrun : s.power.phase ≠ .running) :
    perstAssert s = { s with host := { s.host with perst := true, link := .down } } := by
  unfold perstAssert
  exact (if_neg (by simp [h])).trans (if_neg hrun)

/-- The link trains for CXL or for PCIe alone. -/
theorem perstDeassert_running (cxl : Bool) (h : s.host.perst = true) (hrun : s.power.phase = .running) :
    perstDeassert s cxl = { s with host := { s.host with perst := false, cxlMode := cxl, link := if cxl then .l0 else .pcie } } := by
  unfold perstDeassert
  exact (if_neg (by simp [h])).trans (if_pos hrun)

theorem runtimeWatchdog_expired (hrun : s.power.phase = .running) (hready : s.sec.boot = .ready) (hreq : s.power.resetReq = none)
    (hpd : s.power.pd[19]? ≠ some .ret) (hdue : s.sec.dogAt + 1000 * od s 0x5100 1 ≤ s.power.uptime) : runtimeWatchdog s = watchdog s 0 :=
  if_pos ⟨hrun, hready, by simp [hreq], hpd, hdue⟩

theorem bootWatchdog_expired (hrun : s.power.phase = .running) (hboot : s.sec.boot = .booting) (hreq : s.power.resetReq = none)
    (hdue : s.sec.dogAt + 1000 * od s 0x5100 2 ≤ s.power.uptime) : bootWatchdog s = watchdog s 1 :=
  if_pos ⟨hrun, hboot, by simp [hreq], hdue⟩

/-- With no operation of the configuration flash in progress, nothing holds the reset off. -/
theorem watchdog_free (dog : Nat) (hop : s.sec.op = none) : watchdog s dog =
    requestReset ((bump s 0x5100 3 1).modSec fun c => { c with heldReset := some (dog, 0, s.power.uptime) }) (6 + dog) := by
  unfold watchdog
  simp only [hop, bump_power]

/-- From a request on, no operation of the configuration flash starts. -/
theorem cfgStart_requested {erase : Bool} {sector rank : Nat} (h : s.power.resetReq.isSome = true) : cfgStart s erase sector rank = s :=
  if_pos h

/-! ### A restart of the runtime (20 R515) -/

@[simp] theorem leaveMaint_power (s : State) (cause : Nat) : (leaveMaint s cause).power = s.power := by
  unfold leaveMaint
  split <;> simp

theorem leaveMaint_ended (s : State) (cause : Nat) : (leaveMaint s cause).od.maint = none := by
  unfold leaveMaint
  split
  · assumption
  · simp

theorem beginRestart_closes (s : State) (but : Option Nat) : (beginRestart s but).power.restarting = true ∧
    (beginRestart s but).sec.boot = .off ∧ (beginRestart s but).sec.session = false ∧ (beginRestart s but).od.maint = none := by
  unfold beginRestart
  extract_lets u v w
  have hv : v.power.restarting = true := by
    have := (SchedOnly.foldl holdAll_schedOnly (u.jobs.map (·.1)) (u.modPower fun p => { p with restarting := true })).power
    rw [show v.power = _ from this]
    rfl
  refine ⟨?_, by simp, by simp, ?_⟩
  · simpa [w] using hv
  · simp only [bump_od_maint, State.modSec_od]
    exact leaveMaint_ended v 2

/-! ### FLR of a VF (20 R514) -/

/-- A VF without commands and transactions: its registers, rings, mailbox and translations go to reset. -/
theorem functionReset_idle {fn : Nat} (hfn : fn ≠ 0) (hexecs : s.execs = []) (htxs : s.txs = []) : functionReset s fn =
    bump { s with
      regs := kfilter s.regs fun r _ => !(match kget s.pages (pageOfReg r) with | some pg => pg.fn == fn | none => false)
      rings := kfilter s.rings fun _ g => !(g.fn == fn)
      host := { s.host with
        mailboxes := kfilter s.host.mailboxes fun k _ => !(k == fn), ats := s.host.ats.filter fun a => !(a.1 == fn) } } 0x1101 3 1 := by
  have hother (f : Nat) : (fn == 0 || f == fn) = (f == fn) := by simp [hfn]
  unfold functionReset
  simp only [hexecs, htxs, hother, hfn, List.filter_nil, List.foldl_nil, false_and, if_false]
  rfl

end

/-- Settles O49: every cause goes through `requestReset`, after which `cfgStart` starts nothing; a restart is `beginRestart`. -/
theorem resetsAreRequested : Obligations.ResetsAreRequested := by
  unfold Obligations.ResetsAreRequested
  refine ⟨fun s => ⟨?perst, ?perstHeld, ?deassert, ?hot, ?noStart, ?runtime, ?boot, ?restart⟩, ?flr⟩
  case perst => exact fun h hrun => becomes_of_eq rfl (perstAssert_running h hrun)
  case perstHeld => exact fun h hrun => becomes_of_eq rfl (perstAssert_held h hrun)
  case deassert => exact fun cxl h hrun => becomes_of_eq rfl (perstDeassert_running cxl h hrun)
  case hot => exact fun h => becomes_of_eq rfl (if_neg h)
  case noStart =>
    intro hreq h
    have hsome : (s.power.resetReq.getD 5) = 5 := by rw [hreq]; rfl
    exact answers_of_exec (congrArg (done s) (if_neg h))
      ⟨congrArg some hsome, fun erase sector rank => cfgStart_requested rfl⟩
  case runtime =>
    exact fun hrun hready hreq hpd hdue hop =>
      becomes_of_eq rfl ((runtimeWatchdog_expired hrun hready hreq hpd hdue).trans (watchdog_free 0 hop))
  case boot =>
    exact fun hrun hboot hreq hdue hop => becomes_of_eq rfl ((bootWatchdog_expired hrun hboot hreq hdue).trans (watchdog_free 1 hop))
  case restart =>
    intro hrun hready hnot
    exact answers_of_exec (congrArg (done s) (if_pos ⟨hrun, hready, by simp [hnot]⟩)) (beginRestart_closes s none)
  case flr =>
    intro s fn hfn hexecs htxs
    refine answers_of_exec (congrArg (done s) (functionReset_idle hfn hexecs htxs)) ⟨?_, ?_, ?_, ?_, ?_, ?_, ?_, ?_⟩
    case refine_1 => exact bump_regs _ _ _ _
    case refine_8 => exact (cnt_congr rfl).trans (cnt_bump _ 0x1101 3 1)
    all_goals simp

end Sys2Proof.Machine

/-! ## What a loss of power and a module reset take (20 R504, R513, R516) -/

namespace Sys2Proof.Machine

/-! ### Settings and counters -/

/-- Only settings, queue pages and the routes and export groups that the dictionary holds move. -/
def SettingsOnly (s t : State) : Prop := t = { s with pages := t.pages, od := t.od, fabric := t.fabric }

theorem SettingsOnly.trans {s t u : State} (h : SettingsOnly s t) (g : SettingsOnly t u) : SettingsOnly s u := by
  unfold SettingsOnly at *; rw [g, h]

theorem restoreEntry_settingsOnly (s : State) (key v : Nat) : SettingsOnly s (restoreEntry s key v) := by
  unfold restoreEntry SettingsOnly
  dsimp only
  split
  · rfl
  · split
    · rfl
    · split
      · rfl
      · split
        · rfl
        · split
          · rfl
          · split <;> rfl

theorem restoreStore_settingsOnly (s : State) : SettingsOnly s (restoreStore s) := by
  have hfold (l : List (Nat × Nat)) (u : State) (hu : SettingsOnly s u) :
      SettingsOnly s (l.foldl (fun s e => restoreEntry s e.1 e.2) u) := by
    induction l generalizing u with
    | nil => exact hu
    | cons e l ih => exact ih _ (hu.trans (restoreEntry_settingsOnly _ _ _))
  exact hfold _ _ rfl

/-- The end of maintenance mode is logged and counted. -/
def AsideOf (s t : State) : Prop := t = { s with
  pages := t.pages, od := t.od, fabric := t.fabric, healthHigh := t.healthHigh, health := t.health, healthMark := t.healthMark, seq := t.seq
  flash := { s.flash with jpend := t.flash.jpend, jsince := t.flash.jsince } }

theorem AsideOf.trans {s t u : State} (h : AsideOf s t) (g : AsideOf t u) : AsideOf s u := by
  unfold AsideOf at *; rw [g, h]

theorem SettingsOnly.aside {s t : State} (h : SettingsOnly s t) : AsideOf s t := by
  unfold SettingsOnly AsideOf at *; rw [h]

theorem LogOnly.aside {s t : State} (h : LogOnly s t) : AsideOf s t := by
  unfold LogOnly AsideOf at *; rw [h]

theorem leaveMaint_aside (s : State) (cause : Nat) : AsideOf s (leaveMaint s cause) := by
  unfold leaveMaint
  split
  · rfl
  · have hended : AsideOf s (s.modOd fun o => { o with maint := none }) := rfl
    exact (hended.trans (logHealth_logOnly _ _ _ _).aside).trans (bump_countsOnly _ _ _ _).log.aside

theorem loseOd_aside (s : State) : AsideOf s (loseOd s) := by
  have hod (u : State) (f : Od → Od) : AsideOf u (u.modOd f) := rfl
  exact ((leaveMaint_aside s 2).trans (hod _ _)).trans (restoreStore_settingsOnly _).aside

/-! ### The module's state after a loss -/

/-- What a loss takes of work, DRAM and the host side, with the power monitor at its reset. -/
def workLost (s : State) : State := loseHost (losePower (loseWork (loseDram s)))

theorem loseState_frame (s : State) : ∃ t, AsideOf (workLost s) t ∧ loseState s = loseSec t := by
  have hfab : AsideOf (workLost s) (loseFabric (workLost s)) := rfl
  exact ⟨_, hfab.trans (loseOd_aside _), rfl⟩

/-- Registers, commands, jobs, transactions, bindings, scratchpads and parcels are lost; objects are as the durable journal gives them; host
memory, the media and the firmware slots stay. -/
structure WorkIsLost (s t : State) : Prop where
  regs : t.regs = []
  execs : t.execs = []
  jobs : t.jobs = []
  txs : t.txs = []
  branches : t.branches = []
  parcels : t.parcels = []
  spad : t.spad = []
  sump : t.sump = []
  bindings : t.host.bindings = []
  mem : t.host.mem = s.host.mem
  courses : t.flash.courses = s.flash.courses
  objs : t.objs = kmap s.durObjs fun _ o => { o with maps := 0, leaving := false, spilled := false }
  slotA : t.sec.slotA = s.sec.slotA
  slotB : t.sec.slotB = s.sec.slotB

theorem loseState_workIsLost (s : State) : WorkIsLost s (loseState s) := by
  obtain ⟨t, ht, hlost⟩ := loseState_frame s
  unfold AsideOf at ht
  rw [hlost, ht]
  constructor <;> rfl

theorem loseState_power (s : State) : (loseState s).power = (losePower (loseWork (loseDram s))).power := by
  obtain ⟨t, ht, hlost⟩ := loseState_frame s
  unfold AsideOf at ht
  rw [hlost, ht]
  rfl

/-! ### The module reset (20 R513) -/

/-- A reset's media: nothing programs, so no record of an open journal page survives it. -/
theorem recordsSurvive_reset (s : State) (n : Nat) : recordsSurvive s .reset n = s := if_pos (.inl (by decide))

theorem mediaLoss_reset (s : State) (fallback : Bool) : (mediaLoss s .reset fallback).flash.courses = [] ∧
    (mediaLoss s .reset fallback).durObjs = s.durObjs ∧ (mediaLoss s .reset fallback).host = s.host ∧
    (mediaLoss s .reset fallback).sec = s.sec := by
  unfold mediaLoss
  simp only [reduceCtorEq, if_false, recordsSurvive_reset]
  exact ⟨rfl, rfl, rfl, rfl⟩

theorem logHeld_power (s : State) : (logHeld s).power = s.power := by
  unfold logHeld
  split
  · rfl
  · dsimp only
    split <;> simp

section
variable {s t u : State} (h : WorkIsLost s t)
include h

theorem WorkIsLost.aside (hu : AsideOf t u) : WorkIsLost s u := by
  unfold AsideOf at hu
  rw [hu]
  exact ⟨h.regs, h.execs, h.jobs, h.txs, h.branches, h.parcels, h.spad, h.sump, h.bindings, h.mem, h.courses, h.objs, h.slotA, h.slotB⟩

/-- The link, the power monitor and the note of a held reset are none of it. -/
theorem WorkIsLost.monitor (hu : u = { t with
    host := { t.host with link := u.host.link }, sec := { t.sec with heldReset := u.sec.heldReset }, power := u.power }) :
    WorkIsLost s u := by
  rw [hu]
  exact ⟨h.regs, h.execs, h.jobs, h.txs, h.branches, h.parcels, h.spad, h.sump, h.bindings, h.mem, h.courses, h.objs, h.slotA, h.slotB⟩

theorem WorkIsLost.logHeld : WorkIsLost s (Machine.logHeld t) := by
  unfold Machine.logHeld
  split
  · exact h
  · have hlogged (type : Nat) (d : List Int) : WorkIsLost s (logHealth (t.modSec fun c => { c with heldReset := none }) type false d) :=
      (h.monitor rfl).aside (logHealth_logOnly _ _ _ _).aside
    dsimp only
    split
    · exact hlogged _ _
    · exact (hlogged _ _).aside (bump_countsOnly _ _ _ _).log.aside

theorem WorkIsLost.linkTrains : WorkIsLost s (Machine.linkTrains t) := by
  unfold Machine.linkTrains
  split
  · exact h
  · exact h.monitor rfl

end

/-- A requested reset, with the media and the configuration flash quiet. -/
theorem moduleReset_applies {s : State} {cause : Nat} (hreq : s.power.resetReq = some cause) (hdies : s.flash.dies = [])
    (hcfg : cfgQuiet s = true) (hholdup : s.power.holdup = false) : moduleReset s =
    enterPowerUp (linkTrains (bump ((logHeld (loseState (mediaLoss s .reset false))).modPower fun p => { p with cause := cause })
      0x1101 2 1)) := by
  unfold moduleReset
  rw [hreq]
  simp only [hdies, hcfg, hholdup, List.isEmpty_nil, Bool.not_true, Bool.or_self, Bool.false_eq_true, if_false]

theorem linkTrains_power (s : State) : (linkTrains s).power = s.power := by
  unfold linkTrains
  split <;> rfl

/-- Settles O50: everything after the media's loss keeps what `loseState` cleared. -/
theorem moduleResetClears : Obligations.ModuleResetClears := by
  unfold Obligations.ModuleResetClears
  refine fun s => ⟨?unrequested, ?busy, ?resets⟩
  case unrequested => exact fun h => becomes_of_eq rfl (by unfold moduleReset; rw [h])
  case busy =>
    intro h
    refine becomes_of_eq rfl ?_
    unfold moduleReset
    split
    · rfl
    · exact if_pos (by simp [h])
  case resets =>
    intro cause hreq hdies hcfg hholdup
    obtain ⟨hcourses, hdur, hhost, hsec⟩ := mediaLoss_reset s false
    have hlost := (((loseState_workIsLost (mediaLoss s .reset false)).logHeld.monitor
      (u := (logHeld (loseState (mediaLoss s .reset false))).modPower fun p => { p with cause := cause }) rfl).aside
        (bump_countsOnly _ 0x1101 2 1).log.aside).linkTrains
    have hafter := hlost.monitor (u := enterPowerUp _) rfl
    have hreq' : (logHeld (loseState (mediaLoss s .reset false))).power.resetReq = none := by rw [logHeld_power, loseState_power]; rfl
    refine answers_of_exec (congrArg (done s) (moduleReset_applies hreq hdies hcfg hholdup))
      ⟨hafter.regs, hafter.execs, hafter.jobs, hafter.txs, hafter.branches, hafter.parcels, hafter.spad, hafter.sump, hafter.bindings,
        hafter.courses.trans hcourses, hafter.mem.trans (congrArg HostIf.mem hhost), hafter.objs.trans (by rw [hdur]), ?cause, ?request,
        hafter.slotA.trans (congrArg Sec.slotA hsec), hafter.slotB.trans (congrArg Sec.slotB hsec)⟩
    case cause => simp only [enterPowerUp, State.modPower_power, linkTrains_power, bump_power]
    case request => simpa only [enterPowerUp, State.modPower_power, linkTrains_power, bump_power] using hreq'

end Sys2Proof.Machine

/-! ## Supply events (17 R440, R444, R449-R454, 20 R520) -/

namespace Sys2Proof.Machine

/-! ### What survives a cut leaves the power block -/

theorem foldl_power {α : Type} {f : State → α → State} (h : ∀ s a, (f s a).power = s.power) (l : List α) (s : State) :
    (l.foldl f s).power = s.power := by
  induction l generalizing s with
  | nil => rfl
  | cons a l ih => exact (ih _).trans (h s a)

theorem journalApply_power (s : State) (n : Nat) (r : JRec) : (journalApply s n r).power = s.power := by
  cases r with
  | outcome id released =>
    cases released with
    | true => rfl
    | false => unfold journalApply; dsimp only; split <;> rfl
  | _ => rfl

theorem raiseValid_power (s : State) (h top : Nat) : (raiseValid s h top).power = s.power := rfl

theorem setCount_power (s : State) (h n : Nat) : (setCount s h n).power = s.power := rfl

theorem setLog_power (s : State) (h head tail n : Nat) : (setLog s h head tail n).power = s.power := rfl

theorem unmapUnits_power (s : State) (lus : List Nat) : (unmapUnits s lus).power = s.power :=
  foldl_power (fun s lu => by split <;> rfl) _ _

theorem dropDram_power (s : State) (k : Nat) (st : ParcelState) : (dropDram s k st).power = s.power := by
  unfold dropDram
  split <;> rfl

theorem applyIdx_power (s : State) (p h : Nat) (changes : List IdxChange) : (applyIdx s p h changes).power = s.power := by
  have hbumpB (s : State) (p i j n : Nat) : (bumpB s p i j n).power = s.power :=
    (bumpP_countsOnly _ _ _ _ _).sched.power.trans (bump_power _ _ _ _)
  have hcount (s : State) (o p n : Nat) : (countSketches s o p n).power = s.power := by
    unfold countSketches
    split
    · rfl
    · exact hbumpB _ _ _ _ _
  unfold applyIdx
  split
  · rfl
  · exact (hcount _ _ _ _).trans ((hbumpB _ _ _ _ _).trans (hbumpB _ _ _ _ _))

theorem applyTx_power (s : State) (id n : Nat) (t : Tx) : (applyTx s id n t).power = s.power := by
  unfold applyTx
  extract_lets mapped kept trimmed raised counted logged indexed join joined isRow stamped changed late
  have hmapped : mapped.power = s.power := foldl_power (fun s u => by split <;> rfl) _ _
  have hkept : kept.power = mapped.power := foldl_power (fun s k => s.modParcel_power k _) _ _
  have htrimmed : trimmed.power = kept.power := foldl_power (fun s k => (dropDram_power _ _ _).trans (unmapUnits_power _ _)) _ _
  have hraised : raised.power = trimmed.power := foldl_power (fun s v => raiseValid_power s _ _) _ _
  have hcounted : counted.power = raised.power := foldl_power (fun s c => setCount_power s _ _) _ _
  have hlogged : logged.power = counted.power := foldl_power (fun s c => setLog_power s _ _ _ _) _ _
  have hindexed : indexed.power = logged.power := foldl_power (fun s h => applyIdx_power _ _ _ _) _ _
  split
  next stamp drawn hdrawn =>
    have hstamp : drawn.power = indexed.power := by
      split at hdrawn
      · exact (congrArg (fun p => p.2.power) hdrawn).symm
      · exact (congrArg (fun p => p.2.power) hdrawn).symm
    have hversioned (u : State) (l : List Nat) : (l.foldl (fun s h =>
        bumpVersion (s.modObj h fun o => { o with changeStamp := stamp }) h) u).power = u.power :=
      foldl_power (fun s h => (State.modObj_power _ _ _).trans (State.modObj_power _ _ _)) _ _
    have hjournaled (u : State) (l : List Nat) : (l.foldl (fun s h => (journalObj s h).2) u).power = u.power :=
      foldl_power (fun s h => jadd_power s _) _ _
    exact (hjournaled _ _).trans ((hversioned _ _).trans (hstamp.trans (hindexed.trans
      (hlogged.trans (hcounted.trans (hraised.trans (htrimmed.trans (hkept.trans hmapped))))))))

theorem recordsSurvive_power (s : State) (how : Loss) (n : Nat) : (recordsSurvive s how n).power = s.power := by
  have happlied (s : State) (e : Nat × JRec) : (journalApply s e.1 e.2).power = s.power := journalApply_power _ _ _
  unfold recordsSurvive
  split
  · rfl
  · refine (foldl_power (fun s e => ?_) _ _).trans (foldl_power happlied _ _)
    split
    · split
      · rfl
      · split
        · exact applyTx_power _ _ _ _
        · rfl
    · rfl

theorem mediaLoss_power (s : State) (how : Loss) (fallback : Bool) : (mediaLoss s how fallback).power = s.power := by
  refine (recordsSurvive_power _ _ _).trans ?_
  split <;> rfl

theorem leveeLoss_power (s : State) : (leveeLoss s).power = s.power := by
  unfold leveeLoss
  dsimp only
  split
  · exact mediaLoss_power _ _ _
  · split <;> exact mediaLoss_power _ _ _

theorem opRunsOn_power (s : State) : (opRunsOn s).power = s.power := by
  unfold opRunsOn
  split <;> rfl

theorem losePower_kept (s : State) : (loseState s).power.tripping = s.power.tripping ∧ (loseState s).power.aux = s.power.aux := by
  rw [loseState_power]
  exact ⟨rfl, rfl⟩

theorem cutSector_power (s : State) (k key : Nat) (erase : Bool) : (cutSector s k key erase).power = s.power :=
  foldl_power (fun s i => by dsimp only; split <;> rfl) _ _

theorem cutFlash_power (s : State) : (cutFlash s).power = s.power := by
  unfold cutFlash
  split
  · rfl
  · split
    next n drawn hdrawn =>
      have hu : drawn.power = s.power := (congrArg (fun p => p.2.power) hdrawn).symm
      extract_lets bytes cut
      have hcut : cut.power = s.power := (cutSector_power _ _ _ _).trans hu
      clear_value cut
      split
      · exact hcut
      · split
        · exact hcut
        · split
          · exact hcut
          · split <;> exact hcut

/-! ### Where a loss of supply ends -/

/-- The phase in which a loss of supply leaves the module. -/
def heldOff (p : Power) : Phase := if p.tripping then .tripped else if p.aux then .aux else .off

/-- Work is lost, and every rail but 3V3_AUX is off. -/
theorem afterBrown_loses (s t : State) (h : t.power = s.power) :
    let u := afterBrown (loseState (opRunsOn t))
    u.power.phase = heldOff s.power ∧ u.power.rails = 0 ∧ u.power.holdup = false ∧ u.regs = [] ∧ u.execs = [] ∧ u.parcels = [] := by
  have hlost := loseState_workIsLost (opRunsOn t)
  obtain ⟨htripping, haux⟩ := losePower_kept (opRunsOn t)
  have hphase : heldOff (loseState (opRunsOn t)).power = heldOff s.power := by
    unfold heldOff
    rw [htripping, haux, opRunsOn_power, h]
  exact ⟨hphase, rfl, rfl, hlost.regs, hlost.execs, hlost.parcels⟩

/-- In levee mode the brown-out sequence runs to its end. -/
theorem brownSequence_levee {s : State} (h : od s 0x2230 0 = 0) : brownSequence s =
    afterBrown (loseState (opRunsOn (leveeLoss (bump (s.modPower fun p => { p with stable := false }) 0x6103 1 1)))) := by
  refine if_neg fun hopen => ?_
  have hmode := (od_bump _ _ _ _ _ _).symm.trans hopen.1
  exact absurd (h.symm.trans hmode) (by decide)

/-- In open-course mode what was issued runs on until hold-up is exhausted. -/
theorem brownSequence_open {s : State} (h : od s 0x2230 0 = 1) (hrun : s.power.phase = .running) : brownSequence s =
    brownOff (bump (s.modPower fun p => { p with stable := false }) 0x6103 1 1) := by
  refine if_pos ⟨(od_bump _ _ _ _ _ _).trans h, ?_⟩
  rw [bump_power]
  exact hrun

/-- In open-course mode clusters and fabric go off, and no operation starts. -/
theorem brownOff_takes (s : State) : (brownOff s).power.phase = .brownout ∧ (brownOff s).power.clusters = 0 ∧ (brownOff s).spad = [] ∧
    (brownOff s).sump = [] ∧ (brownOff s).jobs = [] ∧ (brownOff s).flash.blocked = true ∧ (brownOff s).od = s.od :=
  ⟨rfl, rfl, rfl, rfl, rfl, rfl, rfl⟩

/-- The state after a loss of 3.3Vaux, before the rails are looked at. -/
def auxGone (s : State) : State :=
  (cutFlash (s.modPower fun p => { p with aux := false, i3c := none })).modSec fun c => { c with puf := none }

theorem auxGone_power (s : State) : (auxGone s).power = { s.power with aux := false, i3c := none } := cutFlash_power _

theorem auxLoss_held {s : State} (hoff : s.power.phase ≠ .off) (hsup : supplied s = false) (hbrown : s.power.phase ≠ .brownout) :
    auxLoss s = railsOff (auxGone s) .off 1 := by
  have hsup' : ¬ supplied (auxGone s) = true := by
    have hsame : supplied (auxGone s) = supplied s := by unfold supplied; rw [auxGone_power]
    simp [hsame, hsup]
  have hbrown' : (auxGone s).power.phase ≠ .brownout := by rw [auxGone_power]; exact hbrown
  exact (if_neg hoff).trans ((if_neg hsup').trans (if_neg hbrown'))

/-- Settles O51: each event by its equation; every loss of supply ends as `afterBrown_loses` says. -/
theorem supplyEventsMovePhases : Obligations.SupplyEventsMovePhases := by
  unfold Obligations.SupplyEventsMovePhases
  refine fun s => ⟨?auxGood, ?mainGood, ?railTimeout, ?retry, ?pins, ?droop, ?brownOpen, ?brownLevee, ?exhausted, ?auxLost, ?undervolt,
    ?trip, ?restart⟩
  case auxGood => exact fun h => answers_of_exec (congrArg (done s) (if_neg (not_not_intro h))) ⟨rfl, rfl, rfl, rfl, rfl⟩
  case mainGood => exact fun pins h => answers_of_exec (congrArg (done s) (if_pos h)) ⟨rfl, rfl, rfl, rfl, rfl, rfl⟩
  case railTimeout =>
    intro rail hphase hrail
    have heq : railTimeout s rail = s.modPower fun p => { p with
        phase := if 3 ≤ p.retries then .failed else .retryWait, rails := 0, stable := false, holdup := false, failedAt := p.uptime } := by
      unfold railTimeout
      simp [hphase, hrail]
    exact answers_of_exec (congrArg (done s) heq) ⟨rfl, rfl, rfl, rfl⟩
  case retry => exact fun hphase hdue => becomes_of_eq rfl (if_pos ⟨hphase, hdue⟩)
  case pins =>
    intro pins hphase hnew
    refine answers_of_exec (congrArg (done s) (if_pos ⟨.inl hphase, hnew⟩)) ⟨logHealth_power _ _ _ _, logHealth_healthHigh _ _ _ _, ?_⟩
    exact logHealth_objs _ _ _ _
  case droop =>
    intro h
    have heq : droop s = (bump s 0x6103 2 1).modRisk fun r => { r with droops := r.droops ++ [s.power.uptime] } := if_neg (by simp [h])
    refine answers_of_exec (congrArg (done s) heq) ⟨(cnt_congr (u := bump s 0x6103 2 1) rfl).trans (cnt_bump _ _ _ _), bump_power _ _ _ _, ?_⟩
    simp
  case brownOpen =>
    intro h hopen hrun
    obtain ⟨hphase, hclusters, hspad, hsump, hjobs, hblocked, hod⟩ := brownOff_takes (bump (s.modPower fun p => { p with stable := false })
      0x6103 1 1)
    have hcount := (cnt_congr hod).trans ((cnt_bump _ _ _ _).trans (congrArg (· + 1) (cnt_congr (State.modPower_od s _))))
    have heq : brownOut s = _ := (if_pos h).trans (brownSequence_open hopen hrun)
    generalize brownOff _ = u at heq hphase hclusters hspad hsump hjobs hblocked hcount
    exact answers_of_exec (congrArg (done s) heq) ⟨hphase, hclusters, hspad, hsump, hjobs, hblocked, hcount⟩
  case brownLevee =>
    intro h hlevee
    have hpower := (leveeLoss_power (bump (s.modPower fun p => { p with stable := false }) 0x6103 1 1)).trans (bump_power _ _ _ _)
    have hlost := afterBrown_loses (s.modPower fun p => { p with stable := false }) _ hpower
    have heq : brownOut s = _ := (if_pos h).trans (brownSequence_levee hlevee)
    generalize afterBrown _ = u at heq hlost
    exact answers_of_exec (congrArg (done s) heq) hlost
  case exhausted =>
    intro h
    obtain ⟨hphase, hrails, _, hregs, hexecs, hparcels⟩ := afterBrown_loses s _ (mediaLoss_power s .cut false)
    exact answers_of_exec (congrArg (done s) (if_pos h)) ⟨hphase, hrails, hregs, hexecs, hparcels⟩
  case auxLost =>
    intro hoff hsup hbrown
    exact answers_of_exec (congrArg (done s) (auxLoss_held hoff hsup hbrown))
      ⟨rfl, congrArg Power.aux (auxGone_power s), congrArg Power.i3c (auxGone_power s), rfl⟩
  case undervolt =>
    intro h
    have hlost (u : State) : (railsOff (loseState u) .undervolt 9).regs = [] ∧ (railsOff (loseState u) .undervolt 9).execs = [] :=
      ⟨(loseState_workIsLost u).regs, (loseState_workIsLost u).execs⟩
    obtain ⟨hregs, hexecs⟩ := hlost (mediaLoss s .cut (decide (od s 0x2230 0 = 0) && !mediaQuiet s))
    exact answers_of_exec (congrArg (done s) (if_pos (.inl h))) ⟨rfl, rfl, rfl, hregs, hexecs⟩
  case trip =>
    intro sensor reading h hsensor hlimit hlevee
    have hgo : ¬ (!supplied s || decide (2 ≤ sensor) || decide (reading < if sensor = 0 then (115 : Int) else 85)) = true := by
      simp only [h, Bool.not_true, Bool.false_or, Bool.or_eq_true, decide_eq_true_eq]
      omega
    have hpower := (leveeLoss_power (bump ((s.modPower fun p => { p with tripping := true }).modPower fun p =>
      { p with stable := false }) 0x6103 1 1)).trans (bump_power _ _ _ _)
    obtain ⟨hphase, hrails, _⟩ := afterBrown_loses ((s.modPower fun p => { p with tripping := true }).modPower fun p =>
      { p with stable := false }) _ hpower
    have hlogged (u : State) (d : List Int) : (logHealth (bump u 0x6103 3 1) 0x0014 false d).power = u.power :=
      (logHealth_power _ _ _ _).trans (bump_power _ _ _ _)
    have hseq := brownSequence_levee (s := s.modPower fun p => { p with tripping := true }) hlevee
    refine answers_of_exec (congrArg (done s) (if_neg hgo)) ⟨?_, ?_⟩
    · rw [hseq]
      exact (congrArg Power.phase (hlogged _ _)).trans hphase
    · rw [hseq]
      exact (congrArg Power.rails (hlogged _ _)).trans hrails
  case restart => exact fun die nand h hdie hnand => answers_of_exec (congrArg (done s) (if_pos ⟨h, hdie, hnand⟩)) ⟨rfl, rfl, rfl, rfl⟩

end Sys2Proof.Machine

/-! ## Hold-up, throttling, uptime and critical words (13 R371, 17 R450, 20 R505, R511, R520) -/

namespace Sys2Proof.Machine

/-- A health at or above the warning threshold is noted and not logged. -/
theorem measured_well {s : State} {h : Nat} (first : Bool) (hwell : od s 0x6105 3 ≤ min 100 h) : measured s h first =
    s.modPower fun p => { p with health := min 100 h, measuredAt := p.uptime } := if_neg fun hlow => Nat.not_lt.2 hwell hlow.1

theorem chargeAll_power (l : List Nat) (s : State) : (l.foldl chargeIssue s).power = s.power :=
  (SchedOnly.foldl chargeIssue_schedOnly l s).power

section
variable {s : State} {t : Sensors}

/-- What a tick of the throttle reads. -/
def atTick (s : State) (t : Sensors) : State := s.modPower fun p => { p with sensors := t, highest := max p.highest t.die }

/-- Outside PS3 a tick leaves the limit of busy dies. -/
theorem throttleTick_awake (hms : s.power.uptime % 1000 = 0) (hrun : s.power.phase = .running) (hps : s.power.ps < 3) : throttleTick s t =
    if !decide ((od s 0x6001 1 : Int) ≤ t.die) && !decide (powerCap s.power.ps < t.power) then atTick s t
    else ((List.range 32).foldl chargeIssue (atTick s t)).modPower fun p => { p with
      arr := max 8 (s.power.arr - 1), stepAt := p.uptime, thrTemp := decide ((od s 0x6001 1 : Int) ≤ t.die)
      thrPower := decide (powerCap s.power.ps < t.power)
      episode := match s.power.episode with
        | some (since, low, power) => some (since, min low (max 8 (s.power.arr - 1)), power)
        | none => some (s.power.uptime, max 8 (s.power.arr - 1), !decide ((od s 0x6001 1 : Int) ≤ t.die)) } := by
  have hgo : ¬ (s.power.uptime % 1000 ≠ 0 ∨ s.power.phase ≠ .running) := by simp [hms, hrun]
  have hawake : decide (s.power.ps ≤ 2) = true := decide_eq_true (by omega)
  have hsensed : (s.modPower fun p => { p with
      sensors := t, highest := max p.highest t.die
      dieLimit := if p.ps = 3 then limitDies p (if s.ident.small then 128 else 256) t.power else p.dieLimit }) = atTick s t := by
    simp only [State.modPower, atTick, if_neg (Nat.ne_of_lt hps)]
  unfold throttleTick
  rw [if_neg hgo]
  dsimp only
  rw [hsensed, hawake, Bool.true_and]
  rfl

end

/-- Settles O52: each measurement by its equation; the issue time that a step charges leaves the power block. -/
theorem measurementsAct : Obligations.MeasurementsAct := by
  unfold Obligations.MeasurementsAct
  refine fun s => ⟨?ready, ?daily, ?tick, ?stepUp, ?hour, ?vote⟩
  case ready =>
    intro h hrun hnot hwell
    have hgo : (s.power.phase = .running ∨ s.power.phase = .rails) ∧ (!s.power.holdup) = true := ⟨.inl hrun, by rw [hnot]; rfl⟩
    have heq : holdupReady s h = _ := if_pos hgo
    rw [measured_well (s := s.modPower fun p => { p with holdup := true }) true hwell] at heq
    exact becomes_of_eq rfl heq
  case daily =>
    intro h hready hdue hwell
    have heq : holdupMeasured s h = _ := if_pos ⟨hready, hdue⟩
    rw [measured_well (s := s.modPower fun p => { p with healthZero := false }) false hwell] at heq
    exact becomes_of_eq rfl heq
  case tick =>
    intro t hms hrun hps
    refine ⟨fun hhot hnone => ?_, fun hcool hlight => ?_⟩
    · refine becomes_of_eq rfl ((throttleTick_awake hms hrun hps).trans ?_)
      rw [decide_eq_true hhot, hnone]
      rfl
    · refine becomes_of_eq rfl ((throttleTick_awake hms hrun hps).trans (if_pos ?_))
      rw [decide_eq_false (Int.not_le.2 hcool), decide_eq_false (Nat.not_lt.2 hlight)]
      rfl
  case stepUp =>
    intro t hrun harr hcool hlight hdue
    have hgo : ¬ (s.power.phase ≠ .running ∨ 16 ≤ s.power.arr ∨ (!decide (t.die < (od s 0x6001 1 : Int) - (od s 0x6001 2 : Int))) = true ∨
        (!decide (t.power * 100 < powerCap s.power.ps * 95)) = true ∨ s.power.uptime < s.power.stepAt + 10000) := by
      simp only [hrun, hcool, hlight, decide_true, Bool.not_true, Bool.false_eq_true, ne_eq, not_true_eq_false, false_or]
      omega
    have hbelow (u : State) (hu : u.power = s.power) : (u.modPower fun p => { p with
        sensors := t, arr := p.arr + 1, stepAt := p.uptime, thrTemp := false, thrPower := false }).power.arr ≠ 16 := by
      simp only [State.modPower_power, hu]
      omega
    have heq : throttleUp s t = _ := if_neg hgo
    exact becomes_of_eq rfl (heq.trans (if_neg (hbelow _ (chargeAll_power _ s))))
  case hour =>
    intro t hpos hdue hnone
    have hgo : ¬ (s.power.uptime = 0 ∨ s.power.uptime % 3600000000 ≠ 0) := by omega
    have heq : uptimeHour s t = _ := if_neg hgo
    have hcount := cnt_bump s 0x1100 2 1
    have hpower := bump_power s 0x1100 2 1
    generalize bump s 0x1100 2 1 = u at heq hcount hpower
    dsimp only at heq
    rw [hpower, hnone, hcount] at heq
    refine answers_of_exec (congrArg (done s) heq) ⟨hcount, rfl, rfl, ?_⟩
    simp only [State.modPower_power, hpower, Nat.add_zero]
  case vote => exact answers_of_exec rfl (congrArg Power.critical (bump_power _ _ _ _))

end Sys2Proof.Machine

/-! ## An access of the object dictionary by an open path (16 R434, R435, 17 R443, 18 R457-R470) -/

namespace Sys2Proof.Machine

/-! ### What an access may change beside its own effect -/

/-- Only the host interface, the security unit, the fabric and counters move. -/
def AccessOnly (s t : State) : Prop := t = { s with
  host := t.host, sec := t.sec, fabric := t.fabric, od := { s.od with cnt := t.od.cnt, pcnt := t.od.pcnt } }

theorem AccessOnly.refl (s : State) : AccessOnly s s := rfl

theorem AccessOnly.trans {s t u : State} (h : AccessOnly s t) (g : AccessOnly t u) : AccessOnly s u := by
  unfold AccessOnly at *; rw [g, h]

theorem SecOnly.access {s t : State} (h : SecOnly s t) : AccessOnly s t := by
  unfold SecOnly AccessOnly at *; rw [h]

theorem answerPath_accessOnly (s : State) (path : OdPath) (type tag status : Nat) (b : List Byte) :
    AccessOnly s (answerPath s path type tag status b) := by
  have h := answerPath_frame s path type tag status b
  generalize answerPath s path type tag status b = t at h
  unfold AccessOnly
  rw [h]

theorem AccessOnly.objs {s t : State} (h : AccessOnly s t) : t.objs = s.objs := by unfold AccessOnly at h; rw [h]
theorem AccessOnly.regs {s t : State} (h : AccessOnly s t) : t.regs = s.regs := by unfold AccessOnly at h; rw [h]
theorem AccessOnly.pages {s t : State} (h : AccessOnly s t) : t.pages = s.pages := by unfold AccessOnly at h; rw [h]
theorem AccessOnly.flash {s t : State} (h : AccessOnly s t) : t.flash = s.flash := by unfold AccessOnly at h; rw [h]
theorem AccessOnly.jobs {s t : State} (h : AccessOnly s t) : t.jobs = s.jobs := by unfold AccessOnly at h; rw [h]
theorem AccessOnly.vals {s t : State} (h : AccessOnly s t) : t.od.vals = s.od.vals := by unfold AccessOnly at h; rw [h]
theorem AccessOnly.maint {s t : State} (h : AccessOnly s t) : t.od.maint = s.od.maint := by unfold AccessOnly at h; rw [h]
theorem AccessOnly.maintAt {s t : State} (h : AccessOnly s t) : t.od.maintAt = s.od.maintAt := by unfold AccessOnly at h; rw [h]
theorem AccessOnly.paths {s t : State} (h : AccessOnly s t) : t.od.paths = s.od.paths := by unfold AccessOnly at h; rw [h]

/-- How a write ends: answered at once on its path, or later by what it waits for. -/
def putEnds (p : Put) (path : OdPath) (tag : Nat) : State :=
  match p with
  | (.now status, u) => answerPath u path odWriteType tag status []
  | (.later, u) => u

@[simp] theorem putEnds_now (u : State) (status : Nat) (path : OdPath) (tag : Nat) :
    putEnds (.now status, u) path tag = answerPath u path odWriteType tag status [] := rfl

@[simp] theorem putEnds_later (u : State) (path : OdPath) (tag : Nat) : putEnds (.later, u) path tag = u := rfl

theorem putEnds_accessOnly {p : Put} (path : OdPath) (tag : Nat) : AccessOnly p.2 (putEnds p path tag) := by
  obtain ⟨st | _, u⟩ := p
  · exact answerPath_accessOnly _ _ _ _ _ _
  · exact .refl u

theorem keep_accessOnly (s : State) (items : List (Nat × Nat)) (path : OdPath) (tag : Nat) : AccessOnly s (keep s items path tag).2 :=
  (storeWriteFor_secOnly _ _ _ _ _).access

/-! ### At the OD server -/

section
variable {s : State} {r : OdReq} {tag : Nat} {data : List Byte} {o : ReadOutcome}

/-- An access to an entry of this module that its path's view lets it reach. -/
structure Local (s : State) (r : OdReq) (e : OdEntry) (write : Bool) : Prop where
  entry : odEntry r.index r.sub = some e
  here : r.remote = none
  fits : r.length ≤ pathLimit r.path
  view : viewAllows s (viewOf s r.path) write r.index r.sub = true

variable {e : OdEntry}

/-- An access to another module is none; so the entry and the view decide. -/
theorem odAccess_local {write : Bool} (h : Local s r e write) : odAccess s r tag write data o =
    if write then putEnds (localWrite s r tag data) r.path tag
    else answerPath (localRead s r o).2 r.path odReadType tag (localRead s r o).1.1 (localRead s r o).1.2 := by
  obtain ⟨hentry, hhere, hfits, hview⟩ := h
  have hexists : odExists r.index r.sub = true := by simp [odExists, hentry]
  have hview' : ¬ (!viewAllows s (viewOf s r.path) write r.index r.sub) = true := by simp [hview]
  have hexists' : ¬ (!odExists r.index r.sub) = true := by simp [hexists]
  unfold odAccess
  dsimp only
  rw [hhere, Option.isSome_none, Bool.and_false, if_neg Bool.false_ne_true, if_neg (Nat.not_lt.2 hfits)]
  split
  · next m haway => split at haway <;> contradiction
  · rw [if_neg hexists', if_neg hview']
    generalize localWrite s r tag data = put
    generalize localRead s r o = read
    obtain ⟨⟨st, b⟩, u⟩ := read
    cases write with
    | false => simp only [Bool.false_eq_true, if_false]
    | true =>
      obtain ⟨st | _, u⟩ := put
      · simp only [if_true, putEnds_now]
      · simp only [if_true, putEnds_later]

/-- A scalar entry is read whole. -/
theorem localRead_scalar (hentry : odEntry r.index r.sub = some e) (hkind : e.kind = .scalar) (hoff : r.offset = 0) (hlen : r.length = e.size)
    (hfixed : isMeasured r.index r.sub = false) : localRead s r o = ((0, toLE e.size (scalarValue s r.path e r.index r.sub)), s) := by
  have hwhole : ¬ (r.offset ≠ 0 ∨ r.length ≠ e.size) := by simp [hoff, hlen]
  unfold localRead
  simp only [hentry, hkind, if_neg hwhole, hfixed, Bool.false_eq_true, if_false]

/-- The access code admits a write of the path (18 R459, R462). -/
def Writable (s : State) (path : OdPath) (e : OdEntry) : Prop :=
  e.access = .rw ∨ e.access = .wo ∨ e.access = .rws ∧ s.od.maint = some path

theorem localWrite_admitted (hentry : odEntry r.index r.sub = some e) (hw : Writable s r.path e) (hoff : r.offset = 0)
    (hlen : r.length = e.size) (hdata : data.length = e.size) : localWrite s r tag data = match e.kind with
      | .scalar => scalarWrite (putOff s r.path) r.path e r.index r.sub (leNat data) tag
      | .raw => rawWrite (putOff s r.path) r.path r.index r.sub tag data := by
  have haccess : ¬ (e.access = .ro ∨ e.access = .const) := by
    rintro (h | h) <;> simp [Writable, h] at hw
  have hmaint : ¬ (e.access = .rws ∧ s.od.maint ≠ some r.path) := by
    rintro ⟨h, hnot⟩
    simp [Writable, h, hnot] at hw
  have hwhole : ¬ (r.offset ≠ 0 ∨ r.length ≠ e.size ∨ data.length ≠ e.size) := by simp [hoff, hlen, hdata]
  unfold localWrite
  rw [hentry]
  dsimp only
  rw [if_neg haccess, if_neg hmaint, if_neg hwhole]
  rfl

/-- A write of an rws entry by a path that does not hold maintenance mode. -/
theorem localWrite_locked (hentry : odEntry r.index r.sub = some e) (hrws : e.access = .rws) (hmaint : s.od.maint ≠ some r.path) :
    localWrite s r tag data = (.now 0x5005, s) := by
  have haccess : ¬ (e.access = .ro ∨ e.access = .const) := by simp [hrws]
  unfold localWrite
  rw [hentry]
  dsimp only
  rw [if_neg haccess, if_pos ⟨hrws, hmaint⟩]

end

/-! ### By the transports -/

section
variable {s : State} {r : OdReq} {data : List Byte} {o : ReadOutcome} {write : Bool}

theorem odUp_spec (h : odUp s = true) : s.power.phase = .running ∧ s.sec.boot = .ready ∧ s.power.restarting = false := by
  simpa [odUp, and_assoc] using h

/-- A command is written to a free mailbox, whose doorbell is set. -/
def rung (s : State) (k opcode length : Nat) : State := s.modHost fun h => { h with
  mailboxes := kset h.mailboxes k { boxOf s k with opcode := opcode, length := length, control := (boxOf s k).control ||| 1#3 } }

theorem mailboxBegin_free {k opcode length : Nat} {run : State → State} (h : BoxFree s k) :
    mailboxBegin s k opcode length run = run (rung s k opcode length) := by
  obtain ⟨hreach, hdoor⟩ := h
  have hreach' : ¬ (!mailboxUp s k) = true := by simp [hreach]
  have hdoor' : ¬ ((kget s.host.mailboxes k).getD {}).control.getLsbD 0 = true := (Bool.eq_false_iff).1 hdoor
  unfold mailboxBegin
  rw [if_neg hreach']
  dsimp only
  rw [if_neg hdoor']
  rfl

theorem mailboxBegin_busy {k opcode length : Nat} {run : State → State} (hreach : mailboxUp s k = true)
    (hdoor : (boxOf s k).control.getLsbD 0 = true) : mailboxBegin s k opcode length run = s.modHost fun h => { h with
      mailboxes := kset h.mailboxes k { boxOf s k with returnCode := 6, extStatus := 0 }, bus := .status 6 [] } := by
  have hreach' : ¬ (!mailboxUp s k) = true := by simp [hreach]
  exact (if_neg hreach').trans (if_pos hdoor)

theorem boxOf_rung (s : State) (k opcode length : Nat) : boxOf (rung s k opcode length) k =
    { boxOf s k with opcode := opcode, length := length, control := (boxOf s k).control ||| 1#3 } := by
  unfold boxOf rung
  rw [State.modHost_host, kget_kset_same, Option.getD_some]
  rfl

/-- A mailbox's command is no second write of the power-loss mode while one is under way (16 R434). -/
def NotBusy (s : State) (r : OdReq) (write : Bool) : Prop :=
  ∀ k, mailboxOf r.path = some k → ¬ ((boxOf s k).bgOp && write && r.index == 0x2230) = true

theorem mailboxOd_open {k : Nat} (hk : mailboxOf r.path = some k) (hopen : PathOpen s r.path write) (hbusy : NotBusy s r write) :
    mailboxOd s k write r data o = odAccess (opened s r.path write data.length) r 0 write data o := by
  obtain ⟨hup, hpath⟩ := hopen
  have hfree : BoxFree s k := by
    cases hp : r.path <;> rw [hp] at hpath hk <;> simp only [mailboxOf, reduceCtorEq, Option.some.injEq] at hk <;> subst hk <;> exact hpath
  obtain ⟨_, hready, _⟩ := odUp_spec hup
  have hbox : opened s r.path write data.length = wakeManagement (rung s k (if write then 0xC001 else 0xC000) (16 + data.length)) := by
    unfold opened
    rw [hk]
    rfl
  rw [hbox]
  refine (mailboxBegin_free hfree).trans ?_
  have hup' : odUp (rung s k (if write then 0xC001 else 0xC000) (16 + data.length)) = true := hup
  have hbusy' : ¬ ((boxOf (rung s k (if write then 0xC001 else 0xC000) (16 + data.length)) k).bgOp && write && r.index == 0x2230) = true := by
    rw [boxOf_rung]
    exact hbusy k hk
  refine (if_neg ?_).trans (if_neg ?_)
  · show s.sec.boot ≠ .recovery
    simp [hready]
  · rw [hup', Bool.not_true, Bool.false_or]
    exact hbusy'

theorem mctpOd_open {eid : Nat} (hp : r.path = .mctp eid) (secured : Bool) (hopen : PathOpen s r.path write) :
    mctpOd s (Config.constValue (odKey 0x1000 2) % 65536) secured r write data o =
      odAccess (opened s r.path write data.length) r 0 write data o := by
  obtain ⟨hup, hpath⟩ := hopen
  rw [hp] at hpath
  obtain ⟨haux, hsecured⟩ := hpath
  obtain ⟨hrun, hready, _⟩ := odUp_spec hup
  have hbox : opened s r.path write data.length = wakeManagement s := by
    unfold opened
    rw [hp]
    rfl
  have hvendor : scalarNow s r.path ⟨0x1000, 1, 2, 2, .scalar, .const, 0, false, 0, 65535⟩ 0x1000 2 =
    Config.constValue (odKey 0x1000 2) % 65536 := rfl
  have hlevel : ¬ (write && od s 0x5001 6 == 1 && !(secured && s.sec.sessions.any fun q => !q.1)) = true := by
    cases write with
    | false => simp
    | true => simp [hsecured rfl]
  unfold mctpOd
  dsimp only
  rw [hvendor, hbox, if_neg (by simp [haux]), if_neg (by simp [hrun]), if_neg (by simp [hready]), if_neg (by simp [hup]), if_neg hlevel]

theorem opened_fabric (m : Nat) (len : Nat) : opened s (.fabric m) write len = wakeManagement s := rfl

theorem fabricOd_open {m port tag : Nat} (hp : r.path = .fabric m) (hhere : r.remote = none) (hopen : PathOpen s r.path write)
    (hcarries : (s.port port).state.carries = true) (hlow : write = true → (s.port port).state ≠ .upLow) :
    fabricOd s port tag r write data o = odAccess (opened s r.path write data.length) r tag write data o := by
  obtain ⟨path, index, sub, remote, offset, length⟩ := r
  dsimp only at hp hhere hopen
  subst hp hhere
  obtain ⟨hup, hallow⟩ := hopen
  have hadmits : ¬ (write && ((s.port port).state == .upLow || !s.fabric.allow.getLsbD m)) = true := by
    cases write with
    | false => simp
    | true => simp [hallow rfl, hlow rfl]
  unfold fabricOd
  dsimp only
  rw [if_neg (by simp [hup, hcarries]), if_neg hadmits]
  rfl

/-- An access that a command of its own spells. -/
theorem odBy_open {path : OdPath} {index sub len offset : Nat} (hopen : PathOpen s path write)
    (hbusy : NotBusy s ⟨path, index, sub, none, offset, len⟩ write) : odBy s path write index sub len data o offset =
    odAccess (opened s path write data.length) ⟨path, index, sub, none, offset, len⟩ 0 write data o := by
  cases path with
  | pf => exact mailboxOd_open rfl hopen hbusy
  | vf n => exact mailboxOd_open rfl hopen hbusy
  | mctp eid => exact mctpOd_open rfl false hopen
  | fabric m =>
    obtain ⟨hup, hallow⟩ := hopen
    have hadmits : ¬ (write && !s.fabric.allow.getLsbD m) = true := by
      cases write with
      | false => simp
      | true => simp [hallow rfl]
    unfold odBy
    dsimp only
    rw [if_neg (by simp [hup]), if_neg hadmits]
    rfl

end

/-! ### What a path's transport leaves -/

/-- Only the host interface, PD19 and the idle time of maintenance mode move. -/
def TransportOnly (s t : State) : Prop := t = { s with
  host := t.host, power := { s.power with odAt := t.power.odAt, pd := t.power.pd }, od := { s.od with maintAt := t.od.maintAt } }

theorem TransportOnly.trans {s t u : State} (h : TransportOnly s t) (g : TransportOnly t u) : TransportOnly s u := by
  unfold TransportOnly at *; rw [g, h]

theorem wakeManagement_transportOnly (s : State) : TransportOnly s (wakeManagement s) := by
  unfold wakeManagement
  split <;> rfl

theorem opened_transportOnly (s : State) (path : OdPath) (write : Bool) (len : Nat) : TransportOnly s (opened s path write len) := by
  unfold opened
  refine TransportOnly.trans ?_ (wakeManagement_transportOnly _)
  split <;> rfl

theorem putOff_transportOnly (s : State) (path : OdPath) : TransportOnly s (putOff s path) := by
  unfold putOff
  split <;> rfl

theorem writing_transportOnly (s : State) (path : OdPath) (len : Nat) : TransportOnly s (writing s path len) :=
  (opened_transportOnly s path true len).trans (putOff_transportOnly _ path)

section
variable {s t : State} (h : TransportOnly s t)
include h

theorem TransportOnly.objs : t.objs = s.objs := by unfold TransportOnly at h; rw [h]
theorem TransportOnly.regs : t.regs = s.regs := by unfold TransportOnly at h; rw [h]
theorem TransportOnly.pages : t.pages = s.pages := by unfold TransportOnly at h; rw [h]
theorem TransportOnly.flash : t.flash = s.flash := by unfold TransportOnly at h; rw [h]
theorem TransportOnly.jobs : t.jobs = s.jobs := by unfold TransportOnly at h; rw [h]
theorem TransportOnly.branches : t.branches = s.branches := by unfold TransportOnly at h; rw [h]
theorem TransportOnly.sec : t.sec = s.sec := by unfold TransportOnly at h; rw [h]
theorem TransportOnly.fabric : t.fabric = s.fabric := by unfold TransportOnly at h; rw [h]
theorem TransportOnly.seq : t.seq = s.seq := by unfold TransportOnly at h; rw [h]
theorem TransportOnly.ident : t.ident = s.ident := by unfold TransportOnly at h; rw [h]
theorem TransportOnly.dram : t.dram = s.dram := by unfold TransportOnly at h; rw [h]
theorem TransportOnly.rings : t.rings = s.rings := by unfold TransportOnly at h; rw [h]
theorem TransportOnly.uptime : t.power.uptime = s.power.uptime := by unfold TransportOnly at h; rw [h]
theorem TransportOnly.vals : t.od.vals = s.od.vals := by unfold TransportOnly at h; rw [h]
theorem TransportOnly.maint : t.od.maint = s.od.maint := by unfold TransportOnly at h; rw [h]
theorem TransportOnly.modes : t.od.modes = s.od.modes := by unfold TransportOnly at h; rw [h]

theorem TransportOnly.pathSt (path : OdPath) : Machine.pathSt t path = Machine.pathSt s path := by
  unfold TransportOnly at h; rw [h]; rfl

theorem TransportOnly.odDefault (index sub : Nat) : Machine.odDefault t index sub = Machine.odDefault s index sub := by
  unfold TransportOnly at h; rw [h]; rfl

theorem TransportOnly.od (index sub : Nat) : Machine.od t index sub = Machine.od s index sub := by
  unfold TransportOnly at h; rw [h]; rfl

theorem TransportOnly.viewAllows (path : OdPath) (write : Bool) (index sub : Nat) :
    Machine.viewAllows t (viewOf t path) write index sub = Machine.viewAllows s (viewOf s path) write index sub := by
  unfold TransportOnly at h; rw [h]
  cases path <;> rfl

end

/-- Setting an entry lists its value, or takes it off the list at its default. -/
theorem odSet_vals (s : State) (index sub v : Nat) : (odSet s index sub v).od.vals =
    if v = odDefault s index sub then kdel s.od.vals (odKey index sub) else kset s.od.vals (odKey index sub) v := rfl

/-! ### A write of an open path -/

section
variable {s : State} {path : OdPath} {e : OdEntry} {index sub v tag : Nat} {put : Put}

theorem scalarWrite_order (h : isOrder index sub = true) : scalarWrite s path e index sub 1 tag = orderWrite s path index sub tag :=
  (if_pos h).trans (if_pos rfl)

theorem scalarWrite_special (h : isOrder index sub = false) (hlo : e.lo ≤ v) (hhi : v ≤ e.hi)
    (hput : specialWrite s path index sub v tag = some put) : scalarWrite s path e index sub v tag = put := by
  have hrange : ¬ (v < e.lo ∨ e.hi < v) := by omega
  unfold scalarWrite
  rw [h, if_neg Bool.false_ne_true, if_neg hrange, hput]

/-- An entry without a behaviour of its own takes the value; one that persists is kept. -/
theorem scalarWrite_plain (h : isOrder index sub = false) (hlo : e.lo ≤ v) (hhi : v ≤ e.hi)
    (hnone : specialWrite s path index sub v tag = none) : scalarWrite s path e index sub v tag =
    if e.persistent then keep (odSet s index sub v) [(odKey index sub, v)] path tag else okPut (odSet s index sub v) := by
  have hrange : ¬ (v < e.lo ∨ e.hi < v) := by omega
  unfold scalarWrite
  rw [h, if_neg Bool.false_ne_true, if_neg hrange, hnone]

end

theorem leNat_toLE {k n : Nat} (h : n < 256 ^ k) : leNat (toLE k n) = n := by
  induction k generalizing n with
  | zero => exact (Nat.lt_one_iff.1 h).symm
  | succ k ih =>
    have hrest : n / 256 < 256 ^ k := Nat.div_lt_of_lt_mul (by rwa [Nat.pow_succ, Nat.mul_comm] at h)
    simp only [toLE, leNat, ih hrest, BitVec.toNat_ofNat, Nat.reducePow]
    omega

theorem pathLimit_ge (path : OdPath) : 1024 ≤ pathLimit path := by cases path <;> simp [pathLimit]

/-- A write of a plain entry by an open path sets it, and beside it only the answer and the store move. -/
theorem plainWrite_sets {s : State} {r : OdReq} {e : OdEntry} {v tag : Nat} (hentry : odEntry r.index r.sub = some e) (hhere : r.remote = none)
    (hoff : r.offset = 0) (hlen : r.length = e.size) (hkind : e.kind = .scalar) (hsize : e.size ≤ 8) (hrw : e.access = .rw)
    (hlo : e.lo ≤ v) (hhi : v ≤ e.hi) (hv : v < 256 ^ e.size)
    (hview : viewAllows (writing s r.path e.size) (viewOf (writing s r.path e.size) r.path) true r.index r.sub = true)
    (horder : isOrder r.index r.sub = false) (hnone : specialWrite (writing s r.path e.size) r.path r.index r.sub v tag = none) :
    AccessOnly (odSet (writing s r.path e.size) r.index r.sub v)
      (odAccess (opened s r.path true e.size) r tag true (toLE e.size v) .hard) := by
  have hfits : r.length ≤ pathLimit r.path := by have := pathLimit_ge r.path; omega
  have hlocal : Local (opened s r.path true e.size) r e true :=
    ⟨hentry, hhere, hfits, ((putOff_transportOnly (opened s r.path true e.size) r.path).viewAllows r.path true r.index r.sub).symm.trans hview⟩
  have hput : localWrite (opened s r.path true e.size) r tag (toLE e.size v) =
      if e.persistent then keep (odSet (writing s r.path e.size) r.index r.sub v) [(odKey r.index r.sub, v)] r.path tag
      else okPut (odSet (writing s r.path e.size) r.index r.sub v) := by
    rw [localWrite_admitted hentry (.inl hrw) hoff hlen (toLE_length _ _), hkind]
    dsimp only
    rw [leNat_toLE hv]
    exact scalarWrite_plain horder hlo hhi hnone
  rw [odAccess_local hlocal, if_pos rfl, hput]
  split
  · exact (keep_accessOnly _ _ _ _).trans (putEnds_accessOnly _ _)
  · exact putEnds_accessOnly (p := okPut (odSet (writing s r.path e.size) r.index r.sub v)) _ _

/-- A write of a plain entry leaves objects, media and registers, and its value is listed unless it is the default. -/
theorem AccessOnly.setsEntry {s u : State} {path : OdPath} {len index sub v : Nat}
    (h : AccessOnly (odSet (writing s path len) index sub v) u) : u.objs = s.objs ∧ u.flash = s.flash ∧ u.regs = s.regs ∧
    u.od.vals = if v = odDefault s index sub then kdel s.od.vals (odKey index sub) else kset s.od.vals (odKey index sub) v := by
  have ht := writing_transportOnly s path len
  have hvals := h.vals
  rw [odSet_vals, ht.odDefault, ht.vals] at hvals
  exact ⟨h.objs.trans ht.objs, h.flash.trans ht.flash, h.regs.trans ht.regs, hvals⟩

end Sys2Proof.Machine

/-! ## Reads and writes of the object dictionary (16 R435, 18 R457-R460, R469, R470) -/

namespace Sys2Proof.Machine

/-- Settles O22: every open path leads to the one access at the OD server, which reads a whole scalar entry and sets a plain one. -/
theorem dictionaryReadsAndWrites : Obligations.DictionaryReadsAndWrites := by
  unfold Obligations.DictionaryReadsAndWrites
  intro s r e hentry hhere hoff hlen hkind hsize
  have hfits : r.length ≤ pathLimit r.path := by have := pathLimit_ge r.path; omega
  refine ⟨fun hopen hfixed => ?read, fun v len hlenv hopen hrw hlo hhi hv => ?write⟩
  case read =>
    intro o hview u
    have hread (tag : Nat) : odAccess o r tag false [] .hard = u tag := by
      rw [odAccess_local (e := e) ⟨hentry, hhere, hfits, hview⟩, localRead_scalar hentry hkind hoff hlen hfixed]
      rfl
    have hbusy : NotBusy s r false := fun k _ => by simp
    refine ⟨fun k hk => ?_, fun eid secured v hp hvendor => ?_, fun m port tag hp hcarries => ?_⟩
    · refine becomes_of_eq (v := mailboxOd s k false r [] .hard) ?_ ((mailboxOd_open hk hopen hbusy).trans (hread 0))
      exact congrArg (done s) (by rw [hk])
    · refine becomes_of_eq (v := mctpOd s v.toNat secured r false [] .hard) ?_ ?_
      · exact congrArg (done s) (by rw [hp])
      · rw [hvendor]
        exact (mctpOd_open hp secured hopen).trans (hread 0)
    · exact becomes_of_eq rfl ((fabricOd_open hp hhere hopen hcarries (fun h => absurd h Bool.false_ne_true)).trans (hread tag))
  case write =>
    subst hlenv
    intro o hview hmode horder hnone holds
    have hsets (tag : Nat) := (plainWrite_sets hentry hhere hoff hlen hkind hsize hrw hlo hhi hv hview horder (hnone tag)).setsEntry
    have hlength : (toLE e.size v).length = e.size := toLE_length _ _
    have hbusy : NotBusy s r true := fun k _ => by simp [hmode]
    refine ⟨fun k hk => ?_, fun eid secured w hp hvendor => ?_, fun m port tag hp hcarries hlow => ?_⟩
    · refine answers_of_exec (u := odAccess (opened s r.path true e.size) r 0 true (toLE e.size v) .hard) ?_ (hsets 0)
      have heq := mailboxOd_open (o := .hard) (data := toLE e.size v) hk hopen hbusy
      rw [hlength] at heq
      have hexec : exec (.odWrite r (toLE e.size v)) s = done s (mailboxOd s k true r (toLE e.size v) .hard) := congrArg (done s) (by rw [hk])
      exact hexec.trans (congrArg (done s) heq)
    · refine answers_of_exec (u := odAccess (opened s r.path true e.size) r 0 true (toLE e.size v) .hard) ?_ (hsets 0)
      have heq := mctpOd_open (o := .hard) (data := toLE e.size v) hp secured hopen
      rw [hlength, ← hvendor] at heq
      have hexec : exec (.mctpOdWrite w secured r (toLE e.size v)) s = done s (mctpOd s w.toNat secured r true (toLE e.size v) .hard) :=
        congrArg (done s) (by rw [hp])
      exact hexec.trans (congrArg (done s) heq)
    · refine answers_of_exec (u := odAccess (opened s r.path true e.size) r tag true (toLE e.size v) .hard) ?_ (hsets tag)
      have heq := fabricOd_open (tag := tag) (o := .hard) (data := toLE e.size v) hp hhere hopen hcarries (fun _ => hlow)
      rw [hlength] at heq
      exact congrArg (done s) heq

end Sys2Proof.Machine

/-! ## Orders and settings of the object dictionary (18 R459, R460, R471) -/

namespace Sys2Proof.Machine

/-! ### A command that spells a write, by a path with the module's view -/

theorem viewAllows_module {path : OdPath} (h : ModulePath path) (s : State) (write : Bool) (index sub : Nat) :
    viewAllows s (viewOf s path) write index sub = true := by
  cases path with
  | vf n => exact h.elim
  | _ => rfl

section
variable {s : State} {path : OdPath} {index sub : Nat} {e : OdEntry} {data : List Byte}

/-- The entry that a command names, and that the path's transport takes its write. -/
structure Named (s : State) (path : OdPath) (index sub : Nat) (e : OdEntry) : Prop where
  module : ModulePath path
  isOpen : PathOpen s path true
  entry : odEntry index sub = some e
  size : e.size ≤ 1024
  free : index ≠ 0x2230 ∨ ∀ k, mailboxOf path = some k → (boxOf s k).bgOp = false

theorem odPut_access (h : Named s path index sub e) (hdata : data.length = e.size) : odPut s path index sub data =
    putEnds (localWrite (opened s path true e.size) ⟨path, index, sub, none, 0, e.size⟩ 0 data) path 0 := by
  have hbusy : NotBusy s ⟨path, index, sub, none, 0, data.length⟩ true := fun k hk => by
    rcases h.free with hne | hfree
    · simp [hne]
    · simp [hfree k hk]
  have hlocal : Local (opened s path true e.size) ⟨path, index, sub, none, 0, e.size⟩ e true :=
    ⟨h.entry, rfl, h.size.trans (pathLimit_ge path), viewAllows_module h.module _ _ _ _⟩
  have heq := odBy_open (data := data) (o := .hard) h.isOpen hbusy
  rw [hdata, odAccess_local hlocal, if_pos rfl] at heq
  unfold odPut
  rw [hdata]
  exact heq

theorem opened_maint (s : State) (path : OdPath) (write : Bool) (len : Nat) : (opened s path write len).od.maint = s.od.maint :=
  (opened_transportOnly s path write len).maint

theorem Writable.opened {write : Bool} {len : Nat} (h : Writable s path e) : Writable (Machine.opened s path write len) path e := by
  unfold Writable
  rw [opened_maint]
  exact h

theorem odPut_scalar (h : Named s path index sub e) (hw : Writable s path e) (hkind : e.kind = .scalar) (hdata : data.length = e.size) :
    odPut s path index sub data = putEnds (scalarWrite (writing s path e.size) path e index sub (leNat data) 0) path 0 := by
  rw [odPut_access h hdata, localWrite_admitted h.entry hw.opened rfl rfl hdata, hkind]
  rfl

theorem odPut_raw (h : Named s path index sub e) (hw : Writable s path e) (hkind : e.kind = .raw) (hdata : data.length = e.size) :
    odPut s path index sub data = putEnds (rawWrite (writing s path e.size) path index sub 0 data) path 0 := by
  rw [odPut_access h hdata, localWrite_admitted h.entry hw.opened rfl rfl hdata, hkind]
  rfl

/-- An rws entry is closed to a path that does not hold maintenance mode. -/
theorem odPut_locked (h : Named s path index sub e) (hrws : e.access = .rws) (hmaint : s.od.maint ≠ some path) (hdata : data.length = e.size) :
    odPut s path index sub data = answered (opened s path true e.size) path 0x5005 := by
  have hlocked := localWrite_locked (s := opened s path true e.size) (r := ⟨path, index, sub, none, 0, e.size⟩) (tag := 0) (data := data)
    h.entry hrws (by rw [opened_maint]; exact hmaint)
  rw [odPut_access h hdata, hlocked]
  rfl

theorem odPut_order (h : Named s path index sub e) (hw : Writable s path e) (hkind : e.kind = .scalar) (hsize : e.size = 1)
    (horder : isOrder index sub = true) : odPut s path index sub [1] = putEnds (orderWrite (writing s path 1) path index sub 0) path 0 := by
  have hone : leNat [1] = 1 := rfl
  rw [odPut_scalar (data := [1]) h hw hkind hsize.symm, hone, scalarWrite_order horder, hsize]

/-- A setting with a behaviour of its own, in range. -/
theorem odPut_special {v : Nat} {put : Put} (h : Named s path index sub e) (hw : Writable s path e) (hkind : e.kind = .scalar)
    (hv : v < 256 ^ e.size) (horder : isOrder index sub = false) (hlo : e.lo ≤ v) (hhi : v ≤ e.hi)
    (hput : specialWrite (writing s path e.size) path index sub v 0 = some put) :
    odPut s path index sub (toLE e.size v) = putEnds put path 0 := by
  rw [odPut_scalar h hw hkind (toLE_length _ _), leNat_toLE hv, scalarWrite_special horder hlo hhi hput]

end

/-! ### The orders -/

theorem entry_queuePage : odEntry 0x3110 4 = some ⟨0x3110, 1, 4, 1, .scalar, .wo, 0, false, 0, 255⟩ := by decide

theorem entry_polderApply : ∀ p : Fin 32, odEntry (0x3000 + p) 0xC = some ⟨0x3000, 32, 0xC, 1, .scalar, .wo, 0, false, 0, 255⟩ := by decide

theorem entry_portEnable : ∀ n : Fin 4, odEntry (0x4010 + n) 5 = some ⟨0x4010, 4, 5, 1, .scalar, .rw, 1, true, 0, 1⟩ := by decide

theorem isOrder_polderApply {p : Nat} (hp : p < 32) : isOrder (0x3000 + p) 0xC = true := by
  have hlow : 0x3000 ≤ 0x3000 + p := by omega
  have hhigh : 0x3000 + p ≤ 0x301F := by omega
  simp [isOrder, hlow, hhigh]

theorem orderWrite_polder {s : State} {path : OdPath} {p : Nat} (hp : p < 32) (tag : Nat) :
    orderWrite s path (0x3000 + p) 0xC tag = polderApply s path p tag := by
  unfold orderWrite
  split
  case h_7 => rw [Nat.add_sub_cancel_left]
  all_goals omega

/-- The state of a queue page as its assignment leaves it. -/
def assigned (s : State) (path : OdPath) (fn p : Nat) : State :=
  let k := (pathSt s path).selPage
  unstage { s with
    pages := if p = 0xFE then kdel s.pages k else kset s.pages k ⟨fn, p⟩
    regs := kmap s.regs fun r t => if r / 32 = k then { t with nextSeq := 0 } else t } path fun key => key / 256 == 0x3110

theorem pageAssign_ok {s : State} {path : OdPath} {fn p tag : Nat} (hfn : (staged s path 0x3110 2).getD (selectedPage s path).1 = fn)
    (hp : (staged s path 0x3110 3).getD (selectedPage s path).2 = p) (hpage : (pathSt s path).selPage ≠ 0)
    (hidle : (s.regs.any fun e => e.1 / 32 == (pathSt s path).selPage && e.2.state != .idle) = false) (hpf : ¬ (p = 0xFF ∧ fn ≠ 0))
    (hdef : p < 32 → polderDefined s p = true) :
    pageAssign s path tag = keep (assigned s path fn p) [(pageKey (pathSt s path).selPage, fn * 256 + p)] path tag := by
  have hgo : ¬ ((pathSt s path).selPage = 0 ∨ (s.regs.any fun e => e.1 / 32 == (pathSt s path).selPage && e.2.state != .idle) = true ∨
      (p = 0xFF ∧ fn ≠ 0) ∨ (p < 32 ∧ (!polderDefined s p) = true)) := by
    rintro (h | h | h | ⟨h, hnot⟩)
    · exact hpage h
    · rw [hidle] at h; exact Bool.false_ne_true h
    · exact hpf h
    · rw [hdef h] at hnot; exact Bool.false_ne_true hnot
  unfold pageAssign
  dsimp only
  rw [hfn, hp, if_neg hgo]
  rfl

section
variable {s t : State} (h : TransportOnly s t)
include h

theorem TransportOnly.staged (path : OdPath) (index sub : Nat) : Machine.staged t path index sub = Machine.staged s path index sub := by
  unfold Machine.staged; rw [h.pathSt]

theorem TransportOnly.selectedPage (path : OdPath) : Machine.selectedPage t path = Machine.selectedPage s path := by
  unfold Machine.selectedPage; rw [h.pathSt, h.pages]

theorem TransportOnly.polderDefined (p : Nat) : Machine.polderDefined t p = Machine.polderDefined s p := by
  unfold TransportOnly at h; rw [h]; rfl

theorem TransportOnly.coreOfPolder (p c : Nat) : Machine.coreOfPolder t p c = Machine.coreOfPolder s p c := by
  unfold Machine.coreOfPolder; rw [h.od]

theorem TransportOnly.moduleId : Machine.moduleId t = Machine.moduleId s := h.od _ _

/-- Settings of one list of values, in states with the same settings and defaults. -/
theorem TransportOnly.odSets_vals (l : List (Nat × Nat)) :
    (l.foldl (fun u e => odSet u (e.1 / 256) (e.1 % 256) e.2) t).od.vals = (l.foldl (fun u e => odSet u (e.1 / 256) (e.1 % 256) e.2) s).od.vals := by
  have hfold : ∀ (l : List (Nat × Nat)) (a b : State), a.od.vals = b.od.vals → (∀ i k, Machine.odDefault a i k = Machine.odDefault b i k) →
      (l.foldl (fun u e => odSet u (e.1 / 256) (e.1 % 256) e.2) a).od.vals = (l.foldl (fun u e => odSet u (e.1 / 256) (e.1 % 256) e.2) b).od.vals := by
    intro l
    induction l with
    | nil => exact fun a b hvals _ => hvals
    | cons e l ih =>
      intro a b hvals hdef
      refine ih _ _ ?_ hdef
      rw [odSet_vals, odSet_vals, hvals, hdef]
  exact hfold l t s h.vals h.odDefault

end

/-- Settings change neither objects nor jobs. -/
theorem odSets_keeps (l : List (Nat × Nat)) (s : State) :
    let t := l.foldl (fun u e => odSet u (e.1 / 256) (e.1 % 256) e.2) s
    t.objs = s.objs ∧ t.jobs = s.jobs :=
  List.foldlRecOn l _ (motive := fun u : State => u.objs = s.objs ∧ u.jobs = s.jobs) ⟨rfl, rfl⟩ fun _ hu _ _ => hu

theorem overcommitEnded_keeps (s : State) : (overcommitEnded s).objs = s.objs ∧ (overcommitEnded s).jobs = s.jobs ∧
    (overcommitEnded s).od = s.od := by
  unfold overcommitEnded
  split
  · exact ⟨logHealth_objs _ _ _ _, logHealth_jobs _ _ _ _, logHealth_od _ _ _ _⟩
  · exact ⟨rfl, rfl, rfl⟩

/-- An apply that takes no core away: every staged value of the polder is set, and the store keeps them. -/
theorem polderApply_keepsCores {s : State} {path : OdPath} {p tag : Nat} (hok : polderRefused s path p = false)
    (hcores : ∀ k, k < 32 → coreOfPolder s p k = true → (polderField s path p 1).testBit k = true) :
    let items := (pathSt s path).staged.filter fun e => e.1 / 256 == 0x3000 + p
    polderApply s path p tag = (.later, storeWriteFor (overcommitEnded (unstage
      (items.foldl (fun s e => odSet s (e.1 / 256) (e.1 % 256) e.2) s) path fun key => key / 256 == 0x3000 + p)) items (some path) tag 0) := by
  have hgone : ((List.range 32).filter fun k => coreOfPolder s p k && !(polderField s path p 1).testBit k) = [] := by
    refine List.filter_eq_nil_iff.2 fun k hk => ?_
    cases hcore : coreOfPolder s p k with
    | false => simp
    | true => simp [hcores k (List.mem_range.1 hk) hcore]
  unfold polderApply
  dsimp only
  rw [hok, if_neg Bool.false_ne_true, hgone]
  rfl

/-! ### Settings with a behaviour of their own -/

theorem toLE_byte (v : Byte) : toLE 1 v.toNat = [v] := by simp [toLE]

theorem specialWrite_port {s : State} {path : OdPath} {n v tag : Nat} (hn : n < 4) :
    specialWrite s path (0x4010 + n) 5 v tag = some (portEnable s path n v tag) := by
  interval_cases n <;> rfl

theorem isOrder_port {n : Nat} (hn : n < 4) : isOrder (0x4010 + n) 5 = false := by
  interval_cases n <;> rfl

/-- The requests that the selected group's entries 4 to 6 make. -/
theorem memberWrite_refused {s : State} {number : Nat} (req : MemberReq) (path : OdPath) (tag : Nat)
    (h : ∀ g, kget s.fabric.groups number = some g → g.keeper ≠ moduleId s) : memberWrite s number req path tag = (some 0x1007, s) := by
  unfold memberWrite
  cases hg : kget s.fabric.groups number with
  | none => rfl
  | some g => exact if_pos (h g hg)

theorem memberWrite_kept {s : State} {number : Nat} {g : Group} (req : MemberReq) (path : OdPath) (tag : Nat)
    (hg : kget s.fabric.groups number = some g) (hk : g.keeper = moduleId s) : memberWrite s number req path tag =
    (none, startChange (s.fabric.changes.length + 2)
      (s.modFab fun b => { b with changes := b.changes ++ [({ number := number, req := req, path := some path, tag := tag } : GroupChange)] })
      number) := by
  unfold memberWrite
  rw [hg]
  exact if_neg (not_not_intro hk)

/-- A switch that waits for no course is made, journaled and stored. -/
theorem modeStep_switches {s : State} {m : ModeChange} (hm : s.od.modes = [m]) (hrecord : m.record = none) (hcourses : m.courses = []) :
    modeStep s = (storeWrite (jadd (odSet s 0x2230 0 m.value) (.mode m.value)).2 [(odKey 0x2230 0, m.value)] none 0).modOd fun o =>
      { o with modes := [{ m with record := some (s.seq + 1) }] } := by
  unfold modeStep
  rw [hm]
  dsimp only
  rw [hrecord, hcourses]
  rfl

/-- With no course open and no other switch under way the mode switches at once. -/
theorem modeWrite_quiet {s : State} {path : OdPath} {v tag : Nat} (hcourses : s.flash.courses = []) (hmodes : s.od.modes = []) :
    ∃ u, modeWrite s path v tag = (.later, u) ∧ u.od.vals = (odSet s 0x2230 0 v).od.vals ∧ u.objs = s.objs ∧
      u.flash.jpend = s.flash.jpend ++ [(s.seq + 1, .mode v)] := by
  have hpad : padAll s = s := by unfold padAll; rw [hcourses]; rfl
  refine ⟨(modeWrite s path v tag).2, rfl, ?_⟩
  unfold modeWrite
  rw [hpad]
  extract_lets padded queued shown
  have hqueued : queued.od.modes = [({ value := v, courses := [], path := path, tag := tag } : ModeChange)] := by
    simp only [queued, padded, State.modOd_od, hmodes, hcourses, List.map_nil, List.nil_append]
  have hshown : shown = { s with host := shown.host, od := { s.od with modes := queued.od.modes } } := by
    dsimp only [shown]
    split <;> rfl
  clear_value shown
  have hmodes : shown.od.modes = [({ value := v, courses := [], path := path, tag := tag } : ModeChange)] := by rw [hshown]; exact hqueued
  have hstore (u : State) := storeWriteFor_secOnly u [(odKey 0x2230 0, v)] none 0 0
  have hkept (u : State) := (hstore u).access
  rw [modeStep_switches hmodes rfl rfl]
  refine ⟨(hkept _).vals.trans ?_, (hkept _).objs.trans ?_, (congrArg Flash.jpend (hkept _).flash).trans ?_⟩
  · rw [hshown]; rfl
  · rw [hshown]; rfl
  · rw [hshown]; rfl

/-! ### The commands -/

section
variable {s : State} {path : OdPath} (hm : ModulePath path) (hopen : PathOpen s path true)
include hm hopen

theorem queuePageAssign_assigns {fn p : Nat} (hfn : (staged s path 0x3110 2).getD (selectedPage s path).1 = fn)
    (hp : (staged s path 0x3110 3).getD (selectedPage s path).2 = p) (hpage : (pathSt s path).selPage ≠ 0)
    (hidle : (s.regs.any fun e => e.1 / 32 == (pathSt s path).selPage && e.2.state != .idle) = false) (hpf : ¬ (p = 0xFF ∧ fn ≠ 0))
    (hdef : p < 32 → polderDefined s p = true) :
    odPut s path 0x3110 4 [1] = (keep (assigned (writing s path 1) path fn p) [(pageKey (pathSt s path).selPage, fn * 256 + p)] path 0).2 := by
  have ht := writing_transportOnly s path 1
  have hok := pageAssign_ok (s := writing s path 1) (path := path) (fn := fn) (p := p) (tag := 0)
    (by rw [ht.staged, ht.selectedPage, hfn]) (by rw [ht.staged, ht.selectedPage, hp]) (by rw [ht.pathSt]; exact hpage)
    (by rw [ht.regs, ht.pathSt]; exact hidle) hpf (by rw [ht.polderDefined]; exact hdef)
  rw [odPut_order ⟨hm, hopen, entry_queuePage, by decide, .inl (by decide)⟩ (.inr (.inl rfl)) rfl rfl rfl]
  rw [ht.pathSt] at hok
  exact congrArg (fun put => putEnds put path 0) hok

theorem polderApply_put {p : Nat} (hp : p < 32) :
    odPut s path (0x3000 + p) 0xC [1] = putEnds (polderApply (writing s path 1) path p 0) path 0 := by
  have hentry := entry_polderApply ⟨p, hp⟩
  rw [odPut_order ⟨hm, hopen, hentry, (by decide), .inl (by omega)⟩ (.inr (.inl rfl)) rfl rfl (isOrder_polderApply hp),
    orderWrite_polder hp]

theorem portEnable_put {n : Nat} {v : Byte} (hn : n < 4) (hv : v.toNat ≤ 1) :
    odPut s path (0x4010 + n) 5 [v] = (portEnable (writing s path 1) path n v.toNat 0).2 := by
  have hentry := entry_portEnable ⟨n, hn⟩
  rw [← toLE_byte, odPut_special ⟨hm, hopen, hentry, (by decide), .inl (by omega)⟩ (.inl rfl) rfl
    (show v.toNat < 256 ^ 1 by omega) (isOrder_port hn) (Nat.zero_le _) hv (specialWrite_port hn)]
  rfl

theorem groupAdd_put (v : U32) : odPut s path 0x4300 4 (toLE 4 v.toNat) =
    putEnds (groupWrite (writing s path 4) path (.add (bitsAt v.toNat 0 10) (bitsAt v.toNat 16 10)) 0) path 0 :=
  odPut_special (e := ⟨0x4300, 1, 4, 4, .scalar, .wo, 0, false, 0, 4294967295⟩) ⟨hm, hopen, by decide, by decide, .inl (by decide)⟩
    (.inr (.inl rfl)) rfl v.isLt rfl (Nat.zero_le _) (Nat.le_of_lt_succ v.isLt) rfl

theorem groupRemove_put (w : U16) : odPut s path 0x4300 5 (toLE 2 w.toNat) =
    putEnds (groupWrite (writing s path 2) path (.remove w.toNat) 0) path 0 :=
  odPut_special (e := ⟨0x4300, 1, 5, 2, .scalar, .wo, 0, false, 0, 65535⟩) ⟨hm, hopen, by decide, by decide, .inl (by decide)⟩
    (.inr (.inl rfl)) rfl w.isLt rfl (Nat.zero_le _) (Nat.le_of_lt_succ w.isLt) rfl

theorem groupPin_put (v : U32) : odPut s path 0x4300 6 (toLE 4 v.toNat) =
    putEnds (groupWrite (writing s path 4) path (.pin (bitsAt v.toNat 0 10) (bitsAt v.toNat 16 3)) 0) path 0 :=
  odPut_special (e := ⟨0x4300, 1, 6, 4, .scalar, .wo, 0, false, 0, 4294967295⟩) ⟨hm, hopen, by decide, by decide, .inl (by decide)⟩
    (.inr (.inl rfl)) rfl v.isLt rfl (Nat.zero_le _) (Nat.le_of_lt_succ v.isLt) rfl

theorem counterSnapshot_put {v : Byte} (hv : v.toNat ≤ 1) : odPut s path 0x9000 1 [v] = answered
    (modPath (writing s path 1) path fun p => { p with snapshot := if v.toNat = 0 then none else some (snapshotNow (writing s path 1)) }) path 0 := by
  have hput := odPut_special (s := s) (path := path) (index := 0x9000) (sub := 1) (v := v.toNat)
    (e := ⟨0x9000, 1, 1, 1, .scalar, .rw, 0, false, 0, 1⟩) ⟨hm, hopen, by decide, by decide, .inl (by decide)⟩
    (.inl rfl) rfl v.isLt rfl (Nat.zero_le _) hv rfl
  rw [← toLE_byte]
  exact hput

theorem hostMarker_put (v : U64) : odPut s path 0x6020 1 (toLE 8 v.toNat) =
    answered (logHealth (writing s path 8) 0x0052 false [v.toNat]) path 0 :=
  odPut_special (index := 0x6020) (sub := 1) (put := okPut (logHealth (writing s path 8) 0x0052 false [v.toNat]))
    (e := ⟨0x6020, 1, 1, 8, .scalar, .wo, 0, false, 0, 18446744073709551615⟩)
    ⟨hm, hopen, by decide, by decide, .inl (by decide)⟩ (.inr (.inl rfl)) rfl v.isLt rfl (Nat.zero_le _) (Nat.le_of_lt_succ v.isLt) rfl

theorem secureRequest_put (v : U64) : odPut s path 0x7010 1 (toLE 8 v.toNat) =
    putEnds (secureRequest (writing s path 8) v.toNat) path 0 :=
  odPut_special (e := ⟨0x7010, 1, 1, 8, .scalar, .wo, 0, false, 0, 18446744073709551615⟩)
    ⟨hm, hopen, by decide, by decide, .inl (by decide)⟩ (.inr (.inl rfl)) rfl v.isLt rfl (Nat.zero_le _) (Nat.le_of_lt_succ v.isLt) rfl

theorem powerLossMode_put {v : Byte} (hv : v.toNat ≤ 1) (hfree : ∀ k, mailboxOf path = some k → (boxOf s k).bgOp = false) :
    odPut s path 0x2230 0 [v] = putEnds (modeWrite (writing s path 1) path v.toNat 0) path 0 := by
  have hput := odPut_special (s := s) (path := path) (index := 0x2230) (sub := 0) (v := v.toNat)
    (e := ⟨0x2230, 1, 0, 1, .scalar, .rw, 0, true, 0, 1⟩) ⟨hm, hopen, by decide, by decide, .inr hfree⟩
    (.inl rfl) rfl v.isLt rfl (Nat.zero_le _) hv rfl
  rw [← toLE_byte]
  exact hput

end

/-- Settles O23: each command is the write that it spells, and its entry's behaviour answers it. -/
theorem dictionaryOrdersAct : Obligations.DictionaryOrdersAct := by
  unfold Obligations.DictionaryOrdersAct
  intro s path hm hopen ps
  have ht (len : Nat) := writing_transportOnly s path len
  refine ⟨?page, ?polder, ?topology, ?portKept, ?port, ?refused, ?kept, ?snapshot, ?marker, ?secure, ?noJob, ?mode⟩
  case page =>
    intro fn p hpage hidle hpf hdef
    have heq := queuePageAssign_assigns hm hopen (fn := fn) (p := p) rfl rfl hpage hidle hpf hdef
    have hkeep := keep_accessOnly (assigned (writing s path 1) path fn p) [(pageKey (pathSt s path).selPage, fn * 256 + p)] path 0
    refine answers_of_exec (congrArg (done s) heq) ⟨hkeep.pages.trans ?_, hkeep.regs.trans ?_, hkeep.objs.trans (ht 1).objs,
      hkeep.flash.trans (ht 1).flash⟩
    · show (if p = 0xFE then kdel (writing s path 1).pages (pathSt (writing s path 1) path).selPage
        else kset (writing s path 1).pages (pathSt (writing s path 1) path).selPage ⟨fn, p⟩) = _
      rw [(ht 1).pages, (ht 1).pathSt]
    · show kmap (writing s path 1).regs (fun r t => if r / 32 = (pathSt (writing s path 1) path).selPage then { t with nextSeq := 0 } else t) = _
      rw [(ht 1).regs, (ht 1).pathSt]
  case polder =>
    intro p hp o
    refine ⟨fun hno => ?_, fun hok hcores => ?_⟩
    · refine becomes_of_eq rfl ((polderApply_put hm hopen hp).trans ?_)
      exact congrArg (fun put => putEnds put path 0) (if_pos hno)
    · have happly := polderApply_keepsCores (tag := 0) hok fun k hk hcore => hcores k hk ((ht 1).coreOfPolder p k ▸ hcore)
      have heq := (polderApply_put hm hopen hp).trans (congrArg (fun put => putEnds put path 0) happly)
      rw [(ht 1).pathSt] at heq
      generalize hu : (ps.staged.filter fun e => e.1 / 256 == 0x3000 + p).foldl (fun s e => odSet s (e.1 / 256) (e.1 % 256) e.2) o = u
      have hset := odSets_keeps (ps.staged.filter fun e => e.1 / 256 == 0x3000 + p) o
      have hvals := (ht 1).odSets_vals (ps.staged.filter fun e => e.1 / 256 == 0x3000 + p)
      rw [hu] at heq hset hvals
      obtain ⟨hobjs, hjobs⟩ := hset
      have hstore := (storeWriteFor_secOnly (overcommitEnded (unstage u path fun key => key / 256 == 0x3000 + p))
        (ps.staged.filter fun e => e.1 / 256 == 0x3000 + p) (some path) 0 0).access
      obtain ⟨hover, hoverJobs, hoverOd⟩ := overcommitEnded_keeps (unstage u path fun key => key / 256 == 0x3000 + p)
      exact answers_of_exec (congrArg (done s) heq) ⟨hstore.objs.trans (hover.trans (hobjs.trans (ht 1).objs)),
        hstore.jobs.trans (hoverJobs.trans (hjobs.trans (ht 1).jobs)),
        hstore.vals.trans ((congrArg Od.vals hoverOd).trans hvals)⟩
  case topology =>
    have heq := odPut_order (s := s) (path := path) (index := 0x4000) (sub := 7) (e := ⟨0x4000, 1, 7, 1, .scalar, .wo, 0, false, 0, 255⟩)
      ⟨hm, hopen, by decide, by decide, .inl (by decide)⟩ (.inr (.inl rfl)) rfl rfl rfl
    exact becomes_of_eq rfl heq
  case portKept =>
    intro n v hn hv hsame
    have hput : portEnable (writing s path 1) path n v.toNat 0 =
        keep (odSet (writing s path 1) (0x4010 + n) 5 v.toNat) [(odKey (0x4010 + n) 5, v.toNat)] path 0 := by
      unfold portEnable
      dsimp only
      rw [(ht 1).od, hsame, if_pos rfl]
    have heq := (portEnable_put hm hopen hn hv).trans (congrArg Prod.snd hput)
    have hkeep := keep_accessOnly (odSet (writing s path 1) (0x4010 + n) 5 v.toNat) [(odKey (0x4010 + n) 5, v.toNat)] path 0
    obtain ⟨hobjs, _, hregs, hvals⟩ := hkeep.setsEntry
    exact answers_of_exec (congrArg (done s) heq) ⟨hobjs, hregs, hvals⟩
  case port =>
    intro n v hn hv
    refine becomes_of_eq rfl ((portEnable_put hm hopen hn hv).trans ?_)
    unfold portEnable
    dsimp only
    rw [(ht 1).od]
    rfl
  case refused =>
    intro v w hnot
    have hnot' : ∀ g, kget s.fabric.groups ps.selGroup = some g → g.keeper ≠ moduleId s := fun g hg => by rw [hg] at hnot; exact hnot
    have hwrite (len : Nat) (req : MemberReq) : groupWrite (writing s path len) path req 0 = badPut (writing s path len) := by
      unfold groupWrite
      rw [(ht len).pathSt, memberWrite_refused req path 0 (by rw [(ht len).fabric, (ht len).moduleId]; exact hnot')]
      rfl
    refine ⟨becomes_of_eq rfl ((groupAdd_put hm hopen v).trans ?_), becomes_of_eq rfl ((groupPin_put hm hopen v).trans ?_),
      becomes_of_eq rfl ((groupRemove_put hm hopen w).trans ?_)⟩
    · exact congrArg (fun put => putEnds put path 0) (hwrite 4 _)
    · exact congrArg (fun put => putEnds put path 0) (hwrite 4 _)
    · exact congrArg (fun put => putEnds put path 0) (hwrite 2 _)
  case kept =>
    intro v w g hg hkeeper starts
    have hwrite (len : Nat) (req : MemberReq) : groupWrite (writing s path len) path req 0 = (.later, starts (writing s path len) req) := by
      unfold groupWrite
      rw [(ht len).pathSt, memberWrite_kept req path 0 (by rw [(ht len).fabric]; exact hg) (by rw [(ht len).moduleId]; exact hkeeper),
        (ht len).fabric]
    refine ⟨becomes_of_eq rfl ((groupAdd_put hm hopen v).trans ?_), becomes_of_eq rfl ((groupPin_put hm hopen v).trans ?_),
      becomes_of_eq rfl ((groupRemove_put hm hopen w).trans ?_)⟩
    · exact congrArg (fun put => putEnds put path 0) (hwrite 4 _)
    · exact congrArg (fun put => putEnds put path 0) (hwrite 4 _)
    · exact congrArg (fun put => putEnds put path 0) (hwrite 2 _)
  case snapshot => exact fun v hv => becomes_of_eq rfl (counterSnapshot_put hm hopen hv)
  case marker => exact fun v => becomes_of_eq rfl (hostMarker_put hm hopen v)
  case secure =>
    intro v hjob
    obtain ⟨j, hj⟩ := Option.isSome_iff_exists.1 hjob
    have hsecure : secureRequest (writing s path 8) v.toNat = okPut ((writing s path 8).modJob v.toNat fun j => { j with requested := true }) := by
      unfold secureRequest
      rw [(ht 8).jobs, hj]
    exact becomes_of_eq rfl ((secureRequest_put hm hopen v).trans (congrArg (fun put => putEnds put path 0) hsecure))
  case noJob =>
    intro v hjob
    have hsecure : secureRequest (writing s path 8) v.toNat = badPut (writing s path 8) := by
      unfold secureRequest
      rw [(ht 8).jobs, hjob]
    exact becomes_of_eq rfl ((secureRequest_put hm hopen v).trans (congrArg (fun put => putEnds put path 0) hsecure))
  case mode =>
    intro v hv hcourses hmodes hfree
    obtain ⟨u, hwrite, hvals, hobjs, hjpend⟩ := modeWrite_quiet (s := writing s path 1) (path := path) (v := v.toNat) (tag := 0)
      (by rw [(ht 1).flash]; exact hcourses) (by rw [(ht 1).modes]; exact hmodes)
    have heq := (powerLossMode_put hm hopen hv hfree).trans (congrArg (fun put => putEnds put path 0) hwrite)
    rw [odSet_vals, (ht 1).odDefault, (ht 1).vals] at hvals
    rw [(ht 1).flash, (ht 1).seq] at hjpend
    exact answers_of_exec (congrArg (done s) heq) ⟨hvals, hobjs.trans (ht 1).objs, hjpend⟩

end Sys2Proof.Machine

/-! ## Maintenance mode and what it admits (13 R344, 18 R462-R465, 19 R483, R486, R502) -/

namespace Sys2Proof.Machine

/-- The entries that only the path in maintenance mode writes. -/
theorem entry_reset : odEntry 0x6010 1 = some ⟨0x6010, 1, 1, 1, .scalar, .rws, 0, false, 0, 255⟩ := by decide
theorem entry_restart : odEntry 0x6010 3 = some ⟨0x6010, 1, 3, 1, .scalar, .rws, 0, false, 0, 255⟩ := by decide
theorem entry_defaults : odEntry 0x5002 1 = some ⟨0x5002, 1, 1, 1, .scalar, .rws, 0, false, 0, 255⟩ := by decide
theorem entry_password : odEntry 0x5400 5 = some ⟨0x5400, 1, 5, 1, .scalar, .rws, 0, false, 0, 255⟩ := by decide
theorem entry_rollback : odEntry 0x4601 2 = some ⟨0x4601, 1, 2, 4, .scalar, .rws, 0, false, 0, 4294967295⟩ := by decide
theorem entry_ownerKey {sub : Nat} (h : sub = 1 ∨ sub = 2) : odEntry 0x5010 sub = some ⟨0x5010, 1, sub, 388, .raw, .rws, 0, true, 0, 0⟩ := by
  rcases h with rfl | rfl <;> decide

section
variable {path : OdPath}

/-- By a path that does not hold maintenance mode a raw page is not read. -/
theorem rawRead_locked {u : State} {off n : Nat} {outcome : ReadOutcome} (hmaint : u.od.maint ≠ some path) :
    rawRead u path off n outcome = ((0x5005, []), u) := if_pos hmaint

/-- A page whose block is not being erased, and that is decoded, is given, and OD 0x2500:03 reads 0. -/
theorem rawRead_hard {u : State} {off n : Nat} (hmaint : u.od.maint = some path)
    (hquiet : (kget u.flash.dies (ppaDie (od u 0x2500 1))).any (fun d => d.erase && d.target == ppaBlock (od u 0x2500 1)) = false) :
    rawRead u path off n .hard = ((0, ((rawPage (countRead u (od u 0x2500 1)) (od u 0x2500 1)).drop off).take n),
      (countRead u (od u 0x2500 1)).modFlash fun f => { f with rawStatus := 0 }) := by
  unfold rawRead
  dsimp only
  rw [if_neg (not_not_intro hmaint), hquiet, if_neg Bool.false_ne_true]
  rfl

end

section
variable {s : State} {path : OdPath} (hm : ModulePath path)
include hm

/-! ### Reads -/

/-- A read of an entry by a path with the module's view. -/
theorem odBy_read {index sub len offset : Nat} {e : OdEntry} {o : ReadOutcome} (hopen : PathOpen s path false)
    (hentry : odEntry index sub = some e) (hfits : len ≤ pathLimit path) : odBy s path false index sub len [] o offset =
    let read := localRead (opened s path false 0) ⟨path, index, sub, none, offset, len⟩ o
    answerPath read.2 path odReadType 0 read.1.1 read.1.2 := by
  have hbusy : NotBusy s ⟨path, index, sub, none, offset, len⟩ false := fun k _ => by simp
  refine (odBy_open hopen hbusy).trans ((odAccess_local (e := e) ⟨hentry, rfl, hfits, viewAllows_module hm _ _ _ _⟩).trans ?_)
  exact if_neg Bool.false_ne_true

theorem nonceRead_draws (hopen : PathOpen s path false) : odBy s path false 0x5001 3 32 [] .hard 0 =
    answerPath (modPath ((opened s path false 0).modSec fun c => { c with draws := c.draws + 1 }) path fun p =>
      { p with nonce := some ((List.range 32).map (Config.randomByte s.sec.draws)) }) path odReadType 0 0
      ((List.range 32).map (Config.randomByte s.sec.draws)) := by
  have hsec := (opened_transportOnly s path false 0).sec
  have hentry : odEntry 0x5001 3 = some ⟨0x5001, 1, 3, 32, .raw, .ro, 0, false, 0, 0⟩ := by decide
  rw [odBy_read hm hopen hentry (Nat.le_trans (by decide) (pathLimit_ge path)), ← hsec]
  generalize opened s path false 0 = o
  have hread : localRead o ⟨path, 0x5001, 3, none, 0, 32⟩ .hard =
      ((0, (List.range 32).map (Config.randomByte o.sec.draws)), modPath (o.modSec fun c => { c with draws := c.draws + 1 })
        path fun p => { p with nonce := some ((List.range 32).map (Config.randomByte o.sec.draws)) }) := by
    unfold localRead
    rw [hentry]
    dsimp only
    rw [if_neg (by decide), if_neg (by decide), if_pos rfl, List.drop_zero, List.take_of_length_le (by simp)]
    rfl
  rw [hread]

theorem rawDiagnosticRead_eq {off n : Nat} {outcome : ReadOutcome} (hopen : PathOpen s path false) (hpos : 0 < n) (hend : off + n ≤ 16416)
    (hfits : n ≤ pathLimit path) : odBy s path false 0x2500 2 n [] outcome off =
    let read := rawRead (opened s path false 0) path off n outcome
    answerPath read.2 path odReadType 0 read.1.1 read.1.2 := by
  have hentry : odEntry 0x2500 2 = some ⟨0x2500, 1, 2, 16416, .raw, .ro, 0, false, 0, 0⟩ := by decide
  have hrange : ¬ (n = 0 ∨ 16416 < off + n) := by omega
  rw [odBy_read hm hopen hentry hfits]
  have hread : localRead (opened s path false 0) ⟨path, 0x2500, 2, none, off, n⟩ outcome =
      rawRead (opened s path false 0) path off n outcome := by
    unfold localRead
    rw [hentry]
    dsimp only
    rw [if_neg hrange, if_neg (by decide), if_neg (by decide), if_pos rfl]
  rw [hread]

/-! ### Writes -/

theorem maintenanceEntry_put (hopen : PathOpen s path true) {signature : List Byte} (hlen : signature.length = 384) :
    odPut s path 0x5001 2 signature = putEnds (enterMaint (writing s path 384) path signature) path 0 :=
  odPut_raw (e := ⟨0x5001, 1, 2, 384, .raw, .wo, 0, false, 0, 0⟩) ⟨hm, hopen, by decide, by decide, .inl (by decide)⟩ (.inr (.inl rfl)) rfl hlen

theorem maintenanceExit_put (hopen : PathOpen s path true) :
    odPut s path 0x5001 1 [0] = answered (leaveMaint (writing s path 1) 0) path 0 :=
  odPut_special (index := 0x5001) (sub := 1) (v := 0) (put := okPut (leaveMaint (writing s path 1) 0))
    (e := ⟨0x5001, 1, 1, 1, .scalar, .rw, 0, false, 0, 0⟩) ⟨hm, hopen, by decide, by decide, .inl (by decide)⟩ (.inl rfl) rfl
    (by decide) rfl (Nat.zero_le _) (Nat.zero_le _) rfl

section
variable (hopen : PathOpen s path true) (hmaint : s.od.maint = some path)
include hopen hmaint

theorem inDoubtRollback_put {id : Nat} {t : Tx} (hbranch : kget s.branches id = some t) (hprepared : t.state = .prepared)
    (hid : id < 4294967296) : odPut s path 0x4601 2 (toLE 4 (BitVec.ofNat 32 id).toNat) = answered (afterOutcome (rollBranch
      (logHealth (yielded (writing s path 4) 0 2 (.polder t.polder) (.unit 19)) 0x0032 false [id]) id)) path 0 := by
  have hroll : doubtRollback (writing s path 4) id = okPut (afterOutcome (rollBranch
      (logHealth (yielded (writing s path 4) 0 2 (.polder t.polder) (.unit 19)) 0x0032 false [id]) id)) := by
    unfold doubtRollback
    rw [(writing_transportOnly s path 4).branches, hbranch]
    exact if_neg (not_not_intro hprepared)
  have hnat : (BitVec.ofNat 32 id).toNat = id := by simpa using Nat.mod_eq_of_lt hid
  rw [hnat, odPut_special (v := id) (put := doubtRollback (writing s path 4) id) ⟨hm, hopen, entry_rollback, by decide, .inl (by decide)⟩
    (.inr (.inr ⟨rfl, hmaint⟩)) rfl hid rfl (Nat.zero_le _) (Nat.le_of_lt_succ hid) rfl, hroll]
  rfl

theorem restoreDefaults_put : odPut s path 0x5002 1 [1] = putEnds (restoreDefaults (writing s path 1) path 0) path 0 :=
  odPut_order ⟨hm, hopen, entry_defaults, by decide, .inl (by decide)⟩ (.inr (.inr ⟨rfl, hmaint⟩)) rfl rfl rfl

theorem ownerKeyWrite_put {sub : Nat} {key : List Byte} (hsub : sub = 1 ∨ sub = 2) (hlen : key.length = 388) : odPut s path 0x5010 sub key =
    storeWrite (writing s path 388) [(odKey 0x5010 sub, leNat key)] (some path) 0 := by
  have hput := odPut_raw ⟨hm, hopen, entry_ownerKey hsub, (show 388 ≤ 1024 by decide), .inl (by decide)⟩ (.inr (.inr ⟨rfl, hmaint⟩)) rfl hlen
  rw [hput]
  rcases hsub with rfl | rfl <;> rfl

theorem destroyReopenPassword_put : odPut s path 0x5400 5 [1] = storeWrite (writing s path 1) [(odKey 0x5400 5, 1)] (some path) 0 :=
  odPut_order ⟨hm, hopen, entry_password, by decide, .inl (by decide)⟩ (.inr (.inr ⟨rfl, hmaint⟩)) rfl rfl rfl

theorem moduleResetRequest_put : odPut s path 0x6010 1 [1] = answered (requestReset (writing s path 1) 8) path 0 :=
  odPut_order ⟨hm, hopen, entry_reset, by decide, .inl (by decide)⟩ (.inr (.inr ⟨rfl, hmaint⟩)) rfl rfl rfl

theorem runtimeRestartRequest_put : odPut s path 0x6010 3 [1] = beginRestart (answered (writing s path 1) path 0) none :=
  odPut_order ⟨hm, hopen, entry_restart, by decide, .inl (by decide)⟩ (.inr (.inr ⟨rfl, hmaint⟩)) rfl rfl rfl

end

end

/-! ### The entry (18 R462) -/

theorem pathSt_modPath (s : State) (path : OdPath) (f : PathSt → PathSt) : pathSt (modPath s path f) path = f (pathSt s path) := by
  simp [pathSt, modPath, aset, aget]

theorem LogOnly.od {s t : State} (h : LogOnly s t) : t.od = { s.od with cnt := t.od.cnt, pcnt := t.od.pcnt } := by
  unfold LogOnly at h
  exact congrArg State.od h

theorem enterMaint_signed {s : State} {path : OdPath} {signature nonce : List Byte} (hmaint : s.od.maint = none)
    (hnonce : (pathSt s path).nonce = some nonce) (hverify : Config.rsaVerify (maintKey s) (nonce ++ serialNumber) signature = true) :
    ∃ u, enterMaint s path signature = okPut u ∧ u.od.maint = some path ∧ u.od.maintAt = s.power.uptime ∧
      (pathSt u path).nonce = none ∧ u.objs = s.objs := by
  have hin (a : State) (d : List Int) : LogOnly a (bump (logHealth a 0x001B false d) 0x9500 6 1) :=
    (logHealth_logOnly _ _ _ _).trans (bump_countsOnly _ _ _ _).log
  have hod := (hin ((modPath s path fun p => { p with nonce := none }).modOd fun o => { o with maint := some path, maintAt := s.power.uptime })
    [pathCode path, 1, 0]).od
  refine ⟨bump (logHealth ((modPath s path fun p => { p with nonce := none }).modOd fun o =>
    { o with maint := some path, maintAt := s.power.uptime }) 0x001B false [pathCode path, 1, 0]) 0x9500 6 1, ?_, congrArg Od.maint hod,
    congrArg Od.maintAt hod, ?_, ?_⟩
  · have hver : Config.rsaVerify (maintKey (modPath s path fun p => { p with nonce := none })) (nonce ++ serialNumber) signature = true := hverify
    unfold enterMaint
    rw [hmaint, if_neg Bool.false_ne_true, hnonce]
    dsimp only
    rw [hver, Bool.not_true, if_neg Bool.false_ne_true]
    rfl
  · have hpaths := congrArg Od.paths hod
    have hnone := pathSt_modPath s path fun p => { p with nonce := none }
    unfold pathSt at hnone ⊢
    rw [hpaths]
    exact congrArg PathSt.nonce hnone
  · exact (bump_objs _ _ _ _).trans (logHealth_objs _ _ _ _)

theorem enterMaint_unsigned {s : State} {path : OdPath} {signature nonce : List Byte} (hmaint : s.od.maint = none)
    (hnonce : (pathSt s path).nonce = some nonce) (hverify : ¬ Config.rsaVerify (maintKey s) (nonce ++ serialNumber) signature = true) :
    enterMaint s path signature = (.now 0x5003, modPath s path fun p => { p with nonce := none }) := by
  have hver : Config.rsaVerify (maintKey (modPath s path fun p => { p with nonce := none })) (nonce ++ serialNumber) signature = false :=
    Bool.eq_false_iff.2 hverify
  unfold enterMaint
  rw [hmaint, if_neg Bool.false_ne_true, hnonce]
  dsimp only
  rw [hver, Bool.not_false, if_pos rfl]

/-- Another path holds maintenance mode. -/
theorem enterMaint_held {s : State} {path h : OdPath} {signature : List Byte} (hmaint : s.od.maint = some h) (hne : h ≠ path) :
    enterMaint s path signature = (.now 0x5005, s) := by
  unfold enterMaint
  rw [hmaint]
  exact if_pos (by simpa using hne)

/-- Settles O24: each command is the write or read that it spells; the lock of rws entries is at the access. -/
theorem maintenanceCommandsAct : Obligations.MaintenanceCommandsAct := by
  unfold Obligations.MaintenanceCommandsAct
  intro s path hm
  refine ⟨?nonce, ?entry, ?exit, ?holder, ?others, ?raw⟩
  case nonce => exact fun hopen => becomes_of_eq rfl (nonceRead_draws hm hopen)
  case entry =>
    intro hopen o signature hlen
    have ht := writing_transportOnly s path 384
    have hput := maintenanceEntry_put hm hopen hlen
    refine ⟨fun nonce hmaint hnonce => ?_, fun h hmaint hne => ?_⟩
    · rw [← ht.maint] at hmaint
      rw [← ht.pathSt] at hnonce
      have hkey : maintKey o = maintKey s := by unfold maintKey; rw [ht.sec]
      split
      · next hverify =>
        rw [← hkey] at hverify
        obtain ⟨u, henter, hin, hat, hused, hobjs⟩ := enterMaint_signed hmaint hnonce hverify
        have hanswer := answerPath_accessOnly u path odWriteType 0 0 []
        refine answers_of_exec (congrArg (done s) (hput.trans (congrArg (fun put => putEnds put path 0) henter))) ⟨hanswer.maint.trans hin,
          hanswer.maintAt.trans (hat.trans ht.uptime), ?_, hanswer.objs.trans (hobjs.trans ht.objs)⟩
        unfold pathSt at hused ⊢
        exact (congrArg (fun l => ((aget l path).getD {}).nonce) hanswer.paths).trans hused
      · next hverify =>
        rw [← hkey] at hverify
        exact becomes_of_eq rfl (hput.trans (congrArg (fun put => putEnds put path 0) (enterMaint_unsigned hmaint hnonce hverify)))
    · rw [← ht.maint] at hmaint
      exact becomes_of_eq rfl (hput.trans (congrArg (fun put => putEnds put path 0) (enterMaint_held hmaint hne)))
  case exit => exact fun hopen => becomes_of_eq rfl (maintenanceExit_put hm hopen)
  case holder =>
    intro hopen hmaint
    refine ⟨fun id t hbranch hprepared hid => becomes_of_eq rfl (inDoubtRollback_put hm hopen hmaint hbranch hprepared hid), ?_,
      fun sub key hsub hlen => becomes_of_eq rfl (ownerKeyWrite_put hm hopen hmaint hsub hlen),
      becomes_of_eq rfl (destroyReopenPassword_put hm hopen hmaint), becomes_of_eq rfl (moduleResetRequest_put hm hopen hmaint),
      becomes_of_eq rfl (runtimeRestartRequest_put hm hopen hmaint)⟩
    refine becomes_of_eq rfl ((restoreDefaults_put hm hopen hmaint).trans ?_)
    unfold restoreDefaults
    dsimp only
    split <;> rfl
  case others =>
    intro hopen hmaint id sub key hsub hlen
    have hlocked {index k : Nat} {e : OdEntry} {data : List Byte} (hentry : odEntry index k = some e) (hrws : e.access = .rws)
        (hsize : e.size ≤ 1024) (hmode : index ≠ 0x2230) (hdata : data.length = e.size) :=
      odPut_locked ⟨hm, hopen, hentry, hsize, .inl hmode⟩ hrws hmaint hdata
    have hrollback := hlocked (data := toLE 4 id.toNat) entry_rollback rfl (by decide) (by decide) (toLE_length _ _)
    have hdefaults := hlocked (data := [1]) entry_defaults rfl (by decide) (by decide) rfl
    have hkey := hlocked (data := key) (entry_ownerKey hsub) rfl (show 388 ≤ 1024 by decide) (by decide) hlen
    have hpassword := hlocked (data := [1]) entry_password rfl (by decide) (by decide) rfl
    have hreset := hlocked (data := [1]) entry_reset rfl (by decide) (by decide) rfl
    have hrestart := hlocked (data := [1]) entry_restart rfl (by decide) (by decide) rfl
    exact ⟨becomes_of_eq rfl hrollback, becomes_of_eq rfl hdefaults, becomes_of_eq rfl hkey, becomes_of_eq rfl hpassword,
      becomes_of_eq rfl hreset, becomes_of_eq rfl hrestart⟩
  case raw =>
    intro hopen off n outcome hpos hend hfits o
    have ht := opened_transportOnly s path false 0
    have hread := rawDiagnosticRead_eq (outcome := outcome) hm hopen hpos hend hfits
    refine ⟨fun hmaint => ?_, fun hmaint hhard => ?_⟩
    · refine becomes_of_eq rfl (hread.trans ?_)
      rw [rawRead_locked (by rw [ht.maint]; exact hmaint)]
    · intro ppa hquiet
      subst hhard
      refine becomes_of_eq rfl (hread.trans ?_)
      have hppa : od o 0x2500 1 = ppa := ht.od _ _
      rw [rawRead_hard (by rw [ht.maint]; exact hmaint) (by rw [hppa, ht.flash]; exact hquiet), hppa]

end Sys2Proof.Machine

/-! ## Generic mailbox commands, MCTP control and remote timeouts (16 R434, R435, 17 R443, 18 R468) -/

namespace Sys2Proof.Machine

/-- A mailbox command ends with a return code and its output, the doorbell cleared; only the host interface changes. -/
structure BoxEnds (s t : State) (fn code : Nat) (out : List Byte) : Prop where
  host : t = { s with host := t.host }
  returnCode : (boxOf t fn).returnCode = code
  extStatus : (boxOf t fn).extStatus = 0
  length : (boxOf t fn).length = out.length
  doorbell : (boxOf t fn).control.getLsbD 0 = false
  bus : t.host.bus = .status 0 out

theorem signalMailbox_mailboxes (h : HostIf) (fn : Nat) (on : Bool) : (signalMailbox h fn on).mailboxes = h.mailboxes := by
  unfold signalMailbox
  split <;> rfl

theorem signalMailbox_bus (h : HostIf) (fn : Nat) (on : Bool) : (signalMailbox h fn on).bus = h.bus := by
  unfold signalMailbox
  split <;> rfl

theorem boxOf_mailboxAnswer (s : State) (fn code ext : Nat) (out : List Byte) :
    boxOf (mailboxAnswer s fn code ext out) fn = (boxOf s fn).finish code ext out := by
  unfold boxOf mailboxAnswer
  simp only [State.modHost_host, signalMailbox_mailboxes, kget_kset_same, Option.getD_some]

theorem mailboxAnswer_ends (s : State) (fn opcode len code : Nat) (out : List Byte) :
    BoxEnds s (mailboxAnswer (rung s fn opcode len) fn code 0 out) fn code out := by
  have hbox := boxOf_mailboxAnswer (rung s fn opcode len) fn code 0 out
  refine ⟨rfl, by rw [hbox]; rfl, by rw [hbox]; rfl, by rw [hbox]; rfl, ?_, ?_⟩
  · rw [hbox, boxOf_rung]
    simp [Mailbox.finish]
  · exact signalMailbox_bus _ _ _

section
variable {s : State} {fn opcode len code : Nat} {out : List Byte}

/-- The PF's mailbox carries the generic commands. -/
theorem generic_pf (hup : odUp s = true) (hfree : BoxFree s fn) (hpf : fn = 0) :
    generic s fn opcode len code out = mailboxAnswer (rung s fn opcode len) fn code 0 out := by
  have hup' : ¬ (!odUp (rung s fn opcode len)) = true := by
    have : odUp (rung s fn opcode len) = true := hup
    simp [this]
  exact (mailboxBegin_free hfree).trans ((if_neg (not_not_intro hpf)).trans (if_neg hup'))

/-- A VF's does not. -/
theorem generic_vf (hfree : BoxFree s fn) (hvf : fn ≠ 0) :
    generic s fn opcode len code out = mailboxAnswer (rung s fn opcode len) fn 3 0 [] :=
  (mailboxBegin_free hfree).trans (if_pos hvf)

theorem generic_busy (hreach : mailboxUp s fn = true) (hdoor : (boxOf s fn).control.getLsbD 0 = true) :
    generic s fn opcode len code out = s.modHost fun h => { h with
      mailboxes := kset h.mailboxes fn { boxOf s fn with returnCode := 6, extStatus := 0 }, bus := .status 6 [] } :=
  mailboxBegin_busy hreach hdoor

end

/-- The generic command that a log read is: of the command effects log within its length, or refused. -/
theorem getLog_within {fn off n : Nat} {s : State} (h : off + n ≤ 24) : exec (.getLog fn true off n) s =
    done s (generic s fn 0x0401 24 0 ((effectsLog.drop off).take n)) := congrArg (done s) (if_pos (by simpa using h))

theorem getLog_refused {fn off n : Nat} {eff : Bool} {s : State} (h : eff = false ∨ 24 < off + n) : exec (.getLog fn eff off n) s =
    done s (generic s fn 0x0401 24 2 []) := by
  refine congrArg (done s) (if_neg ?_)
  rcases h with rfl | h
  · simp
  · simp [h]

theorem getLog_generic (fn off n : Nat) (eff : Bool) (s : State) : ∃ code out, exec (.getLog fn eff off n) s =
    done s (generic s fn 0x0401 24 code out) := by
  by_cases h : eff = true ∧ off + n ≤ 24
  · obtain ⟨rfl, h⟩ := h
    exact ⟨_, _, getLog_within h⟩
  · refine ⟨_, _, getLog_refused ?_⟩
    by_contra hnot
    simp at hnot
    exact h hnot

/-- A request of a mailbox that has outlived its time leaves the tables of requests and ends on its path. -/
theorem endRequest_mailbox {s : State} {tag status : Nat} {r : RemoteReq} {path : OdPath} {w : Bool} {b : List Byte}
    (hreq : kget s.fabric.reqs tag = some r) (howner : r.owner = .mailbox path w)
    (hothers : (kdel s.fabric.reqs tag).any (fun e => e.2.dest == r.dest) = true) : endRequest s tag status b =
    answerOd { s with
      fabric := { s.fabric with reqs := kdel s.fabric.reqs tag }
      od := { s.od with remote := s.od.remote.filter fun e => e.1 != tag } } path status b := by
  unfold endRequest
  rw [hreq]
  dsimp only
  rw [howner]
  exact congrArg (fun u : State => answerOd (u.modOd fun o => { o with remote := o.remote.filter fun e => e.1 != tag }) path status b)
    (if_pos hothers)

/-- Settles O21: a generic command is one doorbell, one answer; what the other transports do is by 3.3Vaux and by the time of the request. -/
theorem mailboxAndManagementAct : Obligations.MailboxAndManagementAct := by
  unfold Obligations.MailboxAndManagementAct
  refine ⟨fun s fn hup => ?mailbox, fun s => ⟨?late, ?early, ?control, ?address, ?unpowered⟩⟩
  case mailbox =>
    intro ends
    have hends {c : Instr} {opcode len code : Nat} {out : List Byte}
        (hexec : exec c s = done s (mailboxAnswer (rung s fn opcode len) fn code 0 out)) : ends c code out := by
      obtain ⟨h1, h2, h3, h4, h5, h6⟩ := mailboxAnswer_ends s fn opcode len code out
      exact answers_of_exec hexec ⟨rfl, h2, h3, h4, h5, h6⟩
    refine ⟨fun hfree hpf => ?_, fun hfree hvf => ?_, fun hreach hdoor v => ?_⟩
    · have hgeneric {c : Instr} {opcode len code : Nat} {out : List Byte} (hexec : exec c s = done s (generic s fn opcode len code out)) :
          ends c code out := hends (hexec.trans (congrArg (done s) (generic_pf hup hfree hpf)))
      exact ⟨hgeneric rfl, hgeneric rfl, fun off n h => hgeneric (getLog_within h), fun eff off n h => hgeneric (getLog_refused h),
        hgeneric rfl, fun v => hgeneric rfl, hgeneric rfl⟩
    · have hgeneric {c : Instr} {opcode len code : Nat} {out : List Byte} (hexec : exec c s = done s (generic s fn opcode len code out)) :
          ends c 3 [] := hends (hexec.trans (congrArg (done s) (generic_vf hfree hvf)))
      refine ⟨hgeneric rfl, hgeneric rfl, fun eff off n => ?_, hgeneric rfl, fun v => hgeneric rfl, hgeneric rfl⟩
      obtain ⟨code, out, hexec⟩ := getLog_generic fn off n eff s
      exact hgeneric hexec
    · intro busy
      have hbusy {c : Instr} {opcode len code : Nat} {out : List Byte} (hexec : exec c s = done s (generic s fn opcode len code out)) :
          Becomes c s busy := becomes_of_eq hexec (generic_busy hreach hdoor)
      refine ⟨hbusy rfl, hbusy rfl, fun eff off n => ?_, hbusy rfl, hbusy rfl, hbusy rfl⟩
      obtain ⟨code, out, hexec⟩ := getLog_generic fn off n eff s
      exact hbusy hexec
  case late =>
    intro tag r path w hreq howner hdue hothers
    have hexec : exec (.remoteOdTimeout tag) s = done s (endRequest s tag 0x6004 []) := by
      refine congrArg (done s) ?_
      rw [hreq]
      dsimp only
      rw [howner]
      exact if_pos hdue
    exact becomes_of_eq hexec (endRequest_mailbox hreq howner hothers)
  case early =>
    intro tag r path w hreq howner hearly
    refine becomes_of_exec (congrArg (done s) ?_)
    rw [hreq]
    dsimp only
    rw [howner]
    exact if_neg (Nat.not_le.2 hearly)
  case control => exact fun eid code haux => answers_of_exec (congrArg (done s) (if_pos haux)) ⟨rfl, rfl⟩
  case address => exact fun addr haux => becomes_of_exec (congrArg (done s) (if_pos haux))
  case unpowered =>
    intro haux
    have hoff : ¬ s.power.aux = true := by simp [haux]
    exact ⟨fun eid code => becomes_of_exec (congrArg (done s) (if_neg hoff)), fun addr => becomes_of_exec (congrArg (done s) (if_neg hoff))⟩

end Sys2Proof.Machine

/-! ## Requests of other modules at their home (04 R117, 15 R403-R405) -/

namespace Sys2Proof.Machine

/-! ### In turn at a quiet home (15 R405) -/

theorem serveHost_quiet {s : State} (h : s.host.heldWrites = []) : serveHost s = s := by
  unfold serveHost
  rw [h]
  rfl

theorem modeStep_quiet {s : State} (h : s.od.modes = []) : modeStep s = s := by
  unfold modeStep
  rw [h]

/-- The one request held is served, and its source's stream goes on. -/
theorem serveHeld_single {s : State} {q : Packet} (hhost : s.host.heldWrites = []) (hmodes : s.od.modes = [])
    (hheld : s.fabric.heldReqs = [q]) : serveHeld s = serveStream 2 s q.src := by
  unfold serveHeld
  rw [serveHost_quiet hhost, modeStep_quiet hmodes]
  dsimp only
  rw [hheld]
  simp [nubList, hheld]

theorem serveHeld_none {s : State} (h : Quiet s) : serveHeld s = s := by
  obtain ⟨hheld, hhost, hmodes⟩ := h
  unfold serveHeld
  rw [serveHost_quiet hhost, modeStep_quiet hmodes]
  dsimp only
  rw [hheld]
  rfl

/-- A command that is a request of a type takes the way of all requests. -/
theorem exec_request {c : Instr} {p : Packet} {k : Nat} (h : Requests c p k) (s : State) : exec c s = done s (requestArrives s k p) := by
  rcases h with h | ⟨rfl, rfl, hlo, hhi, htx⟩
  · simp only [List.mem_cons, Prod.mk.injEq, List.not_mem_nil, or_false] at h
    rcases h with ⟨rfl, rfl⟩ | ⟨rfl, rfl⟩ | ⟨rfl, rfl⟩ | ⟨rfl, rfl⟩ | ⟨rfl, rfl⟩ | ⟨rfl, rfl⟩ <;> rfl
  · exact congrArg (done s) (if_pos ⟨htx, hlo, hhi⟩)

theorem serveStream_answer {s u : State} {q : Packet} {fuel status : Nat} {b : List Byte}
    (hnext : findFirst (fun r => r.src == q.src && r.streamSeq == kcount s.fabric.recvSeq q.src % 4294967296) s.fabric.heldReqs = some q)
    (hserve : serveRequest s q = (.answer status b, u)) :
    serveStream (fuel + 1) s q.src = serveStream fuel (responded u q status b) q.src := by
  rw [serveStream, hnext]
  dsimp only
  rw [hserve]
  rfl

/-- A request in turn at a quiet home is served and answered. -/
theorem request_answered {c : Instr} {p : Packet} {k status : Nat} {s u : State} {b : List Byte} (hreq : Requests c p k) (hquiet : Quiet s)
    (hturn : InTurn s p) (hserve : serveRequest (arrived s { p with type := k }) { p with type := k } = (.answer status b, u)) :
    Becomes c s (serveStream 1 (responded u { p with type := k } status b) p.src) := by
  obtain ⟨hheld, hhost, hmodes⟩ := hquiet
  obtain ⟨hdest, hseq⟩ := hturn
  have harrived : (arrived s { p with type := k }).fabric.heldReqs = [{ p with type := k }] := by
    unfold arrived
    rw [State.modFab_fabric, hheld]
    rfl
  have hnext : findFirst (fun r => r.src == p.src && r.streamSeq == kcount (arrived s { p with type := k }).fabric.recvSeq p.src % 4294967296)
      (arrived s { p with type := k }).fabric.heldReqs = some { p with type := k } := by
    have hrecv : (arrived s { p with type := k }).fabric.recvSeq = s.fabric.recvSeq := rfl
    rw [harrived, hrecv]
    exact if_pos (by simpa using hseq)
  refine becomes_of_eq (exec_request hreq s) ?_
  refine (if_neg (not_not_intro hdest)).trans ?_
  exact (serveHeld_single (s := arrived s { p with type := k }) hhost hmodes harrived).trans
    (serveStream_answer (q := { p with type := k }) (fuel := 1) hnext hserve)

/-! ### What a request does (15 R403, R404) -/

section
variable {s t u v w : State} {p : Packet} {h off n id : Nat} {o : Obj} {m : Memory} {b out : List Byte}

/-- The pages of a range are at hand, and it reads `m`. -/
def LoadsBytes (v : State) (p : Packet) (h : Nat) (o : Obj) (off n id : Nat) (m : Memory) (u : State) : Prop :=
  missingPages v (.peer p.src) (flashPages v (o.base + off) n) = [] ∧
    readPayload (usedPages (touchHeat v h (o.base + off) n (whoPeer p.src)) (.peer p.src) (flashPages v (o.base + off) n))
      (o.base + off) n id = (.ok m, u)

theorem serveLoad_ok (hload : LoadsBytes v p h o off n id m u) : serveLoad v p h o off n id = (.answer 0 (mread m 0 n), u) := by
  obtain ⟨hmiss, hread⟩ := hload
  unfold serveLoad
  dsimp only
  rw [hmiss, List.isEmpty_nil, Bool.not_true, if_neg Bool.false_ne_true, hread]

theorem serveStore_ok (hstore : storeAt v id h off b (whoPeer p.src) = (.ok, u)) : serveStore v p h off id b out = (.answer 0 out, u) := by
  unfold serveStore
  rw [hstore]

/-- What holds the lines of a read-modify-write outside a transaction has been dealt with. -/
def Met (t : State) (a n id : Nat) (v : State) : Prop := if id = 0 then meetLines t a n = (.free, v) else v = t

variable {f : List Byte → Option (List Byte) × List Byte}

/-- How a read-modify-write ends, by what it stores and what it returns. -/
def modifyEnds (u : State) (p : Packet) (h off id : Nat) : Option (List Byte) × List Byte → Served × State
  | (some new, out) => serveStore u p h off id new out
  | (none, out) => (.answer 0 out, u)

theorem serveModify_loaded (hmet : Met t (o.base + off) n id v) (hload : LoadsBytes v p h o off n id m u) :
    serveModify t p h o off n id f = modifyEnds u p h off id (f (mread m 0 n)) := by
  have hfree : (if id = 0 then meetLines t (o.base + off) n else (.free, t)) = (.free, v) := by
    unfold Met at hmet
    split at hmet
    · next hid => rw [if_pos hid, hmet]
    · next hid => rw [if_neg hid, hmet]
  unfold serveModify
  rw [hfree]
  dsimp only
  rw [serveLoad_ok hload]
  rfl

theorem serveModify_stores {new : List Byte} (hmet : Met t (o.base + off) n id v) (hload : LoadsBytes v p h o off n id m u)
    (hnew : f (mread m 0 n) = (some new, out)) (hstore : storeAt u id h off new (whoPeer p.src) = (.ok, w)) :
    serveModify t p h o off n id f = (.answer 0 out, w) := by
  rw [serveModify_loaded hmet hload, hnew]
  exact serveStore_ok hstore

theorem serveModify_keeps (hmet : Met t (o.base + off) n id v) (hload : LoadsBytes v p h o off n id m u)
    (hnone : f (mread m 0 n) = (none, out)) : serveModify t p h o off n id f = (.answer 0 out, u) := by
  rw [serveModify_loaded hmet hload, hnone, modifyEnds]

/-- A request that passes its checks and enters acts at the object. -/
theorem serveRequest_enters (hobj : requestObject s p = some (h, o)) (hright : requestRight s p o = true) (hok : requestStatus p h o = 0)
    (henters : Enters s p id t) : serveRequest s p = serveObject t p h o id := by
  have hright' : ¬ (!requestRight s p o) = true := by simp [hright]
  unfold serveRequest
  rw [hobj]
  dsimp only
  rw [if_neg hright', if_neg (not_not_intro hok)]
  rcases henters with ⟨htx, rfl, rfl⟩ | ⟨htx, rfl, hcoord, hopen, y, hy, hstate⟩
  · rw [if_pos htx, if_pos rfl]
  · have hid : p.tx.toNat ≠ 0 := fun hzero => htx (by rw [hzero])
    rw [if_neg htx, if_neg hid, if_neg hcoord, hopen]
    dsimp only
    rw [hy]
    exact if_pos hstate

/-- R64 refuses: counted, and nothing else changes. -/
theorem serveRequest_refused (hno : requestObject s p = none ∨ ∃ h o, requestObject s p = some (h, o) ∧ requestRight s p o = false) :
    serveRequest s p = (.answer (if leftGroup s p then 0x6003 else 0x6002) [], peerFail s p.polder) := by
  unfold serveRequest
  rcases hno with hnone | ⟨h, o, hobj, hright⟩
  · rw [hnone]
  · rw [hobj]
    exact if_pos (by simp [hright])

theorem peerFail_countsOnly (s : State) (p : Nat) : CountsOnly s (peerFail s p) := by
  have hdike : CountsOnly s (dikeFail s p) := by
    unfold CountsOnly dikeFail bumpP bump
    simp only [Nat.one_ne_zero, if_false, false_or]
    split <;> rfl
  unfold CountsOnly at hdike ⊢
  unfold peerFail bump
  rw [hdike]
  rfl

theorem CountsOnly.keeps (h : CountsOnly s t) : t.objs = s.objs ∧ t.dram = s.dram ∧ t.flash = s.flash ∧ t.fabric = s.fabric := by
  unfold CountsOnly at h
  rw [h]
  exact ⟨rfl, rfl, rfl, rfl⟩

theorem cnt_peerFail (s : State) (p : Nat) : cnt (peerFail s p) 0x9500 4 = cnt s 0x9500 4 + 1 ∧ cnt (peerFail s p) 0x9500 1 = cnt s 0x9500 1 + 1 := by
  unfold peerFail dikeFail
  refine ⟨?_, ?_⟩
  · rw [cnt_bump, cnt_bumpP, cnt_bump_other s 1 (by decide)]
  · rw [cnt_bump_other _ 1 (by decide), cnt_bumpP, cnt_bump]

end

/-! ### By type (15 R403) -/

section
variable {s : State} {p : Packet} {h id : Nat} {o : Obj}

/-- Offset of a request in the payload of the object it falls in. -/
def requestOff (p : Packet) (o : Obj) : Nat := p.addr.toNat % 18014398509481984 - o.base

theorem serveObject_read (hk : p.type = 1) : serveObject s p h o id =
    serveLoad (if id = 0 then s else trackLines s id h (o.base + requestOff p o) p.length) p h o (requestOff p o) p.length id := by
  unfold serveObject
  rw [hk]
  rfl

theorem serveObject_write (hk : p.type = 2) : serveObject s p h o id = serveStore s p h (requestOff p o) id p.payload [] := by
  unfold serveObject
  rw [hk]
  rfl

theorem serveObject_rowAdd (hk : p.type = 3) : serveObject s p h o id =
    serveModify s p h o (requestOff p o) (requestSize p) id fun old =>
      (some (sumRow (rowAddFormat h o) old (groupsOf (requestSize p) p.payload.length p.payload)), []) := by
  unfold serveObject
  rw [hk]
  rfl

theorem serveObject_atomic (hk : p.type = 4 ∨ p.type = 5 ∨ p.type = 6) : serveObject s p h o id =
    serveModify s p h o (requestOff p o) (requestSize p) id fun old => ((atomicNew p.type (leNat old) p.payload).map (toLE 8), old) := by
  unfold serveObject requestSize
  rcases hk with hk | hk | hk <;> rw [hk] <;> rfl

end

/-- Settles O25: a request in turn is served alone (`request_answered`), and what it does there is `serveObject` of its type. -/
theorem requestsActOrAreRefused : Obligations.RequestsActOrAreRefused := by
  unfold Obligations.RequestsActOrAreRefused
  refine ⟨⟨fun p k c s u status b hreq hquiet hturn hserve => request_answered hreq hquiet hturn hserve, ?elsewhere⟩, ?acts, ?refused⟩
  case elsewhere =>
    intro p c s hc hdest
    have hidle (k : Nat) : requestArrives s k p = s := if_pos hdest
    simp only [List.mem_cons, List.not_mem_nil, or_false] at hc
    rcases hc with rfl | rfl | rfl | rfl | rfl | rfl | rfl
    case inr.inr.inr.inr.inr.inr =>
      refine becomes_of_exec (congrArg (done s) ?_)
      split
      · exact hidle _
      · rfl
    all_goals exact becomes_of_exec (congrArg (done s) (hidle _))
  case acts =>
    intro p k c s h o hreq hquiet hturn q off hobj hright hok id t henters answers reads stores
    have hserved {u : State} {b : List Byte} (hobject : serveObject t q h o id = (.answer 0 b, u)) : answers u b :=
      request_answered hreq hquiet hturn ((serveRequest_enters (s := arrived s q) hobj hright hok henters).trans hobject)
    refine ⟨fun hk m u hload => ?_, fun hk u hstore => ?_, fun v m u hmet hload => ?_⟩
    · exact hserved ((serveObject_read hk).trans (serveLoad_ok hload))
    · exact hserved ((serveObject_write hk).trans (serveStore_ok hstore))
    · intro old
      have hatomic {new : Option Nat} (hk : k = 4 ∨ k = 5 ∨ k = 6) (hnew : atomicNew k (leNat old) p.payload = new) :
          (fun old => ((atomicNew q.type (leNat old) q.payload).map (toLE 8), old)) old = (new.map (toLE 8), old) := by rw [← hnew]
      have hswaps {x : Nat} {w : State} (hk : k = 4 ∨ k = 5 ∨ k = 6) (hnew : atomicNew k (leNat old) p.payload = some x)
          (hstore : stores u (toLE 8 x) w) : answers w old :=
        hserved ((serveObject_atomic hk).trans (serveModify_stores hmet hload (hatomic hk hnew) hstore))
      refine ⟨fun hk w hstore => ?_, fun hk w hstore => ?_, fun hk hmatch w hstore => ?_, fun hk hmatch => ?_, fun hk w hstore => ?_⟩
      · exact hserved ((serveObject_rowAdd hk).trans (serveModify_stores hmet hload rfl hstore))
      · exact hswaps (.inl hk) (by rw [hk]; rfl) hstore
      · exact hswaps (.inr (.inl hk)) (by rw [hk]; exact if_pos hmatch) hstore
      · have hnone : atomicNew k (leNat old) p.payload = none := by rw [hk]; exact if_neg hmatch
        exact hserved ((serveObject_atomic (.inr (.inl hk))).trans (serveModify_keeps hmet hload (hatomic (.inr (.inl hk)) hnone)))
      · exact hswaps (.inr (.inr hk)) (by rw [hk]; rfl) hstore
  case refused =>
    intro s p hno
    obtain ⟨hobjs, hdram, hflash, hfabric⟩ := (peerFail_countsOnly s p.polder).keeps
    obtain ⟨hpeer, hdike⟩ := cnt_peerFail s p.polder
    exact ⟨_, serveRequest_refused hno, hobjs, hdram, hflash, hfabric, hpeer, hdike⟩

end Sys2Proof.Machine

/-! ## What ends a command that waits for another module (15 R405, R406, R524-R526) -/

namespace Sys2Proof.Machine

/-! ### Routes do not depend on the requests outstanding -/

/-- The state with other requests outstanding. -/
def withReqs (s : State) (l : KMap RemoteReq) : State := s.modFab fun f => { f with reqs := l }

theorem routeWhole_withReqs (s : State) (l : KMap RemoteReq) (order : Bool) (dest fuel m : Nat) :
    routeWhole (withReqs s l) order dest fuel m = routeWhole s order dest fuel m := by
  induction fuel generalizing m with
  | zero => rfl
  | succ fuel ih =>
    have hhop : hopOf (withReqs s l) order m dest = hopOf s order m dest := rfl
    have hdown (port : Nat) : linkDown (withReqs s l) m port = linkDown s m port := rfl
    have hnext (port : Nat) : neighbour (withReqs s l) m port = neighbour s m port := rfl
    simp only [routeWhole, hhop, hdown, hnext, ih]

theorem pickRoute_withReqs (s : State) (l : KMap RemoteReq) (dest : Nat) : pickRoute (withReqs s l) dest = pickRoute s dest := by
  have hpin : pinOf (withReqs s l) dest = pinOf s dest := rfl
  have hdown (m port : Nat) : linkDown (withReqs s l) m port = linkDown s m port := rfl
  have hnext (m port : Nat) : neighbour (withReqs s l) m port = neighbour s m port := rfl
  have hid : moduleId (withReqs s l) = moduleId s := rfl
  have hkind : (withReqs s l).fabric.kind = s.fabric.kind := rfl
  have hroutes : (withReqs s l).fabric.routes = s.fabric.routes := rfl
  simp only [pickRoute, hpin, hdown, hnext, hid, hkind, hroutes, routeWhole_withReqs]

theorem sendStatus_withReqs (s : State) (l : KMap RemoteReq) (dest : Nat) : sendStatus (withReqs s l) dest = sendStatus s dest := by
  have hup : egressUp (withReqs s l) dest = egressUp s dest := rfl
  simp only [sendStatus, pickRoute_withReqs, hup]

theorem sendWaiting_none {s : State} (h : s.fabric.waiting = []) (dest : Nat) : sendWaiting s dest = s := by
  have hkeep : (s.modFab fun f => { f with waiting := f.waiting.filter fun p => p.dest != dest }) = s := by
    have hfab : { s.fabric with waiting := s.fabric.waiting.filter fun p => p.dest != dest } = s.fabric := by
      conv_rhs => rw [show s.fabric = { s.fabric with waiting := [] } by rw [← h]]
      rw [h]; rfl
    exact congrArg (fun f => { s with fabric := f }) hfab
  unfold sendWaiting
  dsimp only
  rw [hkeep, h]
  rfl

/-! ### The last piece of a WRITE (15 R526) -/

/-- A command's wait and its work, as an ended piece leaves them. -/
def putWait (s : State) (reg : Nat) (w : Wait) (n : Nat) : State :=
  { s with execs := kmod s.execs reg fun e => { e with wait := w, work := e.work + n } }

theorem waitOf_putWait {s : State} {reg n : Nat} {e : Exec} {w : Wait} (h : kget s.execs reg = some e) :
    waitOf (putWait s reg w n) reg = some w := by
  simp [waitOf, putWait, kget_kmod, h]

section
variable {s : State} {reg piece tag x : Nat} {r : RemoteReq} {e : Exec} {b : List Byte}
  (hexec : kget s.execs reg = some e) (hwait : e.wait = .remote [(tag, x)] 0) (hop : e.opcode = 2) (htx : e.cmd.tx = 0) (htype : r.type = 2)
include hexec hwait hop htx htype

/-- The FLUSH that a WRITE with FUA carries to its home once its pieces are held there. -/
def fuaFlush (s : State) (reg : Nat) (e : Exec) : Option Nat × State :=
  sendRequest s (.register reg 0) (homeOf e.cmd.target.toNat) (Config.messageCode Msg.carried.num) e.cmd.target.toNat 0 0 0 e.polder
    (Config.remoteGroup e.cmd.target.toNat) ([3, e.cmd.target.toNat, 0, 0].flatMap (toLE 8) ++ toLE 16 0)

theorem endPiece_lastWrite (hflag : e.cmd.flags.getLsbD 0 = false) :
    endPiece s reg piece r tag 0 b = putWait s reg (.ready 0 e.cmd.length.toNat) r.length := by
  unfold endPiece
  rw [hexec]
  dsimp only
  rw [hwait, hflag]
  simp [hop, htx, htype, remoteWait, putWait]

theorem endPiece_fua (hflag : e.cmd.flags.getLsbD 0 = true) :
    (∃ t u, fuaFlush s reg e = (some t, u) ∧
      endPiece s reg piece r tag 0 b = putWait u reg (.remote [(t, 0)] e.cmd.length.toNat) r.length) ∨
    ∃ u, fuaFlush s reg e = (none, u) ∧
      endPiece s reg piece r tag 0 b = putWait u reg (.ready (sendStatus u (homeOf e.cmd.target.toNat)) e.cmd.length.toNat) r.length := by
  rcases hsent : fuaFlush s reg e with ⟨t | _, u⟩
  · refine .inr ⟨u, rfl, ?_⟩
    unfold endPiece
    rw [hexec]
    dsimp only
    rw [hwait, hflag, ← fuaFlush]
    simp [hop, htx, htype, remoteWait, putWait, hsent]
  · refine .inl ⟨_, u, rfl, ?_⟩
    unfold endPiece
    rw [hexec]
    dsimp only
    rw [hwait, hflag, ← fuaFlush]
    simp [hop, htx, htype, remoteWait, putWait, hsent]

theorem endPiece_failed {status : Nat} (hstatus : status ≠ 0) : endPiece s reg piece r tag status b = putWait s reg (.ready status piece) 0 := by
  unfold endPiece
  rw [hexec]
  simp [hwait, hop, htx, htype, hstatus, remoteWait, putWait]

end

theorem SendsOnly.keepsWork {s t : State} (h : SendsOnly s t) : t.objs = s.objs ∧ t.execs = s.execs := by
  unfold SendsOnly at h
  rw [h]
  exact ⟨rfl, rfl⟩

/-- A request that cannot leave changes nothing; one that leaves changes neither objects nor commands. -/
theorem sendRequest_cases (s : State) (owner : ReqOwner) (dest type addr length haddr tx polder group : Nat) (payload : List Byte) (off : Nat) :
    sendRequest s owner dest type addr length haddr tx polder group payload off = (none, s) ∨
    ∃ t u, sendRequest s owner dest type addr length haddr tx polder group payload off = (some t, u) ∧ u.objs = s.objs ∧ u.execs = s.execs := by
  unfold sendRequest
  dsimp only
  have hsends := sendPacket_sendsOnly s { blankPacket with
    type := type, dest := dest, tclass := (match owner with | .claim _ => 3 | _ => 0), tag := s.fabric.nextTag, addr := BitVec.ofNat 64 addr
    tx := BitVec.ofNat 32 tx, polder := polder, group := group, length := length, payload := payload }
  generalize sendPacket s _ = sent at hsends ⊢
  obtain ⟨ok, u⟩ := sent
  cases ok with
  | false => exact .inl rfl
  | true =>
    obtain ⟨hobjs, hexecs⟩ := hsends.keepsWork
    exact .inr ⟨_, _, rfl, hobjs, hexecs⟩

/-- A request of a command ends: its slot is freed, and its piece ends. -/
theorem endRequest_register {s : State} {tag status reg piece : Nat} {r : RemoteReq} {b : List Byte} (hreq : kget s.fabric.reqs tag = some r)
    (howner : r.owner = .register reg piece) (hwaiting : s.fabric.waiting = []) : endRequest s tag status b =
    endPiece (withReqs s (kdel s.fabric.reqs tag)) reg piece r tag status b := by
  have hsame : (if (kdel s.fabric.reqs tag).any (fun e => e.2.dest == r.dest) then withReqs s (kdel s.fabric.reqs tag)
      else sendWaiting (withReqs s (kdel s.fabric.reqs tag)) r.dest) = withReqs s (kdel s.fabric.reqs tag) := by
    split
    · rfl
    · exact sendWaiting_none (s := withReqs s (kdel s.fabric.reqs tag)) hwaiting _
  unfold endRequest
  rw [hreq]
  dsimp only
  rw [howner]
  exact congrArg (fun u : State => endPiece u reg piece r tag status b) hsame

/-! ### A command of another module (15 R524, R525) -/

theorem Quiet.of_aside {s t : State} (h : Quiet s) (hheld : t.fabric.heldReqs = s.fabric.heldReqs) (hhost : t.host = s.host)
    (hmodes : t.od.modes = s.od.modes) : Quiet t := by
  obtain ⟨h1, h2, h3⟩ := h
  exact ⟨hheld.trans h1, (congrArg HostIf.heldWrites hhost).trans h2, hmodes.trans h3⟩

/-- A runtime message at a quiet home moves only its source's stream on. -/
theorem tookMsg_quiet {s : State} (h : Quiet s) (src : Nat) : tookMsg s src =
    if src = moduleId s then s else s.modFab fun f => { f with recvSeq := kset f.recvSeq src (kcount f.recvSeq src + 1) } := by
  refine serveHeld_none ?_
  split
  · exact h
  · exact h.of_aside rfl rfl rfl

/-- The state in which a carried command runs: under a number of its own, above the registers. -/
def carriedBegun (s : State) (c : Carried) : State :=
  let cmd : TaskCmd := { fn := c.src, reg := 0, flags := 0, tag := BitVec.ofNat 32 c.tag, target := BitVec.ofNat 64 c.target
                         length := BitVec.ofNat 64 c.length, haddr := 0, ops := c.ops, tx := BitVec.ofNat 32 c.tx, rsv := 0, seq := 0
                         polder := BitVec.ofNat 16 c.polder, crc := 0 }
  { bump s 0x9074 1 1 with
    nextOrder := s.nextOrder + 1
    execs := kset s.execs (1048576 + s.nextOrder)
      { fn := c.src, opcode := c.opcode, cmd := cmd, order := s.nextOrder, polder := c.polder, wait := .retry, carried := some c } }

/-- The commands that a home serves for another module. -/
def homeServes (op : Nat) : Bool := [0x1, 0x2, 0x3, 0x4, 0x30, 0x31, 0x40, 0x41, 0x42, 0x50, 0x51, scanCode, rerankCode].contains op

theorem carriedBegun_eq (s : State) (c : Carried) (e : Exec) (he : e = {
    fn := c.src, opcode := c.opcode, order := s.nextOrder, polder := c.polder, wait := .retry, carried := some c
    cmd := { fn := c.src, reg := 0, flags := 0, tag := BitVec.ofNat 32 c.tag, target := BitVec.ofNat 64 c.target
             length := BitVec.ofNat 64 c.length, haddr := 0, ops := c.ops, tx := BitVec.ofNat 32 c.tx, rsv := 0, seq := 0
             polder := BitVec.ofNat 16 c.polder, crc := 0 } }) :
    ({ bump s 0x9074 1 1 with
      nextOrder := (bump s 0x9074 1 1).nextOrder + 1
      execs := kset (bump s 0x9074 1 1).execs (1048576 + s.nextOrder) e } : State) = carriedBegun s c := by
  rw [he, bump_nextOrder, bump_execs]
  rfl

theorem carriedHere_unserved {s : State} {c : Carried} (hop : homeServes c.opcode = false) (hok : carriedOk s c = true) :
    carriedHere s c = setWait (carriedBegun s c) (1048576 + s.nextOrder) (.ready 0x6002 0) := by
  have hok' : carriedOk (carriedBegun s c) c = true := by rw [← hok]; rfl
  unfold carriedHere
  extract_lets cmd key u e w serves right
  have hw : w = carriedBegun s c := carriedBegun_eq s c e (by simp only [e, u, cmd, bump_nextOrder])
  have hserves : serves = false := hop
  have hright : right = true := by simp only [right, hw, hok']
  rw [hserves, hright, hw]
  rfl

/-- Outside a transaction a command of these opcodes runs as it does on its own module. -/
theorem carriedHere_runs {s : State} {c : Carried} (hop : c.opcode ∈ [0x3, 0x4, 0x31, 0x40, 0x41, 0x42, 0x50, 0x51])
    (hok : carriedOk s c = true) (htx : c.tx % 4194304 = 0) :
    carriedHere s c = runEffect (carriedBegun s c) (1048576 + s.nextOrder) false := by
  have hok' : carriedOk (carriedBegun s c) c = true := by rw [← hok]; rfl
  unfold carriedHere
  extract_lets cmd key u e w serves right
  have hw : w = carriedBegun s c := carriedBegun_eq s c e (by simp only [e, u, cmd, bump_nextOrder])
  have hserves : serves = true := by
    simp only [List.mem_cons, List.not_mem_nil, or_false] at hop
    simp only [serves]
    rcases hop with hop | hop | hop | hop | hop | hop | hop | hop <;> rw [hop] <;> rfl
  have hright : right = true := by simp only [right, hw, hok']
  rw [hserves, hright, hw, if_pos htx, if_neg (by decide)]
  have hjob : c.opcode ≠ 0x30 := by
    intro h
    rw [h] at hop
    exact absurd hop (by decide)
  dsimp only
  cases hbranch : kget (carriedBegun s c).branches c.tx <;>
    simp only [htx, true_or, if_true, ne_eq, not_true_eq_false, if_false, if_neg hjob]
  all_goals
    split
    · next h _ => rw [h] at hop; exact absurd hop (by decide)
    · next h _ => rw [h] at hop; exact absurd hop (by decide)
    · rfl

theorem homeServes_local {op : Nat} (h : [0x3, 0x4, 0x31, 0x40, 0x41, 0x42, 0x50, 0x51].contains op = true) :
    op ∈ [0x3, 0x4, 0x31, 0x40, 0x41, 0x42, 0x50, 0x51] := by simpa using h

/-- Settles O26: a response or a timeout is one `endRequest`, of the piece that the command waits for; a carried command begins as
`carriedBegun`. -/
theorem remoteCommandsEnd : Obligations.RemoteCommandsEnd := by
  unfold Obligations.RemoteCommandsEnd
  refine ⟨fun s p r reg piece x e hreq hsrc hdest howner htype hexec hwait hop htx hwaiting => ?response, fun s c hop hok hquiet => ?refused,
    fun s c hop hok htx => ?carried⟩
  case response =>
    have hend (status : Nat) (b : List Byte) := endRequest_register (status := status) (b := b) hreq howner hwaiting
    have hexec' : kget (withReqs s (kdel s.fabric.reqs p.tag)).execs reg = some e := hexec
    have hresponse : exec (.remoteResponse p) s = done s (endRequest s p.tag p.status.toNat p.payload) := by
      refine congrArg (done s) ?_
      rw [hreq]
      exact if_pos ⟨hsrc, hdest⟩
    refine ⟨fun hok hflag => ?_, fun hok hflag => ?_, fun hfail => ?_, fun hdue => ?_, fun hearly => ?_⟩
    · rw [hok] at hresponse
      have hlast := endPiece_lastWrite (piece := piece) (b := p.payload) hexec' hwait hop htx htype hflag
      exact answers_of_exec (hresponse.trans (congrArg (done s) ((hend _ _).trans hlast))) ⟨waitOf_putWait hexec', rfl, rfl⟩
    · rw [hok] at hresponse
      have hsent := sendRequest_cases (withReqs s (kdel s.fabric.reqs p.tag)) (.register reg 0) (homeOf e.cmd.target.toNat)
        (Config.messageCode Msg.carried.num) e.cmd.target.toNat 0 0 0 e.polder (Config.remoteGroup e.cmd.target.toNat)
        ([3, e.cmd.target.toNat, 0, 0].flatMap (toLE 8) ++ toLE 16 0) 0
      rcases endPiece_fua (piece := piece) (b := p.payload) hexec' hwait hop htx htype hflag with ⟨t, u, hflush, hpiece⟩ | ⟨u, hflush, hpiece⟩
      · rcases hsent with hnone | ⟨t', u', hsome, hobjs, hexecs⟩
        · exact absurd (hflush.symm.trans hnone) (by simp)
        · obtain ⟨rfl, rfl⟩ : t = t' ∧ u = u' := by simpa using hflush.symm.trans hsome
          exact answers_of_exec (hresponse.trans (congrArg (done s) ((hend _ _).trans hpiece)))
            ⟨hobjs, .inl ⟨t, waitOf_putWait (hexecs ▸ hexec')⟩⟩
      · rcases hsent with hnone | ⟨t', u', hsome, hobjs, hexecs⟩
        · obtain rfl : u = withReqs s (kdel s.fabric.reqs p.tag) := by simpa using hflush.symm.trans hnone
          rw [sendStatus_withReqs] at hpiece
          exact answers_of_exec (hresponse.trans (congrArg (done s) ((hend _ _).trans hpiece))) ⟨rfl, .inr (waitOf_putWait hexec')⟩
        · exact absurd (hflush.symm.trans hsome) (by simp)
    · have hstatus : p.status.toNat ≠ 0 := fun h => hfail (by simpa using congrArg (BitVec.ofNat 16) h)
      have hpiece := endPiece_failed (piece := piece) (b := p.payload) hexec' hwait hop htx htype hstatus
      exact answers_of_exec (hresponse.trans (congrArg (done s) ((hend _ _).trans hpiece))) ⟨waitOf_putWait hexec', rfl, rfl⟩
    · have hcount := cnt_bump s 0x9074 4 1
      have hkept := (bump_countsOnly s 0x9074 4 1).sends.keepsWork
      have hfabric := bump_fabric s 0x9074 4 1
      have htimeout : exec (.endToEndTimeout p.tag) s = done s (endRequest (bump s 0x9074 4 1) p.tag 0x6004 []) := by
        refine congrArg (done s) ?_
        rw [hreq]
        exact if_pos ⟨by rw [htype]; decide, hdue⟩
      generalize bump s 0x9074 4 1 = v at hcount hkept hfabric htimeout
      obtain ⟨hobjs, hexecs⟩ := hkept
      have hexec'' : kget (withReqs v (kdel v.fabric.reqs p.tag)).execs reg = some e := (congrArg (kget · reg) hexecs).trans hexec
      have hpiece := (endRequest_register (s := v) (status := 0x6004) (b := []) (by rw [hfabric]; exact hreq) howner
        (by rw [hfabric]; exact hwaiting)).trans (endPiece_failed (piece := piece) (b := []) hexec'' hwait hop htx htype (by decide))
      exact answers_of_exec (htimeout.trans (congrArg (done s) hpiece)) ⟨waitOf_putWait hexec'', hcount, hobjs⟩
    · refine becomes_of_exec (congrArg (done s) ?_)
      rw [hreq]
      exact if_neg fun h => Nat.not_lt.2 h.2 hearly
  case refused =>
    have hwait : waitOf (setWait (carriedBegun s c) (1048576 + s.nextOrder) (.ready 0x6002 0)) (1048576 + s.nextOrder) =
        some (.ready 0x6002 0) := by
      simp [waitOf, setWait, carriedBegun, kget_kmod]
    have hobjs : (setWait (carriedBegun s c) (1048576 + s.nextOrder) (.ready 0x6002 0)).objs = s.objs := bump_objs _ _ _ _
    have hnext : (setWait (carriedBegun s c) (1048576 + s.nextOrder) (.ready 0x6002 0)).nextOrder = s.nextOrder + 1 := rfl
    have hquiet' : Quiet (setWait (carriedBegun s c) (1048576 + s.nextOrder) (.ready 0x6002 0)) :=
      hquiet.of_aside (congrArg Fabric.heldReqs (bump_fabric s 0x9074 1 1)) (bump_host _ _ _ _) rfl
    have hexec := (congrArg (fun u => tookMsg u c.src) (carriedHere_unserved hop hok)).trans (tookMsg_quiet hquiet' c.src)
    generalize setWait (carriedBegun s c) (1048576 + s.nextOrder) (.ready 0x6002 0) = v at *
    split at hexec
    · exact answers_of_exec (congrArg (done s) hexec) ⟨hwait, hobjs, hnext⟩
    · exact answers_of_exec (congrArg (done s) hexec) ⟨hwait, hobjs, hnext⟩
  case carried =>
    intro cmd e b
    refine becomes_of_eq rfl (congrArg (fun u => tookMsg u c.src) (carriedHere_runs (homeServes_local hop) hok htx))

end Sys2Proof.Machine

/-! ## Parts of collectives and forwarded jobs (06 R183, 15 R415) -/

namespace Sys2Proof.Machine

theorem findFirst_append {α : Type} {f : α → Bool} {l : List α} {a : α} (h : ∀ x ∈ l, f x = false) (ha : f a = true) :
    findFirst f (l ++ [a]) = some a := by
  induction l with
  | nil => exact if_pos ha
  | cons x l ih =>
    have hx : ¬ f x = true := by simp [h x]
    exact (if_neg hx).trans (ih fun y hy => h y (List.mem_cons_of_mem _ hy))

section
variable {s : State} {p : CollPart}

/-- No part of the collective is here yet. -/
def NewColl (s : State) (p : CollPart) : Prop := (s.fabric.colls.any fun c => c.group == p.group && c.number == p.number) = false

/-- The first part of a collective that this module has not issued is kept for it. -/
theorem addPartOf_new (h : NewColl s p) :
    addPartOf s p none = s.modFab fun f => { f with colls := f.colls ++ [⟨p.group, p.epoch, p.number, [p], none⟩] } := by
  have hnone : ∀ c ∈ s.fabric.colls, (c.group == p.group && c.number == p.number) = false := by
    simpa [NewColl, List.any_eq_false] using h
  have hfirst : findFirst (fun (c : Coll) => c.group == p.group && c.number == p.number) s.fabric.colls = none := findFirst_eq_none hnone
  have hothers : s.fabric.colls.filter (fun c => !(c.group == p.group && c.number == p.number)) = s.fabric.colls :=
    List.filter_eq_self.2 fun c hc => by rw [hnone c hc]; rfl
  unfold addPartOf State.modFab
  dsimp only
  rw [hfirst, hothers]
  rfl

/-- A collective without a context of this module waits for it. -/
theorem finishColl_unissued (h : NewColl s p) :
    let t := s.modFab fun f => { f with colls := f.colls ++ [⟨p.group, p.epoch, p.number, [p], none⟩] }
    finishColl t p.group p.number = t := by
  intro t
  have hnone : ∀ c ∈ s.fabric.colls, (c.group == p.group && c.number == p.number) = false := by
    simpa [NewColl, List.any_eq_false] using h
  have hfirst : findFirst (fun (c : Coll) => c.group == p.group && c.number == p.number) t.fabric.colls =
      some ⟨p.group, p.epoch, p.number, [p], none⟩ := findFirst_append hnone (by simp)
  unfold finishColl
  rw [hfirst]
  cases kget t.fabric.groups p.group <;> rfl

/-- Nothing else of a member's part of the installed epoch takes effect. -/
theorem collectivePacket_new {g : Group} (hg : kget s.fabric.groups p.group = some g) (hepoch : g.epoch = p.epoch)
    (hfrom : (g.members.any fun m => m.2.1 == p.member) = true) (hme : isMember g.members (moduleId s) = true) (h : NewColl s p) :
    collectivePacket s p = s.modFab fun f => { f with colls := f.colls ++ [⟨p.group, p.epoch, p.number, [p], none⟩] } := by
  unfold collectivePacket
  rw [hg]
  refine (if_pos ⟨hepoch, hfrom, hme⟩).trans ?_
  rw [addPartOf_new h]
  exact finishColl_unissued h

theorem collectivePacket_otherEpoch {g : Group} (hg : kget s.fabric.groups p.group = some g) (hepoch : g.epoch ≠ p.epoch) :
    collectivePacket s p = s := by
  unfold collectivePacket
  rw [hg]
  exact if_neg fun h => hepoch h.1

end

/-! ### Jobs -/

/-- The answer to a forwarded job. -/
def jobAnswer (s : State) (j : FwdJob) (status : Nat) (b : List Byte) : State :=
  respond s { blankPacket with src := j.src, tag := j.tag, type := Config.messageCode Msg.jobForward.num } status b

section
variable {s u : State} {j : FwdJob}

theorem jobForwardRequest_undefined (h : polderDefined s j.polder = false) : jobForwardRequest s j = jobAnswer s j 0x6002 [] :=
  if_pos (by simp [h])

theorem jobForwardRequest_admitted {h : Nat} (hdef : polderDefined s j.polder = true)
    (haccepts : (od s (0x3000 + j.polder) 8).testBit 1 = true) (hgroup : od s (0x3000 + j.polder) 0xB = j.group)
    (hadmit : admitJob s j.program j.argument j.polder j.priority j.seed.toNat = (.job h, u)) :
    jobForwardRequest s j = jobAnswer (schedBump u j.polder 0xA 1) j 0 (toLE 8 h) := by
  refine (if_neg (by simp [hdef, haccepts, hgroup])).trans ?_
  rw [hadmit]
  rfl

end

/-- Settles O28: a first part is kept alone; a forwarded job is admitted or refused, and its source's stream moves on. -/
theorem groupWorkArrives : Obligations.GroupWorkArrives := by
  unfold Obligations.GroupWorkArrives
  refine ⟨fun s p g hg => ⟨fun hepoch hfrom hme hnew => ?_, fun hepoch => ?_⟩, fun s j => ⟨fun hundef => ?_, fun h u hdef haccepts hgroup hadmit => ?_⟩⟩
  · exact becomes_of_eq rfl (collectivePacket_new hg hepoch hfrom hme hnew)
  · exact becomes_of_eq rfl (collectivePacket_otherEpoch hg hepoch)
  · exact becomes_of_eq rfl (congrArg (fun t => tookMsg t j.src) (jobForwardRequest_undefined hundef))
  · exact becomes_of_eq rfl (congrArg (fun t => tookMsg t j.src) (jobForwardRequest_admitted hdef haccepts hgroup hadmit))

end Sys2Proof.Machine

/-! ## Flits (15 R390-R392, R394) -/

namespace Sys2Proof.Machine

/-! ### A port read after it changed -/

section
variable {s : State} {n : Nat} {f : Port → Port}

theorem port_bump (s : State) (index sub k n : Nat) : (bump s index sub k).port n = s.port n :=
  congrArg (fun b : Fabric => (b.ports[n]?).getD {}) (bump_fabric s index sub k)

/-- A port that is not at its defaults is one of the module's. -/
theorem port_present (h : (s.port n).state ≠ .down) : n < s.fabric.ports.length := by
  by_contra hout
  have hnone : s.fabric.ports[n]? = none := List.getElem?_eq_none (Nat.le_of_not_lt hout)
  exact h (by unfold State.port; rw [hnone]; rfl)

theorem port_modPort_same (h : n < s.fabric.ports.length) : (s.modPort n f).port n = f (s.port n) := by
  unfold State.port
  rw [State.modPort_ports, List.getElem?_modify_eq, List.getElem?_eq_getElem h]
  rfl

theorem PortState.ne_down_of_carries {p : PortState} (h : p.carries = true) : p ≠ .down := by
  rintro rfl
  cases h

/-- A port with empty queues has nothing to serve. -/
theorem serveEgress_idle (fuel : Nat) (h : (s.port n).egress = []) : serveEgress fuel s n = s := by
  cases fuel with
  | zero => rfl
  | succ fuel =>
    unfold serveEgress
    dsimp only
    rw [h]
    rfl

end

/-! ### What a flit does -/

section
variable {s : State} {n : Nat} {f : Flit}

/-- The state in which the flit's codewords are counted. -/
def flitCounted (s : State) (n : Nat) (f : Flit) : State := bump (bump s (0x9070 + n) 1 f.corrected) (0x9070 + n) 2 f.badWords

/-- How far a flit is ahead of the one expected. -/
def flitAhead (s : State) (n : Nat) (f : Flit) : Nat := (f.seq + 65536 - (s.port n).rxSeq) % 65536

/-- The port answers with NAK. -/
def nakPort (s : State) (n : Nat) : State := s.modPort n fun t => { t with nak := true }

/-- The flit is the port's next. -/
def flitTaken (s : State) (n : Nat) : State :=
  bump (s.modPort n fun t => { t with rxSeq := (t.rxSeq + 1) % 65536, nak := false }) (0x9070 + n) 7 1

theorem port_flitCounted (s : State) (n : Nat) (f : Flit) : (flitCounted s n f).port n = s.port n := by
  unfold flitCounted
  rw [port_bump, port_bump]

/-- The checks of a flit on a port that carries traffic, in their order. -/
theorem flitReceive_carries (h : (s.port n).state.carries = true) :
    flitReceive s n f = if !f.intact || decide (0 < f.badWords) then nakPort (flitCounted s n f) n
      else if f.idle then flitControl (flitCounted s n f) n f
      else if flitAhead s n f = 0 then flitControl (flitTaken (flitCounted s n f) n) n f
      else if 32768 ≤ flitAhead s n f then flitCounted s n f
      else nakPort (flitCounted s n f) n := if_neg (by simp [h])

/-- A flit that passed its checks says nothing of a NAK and finds nothing queued: its acknowledgement and its credits are taken. -/
theorem flitControl_quiet (hnak : f.nak = false)
    (hq : ((s.modPort n fun t => takeCredits (ackFlits t f.acked) f.creditVc f.credits).port n).egress = []) :
    flitControl s n f = s.modPort n fun t => takeCredits (ackFlits t f.acked) f.creditVc f.credits := by
  unfold flitControl
  dsimp only
  rw [hnak]
  exact serveEgress_idle 64 hq

theorem ackFlits_egress (t : Port) (acked : Nat) : (ackFlits t acked).egress = t.egress := by
  unfold ackFlits
  split <;> rfl

/-- The next flit in order, with nothing queued on its port. -/
theorem flitControl_taken (hc : (s.port n).state.carries = true) (hnak : f.nak = false) (hq : (s.port n).egress = []) :
    flitControl (flitTaken (flitCounted s n f) n) n f =
      (flitTaken (flitCounted s n f) n).modPort n fun t => takeCredits (ackFlits t f.acked) f.creditVc f.credits := by
  have hx : ((flitCounted s n f).port n).state ≠ .down := by
    rw [port_flitCounted]
    exact PortState.ne_down_of_carries hc
  have hport : (flitTaken (flitCounted s n f) n).port n = { s.port n with rxSeq := ((s.port n).rxSeq + 1) % 65536, nak := false } := by
    unfold flitTaken
    rw [port_bump, port_modPort_same (port_present hx), port_flitCounted]
  have hy : ((flitTaken (flitCounted s n f) n).port n).state ≠ .down := by
    rw [hport]
    exact PortState.ne_down_of_carries hc
  refine flitControl_quiet hnak ?_
  rw [port_modPort_same (port_present hy), hport]
  exact (ackFlits_egress ..).trans hq

/-- A flit unacknowledged for too long. -/
def FlitLate (s : State) (n : Nat) : Prop := ((s.port n).replay.any fun r => decide (r.2.1 + od s 0x4400 2 ≤ s.power.uptime)) = true

theorem retryTimer_late (hc : (s.port n).state.carries = true) (h : FlitLate s n) :
    retryTimer s n = settleGroups (yielded (portFail s n) 2 4 (.link n) (.unit (17 + n / 2))) :=
  if_pos (by unfold FlitLate at h; simp [h, hc])

theorem retryTimer_early (h : ((s.port n).replay.any fun r => decide (r.2.1 + od s 0x4400 2 ≤ s.power.uptime)) = false) :
    retryTimer s n = s := if_neg (by simp [h])

end

/-- Settles O29: one clause for each outcome of a flit's checks and of the retry timer. -/
theorem flitsAreCheckedInOrder : Obligations.FlitsAreCheckedInOrder := by
  unfold Obligations.FlitsAreCheckedInOrder
  intro s n f hc
  have hflit := flitReceive_carries (f := f) hc
  have sound : f.intact = true → f.badWords = 0 → ¬ (!f.intact || decide (0 < f.badWords)) = true := fun hi hb => by simp [hi, hb]
  refine ⟨?damaged, ?gap, ?again, ?next, ?late, ?early⟩
  case damaged =>
    exact fun hbad => becomes_of_eq rfl (hflit.trans (if_pos (by simpa using hbad)))
  case gap =>
    intro hi hb hidle h0 hnear
    refine becomes_of_eq rfl (hflit.trans ((if_neg (sound hi hb)).trans ?_))
    refine (if_neg (by simp [hidle])).trans ((if_neg (Nat.ne_of_gt h0)).trans (if_neg (Nat.not_le.2 hnear)))
  case again =>
    intro hi hb hidle hfar
    have h0 : ¬ flitAhead s n f = 0 := fun h => by
      have : 32768 ≤ flitAhead s n f := hfar
      omega
    refine becomes_of_eq rfl (hflit.trans ((if_neg (sound hi hb)).trans ?_))
    exact (if_neg (by simp [hidle])).trans ((if_neg h0).trans (if_pos hfar))
  case next =>
    intro hi hb hidle h0 hnak hq
    refine becomes_of_eq rfl (hflit.trans ((if_neg (sound hi hb)).trans ?_))
    exact (if_neg (by simp [hidle])).trans ((if_pos h0).trans (flitControl_taken hc hnak hq))
  case late => exact fun h => becomes_of_eq rfl (retryTimer_late hc h)
  case early => exact fun h => becomes_of_eq rfl (retryTimer_early h)

end Sys2Proof.Machine

/-! ## Ports, floods and packets in transit (15 R388-R406, R420) -/

namespace Sys2Proof.Machine

/-! ### Training -/

section
variable {s : State} {n : Nat} {p : PeerIdent}

/-- The port trains and the topology wants it. -/
def Training (s : State) (n : Nat) : Prop := (s.port n).state = .training ∧ portWanted s n = true

/-- The peer is another module of this fabric. -/
def SameFabric (s : State) (p : PeerIdent) : Prop := p.fabricId.toNat = od s 0x4000 2 ∧ p.module ≠ moduleId s

/-- The peer is the one that the topology names, on the port that it names. -/
def ExpectedPeer (s : State) (n : Nat) (p : PeerIdent) : Prop :=
  s.fabric.kind = 5 ∨ (neighbour s (moduleId s) n = some p.module ∧ p.port = meets n)

/-- A port whose training ends at its expected peer, outside two-lane low power. -/
def portTrained (s : State) (n : Nat) (p : PeerIdent) : State :=
  changePort (countTraining s n (s.port n).commanded false) n fun t => { t with
    state := if lanesUp p.lanes = 0xFF then .up else .upNarrow, lanes := lanesUp p.lanes
    peer := p.module, peerPort := p.port, commanded := false }

/-- A port that met another peer than its topology names. -/
def portMiswired (s : State) (n : Nat) (p : PeerIdent) : State :=
  logHealth (s.modPort n fun t => { t with
    state := .miswired, lanes := lanesUp p.lanes, peer := p.module, peerPort := p.port, commanded := false }) 0x001C false
    [n, moduleId s, p.module, p.port, (neighbour s (moduleId s) n).getD 0xFFFF]

theorem Training.not_skipped (h : Training s n) : ¬ ((s.port n).state ≠ .training ∨ (!portWanted s n) = true) := by simp [h.1, h.2]

theorem trainingDone_noLanes (h : Training s n) (h0 : lanesUp p.lanes = 0) : trainingDone s n p = settleGroups (portDown s n false) :=
  (if_neg h.not_skipped).trans (if_pos h0)

theorem trainingDone_foreign (h : Training s n) (h0 : lanesUp p.lanes ≠ 0) (hid : p.fabricId.toNat ≠ od s 0x4000 2 ∨ p.module = moduleId s) :
    trainingDone s n p = s.modPort n fun t => { t with trainAt := s.power.uptime } :=
  (if_neg h.not_skipped).trans ((if_neg h0).trans (if_pos hid))

theorem SameFabric.not_foreign (h : SameFabric s p) : ¬ (p.fabricId.toNat ≠ od s 0x4000 2 ∨ p.module = moduleId s) := by
  rintro (hf | hm)
  · exact hf h.1
  · exact h.2 hm

theorem trainingDone_miswired (h : Training s n) (h0 : lanesUp p.lanes ≠ 0) (hid : SameFabric s p) (hkind : s.fabric.kind ≠ 5)
    (hpeer : neighbour s (moduleId s) n ≠ some p.module ∨ p.port ≠ meets n) : trainingDone s n p = portMiswired s n p :=
  (if_neg h.not_skipped).trans ((if_neg h0).trans ((if_neg hid.not_foreign).trans (if_pos ⟨hkind, hpeer⟩)))

theorem trainingDone_expected (h : Training s n) (h0 : lanesUp p.lanes ≠ 0) (hid : SameFabric s p) (hps : s.power.ps ≠ 4)
    (hpeer : ExpectedPeer s n p) :
    trainingDone s n p = settleGroups (serveEgress 64 (sendDirectory (portTrained s n p) n) n) := by
  have hwired : ¬ (s.fabric.kind ≠ 5 ∧ (neighbour s (moduleId s) n ≠ some p.module ∨ p.port ≠ meets n)) := by
    rintro ⟨hk, hwrong⟩
    rcases hpeer with h5 | ⟨hm, hp⟩
    · exact hk h5
    · exact hwrong.elim (· hm) (· hp)
  refine (if_neg h.not_skipped).trans ((if_neg h0).trans ((if_neg hid.not_foreign).trans ((if_neg hwired).trans ?_)))
  rw [decide_eq_false hps]
  rfl

end

/-! ### Light -/

section
variable {s : State} {n e : Nat}

/-- The port's receive signal is there. -/
def portLit (s : State) (n : Nat) : State := s.modPort n fun t => { t with signal := true }

theorem signalLost_there (h : (s.port n).signal = true) :
    signalLost s n = settleGroups (portDown (s.modPort n fun t => { t with signal := false }) n false) := if_neg (by simp [h])

theorem signalFound_trains (h : (s.port n).signal = false) (hdown : (s.port n).state = .down) (hw : portWanted (portLit s n) n = true) :
    signalFound s n = startTraining (portLit s n) n false := (if_neg (by simp [h])).trans (if_pos ⟨hdown, hw⟩)

theorem signalFound_stays (h : (s.port n).signal = false) (hno : (s.port n).state ≠ .down ∨ portWanted (portLit s n) n = false) :
    signalFound s n = portLit s n := by
  refine (if_neg (by simp [h])).trans (if_neg ?_)
  rintro ⟨hdown, hw⟩
  rcases hno with hstate | hunwanted
  · exact hstate hdown
  · exact absurd (hw.symm.trans hunwanted) (by decide)

theorem laserDark_late (h : (s.port n).signal = false) (hdown : (s.port n).state = .down) (hlit : (s.port n).lit = true)
    (hlate : (s.port n).dark0 + 1000000 < s.power.uptime) : laserDark s n = s.modPort n fun t => { t with lit := false } :=
  if_pos ⟨hdown, by simp [h], hlit, hlate⟩

/-- The emitter is below its limit. -/
def emitterBad (s : State) (e : Nat) : State := s.modFab fun f => { f with badEmitters := f.badEmitters ++ [e] }

/-- What a failover does once it knows the port. -/
def spareSwitched (s : State) (n : Nat) : State :=
  if s.fabric.badEmitters.contains (spareEmitter n) || s.fabric.ports.any (fun t => t.emitter == spareEmitter n) then s
  else
    let s := s.modPort n fun t => { t with emitter := spareEmitter n }
    if (s.port n).state = .down then s else settleGroups (startTraining s n false)

theorem emitterFailover_known (hnew : s.fabric.badEmitters.contains e = false)
    (hport : findFirst (fun k => (s.port k).emitter == e) [0, 1, 2, 3] = some n) :
    emitterFailover s e = spareSwitched (emitterBad s e) n := by
  have hbad : (if s.fabric.badEmitters.contains e then s.fabric.badEmitters else s.fabric.badEmitters ++ [e]) =
      s.fabric.badEmitters ++ [e] := if_neg (by rw [hnew]; decide)
  have hmod : (s.modFab fun f => { f with badEmitters := if f.badEmitters.contains e then f.badEmitters else f.badEmitters ++ [e] }) =
      emitterBad s e := congrArg (fun l => s.modFab fun f => { f with badEmitters := l }) hbad
  have hfind : findFirst (fun k => ((emitterBad s e).port k).emitter == e) [0, 1, 2, 3] = some n := hport
  unfold emitterFailover
  dsimp only
  rw [hmod, hfind]
  rfl

theorem spareSwitched_bad (h : s.fabric.badEmitters.contains (spareEmitter n) = true) : spareSwitched s n = s := if_pos (by rw [h]; rfl)

theorem spareSwitched_free (hgood : s.fabric.badEmitters.contains (spareEmitter n) = false)
    (hfree : (s.fabric.ports.any fun t => t.emitter == spareEmitter n) = false) (hup : (s.port n).state ≠ .down) :
    spareSwitched s n = settleGroups (startTraining (s.modPort n fun t => { t with emitter := spareEmitter n }) n false) := by
  refine (if_neg (by rw [hgood, hfree]; decide)).trans (if_neg ?_)
  rw [port_modPort_same (port_present hup)]
  exact hup

end

/-! ### Floods -/

section
variable {s : State} {m n number : Nat} {up : Bool}

/-- The highest number seen of another module's port. -/
def floodSeen (s : State) (key : Nat) : Nat := match kget s.fabric.links key with | some (_, k) => k | none => 0

/-- A link state that is kept, and the epoch it advances. -/
def linkKept (s : State) (key : Nat) (up : Bool) (number : Nat) : State :=
  bump (s.modFab fun f => { f with links := kset f.links key (up, number) }) 0x4000 8 1

theorem linkFlood_old (h : number ≤ floodSeen s (m * 4 + n)) : linkFlood s m n up number = s := if_pos (Or.inr h)

theorem linkFlood_new (hm : m ≠ moduleId s) (h : floodSeen s (m * 4 + n) < number) :
    linkFlood s m n up number = settleGroups (afterLinks (linkKept s (m * 4 + n) up number)) :=
  if_neg fun ho => ho.elim hm (Nat.not_le.2 h)

theorem failColls_none (test : Coll → Bool) (h : s.fabric.colls = []) : failColls s test = s := by
  unfold failColls
  rw [h]
  rfl

theorem settleGroups_none (h : s.fabric.groups = []) : settleGroups s = s := by
  unfold settleGroups
  rw [h]
  rfl

theorem afterLinks_none (hg : s.fabric.groups = []) (hc : s.fabric.colls = []) (hr : s.fabric.reqs = []) : afterLinks s = s := by
  unfold afterLinks
  simp only [failColls_none _ hc, hg, hr, List.filter_nil, List.map_nil, List.foldl_nil]

end

/-! ### Packets in transit -/

section
variable {s : State} {n port : Nat} {p : Packet} {d : Bool}

/-- The packet is another module's and comes in on a port that carries traffic. -/
def InTransit (s : State) (n : Nat) (p : Packet) : Prop := p.dest ≠ moduleId s ∧ (s.port n).state.carries = true

theorem InTransit.not_skipped (h : InTransit s n p) :
    ¬ (p.dest = moduleId s ∨ (!((s.port n).state.carries || ((s.port n).state == .miswired && p.tclass == 3))) = true) := by
  rintro (hd | hc)
  · exact h.1 hd
  · simp [h.2] at hc

theorem packetTransit_limit (h : InTransit s n p) (hl : od s 0x4000 6 ≤ p.hops) :
    packetTransit s n p = if p.tclass = 0 then respond (bump s 0x9074 3 1) p 0x6001 [] else bump s 0x9074 3 1 :=
  (if_neg h.not_skipped).trans (if_pos hl)

theorem packetTransit_goes (h : InTransit s n p) (hl : p.hops < od s 0x4000 6) (hroute : egressOf s p (some n) = some (port, d))
    (hup : (s.port port).state.carries = true) :
    packetTransit s n p = enqueue (bump s 0x9074 2 1) port { p with hops := p.hops + 1, dateline := d } := by
  refine (if_neg h.not_skipped).trans ((if_neg (Nat.not_le.2 hl)).trans ?_)
  rw [hroute]
  exact if_pos (by simp [hup])

theorem packetTransit_noRoute (h : InTransit s n p) (hl : p.hops < od s 0x4000 6) (hroute : egressOf s p (some n) = none)
    (hreq : p.tclass = 0) : packetTransit s n p = respond s p 0x6004 [] := by
  refine (if_neg h.not_skipped).trans ((if_neg (Nat.not_le.2 hl)).trans ?_)
  rw [hroute]
  exact if_pos hreq

end

/-! ### The clauses -/

/-- The clauses of a training that ends. -/
theorem portTrainingComplete_becomes (s : State) (n : Nat) (p : PeerIdent) (h : Training s n) :
    (lanesUp p.lanes = 0 → Becomes (.portTrainingComplete n p) s (settleGroups (portDown s n false))) ∧
    (lanesUp p.lanes ≠ 0 → (p.fabricId.toNat ≠ od s 0x4000 2 ∨ p.module = moduleId s) →
      Becomes (.portTrainingComplete n p) s (s.modPort n fun t => { t with trainAt := s.power.uptime })) ∧
    (lanesUp p.lanes ≠ 0 → p.fabricId.toNat = od s 0x4000 2 → p.module ≠ moduleId s → s.fabric.kind ≠ 5 →
      (neighbour s (moduleId s) n ≠ some p.module ∨ p.port ≠ meets n) → Becomes (.portTrainingComplete n p) s (portMiswired s n p)) ∧
    (lanesUp p.lanes ≠ 0 → p.fabricId.toNat = od s 0x4000 2 → p.module ≠ moduleId s → s.power.ps ≠ 4 → ExpectedPeer s n p →
      Becomes (.portTrainingComplete n p) s (settleGroups (serveEgress 64 (sendDirectory (portTrained s n p) n) n))) :=
  ⟨fun h0 => becomes_of_eq rfl (trainingDone_noLanes h h0),
   fun h0 hid => becomes_of_eq rfl (trainingDone_foreign h h0 hid),
   fun h0 hf hm hk hp => becomes_of_eq rfl (trainingDone_miswired h h0 ⟨hf, hm⟩ hk hp),
   fun h0 hf hm hps hp => becomes_of_eq rfl (trainingDone_expected h h0 ⟨hf, hm⟩ hps hp)⟩

/-- Settles O30: a port's events by its state, a flood by its number, a packet in transit by its hops and its route. -/
theorem portsAndPacketsAct : Obligations.PortsAndPacketsAct := by
  unfold Obligations.PortsAndPacketsAct
  refine ⟨fun s n => ⟨?failed, ?training, ?trained, ?lost, ?light, ?emitter, ?low⟩, fun s => ⟨?flood, ?transit⟩⟩
  case failed => exact fun hf hdue hw => becomes_of_eq rfl (if_pos ⟨hf, hdue, hw⟩)
  case training => exact fun ht hdue => becomes_of_eq rfl (if_pos ⟨ht, hdue⟩)
  case trained => exact fun p ht hw => portTrainingComplete_becomes s n p ⟨ht, hw⟩
  case lost => exact fun h => becomes_of_eq rfl (signalLost_there h)
  case light =>
    exact fun h => ⟨fun hd hw => becomes_of_eq rfl (signalFound_trains h hd hw), fun hno => becomes_of_eq rfl (signalFound_stays h hno),
      fun hd hlit hlate => becomes_of_eq rfl (laserDark_late h hd hlit hlate)⟩
  case emitter =>
    intro e hnew hport
    have hknown := emitterFailover_known hnew hport
    exact ⟨fun hbad => becomes_of_eq rfl (hknown.trans (spareSwitched_bad hbad)),
      fun hgood hfree hup _ => becomes_of_eq rfl (hknown.trans (spareSwitched_free hgood hfree hup))⟩
  case low => exact fun h => becomes_of_eq rfl (if_pos h)
  case flood =>
    intro m n up number hm
    refine ⟨fun hold => becomes_of_eq rfl (linkFlood_old hold), fun hnew hg hc hr => becomes_of_eq rfl ((linkFlood_new hm hnew).trans ?_)⟩
    have hfab := bump_fabric (s.modFab fun f => { f with links := kset f.links (m * 4 + n) (up, number) }) 0x4000 8 1
    have hgroups := (congrArg Fabric.groups hfab).trans hg
    exact (congrArg settleGroups (afterLinks_none hgroups ((congrArg Fabric.colls hfab).trans hc)
      ((congrArg Fabric.reqs hfab).trans hr))).trans (settleGroups_none hgroups)
  case transit =>
    intro n p hd hc
    exact ⟨fun hl h0 => becomes_of_eq rfl ((packetTransit_limit ⟨hd, hc⟩ hl).trans (if_pos h0)),
      fun hl h0 => becomes_of_eq rfl ((packetTransit_limit ⟨hd, hc⟩ hl).trans (if_neg h0)),
      fun port d hl hroute hup => becomes_of_eq rfl (packetTransit_goes ⟨hd, hc⟩ hl hroute hup),
      fun hl hroute h0 => becomes_of_eq rfl (packetTransit_noRoute ⟨hd, hc⟩ hl hroute h0)⟩

end Sys2Proof.Machine

/-! ## Group membership (15 R409-R413): a directory entry may open the route to its own keeper

An entry of the directory carries its members' pins (15 R410), and a pin is the route to its member. A keeper that cannot be reached
before DIRECTORY_EXCHANGE can therefore be reached once the entry is taken, and is asked for the current one. -/

namespace Sys2Proof.Machine

/-! ### The numbers of what is sent (15 R405) -/

theorem transmit_sentSeq (s : State) (n : Nat) (p : Packet) : (transmit s n p).fabric.sentSeq = s.fabric.sentSeq := by
  unfold transmit
  exact (congrArg Fabric.sentSeq (bump_fabric s (0x9070 + n) 6 (flitsOf p)) :)

theorem serveEgress_sentSeq (fuel : Nat) (s : State) (n : Nat) : (serveEgress fuel s n).fabric.sentSeq = s.fabric.sentSeq := by
  induction fuel generalizing s with
  | zero => rfl
  | succ fuel ih =>
    unfold serveEgress
    dsimp only
    split
    · rfl
    · next e _ => exact (ih _).trans (transmit_sentSeq ..)

/-- A packet of another class than REQ that has a route takes the next number of its stream, whether or not a port then carries it. -/
theorem sendPacket_numbers {s : State} {p : Packet} {order : Bool} (hroute : pickRoute s p.dest = some order)
    (hup : egressUp s p.dest = true) (hclass : p.tclass ≠ 0) :
    (sendPacket s p).2.fabric.sentSeq =
      kset s.fabric.sentSeq (p.dest * 4 + p.tclass) (kcount s.fabric.sentSeq (p.dest * 4 + p.tclass) + 1) := by
  have hclass' : (p.tclass == 0) = false := by simpa using hclass
  unfold sendPacket
  rw [hroute]
  dsimp only
  rw [hup, hclass']
  simp only [Bool.not_true, Bool.false_and, Bool.false_eq_true, if_false]
  split
  · rfl
  · exact serveEgress_sentSeq ..

/-- A question for the current entry goes in the MGT class. -/
theorem directoryAsk_numbers {s : State} {dest : Nat} {order : Bool} (hroute : pickRoute s dest = some order)
    (hup : egressUp s dest = true) (l : List Nat) :
    (sendMsg s dest .directoryAsk 0 0 l []).fabric.sentSeq =
      kset s.fabric.sentSeq (dest * 4 + 3) (kcount s.fabric.sentSeq (dest * 4 + 3) + 1) := by
  unfold sendMsg
  exact sendPacket_numbers hroute hup (Nat.succ_ne_zero 2)

/-! ### A keeper behind its own pin -/

/-- A module of a table-routed fabric (15 R400) whose table has no entry and whose port 0 is up. -/
def unrouted : State := { fabric := { kind := 5, ports := [{ state := .up }] } }

/-- The entry of a group of module 5, which pins the traffic to its keeper to port 0 (15 R410). -/
def pinnedEntry : GroupEntry := ⟨1, 5, 1, [(5, 0, some 0)]⟩

/-- The module once it has taken the entry. -/
def nowPinned : State := takeEntry unrouted pinnedEntry false

theorem unrouted_reaches : reaches unrouted 5 = false := by decide

theorem nowPinned_routes : pickRoute nowPinned 5 = some false ∧ egressUp nowPinned 5 = true := by decide

/-- The keeper is asked for the current entry, over the port that the entry pins. -/
theorem directoryExchange_asks :
    directoryExchange unrouted 0 [pinnedEntry] = sendMsg nowPinned 5 .directoryAsk 0 0 [1, 1] [] := by
  rfl

/-- Refutes O27: the clause of DIRECTORY_EXCHANGE says that nothing but the entry changes where the keeper cannot be reached before, but
the entry's own pin makes it reachable, and the question to it takes a number of the MGT stream. -/
theorem not_groupMembershipActs : ¬ Obligations.GroupMembershipActs := by
  unfold Obligations.GroupMembershipActs
  intro h
  obtain ⟨-, -, -, hdirectory, -⟩ := h unrouted 0 0
  obtain ⟨t, hexec, ht⟩ := hdirectory 0 pinnedEntry rfl rfl rfl (by decide) unrouted_reaches
  have hsaid : t.fabric.sentSeq = [] := congrArg (fun u : State => u.fabric.sentSeq) ht
  have hasks : done unrouted (sendMsg nowPinned 5 .directoryAsk 0 0 [1, 1] []) = .next t :=
    (congrArg (done unrouted) directoryExchange_asks).symm.trans hexec
  have hsent : t.fabric.sentSeq = kset [] (5 * 4 + 3) 1 := by
    injection hasks with hnext
    rw [← hnext]
    exact directoryAsk_numbers nowPinned_routes.1 nowPinned_routes.2 _
  exact absurd (hsaid.symm.trans hsent) (by decide)

end Sys2Proof.Machine
